-- ==== Sys2Proof/Word.lean ====
section
/-! DEFINITION. The words the spec counts in, and the type of sparse data keyed by a number. -/

namespace Sys2Proof

/-- A byte; multi-byte fields are little-endian lists of bytes (R3). -/
abbrev Byte := BitVec 8

/-- A 32-bit register word (R345). -/
abbrev Word32 := BitVec 32

/-- A 64-bit field of a descriptor, a record or a register pair. -/
abbrev Word64 := BitVec 64

/-- A 16-bit UNIT field (R53, Table 10-11a, Table 14-9). -/
abbrev UnitField := BitVec 16

/-- The 256 bytes of a Pocket line, an inbox entry or a parcel payload: byte `k` is bits `8k` to `8k+7` (R59, R73). -/
abbrev LineBits := BitVec 2048

/-- The 4,096 payload bytes of a tensor block or a Pocket page (R87). -/
abbrev PageBits := BitVec 32768

/-- A 32-byte Envelope (Table 5-1). -/
abbrev EnvBits := BitVec 256

/-- A 128-bit instruction word, table entry or Reel record. -/
abbrev Rec128 := BitVec 128

/-- Sparse data: keys strictly rising, no entry equal to the default its user names. -/
abbrev Sparse (α : Type) := List (Nat × α)

end Sys2Proof
end

