-- ==== Sys2Proof/Syntax.lean ====
section
/-! DEFINITION. The commands of the block, one constructor per row of spec/opcode_table.json, and the data that
their operands carry: what the outside world gives the step. -/

namespace Sys2Proof

/-- The PCIe link after training (HOST_LINK of Table 13-2), and the MSI-X vectors that the host has masked (R282). -/
structure LinkInfo where
  speed : BitVec 4
  width : BitVec 6
  flit : Bool
  atomics : Bool
  masked : BitVec 32
  deriving DecidableEq, Repr

/-- A link that has not trained. -/
def LinkInfo.down : LinkInfo where
  speed := 0
  width := 0
  flit := false
  atomics := false
  masked := 0

/-- What the host has set in configuration space: AtomicOp Requester Enable of Device Control 2 (Table 13-2), and the masked vectors
of the MSI-X table (R282). -/
structure LinkControl where
  atomics : Bool
  masked : BitVec 32
  deriving DecidableEq, Repr

/-- What has happened on the host's side of the link since the last command that carries it: the bytes of host memory that others have
written, what the host has set in configuration space, and how many reads of host memory by the part, other than of the rings and the
doorbell block, have ended in an error or a timeout and been repeated (Table 13-2). -/
structure HostSide where
  wrote : List (Nat × Byte)
  control : Option LinkControl
  failed : Nat
  deriving DecidableEq, Repr

/-- Nothing has happened on the host's side. -/
def HostSide.quiet : HostSide where
  wrote := []
  control := none
  failed := 0

/-- How the reads of a doorbell poll end (R280): whole, or with an error at the doorbell block or at the submission ring. -/
inductive PollRead where
  | whole | badBlock | badRing
  deriving DecidableEq, Repr

/-- A BAR0 read (R345): its offset and the bits it asks for. -/
structure BarRead where
  off : Nat
  width : Nat
  deriving DecidableEq, Repr

/-- The outcome of a known-answer kernel run (R210). -/
inductive KaOutcome where
  | pass
  | mismatch
  | late
  deriving DecidableEq, Repr

/-- The end of a Ballast operation (R247): its kernel, and how its result compares with the expected one. -/
structure BallastEnd where
  ka : BitVec 8
  result : KaOutcome
  deriving DecidableEq, Repr

/-- One BAR2 access (R295): a read of `len` bytes or a write of `bytes` at byte offset `off` of the window. -/
inductive Bar2Access where
  | read (off len : Nat)
  | write (off : Nat) (bytes : List Byte)
  deriving DecidableEq, Repr

/-- How the operation in flight stands when its deadline token has passed (R56): done, or done with result lines that the
datapath got wrong (line place in the result, bits flipped; empty in a fault-free part), or not done. -/
inductive OpEnd where
  | done (upsets : List (Nat × LineBits))
  | late
  deriving DecidableEq, Repr

/-- A frame as a port received it (R111): whether its last TAIL was not decoded in time (R128), SLOT_START (none when no
block with a decodable codeword came), the positions that MASK marks with their parcels (none when a position overlaps an
uncorrectable codeword, R121), the tail (none when uncorrectable), the arrival of SLOT_START less the own boundary in ps
(the measurement m of the chapter on the Bridle), and how many codewords the decoder corrected. A parcel is header bits
[255:0] and payload bits [2303:256] (R113). -/
structure Frame where
  late : Bool
  slotStart : Option EnvBits
  positions : List (Nat × Option (BitVec 2304))
  tail : Option (BitVec 992)
  phase : Int
  corrected : Nat
  deriving DecidableEq, Repr

/-- What a stack reports of a transfer it serves (R87, R104): whether it completed, bursts with an uncorrectable code,
symbols corrected. -/
structure MoveService where
  complete : Bool
  uncorrectable : Nat
  corrected : Nat
  deriving DecidableEq, Repr

/-- The identity exchange and the round-trip time with which TRAINING ends (R125), and the lanes that precode. -/
structure TrainInfo where
  serial : Word64
  port : BitVec 6
  slotId : BitVec 6
  bridle : BitVec 11
  rttPs : Nat
  precode : BitVec 4
  deriving DecidableEq, Repr

/-- The sensor readings of one 10 us interval (R22, R227, R228): input voltage in 10 mV and current in 10 mA of each regulator, and in
C the junctions of the 128 tile groups (west first), the two hubs and the three line dies, and the stack sensors. -/
structure Sensors where
  regs : List (Nat × Nat)
  groups : List Int
  hubs : List Int
  lines : List Int
  stackT : List Int
  deriving DecidableEq, Repr

/-- What a port measured in MEASURING (R126, R241): the wire latency in ps, and in mW the power of its quad and of its crosspoint with
all 10 positions full. -/
structure MeasureInfo where
  ps : Nat
  quadMw : Nat
  xpMw : Nat
  deriving DecidableEq, Repr

/-- The power figures that the field calibration gives a control period (R232, R241), in mW: compute static at T_max, compute dynamic
at Vent level 0, memory idle, memory active at N = 8. -/
structure PowerModel where
  staticMw : Nat
  dynMw : Nat
  memIdleMw : Nat
  memActiveMw : Nat
  deriving DecidableEq, Repr

/-- The commands. Each is whole and indivisible (95_what_each_step_holds.md); a tile command names the tile, and the word
it issues is the one at the tile's sequencer (R54). -/
inductive Instr where
  /-- VIN48_RISE (R33). VIN48 rises through the start threshold: a cold start begins, VR23 and LD0_SVC power up and SERVICE_BOOT starts. Operands: `mv` VIN48 in mV, `straps` the SLOT_ID straps, `bankA` bank A passes its checks when read, `bankB` bank B passes them. -/
  | vin48Rise (mv : Nat) (straps : BitVec 6) (bankA : Bool) (bankB : Bool)
  /-- SERVICE_BOOT_END (R33). SERVICE_BOOT completes, and the part enters HELD if PERST_N is low or RAILS if it is high. -/
  | serviceBootEnd
  /-- PERST_N_RISE (R35). PERST_N rises during HELD, and the part moves to RAILS, to reach READY within 370 ms. -/
  | perstNRise
  /-- PERST_N_FALL (R40). PERST_N falls and a fundamental reset begins: within 1 us the pacer halts, every port sends NOT_READY and the part returns to HELD. -/
  | perstNFall
  /-- RAILS_END (R33). The RAILS stage completes, and MEMORY_INIT begins. Operands: `link` the PCIe link as the host offers it. -/
  | railsEnd (link : LinkInfo)
  /-- MEMORY_INIT_END (R33). Stack training and scrub complete, and SELF_TEST begins. -/
  | memoryInitEnd
  /-- SELF_TEST_END (R33). SELF_TEST completes, the part becomes READY, ports stop sending NOT_READY and descriptors are accepted. Operands: `fails` units whose kernel failed, by index, with the kernel and the outcome. -/
  | selfTestEnd (fails : List (Nat × BitVec 8 × KaOutcome))
  /-- STAGE_OVERRUN (R33). A start-up stage exceeds its maximum duration, and the part stays in it, sets STAGE_OVERRUN and posts a Failure Signature Record. -/
  | stageOverrun
  /-- HOT_RESET (R37). A PCIe hot reset, link down or function level reset resets the part as Table 3-2 states and keeps memory. -/
  | hotReset
  /-- SUPPLY_STOP (R21). VIN48 stays outside the supply-stop thresholds for 50 us, and the part stops with cause SUPPLY_STOP. Operands: `mv` VIN48 in mV. -/
  | supplyStop (mv : Nat)
  /-- POWER_LOSS (R21). VIN48 falls below the power-loss threshold, every regulator turns off and memory contents are lost. Operands: `mv` VIN48 in mV. -/
  | powerLoss (mv : Nat)
  /-- REGULATOR_FAULT (R23). A regulator detects an output overcurrent or undervoltage, and the package stops with SUPPLY_STOP and a record naming the regulator. Operands: `r` regulator 0 to 23. -/
  | regulatorFault (r : Nat)
  /-- COOL_STOP (R27). COOL_FLOW_N has been low for 2 ms without a break, and the part stops with cause COOL_STOP. -/
  | coolStop
  /-- THERM_STOP (R28). A junction sensor reads 105 C, the part stops with cause THERM_STOP and THERM_TRIP_N goes low. Operands: `t` the junction reading, C. -/
  | thermStop (t : Int)
  /-- CLOCK_STOP (R24). LREF0 is absent for 1 us, the pacer halts and the part stops with cause CLOCK_STOP. -/
  | clockStop
  /-- LREF_LINE_LOSS (R24). LREF1 or LREF2 is absent for 1 us, and every port of that line die leaves the trained state. Operands: `n` line die 1 or 2. -/
  | lrefLineLoss (n : Nat)
  /-- REF10M_LOSS (R169). REF10M is absent for 1 us: the time base holds, VALID and STEP_USED clear, any slew is dropped and the outputs stop low. -/
  | ref10mLoss
  /-- REF10M_RETURN (R169). REF10M returns, REF_LOST clears, TB_REF_RESTORED is posted and the time base counts on from the held value. -/
  | ref10mReturn
  /-- TIME_CYCLE (R157). Each TIME cycle adds 1 ns plus the rate and slew terms to the time base and carries into the seconds. -/
  | timeCycle
  /-- TB_WRAP (R158). The seconds pass 2^48 - 1 and return to 0, VALID clears and WRAPPED is set. -/
  | tbWrap
  /-- TOUT_LEADING_EDGE (R170). The time base reaches an armed output's leading edge time, and the output starts a pulse. Operands: `n` output. -/
  | toutLeadingEdge (n : Nat)
  /-- TOUT_TRAILING_EDGE (R170). The time base reaches a pulse's trailing edge, the output returns to idle and a one-shot is unarmed. Operands: `n` output. -/
  | toutTrailingEdge (n : Nat)
  /-- CAPTURE_EDGE (R175). A selected edge on TCAP0, TCAP1 or PPS_IN queues a capture entry, or is dropped on overflow. Operands: `c` channel: 0 TCAP0, 1 TCAP1, 2 PPS_IN, `rising` a rising edge. -/
  | captureEdge (c : Nat) (rising : Bool)
  /-- TB_MODE_COMMIT (R166). A commit of TB_MODE sets the correction mode and slew bound, or is refused. Operands: `v` the word written. -/
  | tbModeCommit (v : Word32)
  /-- TB_STEP_COMMIT (R163). A commit of TB_STEP requests a step of the time base by a signed offset, checked against mode and range. Operands: `v` the word written. -/
  | tbStepCommit (v : Word32)
  /-- TB_RATE_COMMIT (R167). A commit of TB_RATE sets the rate word, or is refused as OUT_OF_RANGE. Operands: `v` the word written. -/
  | tbRateCommit (v : Word32)
  /-- TB_SLEW_COMMIT (R168). A commit of TB_SLEW replaces the remaining slew offset in bounded-slew mode, or is refused. Operands: `v` the word written. -/
  | tbSlewCommit (v : Word32)
  /-- TB_CIVIL_COMMIT (R177). A commit of TB_CIVIL sets the civil view offset. Operands: `v` the word written. -/
  | tbCivilCommit (v : Word32)
  /-- TB_CIVIL_SET_COMMIT (R179). A commit of TB_CIVIL_SET requests a step to a given civil date and time, checked for INVALID_DATE and range. Operands: `v` the word written. -/
  | tbCivilSetCommit (v : Word32)
  /-- TOUT_COMMIT (R170). A commit of TOUTn settings arms, re-arms or unarms a time output, or is refused. Operands: `n` output, `v` the word written. -/
  | toutCommit (n : Nat) (v : Word32)
  /-- CAP_POP (R175). A write of CAPc_POP.POP removes the head capture entry. Operands: `c` channel, `v` the word written. -/
  | capPop (c : Nat) (v : Word32)
  /-- TB_NOW_SEC_LO_READ (R159). A read of TB_NOW_SEC_LO latches the time base and the civil view of one TIME cycle. -/
  | tbNowSecLoRead
  /-- BRIDLE_COMMIT (R152). A commit of the BRIDLE block takes the staged identity, root, seed and mark into effect, or is refused while a Reel is loaded. Operands: `v` the word written. -/
  | bridleCommit (v : Word32)
  /-- BRIDLE_COUNT_LO_READ (R154). A read of BRIDLE_COUNT_LO latches the high half of the count. -/
  | bridleCountLoRead
  /-- DET_INPUTS_HASHED_READ (R269). A read of DET_INPUTS_HASHED latches the inputs digest that belongs to that count. -/
  | detInputsHashedRead
  /-- LATCHING_LO_READ (R346). A read of the LO half of another latching 64-bit field latches its HI half. Operands: `r` the read, of any width and register of BAR0 (R345). -/
  | latchingLoRead (r : BarRead)
  /-- SEC_COMMIT (R226). A commit of SEC_COMMIT applies the thresholds and test intervals, or is refused. Operands: `v` the word written. -/
  | secCommit (v : Word32)
  /-- PWR_COMMIT (R253). A commit of PWR_COMMIT applies the cap, window, ramp, order and preferences, or is refused. Operands: `v` the word written. -/
  | pwrCommit (v : Word32)
  /-- HOST_COMMIT (R274). A commit of HOST_COMMIT sets the ring bases, sizes, poll bounds and enable, or is refused. Operands: `v` the word written. -/
  | hostCommit (v : Word32)
  /-- FAB_RETRAIN (R131). A write of FAB_RETRAIN requests full training of a port, which waits while a loaded Reel uses the port. Operands: `hi` the HI register, `v` the word written. -/
  | fabRetrain (hi : Bool) (v : Word32)
  /-- REGISTER_WRITE (R4). A BAR0 write to a register without behaviour of its own acts as its type states, and a narrow or unaligned write is dropped. Operands: `off` BAR0 offset, `width` access width in bits, `v` the value written. -/
  | registerWrite (off : Nat) (width : Nat) (v : Word64)
  /-- BAR2_ACCESS (R295). A BAR2 read or write is served through the panel backing or dropped according to the panel state. Operands: `a` the access. -/
  | bar2Access (a : Bar2Access)
  /-- BAR2_RESIZE (R272). A Resizable BAR write changes the BAR2 size only while every panel is FREE. Operands: `panels` the new size in panels of 64 KiB. -/
  | bar2Resize (panels : Nat)
  /-- SLOT_BOUNDARY (R134). At each slot boundary the Bridle count rises by 1 and the slot's frames, tags and step actions start. -/
  | slotBoundary
  /-- SYNCED_ENTRY (R140). After 1,024 consecutive quiet slots a follower enters SYNCED. -/
  | syncedEntry
  /-- NOP (R54). The NOP instruction issues and does nothing for one token. Operands: `u` the tile, R53. -/
  | nop (u : Nat)
  /-- EWAIT (R74). EWAIT subtracts its count from an event input, or raises STARVED when the input is short. Operands: `u` the tile, R53. -/
  | ewait (u : Nat)
  /-- ESIG (R73). ESIG signals an event input of a tile of the same package. Operands: `u` the tile, R53. -/
  | esig (u : Nat)
  /-- RDFLG (R68). RDFLG writes the flag word to a line and clears the flags. Operands: `u` the tile, R53. -/
  | rdflg (u : Nat)
  /-- EXIT_IF (R63). EXIT_IF tests an element and, when true, stops issue until the step's C word. Operands: `u` the tile, R53. -/
  | exitIf (u : Nat)
  /-- RECV (R77). RECV copies an inbox entry to a line with its PDUE tag and frees the entry at its deadline. Operands: `u` the tile, R53. -/
  | recv (u : Nat)
  /-- SEND (R82). SEND places a parcel for a route in the outbox at its deadline. Operands: `u` the tile, R53. -/
  | send (u : Nat)
  /-- BLD (R100). BLD requests a block load from a stack into a Pocket page. Operands: `u` the tile, R53. -/
  | bld (u : Nat)
  /-- BST (R93). BST builds the Envelope of a page and requests its store to the uncommitted side of a paired block. Operands: `u` the tile, R53. -/
  | bst (u : Nat)
  /-- BWR (R93). BWR checks a page's residues and hands it to the window stage. Operands: `u` the tile, R53. -/
  | bwr (u : Nat)
  /-- GACC (R300). GACC hands a page to the window stage for arrival-order accumulation into a window block. Operands: `u` the tile, R53. -/
  | gacc (u : Nat)
  /-- GTREE (R301). GTREE hands a page to the window stage as one leaf of a fixed-tree accumulation. Operands: `u` the tile, R53. -/
  | gtree (u : Nat)
  /-- MVD (R66). MVD computes an FP64 matrix-vector product into y. Operands: `u` the tile, R53. -/
  | mvd (u : Nat)
  /-- MVS (R66). MVS computes an FP32 matrix-vector product into y. Operands: `u` the tile, R53. -/
  | mvs (u : Nat)
  /-- MMH (R66). MMH computes a BF16 matrix product into FP32. Operands: `u` the tile, R53. -/
  | mmh (u : Nat)
  /-- MMQ (R66). MMQ computes an FP8 matrix product into FP32. Operands: `u` the tile, R53. -/
  | mmq (u : Nat)
  /-- MMI (R66). MMI computes an INT8 matrix product into saturating INT32. Operands: `u` the tile, R53. -/
  | mmi (u : Nat)
  /-- VFMA (R353). VFMA computes a x b + c element by element on one page. Operands: `u` the tile, R53. -/
  | vfma (u : Nat)
  /-- VADD (R353). VADD adds two pages element by element. Operands: `u` the tile, R53. -/
  | vadd (u : Nat)
  /-- VMUL (R353). VMUL multiplies two pages element by element. Operands: `u` the tile, R53. -/
  | vmul (u : Nat)
  /-- VMAX (R353). VMAX takes the element-wise maximum of two pages. Operands: `u` the tile, R53. -/
  | vmax (u : Nat)
  /-- VMIN (R353). VMIN takes the element-wise minimum of two pages. Operands: `u` the tile, R53. -/
  | vmin (u : Nat)
  /-- VCVT (R67). VCVT converts a page between formats under RND and SAT. Operands: `u` the tile, R53. -/
  | vcvt (u : Nat)
  /-- VRED (R353). VRED sums a page in a fixed binary tree into element 0 of a line. Operands: `u` the tile, R53. -/
  | vred (u : Nat)
  /-- VCPY (R92). VCPY copies a page with its side residues. Operands: `u` the tile, R53. -/
  | vcpy (u : Nat)
  /-- OP_DEADLINE (R56). An operation's deadline token passes, and the sequencer checks that the operation has completed. Operands: `u` the tile, `res` how the operation stands. -/
  | opDeadline (u : Nat) (res : OpEnd)
  /-- RESIDUE_CHECK_COMPLETE (R81). A checked operation's residue and parity checks complete at the end of its completion slot + 2, and CDUE clears. Operands: `u` the tile, `parityBad` an exponent parity check failed. -/
  | residueCheckComplete (u : Nat) (parityBad : Bool)
  /-- SHADOW_COMPARE (R202). The group comparator compares a primary and partner result, and raises SHADOW_MISMATCH on a difference. Operands: `g` tile group, east die from 64, `i` shadow entry. -/
  | shadowCompare (g : Nat) (i : Nat)
  /-- CROSSPOINT_GATHER (R116). In tokens 48 to 63 the crosspoint gathers the next slot's departures from outboxes into port staging. Operands: `n` line die. -/
  | crosspointGather (n : Nat)
  /-- FRAME_DELIVERY (R120). At its delivery slot a received frame is compared with the receive entries and its positions and tail are delivered. Operands: `p` port, `f` the frame as received. -/
  | frameDelivery (p : Nat) (f : Frame)
  /-- HAZARD_CHECK (R319). In debug mode, at token 63 of each slot, the detector compares each tile's state with the annex and raises a hazard fault on a difference. -/
  | hazardCheck
  /-- STEP_SEAL (R190). At the end of the commit-point slot a package that holds no notice seals the step and flips hold lines and selectors. -/
  | stepSeal
  /-- STEP_FINAL (R190). At C + 2D + 8 a sealed step becomes final: the window stage releases, counters confirm and digests may read. -/
  | stepFinal
  /-- REWIND (R189). At a held notice's APPLY_AT every package rewinds, unsealing if needed, and starts the next attempt of the step. -/
  | rewind
  /-- JOB_FAULT_APPLY (R355). At a fault notice's or final notice's APPLY_AT every package ends the job in a fault and reports the same location. -/
  | jobFaultApply
  /-- LAUNCH_FIRE (R150). An armed launch fires at count S, and step 1, slot 0 begins. -/
  | launchFire
  /-- BLOCK_MOVE_SERVICE (R100). A stack serves a block transfer in its service slot. Operands: `u` the tile whose request it is, `r` what the stack reports. -/
  | blockMoveService (u : Nat) (r : MoveService)
  /-- BLOCK_MOVE_RETIRE (R100). A block move retires at the end of its retire slot: a BLD checks and writes its page, and the request leaves the mover. Operands: `u` the tile. -/
  | blockMoveRetire (u : Nat)
  /-- STACK_LOST (R104). A populated stack leaves its trained state during a job, and the hub raises STACK_LOST. Operands: `k` stack. -/
  | stackLost (k : Nat)
  /-- FAR_FILL (R105). In a far-fill slot the prefetcher writes an arrived far block into its cache block and the engine hashes a first-filled input. Operands: `i` FAR_FILL record. -/
  | farFill (i : Nat)
  /-- FAR_BLOCK_ARRIVAL (R106). A far block fetched from the window arrives and is held in the prefetcher. Operands: `home` linear window slot of the home, `host` what has happened on the host's side since. -/
  | farBlockArrival (home : Nat) (host : HostSide)
  /-- GACC_LOCK_ATTEMPT (R300). A GACC contribution tries the slot's lock by CompareAndSwap and, once held, adds into the target block. Operands: `i` place among the pending additions, `adderBad` the adder residue check fails, `host` what has happened on the host's side since. -/
  | gaccLockAttempt (i : Nat) (adderBad : Bool) (host : HostSide)
  /-- GACC_LOCK_TIMEOUT (R302). A GACC lock is not won within 10 ms, and the write is abandoned. Operands: `i` place among the pending additions. -/
  | gaccLockTimeout (i : Nat)
  /-- GTREE_POLL (R301). Every 1 us the tree engine reads the leaf Envelopes and, when all are present, writes the tree sum. Operands: `i` place in the tree engine, `host` what has happened on the host's side since. -/
  | gtreePoll (i : Nat) (host : HostSide)
  /-- GTREE_TIMEOUT (R302). A pending tree not complete within 100 ms of release is abandoned. Operands: `i` place in the tree engine. -/
  | gtreeTimeout (i : Nat)
  /-- PANEL_MOVE_DONE (R292). The last pending write to a MOVING panel ends, the panel becomes HOST and the PANEL_TAKE record is written. Operands: `i` place among the waiting takes, `us` microseconds spent MOVING. -/
  | panelMoveDone (i : Nat) (us : Nat)
  /-- JOB_COMPLETE (R303). The last step is final and every released block is written or abandoned, and the job-end record is written. -/
  | jobComplete
  /-- COUNT_ADOPT (R141). A package in ACQUIRING adopts its parent's count and Vent level and disarms any armed launch. Operands: `c` count of the parent SLOT_START that arrived. -/
  | countAdopt (c : Nat)
  /-- ROOT_SEED_LOAD (R141). An UNSYNCED root that finds no synced neighbour loads BRIDLE_SEED and becomes SYNCED. -/
  | rootSeedLoad
  /-- PARENT_LOST (R143). The parent port leaves MEASURING or TRAINED, and the follower picks a new parent or enters HOLDOVER. -/
  | parentLost
  /-- HOLDOVER_TIMEOUT (R143). HOLDOVER lasts 1 ms during a job. -/
  | holdoverTimeout
  /-- BRIDLE_MARK_FIRE (R153). The count equals a committed mark, and the part captures the time base and posts BRIDLE_MARK. -/
  | bridleMarkFire
  /-- TRAINING_START (R112). A port that sends WAKE and receives WAKE enters TRAINING. Operands: `p` port. -/
  | trainingStart (p : Nat)
  /-- TRAINING_DONE (R125). Training ends with the identity exchange and round-trip time, and the port enters MEASURING. Operands: `p` port, `info` the identity exchange. -/
  | trainingDone (p : Nat) (info : TrainInfo)
  /-- TRAINING_TIMEOUT (R125). Training does not end within 250 ms, and the port enters FAILED. Operands: `p` port. -/
  | trainingTimeout (p : Nat)
  /-- TRAINING_RETRY (R125). One second after FAILED the port sends WAKE and tries again. Operands: `p` port. -/
  | trainingRetry (p : Nat)
  /-- MEASURING_DONE (R126). After 4,096 measured frames the port sets W and its measured class and enters TRAINED. Operands: `p` port, `x` W and the power measured. -/
  | measuringDone (p : Nat) (x : MeasureInfo)
  /-- LANE_LOCK_LOSS (R130). A lane loses lock, or 8 codewords in 1 us are uncorrectable, and a trained port enters RELOCK or trains in full. Operands: `p` port. -/
  | laneLockLoss (p : Nat)
  /-- RELOCK_TIMEOUT (R130). Lock does not return within 2 us of entering RELOCK. Operands: `p` port. -/
  | relockTimeout (p : Nat)
  /-- RELOCK_DONE (R130). Lock returns within 2 us, and the port resumes its frames and starts measuring. Operands: `p` port. -/
  | relockDone (p : Nat)
  /-- RELOCK_MEASURE_DONE (R130). After 256 frames the new W either fits the class and the port returns to TRAINED, or LATENCY_EXCEEDED is raised. Operands: `p` port, `ps` the new W in ps. -/
  | relockMeasureDone (p : Nat) (ps : Nat)
  /-- FAR_NOT_READY (R112). A port detects the NOT_READY pattern from its far end. Operands: `p` port. -/
  | farNotReady (p : Nat)
  /-- FAR_STOPPED (R112). A port receives STOPPED blocks from its far end. Operands: `p` port. -/
  | farStopped (p : Nat)
  /-- SIGNAL_LOSS (R112). A port receives no signal for 1 us and reports ABSENT. Operands: `p` port. -/
  | signalLoss (p : Nat)
  /-- POWER_SAMPLE (R227). Every 10 us the part forms a package power sample and accumulates energy. Operands: `x` the 10 us sensor readings. -/
  | powerSample (x : Sensors)
  /-- CONTROL_PERIOD (R232). Every 1 ms a job package computes its Vent request and allowed raise from preference, cap and temperature. Operands: `pm` the figures of the field calibration. -/
  | controlPeriod (pm : PowerModel)
  /-- VENT_DECISION (R234). At the end of its period the leader decides the next Vent level with apply-at c + 64. -/
  | ventDecision
  /-- VENT_APPLY (R148). At a decision's apply-at count the new Vent level sets the slot length and is recorded in the Vent history. -/
  | ventApply
  /-- CLASS_RAIL_MOVE (R238). At a phase boundary that changes class, the rails move at 10 mV/us at the times Table 11-2 gives. Operands: `cls` the new class. -/
  | classRailMove (cls : Nat)
  /-- BALLAST_ISSUE (R246). The Ballast issuer issues a known-answer operation to an idle engine when it fits before the next Reel word. Operands: `u` the tile, `ka` the kernel, `token` the token of the present slot at which it issues. -/
  | ballastIssue (u : Nat) (ka : BitVec 8) (token : Nat)
  /-- BALLAST_RESULT (R247). A Ballast result is compared with its expected result and counts as a known-answer run. Operands: `u` the tile, `r` the kernel and its comparison. -/
  | ballastResult (u : Nat) (r : BallastEnd)
  /-- SCORE_HALVING (R207). At each multiple of SCORE_HALF_H hours of uptime every score is halved. -/
  | scoreHalving
  /-- TEST_OVERDUE (R218). A unit's due time has passed by 12 h without a stress test, and SEC_OVERDUE and TEST_OVERDUE follow. Operands: `u` unit index. -/
  | testOverdue (u : Nat)
  /-- AUTO_STRESS_TEST (R216). With no Reel loaded and TEST_AUTO set, the part starts a stress test on the most overdue unit. -/
  | autoStressTest
  /-- WINDOW_TEST (R216). In a declared test window the part runs due tests on units of the set. Operands: `u` unit index. -/
  | windowTest (u : Nat)
  /-- STRESS_HEAT_TIMEOUT (R214). A die has not reached 85 C within 200 ms, and the profile runs as STRESS_PARTIAL. -/
  | stressHeatTimeout
  /-- KNOWN_ANSWER_DONE (R210). A known-answer kernel run ends, and it passes or fails as KA_MISMATCH or KA_LATE. Operands: `u` unit index, `ka` the kernel, `prof` the profile, `r` the outcome. -/
  | knownAnswerDone (u : Nat) (ka : BitVec 8) (prof : Nat) (r : KaOutcome)
  /-- STRESS_TEST_DONE (R213). A stress test ends, LAST_TEST is set, history is written and TEST_DONE is posted. -/
  | stressTestDone
  /-- DOORBELL_POLL (R277). Each poll interval the part reads the host doorbell line, fetches new descriptors and writes due records. Operands: `host` what has happened on the host's side since, `read` how the part's reads end. -/
  | doorbellPoll (host : HostSide) (read : PollRead)
  /-- NOP_DESCRIPTOR (R284). The NOP descriptor completes with OK. Operands: `d` the descriptor. -/
  | nopDescriptor (d : BitVec 512)
  /-- LOAD (R310). LOAD checks a Reel in the order of Table 14-5, writes its blocks and tables, computes digests and completes. Operands: `d` the descriptor. -/
  | load (d : BitVec 512)
  /-- PATCH (R313). PATCH writes relocation slot values and recomputes their fixups. Operands: `d` the descriptor. -/
  | patch (d : BitVec 512)
  /-- UNLOAD (R284). UNLOAD removes the loaded Reel. Operands: `d` the descriptor. -/
  | unload (d : BitVec 512)
  /-- WINDOW_MAP (R292). WINDOW_MAP ties FREE panels to host pages with a format, or unmaps HOST panels. Operands: `d` the descriptor. -/
  | windowMap (d : BitVec 512)
  /-- PANEL_GIVE (R292). PANEL_GIVE hands HOST panels to the part as DEVICE. Operands: `d` the descriptor. -/
  | panelGive (d : BitVec 512)
  /-- PANEL_TAKE (R292). PANEL_TAKE returns DEVICE panels to the host, or leaves them MOVING until released blocks are written. Operands: `d` the descriptor. -/
  | panelTake (d : BitVec 512)
  /-- LAUNCH_AT (R149). LAUNCH_AT arms a launch at count S, or is refused. Operands: `d` the descriptor. -/
  | launchAt (d : BitVec 512)
  /-- CANCEL (R150). CANCEL disarms an armed launch or ends a running job with JOB_CANCELLED. Operands: `d` the descriptor. -/
  | cancel (d : BitVec 512)
  /-- TEST (R216). TEST runs a built-in or host kernel, or a stress test, on a unit. Operands: `d` the descriptor. -/
  | test (d : BitVec 512)
  /-- STORE_SETTINGS (R49). The STORE_SETTINGS descriptor hands a store of the volatile settings to the store engine. Operands: `d` the descriptor. -/
  | storeSettings (d : BitVec 512)
  /-- STORE_START (R50). A waiting store request starts when the running store completes. -/
  | storeStart
  /-- STORE_COMPLETE (R49). A store's write and read-back end, the bank becomes active or STORE_FAILED results, and its record is sent. Operands: `good` the read-back checks pass. -/
  | storeComplete (good : Bool)
  /-- CLEAR (R29). CLEAR ends a stop when no cause remains, then powers the rails and runs SELF_TEST. Operands: `d` the descriptor. -/
  | clear (d : BitVec 512)
  /-- SET_ENDPOINT_ID (R333). The MCTP control command Set Endpoint ID assigns the endpoint ID. Operands: `eid` the endpoint ID. -/
  | setEndpointId (eid : BitVec 8)
  /-- GET_ENDPOINT_ID (R333). The MCTP control command Get Endpoint ID returns the endpoint ID. -/
  | getEndpointId
  /-- GET_MCTP_VERSION_SUPPORT (R333). The MCTP control command Get MCTP Version Support returns supported versions. Operands: `t` the message type. -/
  | getMctpVersionSupport (t : BitVec 8)
  /-- GET_MESSAGE_TYPE_SUPPORT (R333). The MCTP control command Get Message Type Support returns supported message types. -/
  | getMessageTypeSupport
  /-- GET_VENDOR_DEFINED_MESSAGE_SUPPORT (R333). The MCTP control command Get Vendor Defined Message Support returns the vendor message support. -/
  | getVendorDefinedMessageSupport
  /-- GET_UNITS (R335). GET_UNITS returns unit state table entries. Operands: `ins` INSTANCE, `first` FIRST, `count` COUNT. -/
  | getUnits (ins : BitVec 8) (first : BitVec 16) (count : BitVec 16)
  /-- FENCE (R328). FENCE sets a unit FENCED, at once or held until the next job boundary. Operands: `ins` INSTANCE, `unit` UNIT, `reason` REASON. -/
  | fence (ins : BitVec 8) (unit : UnitField) (reason : BitVec 8)
  /-- FENCE_NOW (R329). FENCE_NOW fences a unit and faults a job that uses it with FENCED_NOW. Operands: `ins` INSTANCE, `unit` UNIT, `reason` REASON. -/
  | fenceNow (ins : BitVec 8) (unit : UnitField) (reason : BitVec 8)
  /-- SET_OFF (R331). SET_OFF sets a unit OFF, held as fenced until the job boundary if in use. Operands: `ins` INSTANCE, `unit` UNIT, `reason` REASON. -/
  | setOff (ins : BitVec 8) (unit : UnitField) (reason : BitVec 8)
  /-- RESTORE (R331). RESTORE returns a FENCED or OFF unit to WATCH. Operands: `ins` INSTANCE, `unit` UNIT. -/
  | restore (ins : BitVec 8) (unit : UnitField)
  /-- GET_QLIST (R332). GET_QLIST returns quarantine list entries. Operands: `ins` INSTANCE, `first` FIRST, `count` COUNT. -/
  | getQlist (ins : BitVec 8) (first : BitVec 16) (count : BitVec 16)
  /-- SET_CAP_LIMITS (R47). SET_CAP_LIMITS sets CAP_MIN and CAP_MAX together, or is refused as OUT_OF_RANGE. Operands: `ins` INSTANCE, `lo` CAP_MIN, `hi` CAP_MAX. -/
  | setCapLimits (ins : BitVec 8) (lo : BitVec 16) (hi : BitVec 16)
  /-- MGMT_STORE_SETTINGS (R49). The management STORE_SETTINGS command requests a store and answers when it completes. Operands: `ins` INSTANCE. -/
  | mgmtStoreSettings (ins : BitVec 8)
  /-- READ_UNIT (R339). READ_UNIT returns a unit's latched SEC entry. Operands: `ins` INSTANCE, `unit` UNIT. -/
  | readUnit (ins : BitVec 8) (unit : UnitField)
  /-- READ_TOTALS (R339). READ_TOTALS returns the package totals and REPLAY_COUNT. Operands: `ins` INSTANCE. -/
  | readTotals (ins : BitVec 8)
  /-- READ_FSR (R221). READ_FSR returns part of a held Failure Signature Record. Operands: `ins` INSTANCE, `seq` SEQ, `off` OFFSET. -/
  | readFsr (ins : BitVec 8) (seq : Word32) (off : BitVec 16)
  /-- READ_HISTORY (R335). READ_HISTORY returns test history or settings log entries. Operands: `ins` INSTANCE, `kind` 0 test history, 1 settings log, `first` FIRST, `count` COUNT. -/
  | readHistory (ins : BitVec 8) (kind : BitVec 8) (first : BitVec 16) (count : BitVec 8)
  /-- DEBUG_READ (R341). DEBUG_READ returns a value with its tag byte from a Pocket line, entry, paired block or staged block. Operands: `ins` INSTANCE, `kind` KIND, `unit` UNIT, `idx` INDEX, `chunk` CHUNK. -/
  | debugRead (ins : BitVec 8) (kind : BitVec 8) (unit : UnitField) (idx : Word32) (chunk : BitVec 8)
  /-- GET_ALERTS (R340). GET_ALERTS returns and removes the oldest alert entries. Operands: `ins` INSTANCE, `count` COUNT. -/
  | getAlerts (ins : BitVec 8) (count : BitVec 8)
  /-- GET_STATUS (R335). GET_STATUS returns the package status registers and the latched time base. Operands: `ins` INSTANCE. -/
  | getStatus (ins : BitVec 8)
  /-- GET_TID (R337). The PLDM command GetTID returns the terminus ID. -/
  | getTid
  /-- SET_TID (R337). The PLDM command SetTID sets the terminus ID. Operands: `tid` the terminus ID. -/
  | setTid (tid : BitVec 8)
  /-- GET_PLDM_VERSION (R337). The PLDM command GetPLDMVersion returns a supported version. Operands: `t` the PLDM type. -/
  | getPldmVersion (t : BitVec 8)
  /-- GET_PLDM_TYPES (R337). The PLDM command GetPLDMTypes returns the supported types. -/
  | getPldmTypes
  /-- GET_PLDM_COMMANDS (R337). The PLDM command GetPLDMCommands returns the supported commands. Operands: `t` the PLDM type. -/
  | getPldmCommands (t : BitVec 8)
  /-- GET_PDR_REPOSITORY_INFO (R337). The PLDM command GetPDRRepositoryInfo describes the fixed PDR repository. -/
  | getPdrRepositoryInfo
  /-- GET_PDR (R338). The PLDM command GetPDR returns a PDR of the repository. Operands: `handle` the record handle. -/
  | getPdr (handle : Word32)
  /-- GET_SENSOR_READING (R338). The PLDM command GetSensorReading returns a numeric sensor reading. Operands: `id` the sensor. -/
  | getSensorReading (id : BitVec 16)
  /-- GET_STATE_SENSOR_READINGS (R338). The PLDM command GetStateSensorReadings returns state sensor readings. Operands: `id` the sensor. -/
  | getStateSensorReadings (id : BitVec 16)
  /-- PDR_SENSOR_REFRESH (R338). Every 1 ms the PLDM sensor readings refresh. -/
  | pdrSensorRefresh
  /-- BYPASS (R342). The TAP instruction BYPASS selects the bypass register. -/
  | bypass
  /-- IDCODE (R342). The TAP instruction IDCODE selects the IDCODE register. -/
  | idcode
  /-- SAMPLE_PRELOAD (R342). The TAP instruction SAMPLE/PRELOAD samples and preloads the boundary scan register. Operands: `lands` land levels sampled, `preload` values shifted in. -/
  | samplePreload (lands : List Bool) (preload : List Bool)
  /-- EXTEST (R342). The TAP instruction EXTEST drives the lands in OFF and HELD only, and otherwise acts as BYPASS. -/
  | extest
  /-- CLAMP (R342). The TAP instruction CLAMP holds the boundary outputs in OFF and HELD only. -/
  | clamp
  /-- HIGHZ (R342). The TAP instruction HIGHZ sets the lands to high impedance in OFF and HELD only. -/
  | highz
  /-- TRST (R342). TRST_N low holds the TAP in Test-Logic-Reset. -/
  | trst
  /-- COOL_FLOW_N_CHANGE (R27). COOL_FLOW_N changes level: a fall starts the 2 ms count, a return to high before 2 ms cancels it so the count restarts from zero at the next low. Operands: `high` the new level. -/
  | coolFlowNChange (high : Bool)
  /-- LREF_RETURN (R29). An absent LREF reference returns: LREF0 presence for 1 us lets a CLEAR be accepted, and a returned LREF1 or LREF2 lets its line die's ports send WAKE and train again. Operands: `n` reference 0 to 2. -/
  | lrefReturn (n : Nat)
  /-- RESERVED_OPCODE (R283). A fetched descriptor with a reserved opcode, 0x0C to 0xFF, completes with BAD_DESCRIPTOR. Operands: `d` the descriptor. -/
  | reservedOpcode (d : BitVec 512)
  /-- RESERVED_COMMAND (R336). A vendor-defined management request with a reserved or malformed COMMAND is answered with completion ERROR and changes nothing. Operands: `cmd` COMMAND, `ins` INSTANCE. -/
  | reservedCommand (cmd : BitVec 8) (ins : BitVec 8)
  /-- BAD_PEC_PACKET (R333). An MCTP packet arrives with a bad PEC, and the part drops it and counts it in MGMT_STATS.DROPPED. -/
  | badPecPacket
  deriving DecidableEq, Repr

end Sys2Proof
end

