-- ==== Sys2Proof/WellFormed.lean ====
section
/-! DEFINITION. Which commands are well formed: every operand names a thing that the part has a place for. -/

namespace Sys2Proof

/-- A unit index of the unit state table: tiles 0 to 1023, ports from 1024, stacks from 1072 (Table 15-3). -/
def unitIndexOk (u : Nat) : Bool := decide (u < 1080)

/-- The operands of a command are in their ranges. -/
def Instr.wf : Instr → Bool
  | .vin48Rise _ _ _ _ => true
  | .serviceBootEnd => true
  | .perstNRise => true
  | .perstNFall => true
  | .railsEnd _ => true
  | .memoryInitEnd => true
  | .selfTestEnd fails => fails.all (fun x => unitIndexOk x.1)
  | .stageOverrun => true
  | .hotReset => true
  | .supplyStop _ => true
  | .powerLoss _ => true
  | .regulatorFault r => decide (r < 24)
  | .coolStop => true
  | .thermStop _ => true
  | .clockStop => true
  | .lrefLineLoss n => (n == 1 || n == 2)
  | .ref10mLoss => true
  | .ref10mReturn => true
  | .timeCycle => true
  | .tbWrap => true
  | .toutLeadingEdge n => decide (n < 4)
  | .toutTrailingEdge n => decide (n < 4)
  | .captureEdge c _ => decide (c < 3)
  | .tbModeCommit _ => true
  | .tbStepCommit _ => true
  | .tbRateCommit _ => true
  | .tbSlewCommit _ => true
  | .tbCivilCommit _ => true
  | .tbCivilSetCommit _ => true
  | .toutCommit n _ => decide (n < 4)
  | .capPop c _ => decide (c < 3)
  | .tbNowSecLoRead => true
  | .bridleCommit _ => true
  | .bridleCountLoRead => true
  | .detInputsHashedRead => true
  | .latchingLoRead _ => true
  | .secCommit _ => true
  | .pwrCommit _ => true
  | .hostCommit _ => true
  | .fabRetrain _ _ => true
  | .registerWrite _ _ _ => true
  | .bar2Access _ => true
  | .bar2Resize _ => true
  | .slotBoundary => true
  | .syncedEntry => true
  | .nop u => decide (u < 1024)
  | .ewait u => decide (u < 1024)
  | .esig u => decide (u < 1024)
  | .rdflg u => decide (u < 1024)
  | .exitIf u => decide (u < 1024)
  | .recv u => decide (u < 1024)
  | .send u => decide (u < 1024)
  | .bld u => decide (u < 1024)
  | .bst u => decide (u < 1024)
  | .bwr u => decide (u < 1024)
  | .gacc u => decide (u < 1024)
  | .gtree u => decide (u < 1024)
  | .mvd u => decide (u < 1024)
  | .mvs u => decide (u < 1024)
  | .mmh u => decide (u < 1024)
  | .mmq u => decide (u < 1024)
  | .mmi u => decide (u < 1024)
  | .vfma u => decide (u < 1024)
  | .vadd u => decide (u < 1024)
  | .vmul u => decide (u < 1024)
  | .vmax u => decide (u < 1024)
  | .vmin u => decide (u < 1024)
  | .vcvt u => decide (u < 1024)
  | .vred u => decide (u < 1024)
  | .vcpy u => decide (u < 1024)
  | .opDeadline u _ => decide (u < 1024)
  | .residueCheckComplete u _ => decide (u < 1024)
  | .shadowCompare g _ => decide (g < 128)
  | .crosspointGather n => decide (n < 3)
  | .frameDelivery p f => decide (p < 48) && f.positions.all (fun x => decide (x.1 < 10))
  | .hazardCheck => true
  | .stepSeal => true
  | .stepFinal => true
  | .rewind => true
  | .jobFaultApply => true
  | .launchFire => true
  | .blockMoveService u _ => decide (u < 1024)
  | .blockMoveRetire u => decide (u < 1024)
  | .stackLost k => decide (k < 8)
  | .farFill _ => true
  | .farBlockArrival _ host => host.wrote.all (fun x => decide (x.1 < 2 ^ 64))
  | .gaccLockAttempt _ _ host => host.wrote.all (fun x => decide (x.1 < 2 ^ 64))
  | .gaccLockTimeout _ => true
  | .gtreePoll _ host => host.wrote.all (fun x => decide (x.1 < 2 ^ 64))
  | .gtreeTimeout _ => true
  | .panelMoveDone _ _ => true
  | .jobComplete => true
  | .countAdopt _ => true
  | .rootSeedLoad => true
  | .parentLost => true
  | .holdoverTimeout => true
  | .bridleMarkFire => true
  | .trainingStart p => decide (p < 48)
  | .trainingDone p _ => decide (p < 48)
  | .trainingTimeout p => decide (p < 48)
  | .trainingRetry p => decide (p < 48)
  | .measuringDone p _ => decide (p < 48)
  | .laneLockLoss p => decide (p < 48)
  | .relockTimeout p => decide (p < 48)
  | .relockDone p => decide (p < 48)
  | .relockMeasureDone p _ => decide (p < 48)
  | .farNotReady p => decide (p < 48)
  | .farStopped p => decide (p < 48)
  | .signalLoss p => decide (p < 48)
  | .powerSample x => (x.regs.length == 24 && x.groups.length == 128 && x.hubs.length == 2 && x.lines.length == 3 && x.stackT.length == 8)
  | .controlPeriod _ => true
  | .ventDecision => true
  | .ventApply => true
  | .classRailMove cls => (decide (1 ≤ cls) && decide (cls ≤ 4))
  | .ballastIssue u _ token => (decide (u < 1024) && decide (token < 64))
  | .ballastResult u _ => decide (u < 1024)
  | .scoreHalving => true
  | .testOverdue u => unitIndexOk u
  | .autoStressTest => true
  | .windowTest u => unitIndexOk u
  | .stressHeatTimeout => true
  | .knownAnswerDone u _ _ _ => unitIndexOk u
  | .stressTestDone => true
  | .doorbellPoll host _ => host.wrote.all (fun x => decide (x.1 < 2 ^ 64))
  | .nopDescriptor d => (d.extractLsb' 0 8 == 0)
  | .load d => (d.extractLsb' 0 8 == 1)
  | .patch d => (d.extractLsb' 0 8 == 2)
  | .unload d => (d.extractLsb' 0 8 == 3)
  | .windowMap d => (d.extractLsb' 0 8 == 4)
  | .panelGive d => (d.extractLsb' 0 8 == 5)
  | .panelTake d => (d.extractLsb' 0 8 == 6)
  | .launchAt d => (d.extractLsb' 0 8 == 7)
  | .cancel d => (d.extractLsb' 0 8 == 8)
  | .test d => (d.extractLsb' 0 8 == 9)
  | .storeSettings d => (d.extractLsb' 0 8 == 10)
  | .storeStart => true
  | .storeComplete _ => true
  | .clear d => (d.extractLsb' 0 8 == 11)
  | .setEndpointId _ => true
  | .getEndpointId => true
  | .getMctpVersionSupport _ => true
  | .getMessageTypeSupport => true
  | .getVendorDefinedMessageSupport => true
  | .getUnits _ _ _ => true
  | .fence _ _ _ => true
  | .fenceNow _ _ _ => true
  | .setOff _ _ _ => true
  | .restore _ _ => true
  | .getQlist _ _ _ => true
  | .setCapLimits _ _ _ => true
  | .mgmtStoreSettings _ => true
  | .readUnit _ _ => true
  | .readTotals _ => true
  | .readFsr _ _ _ => true
  | .readHistory _ _ _ _ => true
  | .debugRead _ _ _ _ _ => true
  | .getAlerts _ _ => true
  | .getStatus _ => true
  | .getTid => true
  | .setTid _ => true
  | .getPldmVersion _ => true
  | .getPldmTypes => true
  | .getPldmCommands _ => true
  | .getPdrRepositoryInfo => true
  | .getPdr _ => true
  | .getSensorReading _ => true
  | .getStateSensorReadings _ => true
  | .pdrSensorRefresh => true
  | .bypass => true
  | .idcode => true
  | .samplePreload _ _ => true
  | .extest => true
  | .clamp => true
  | .highz => true
  | .trst => true
  | .coolFlowNChange _ => true
  | .lrefReturn n => decide (n < 3)
  | .reservedOpcode d => decide (12 ≤ (d.extractLsb' 0 8).toNat)
  | .reservedCommand _ _ => true
  | .badPecPacket => true

end Sys2Proof
end

