-- ==== Sys2Proof/Decode.lean ====
section
/-! DEFINITION. The command that a word spells. Every row of spec/opcode_table.json has an empty field list, so no word
spells a command: commands reach the part as events, register accesses, descriptors and messages (log 2). -/

namespace Sys2Proof

/-- The command that the word `w` of `nbits` bits spells by the table's bits: none, as the table gives no row any bits. -/
def decodeTableWord (_nbits _w : Nat) : Option Instr := none

end Sys2Proof
end

