-- ==== Sys2Proof/Config.lean ====
section
/-! DEFINITION. What the part fixes and the spec does not state: free values. None has a body, so no proof can see one. -/

namespace Sys2Proof.Config

/-- The units in which Table 15-6 gives its sensors. -/
inductive SensorUnit where
  | watt | volt | celsius | joule | count | state
  deriving DecidableEq, Repr

/-- FREE VALUE (log 12). The number by which DSP0248 names a unit in a sensor's record. -/
opaque pldmUnit : SensorUnit → BitVec 8

/-- FREE VALUE (log 10). The hardware entropy source of Table 4-6 RND 4: the `n`-th draw. -/
opaque entropy : Nat → BitVec 64

/-- FREE VALUE (log 11). Whether a host kernel image holds a word with V = 1 (R211): the spec gives the image no layout. -/
opaque kernelHoldsV : List Byte → Bool

/-- FREE VALUE (log 12). Tuimon Computing's PCI-SIG vendor identifier (R271, Table 15-2). -/
opaque vendorId : BitVec 16

/-- FREE VALUE (log 12). Tuimon Computing's JEDEC manufacturer identity, IDCODE bits [11:1] (R342). -/
opaque jedecId : BitVec 11

/-- FREE VALUE (log 12). The version word that GetPLDMVersion answers for a supported type (R337). -/
opaque pldmVersion : BitVec 8 → BitVec 32

/-- FREE VALUE (log 12). The version entry that Get MCTP Version Support answers (R333). -/
opaque mctpVersion : BitVec 8 → BitVec 32

/-- FREE VALUE (log 12). The vendor-defined command set that Get Vendor Defined Message Support answers (R333). -/
opaque vendorSet : BitVec 16

/-- FREE VALUE (log 28). The test parcel of a frame in MEASURING (R126): count, port and position. -/
opaque testParcel : Nat → Nat → Nat → BitVec 2304

/-- FREE VALUE (log 77). The 30 parity symbols of RS(544,514) (Table 6-1): the spec gives no generator. Symbol 0 in the low bits. -/
opaque rsParity : BitVec 5140 → BitVec 300

/-- FREE VALUE (log 77). How many blocks the LREF difference takes from or adds to a slot, 0 to 2 standing for -1 to 1 (Table 6-2), by
count and port. -/
opaque fillDrift : Nat → Nat → Nat

/-- FREE VALUE (log 77). Which IDLE block of a slot the LANE_MARK replaces (R111), by count and port. -/
opaque markPlace : Nat → Nat → Nat

/-- FREE VALUE (log 77). Bytes 1 to 31 of the IDLE blocks that carry an identity exchange (R125): the spec gives no layout. The package
serial, the port, the SLOT_ID straps and the Bridle identity. -/
opaque identityBytes : BitVec 64 → BitVec 6 → BitVec 6 → BitVec 11 → List (List (BitVec 8))

/-- FREE VALUE (log 29). What a transfer with an uncorrectable burst delivers in place of a block (R87, R104), by count and
tile: the bits that differ, payload above Envelope. -/
opaque burstNoise : Nat → Nat → BitVec 33024

/-- FREE VALUE (log 30). How many payload bytes of a late BST reached the uncommitted side (R104), by count and tile. -/
opaque partStored : Nat → Nat → Nat

/-- FREE VALUE (log 36). The average of the last trims on which a package in HOLDOVER counts on (R143), in steps of 7.8125 ps. -/
opaque averagedTrim : List Int → Int

/-- FREE VALUE (log 65). Which element of a column group has the error by which a line's bytes differ from a side residue (R92): a side
residue does not tell. By the line's bytes and the group. -/
opaque errPlace : BitVec 2048 → Nat → Nat

/-- FREE VALUE (log 31). The Ballast operands and expected results that the ROM holds, by their place in a Ballast buffer (R246). -/
opaque ballastRom : Nat → BitVec 8

/-- FREE VALUE (log 31). What a Ballast operation leaves in a byte of its buffer (R246): by kernel, place and old value. -/
opaque ballastByte : BitVec 8 → Nat → BitVec 8 → BitVec 8

/-- FREE VALUE (log 21). Whether a message falls within the microsecond of the one that its vector has already sent since the last poll
(R282): by the event and completion records written so far. -/
opaque sharesUs : BitVec 32 → BitVec 32 → Bool

/-- FREE VALUE (log 31). What a tile that runs Ballast draws, in mW, by class (R247). -/
opaque ballastMw : Nat → Nat

end Sys2Proof.Config
end

