-- ==== Sys2Proof/Machine/State.lean ====
section
/-! DEFINITION. The state of the package as plain data: every register, queue, buffer, counter, mode and pin that the
spec gives it, the queue of waiting commands, and the state after reset. INVENTORY.md lists each with its rule. -/

namespace Sys2Proof.Machine

/-- Why the model stops. -/
inductive Fault where
  /-- A command reaches a stack block at or beyond the 25,165,824 blocks of R87. Raised by BLOCK_MOVE_SERVICE and
  FAR_FILL; LOAD refuses a Reel that names such a block (log 57). Safe: the spec gives no such block. -/
  | absentBlock (stack block : Nat)
  deriving DecidableEq, Repr

/-- Why a command has no meaning. -/
inductive Refusal where
  /-- A command without its meaning, by mnemonic. Raised by an arm of exec only. Safe. -/
  | notModelled (mnemonic : String)
  deriving DecidableEq, Repr

/-- The assembly and the identity fixed at manufacture or at cold start (R1, R15, R43). -/
structure Ident where
  memDies : Nat
  lineDies : Nat
  serial : Word64
  slotId : BitVec 6
  rom : BitVec 16
  deriving DecidableEq, Repr

/-- The tray's signals, references and the sensors as last read (Tables 2-7, 2-9, R228): T_max, and the junctions of the 128 tile
groups (west first), the two hubs and the three line dies. -/
structure Tray where
  vin48 : Nat
  perstN : Bool
  coolFlowN : Bool
  thermTripN : Bool
  lref0 : Bool
  lref1 : Bool
  lref2 : Bool
  ref10m : Bool
  tMax : Int
  groupT : List Int
  hubT : List Int
  lineT : List Int
  deriving DecidableEq, Repr

/-- The stages of Table 3-1. -/
inductive Stage where
  | off | serviceBoot | held | rails | memoryInit | selfTest | ready
  deriving DecidableEq, Repr

/-- The kinds of reset that LAST_RESET names (Table 3-2). -/
inductive ResetKind where
  | cold | fundamental | hot
  deriving DecidableEq, Repr

/-- The stop causes (Table 11-5). -/
inductive StopCause where
  | cool | therm | supply | clock
  deriving DecidableEq, Repr

/-- Start-up: BOOT block, the overrun hold of R33, and whether COOL_FLOW_N's 2 ms count runs (R27). -/
structure Boot where
  stage : Stage
  lastReset : ResetKind
  noValidBank : Bool
  bankFallback : Bool
  potFail : Bool
  stageOverrun : Bool
  overrunHold : Bool
  coolCount : Bool
  deriving DecidableEq, Repr

/-- The stop in force (R29, R248): the first cause and a flag for each cause present since. -/
structure Stop where
  stopped : Bool
  first : Option StopCause
  cool : Bool
  therm : Bool
  supply : Bool
  clock : Bool
  deriving DecidableEq, Repr

/-- The states of a unit (Table 10-6). -/
inductive UnitSt where
  | active | watch | fenced | off
  deriving DecidableEq, Repr

/-- An entry of the unit state table (R325). -/
structure UnitEntry where
  st : UnitSt
  held : Bool
  deriving DecidableEq, Repr

/-- A quarantine entry (R332). -/
structure QEntry where
  unit : UnitField
  st : UnitSt
  reason : BitVec 8
  seconds : Nat
  uptimeH : Nat
  gen : Nat
  fsrSeq : Nat
  deriving DecidableEq, Repr

/-- The contents of a settings bank, and the volatile settings set (Table 3-6). Unit entries are keyed by the unit index
of Table 15-3; an unlisted unit is ACTIVE. History entries have 64 bytes, log entries 32; newest last. -/
structure Settings where
  capMin : Nat
  capMax : Nat
  calib : List Byte
  units : Sparse UnitEntry
  qlist : List QEntry
  history : List (List Byte)
  log : List (List Byte)
  deriving DecidableEq, Repr

/-- A settings bank: the fields of its header, whether its CRCs hold, and its contents (Tables 3-6, 3-7; log 13). -/
structure Bank where
  intact : Bool
  generation : Nat
  storeCount : Nat
  tbSeconds : Nat
  set : Settings
  deriving DecidableEq, Repr

/-- Who asked for a store (R49): a ring descriptor with its TAG, IRQ flag and count, a management request, or a ring
descriptor whose record was lost with the rings in a reset. -/
inductive StoreReq where
  | ring (tag : Word32) (irq : Bool) (sq : Nat)
  | mgmt (ins : BitVec 8)
  | lost
  deriving DecidableEq, Repr

/-- A running store (R49): the copy, its target bank (true: B), and the header it writes. -/
structure StoreRun where
  req : StoreReq
  set : Settings
  toB : Bool
  generation : Nat
  storeCount : Nat
  tbSeconds : Nat
  deriving DecidableEq, Repr

/-- The settings store (R44 to R52). `active` is the active bank (true: B), none when no bank is valid. -/
structure Store where
  set : Settings
  bankA : Bank
  bankB : Bank
  active : Option Bool
  run : Option StoreRun
  waiting : List StoreReq
  lastResult : Nat
  worn : Bool
  deriving DecidableEq, Repr

/-- What the part keeps per unit (Table 10-5, R207, R215): six counters (tile RES SHD ENV KAT; port CORR UNCORR VETO
LATE KAT TRAIN_FAIL; stack CORR UNCORR KAT), the score, passes in WATCH, the FENCE_ADVISED mark, LAST_TEST in uptime
units (none since cold start), the due time fixed at entry to WATCH, the uptime that the last overdue notice was for, and its last
record. -/
structure Health where
  c0 : Nat
  c1 : Nat
  c2 : Nat
  c3 : Nat
  c4 : Nat
  c5 : Nat
  score : Nat
  passes : Nat
  advised : Bool
  lastTest : Option Nat
  watchDue : Option Nat
  overdueAt : Nat
  fsrSeq : Nat
  deriving DecidableEq, Repr

/-- The twelve package totals in the order of Table 10-12. -/
structure Totals where
  detect : Nat
  res : Nat
  shd : Nat
  env : Nat
  kat : Nat
  late : Nat
  link : Nat
  veto : Nat
  memCorr : Nat
  memUncorr : Nat
  fecCorr : Nat
  faults : Nat
  deriving DecidableEq, Repr

/-- The staged or committed fields of SEC_COMMIT (Table 10-12). -/
structure SecCfg where
  tileWatch : BitVec 8
  tileAdvise : BitVec 8
  portWatch : BitVec 8
  portAdvise : BitVec 8
  stackWatch : BitVec 8
  stackAdvise : BitVec 8
  watchPasses : BitVec 8
  scoreHalfH : BitVec 8
  stressActive : BitVec 16
  stressWatch : BitVec 16
  deriving DecidableEq, Repr

/-- Who started a test (R216). -/
inductive TestBy where
  | auto
  | window
  | ring (tag : Word32) (irq : Bool) (sq : Nat)
  deriving DecidableEq, Repr

/-- A test in progress: the unit, whether it is the stress test of R213 or one kernel, who started it, the first failing
profile with its class, and whether a profile ran below 85 C (R214). `left` are the profiles still to run, the present one first,
`ran` the kernels of it that have ended, `cold` says that it runs at the temperature reached, and `held` are the results of a window's
test, which count at its end (R217): kernel, profile and outcome. -/
structure TestRun where
  unit : Nat
  stress : Bool
  ka : BitVec 8
  by_ : TestBy
  failing : Option (Nat × KaOutcome)
  partialHeat : Bool
  left : List Nat
  ran : List Nat
  cold : Bool
  held : List (Nat × Nat × KaOutcome)
  deriving DecidableEq, Repr

/-- A Failure Signature Record that is held (R221). -/
structure Fsr where
  seq : Nat
  bytes : List Byte
  deriving DecidableEq, Repr

/-- Silent errors and field tests (chapter 10). Uptime is in units of 10 us (log 9). -/
structure Sec where
  testAuto : Bool
  overdue : Nat
  commitRefused : Bool
  staged : SecCfg
  committed : SecCfg
  fsrSel : Word32
  fsrs : List Fsr
  fsrSeq : Nat
  totals : Totals
  health : Sparse Health
  uptime : Nat
  halvedAt : Nat
  test : Option TestRun
  lastClass : Nat
  deriving DecidableEq, Repr

/-- A Pocket line's bytes, its eight side residues (R92, byte `k` is column group `k`), its tags (R80, R81), and for a value
that no final step wrote one more than the count at which it was written, 0 otherwise (R196). -/
structure LineVal where
  data : LineBits
  side : BitVec 64
  pdue : Nat
  cdue : Nat
  unfin : Nat := 0
  deriving DecidableEq, Repr

/-- A Pocket line: the copy that reads return, the next-step copy of a hold line (R70), and the written mark (R70, R71). -/
structure LineSt where
  cur : LineVal
  nxt : LineVal
  mark : Bool
  deriving DecidableEq, Repr

/-- An occupied inbox entry (R75, R80): `at_` is the count of its latest delivery, and `side` holds the residues that its bytes had
on arrival, by which a byte corrupted since is found (R200). -/
structure InEntry where
  late : Bool
  at_ : Nat
  data : LineBits
  side : BitVec 64
  pdue : Nat
  deriving DecidableEq, Repr

/-- An occupied outbox entry: the route, parcel index, payload, Envelope bytes, provisional mark, the line it was sent
from, the CDUE tag of that line at the SEND, and for a route within the package the slot at whose end it leaves (R76). -/
structure OutEntry where
  route : Nat
  pidx : Nat
  payload : LineBits
  env : BitVec 16
  prov : Bool
  line : Nat
  cdue : Nat
  leaves : Option Nat
  deriving DecidableEq, Repr

/-- The block moves (Table 4-7). -/
inductive MoveKind where
  | bld | bst | bwr | gacc | gtree
  deriving DecidableEq, Repr

/-- A tensor block: payload and Envelope (R87). -/
structure Blk where
  payload : PageBits
  env : EnvBits
  deriving DecidableEq, Repr

/-- A block mover request (R100): its entry, the page, service and retire counts, how the service went, the block stored
or loaded, and the issue slot and token. -/
structure MoveReq where
  kind : MoveKind
  entry : Rec128
  page : Nat
  serve : Nat
  retire : Nat
  served : Bool
  complete : Bool
  uncorr : Bool
  blk : Option Blk
  slot : Nat
  token : Nat
  deriving DecidableEq, Repr

/-- What an operation does besides writing lines, at its deadline. -/
inductive OpEffect where
  | nothing
  | send (e : OutEntry)
  | freeEntry (k : Nat)
  | signal (dst input : Nat)
  | clearFlags
  deriving DecidableEq, Repr

/-- The operation that a tile executes (R54): its word, its last token counted within the step, its result lines, the
flags it raises, its other effect, whether it is checked, whether a source line's bytes disagreed with their residues
(R200), and whether its step ended with its deadline token, before it completed (R56). -/
structure Flight where
  word : Rec128
  last : Nat
  results : List (Nat × LineVal)
  flags : BitVec 8
  effect : OpEffect
  checked : Bool
  srcBad : Bool
  pastStep : Bool
  deriving DecidableEq, Repr

/-- A check that completes at the end of a step slot (R81): the lines it covers, none once it has completed, and whether it
fails. -/
structure Check where
  slot : Nat
  lines : List Nat
  bad : Bool
  deriving DecidableEq, Repr

/-- A block being gathered at its receiver, per RX_ROUTE (R95). -/
structure RxBlock where
  payload : PageBits
  env : EnvBits
  deriving DecidableEq, Repr

/-- A tile (Table 4-1). `told` is the count, token and code of the event it reported last (R84), `rose` whether that one's counter and
score rose, and `moves` the scoring detections of the slot, oldest first, whose moves of the unit (R207, R208) wait for its end. -/
structure Tile where
  todo : List Rec128
  flight : Option Flight
  halted : Bool
  exited : Bool
  detected : Bool
  lateOp : Bool
  lines : Sparse LineSt
  inbox : Sparse InEntry
  outbox : Sparse OutEntry
  mover : List MoveReq
  events : Sparse Nat
  flags : BitVec 8
  savedFlags : BitVec 8
  txEnv : Sparse EnvBits
  rx : Sparse RxBlock
  checks : List Check
  badLines : List Nat
  told : Nat × Nat × Nat
  rose : Bool × Bool
  moves : List Nat
  deriving DecidableEq, Repr

/-- The states of a memory stack (Table 5-7). -/
inductive StackSt where
  | off | trained | selfRefresh | lost
  deriving DecidableEq, Repr

/-- A memory stack: state, sensor, blocks by number (an unlisted block is the scrubbed block), and for each pair, keyed
by its even block, the selector (true: side 1) and the written mark (R97). `unfin` keeps, for a block that no final step
wrote, one more than the count at which a BST wrote it (R196). -/
structure Stack where
  st : StackSt
  temp : Int
  blocks : Sparse Blk
  sel : Sparse Bool
  mark : Sparse Bool
  unfin : Sparse Nat
  deriving DecidableEq, Repr

/-- The states of a port (Table 6-8). -/
inductive PortSt where
  | off | absent | notReady | training | measuring | trained | relock | stopped | failed
  deriving DecidableEq, Repr

/-- What a port puts on its wire (R112). -/
inductive Signal where
  | none | notReady | wake | train | frames | idle | stopped
  deriving DecidableEq, Repr

/-- A parcel in port staging (R116): position, the 2,304 bits, whether it leaves provisional, and the tile line it was
sent from. -/
structure Staged where
  pos : Nat
  parcel : BitVec 2304
  prov : Bool
  src : Option (Nat × Nat)
  deriving DecidableEq, Repr

/-- The frame a port sends in the current slot (R111). -/
structure TxFrame where
  slotStart : EnvBits
  parcels : List (Nat × BitVec 2304)
  tail : BitVec 992
  deriving DecidableEq, Repr

/-- A Tether port (chapter 6, and its measurements of chapter 7). `tail` is the last tail delivered, at count `tailAt`;
`provSent` the counts of provisional departures with mask and source lines (R123), `provRcvd` those of deliveries (R124).
`remeasure` marks a wire latency that moved, `trainDue` a port that trains once the Reel is unloaded (R130), and `measured` a
port in RELOCK whose lock is back and whose frames have resumed. `quadMw` and `xpMw` are the power of its quad and of its crosspoint
as its last MEASURING found them (R241). -/
structure Port where
  st : PortSt
  cls : Nat
  precode : BitVec 4
  wirePs : Nat
  farSerial : Word64
  farPort : BitVec 6
  farSlot : BitVec 6
  farBridle : BitVec 11
  relocks : Nat
  sends : Signal
  rttPs : Nat
  staged : List Staged
  sent : Option TxFrame
  provSent : List (Nat × BitVec 10 × List (Nat × Nat))
  provRcvd : List (Nat × BitVec 10)
  tail : Option (BitVec 992)
  tailAt : Nat
  tailSeen : Bool
  phase : Option Int
  retrain : Bool
  remeasure : Bool
  trainDue : Bool
  measured : Bool
  quadMw : Nat
  xpMw : Nat
  deriving DecidableEq, Repr

/-- A transit arrival that waits to be forwarded (R118): arrival port and position, the count it was delivered at, and
the parcel to send on (already a LATE marker when the arrival was one or failed a check). -/
structure Transit where
  port : Nat
  pos : Nat
  at_ : Nat
  parcel : BitVec 2304
  deriving DecidableEq, Repr

/-- A parcel or an event signal between tiles of the package, due before token 0 of a count (R73). -/
structure LocalMsg where
  due : Nat
  dst : Nat
  event : Nat
  parcel : Option (OutEntry × Rec128)
  deriving DecidableEq, Repr

/-- The states of the Bridle unit (Table 7-2). -/
inductive SyncSt where
  | unsynced | acquiring | synced | holdover
  deriving DecidableEq, Repr

/-- The staged or committed fields of BRIDLE_COMMIT. -/
structure BridleCfg where
  id : BitVec 11
  idValid : Bool
  root : Bool
  seed : Word64
  mark : Word64
  deriving DecidableEq, Repr

/-- The Bridle unit (chapter 7). `count` is the 64-bit count, which never wraps (R134). `theta2` is twice the latest
theta in ps, `adopted` says that a count was adopted since ACQUIRING was entered. `events` is BRIDLE_EVENTS bits [7:0]. `trimmed` are
the last trims, newest first, which a HOLDOVER averages (R143). -/
structure Bridle where
  count : Nat
  st : SyncSt
  parent : Option Nat
  hops : Nat
  rootId : BitVec 11
  theta2 : Int
  quiet : Nat
  adopted : Bool
  staged : BridleCfg
  committed : BridleCfg
  markArmed : Bool
  markSec : Nat
  markNs : Nat
  events : BitVec 8
  trimmed : List Int
  deriving DecidableEq, Repr

/-- The pacer (R9, R229): whether it runs, the Vent level, and where the level took effect, as a count and a time in units
of 7.8125 ps, with the trims since. The Vent history has 32 entries of apply-at count and level (R251). -/
structure Pacer where
  running : Bool
  vent : Nat
  baseCount : Nat
  baseGrid : Nat
  trims : Int
  hist : List (Nat × Nat)
  head : Nat
  deriving DecidableEq, Repr

/-- A location structure (Table 4-10). -/
structure Loc where
  code : BitVec 16
  pkg : BitVec 11
  unit : UnitField
  index : BitVec 8
  token : Nat
  attempt : Nat
  slot : Nat
  deriving DecidableEq, Repr

/-- A replay or fault notice (Table 9-2). -/
structure Notice where
  final : Bool
  fault : Bool
  attempt : Nat
  index : BitVec 8
  origin : BitVec 11
  code : BitVec 16
  unit : UnitField
  step : Nat
  detect : Nat
  applyAt : Nat
  token : Nat
  deriving DecidableEq, Repr

/-- A sealed step that is not final (R190): its number, the count of its commit-point slot, what it flipped, the saved
flag words, and its provisional work counts (R195). -/
structure Sealed where
  step : Nat
  at_ : Nat
  attempt : Nat
  lines : List (Nat × Nat)
  pairs : List (Nat × Nat)
  flags : List (Nat × BitVec 8)
  parcels : Nat
  stores : Nat
  window : Nat
  deriving DecidableEq, Repr

/-- The LAUNCH_AT whose job-end record is due (R287). -/
structure LaunchRef where
  tag : Word32
  sq : Nat
  deriving DecidableEq, Repr

/-- Whether a job runs (Table 9-3, BRIDLE_JOB). -/
inductive JobSt where
  | idle | armed | running
  deriving DecidableEq, Repr

/-- The job (R149 to R151, R186 to R193, R355). `slot` is the slot within the step, `rewound` the
count at which a rewind began the attempt, 0 when none did, `vetoes` the slots of the attempt in which a veto arrived (R80), and
`detected` says that the package has raised a detection in it (R321). -/
structure Job where
  st : JobSt
  start : Nat
  launch : LaunchRef
  step : Nat
  attempt : Nat
  slot : Nat
  pattern : Nat
  phase : Nat
  notice : Option Notice
  noticeAt : Nat
  ownFault : Option Loc
  faulted : Bool
  sealed_ : Option Sealed
  rewound : Nat
  final : Nat
  abandoned : Bool
  fenceNow : Option UnitField
  lastCode : BitVec 16
  lastOrigin : BitVec 11
  vetoes : List Nat
  detected : Bool
  deriving DecidableEq, Repr

/-- The work counters and REPLAY_COUNT (R195, R197). -/
structure Work where
  parcelsProv : Nat
  storesProv : Nat
  windowProv : Nat
  parcels : Nat
  stores : Nat
  window : Nat
  steps : Nat
  replays : Nat
  deriving DecidableEq, Repr

/-- A block in the window stage (R192), of the job launched at `start`; `released` says that its step is final and that it, or one
before it, waits for the inputs its provenance record covers (R268), `awaited` names the panels that move and wait for it (R293). -/
structure StageBlk where
  start : Nat
  step : Nat
  attempt : Nat
  slot : Nat
  token : Nat
  unit : Nat
  kind : MoveKind
  index : Nat
  entry : Rec128
  blk : Blk
  released : Bool
  awaited : List Nat
  deriving DecidableEq, Repr

/-- A released tree that its engine keeps pending (R301). -/
structure Tree where
  start : Nat
  step : Nat
  index : Nat
  entry : Rec128
  fmt : BitVec 4
  deriving DecidableEq, Repr

/-- The states of a panel (R273). -/
inductive PanelSt where
  | free | host | device | moving
  deriving DecidableEq, Repr

/-- A panel: state, format (true: BLOCKS) and backing (R291, R292). -/
structure Panel where
  st : PanelSt
  blocks : Bool
  backing : Nat
  deriving DecidableEq, Repr

/-- A PANEL_TAKE whose record waits for its panels (R279). -/
structure TakeRef where
  tag : Word32
  irq : Bool
  sq : Nat
  first : Nat
  count : Nat
  deriving DecidableEq, Repr

/-- The Gondola window, its stage and its pending work (chapter 13, R192), and the host memory that the part reaches. -/
structure Window where
  size : Nat
  panels : Sparse Panel
  stage : List StageBlk
  gaccs : List StageBlk
  trees : List Tree
  waiting : List Tree
  takes : List TakeRef
  hostMem : List Host.Cell
  deriving DecidableEq, Repr

/-- A section of the loaded Reel (Tables 14-2, 14-3): its directory index, type, the phase it replaces, owner, header
numbers (TILE: I, H, W, WORDS and the 64 STARTs; XPOINT: the 64 pattern counts) and records. -/
structure Section_ where
  dir : Nat
  typ : Nat
  alt : Option Nat
  owner : Nat
  aux : List Nat
  recs : List (BitVec 256)
  deriving DecidableEq, Repr

/-- The loaded Reel (R305 to R313): header fields, image, sections in force, relocation slots, and what LOAD computed. -/
structure Reel where
  image : List Byte
  pkgId : Nat
  jobTag : Word32
  shadow : Nat
  strict : Bool
  debug : Bool
  patched : Bool
  vari : Bool
  sections : List Section_
  slots : List Word64
  diameter : Nat
  program : BitVec 256
  weights : BitVec 256
  deriving DecidableEq, Repr

/-- The far prefetcher (R105, R106): blocks held by home, and the cache blocks (keyed 2^25 x STACK + BLOCK) that their
last far-fill slot wrote. -/
structure Far where
  held : Sparse Blk
  written : Sparse Bool
  deriving DecidableEq, Repr

/-- Determinism (Table 12-5): the control bit, the leaves of the inputs chained so far, those of the far inputs hashed at their first
fill that wait for one before them, by their place in the list (R266), and the latched digest. -/
structure Det where
  strict : Bool
  leaves : List (BitVec 256)
  filled : Sparse (BitVec 256)
  latched : BitVec 256
  deriving DecidableEq, Repr

/-- The loader's registers (Table 14-11). -/
structure Ldr where
  debug : Bool
  status : BitVec 16
  whereUnit : BitVec 16
  whereSection : BitVec 16
  whereRec : Word32
  whereSlot : BitVec 12
  wherePattern : BitVec 6
  short : Nat
  unchecked : Nat
  hazExpect : BitVec 16
  hazActual : BitVec 16
  hazKind : BitVec 2
  hazIndex : BitVec 4
  deriving DecidableEq, Repr

/-- The staged or committed fields of PWR_COMMIT (Table 11-4). -/
structure PwrCfg where
  cap : BitVec 16
  window : BitVec 5
  ramp : BitVec 11
  order : Bool
  pref : List Word32
  deriving DecidableEq, Repr

/-- A Vent decision (R234, R235). -/
structure Decision where
  level : Nat
  leader : BitVec 11
  epoch : BitVec 16
  applyAt : Nat
  deriving DecidableEq, Repr

/-- Power, pace and Ballast (chapter 11). Samples are in mW, newest first, up to 30 s of them; energies in nJ.
`inForce` are the settings that the last control period took (R239, R240). `events` is PWR_EVENTS bits [3:0]; `heard` is by leader the
highest apply-at count of a decision heard, `seenLeader` the leader of the last. PWR_STATUS.CAP_UNMET is `capUnmet`, the episode of
R242, or `ballastUnmet`, the case of R247. `buffers` are the 16 KiB Ballast buffers, by tile (R246): one that holds nothing is not listed. `linkRes` is the link reserve of the loaded Reel in mW (R241). -/
structure Power where
  staged : PwrCfg
  committed : PwrCfg
  inForce : PwrCfg
  events : BitVec 4
  now : Nat
  samples : List Nat
  mean : Nat
  allow : Nat
  regs : List (Nat × Nat)
  energy : Nat
  jobEnergy : Nat
  jobSampling : Bool
  req : Nat
  limiter : Nat
  upMax : Nat
  vTherm : Nat
  cls : Nat
  capUnmet : Bool
  ballastUnmet : Bool
  thermEpisode : Bool
  linkRes : Nat
  aggLevel : Nat
  aggUpMax : Nat
  epoch : BitVec 16
  decision : Option Decision
  heard : Sparse Nat
  seenLeader : Option (BitVec 11)
  ballast : List (Nat × BitVec 8)
  ballastTiles : Nat
  buffers : Sparse (List Byte)
  spacing : Nat
  model : PowerModel
  deriving DecidableEq, Repr

/-- The staged or committed fields of the TB sub-blocks other than the outputs (Table 8-3). -/
structure TbCfg where
  mode : Bool
  slewBound : BitVec 9
  stepSec : Word64
  stepNs : BitVec 30
  stepFrac : Word32
  rate : Word64
  slew : Word64
  civil : Word32
  setDate : Word32
  setTime : Word32
  deriving DecidableEq, Repr

/-- The settings of a time output (R170). -/
structure ToutCfg where
  mode : BitVec 2
  pol : Bool
  startSec : BitVec 48
  startNs : BitVec 30
  period : Word64
  width : Word32
  deriving DecidableEq, Repr

/-- A time output: settings, the POL that acts since the last TIME cycle (R162), whether it is armed and in a pulse, the POL of that
pulse (R173), status bits, and its next edges as nanoseconds of the time base. -/
structure Tout where
  staged : ToutCfg
  committed : ToutCfg
  polNow : Bool
  armed : Bool
  pulse : Bool
  pulsePol : Bool
  missed : Bool
  skipped : Bool
  nextLead : Nat
  trail : Nat
  deriving DecidableEq, Repr

/-- A capture entry (R175). -/
structure CapEntry where
  sec : Nat
  ns : Nat
  bridle : Nat
  rising : Bool
  held : Bool
  invalid : Bool
  deriving DecidableEq, Repr

/-- A capture channel (R175), oldest entry first. -/
structure Capture where
  edge : BitVec 2
  event : Bool
  queue : List CapEntry
  overflow : Bool
  dropped : Nat
  episode : Bool
  deriving DecidableEq, Repr

/-- The time base (chapter 8). `frac` is in units of 2^-48 ns; `slewRem` is the remaining slew in the same units; `stepDue` is an
accepted step's offset, in units of 2^-32 ns, that waits for its TIME cycle (R163).
`events` is TB_EVENTS bits [3:0]; the latch fields are those of R159. -/
structure TimeBase where
  sec : Nat
  ns : Nat
  frac : Nat
  valid : Bool
  stepUsed : Bool
  refLost : Bool
  slewRem : Int
  stepDue : Option Int
  result : Nat
  sub : Nat
  events : BitVec 4
  staged : TbCfg
  committed : TbCfg
  modeNow : Bool
  civilNow : Word32
  outs : Sparse Tout
  caps : Sparse Capture
  latchSec : Nat
  latchNs : Nat
  latchFrac : Nat
  latchDate : Word32
  latchTime : Word32
  deriving DecidableEq, Repr

/-- The staged or committed fields of HOST_COMMIT (Table 13-2). -/
structure HostCfg where
  sq : Word64
  cq : Word64
  eq : Word64
  db : Word64
  szSq : BitVec 5
  szCq : BitVec 5
  szEq : BitVec 5
  minUs : BitVec 7
  maxUs : BitVec 7
  enable : Bool
  deriving DecidableEq, Repr

/-- A completion record that waits for room (R280). -/
structure Rec where
  tag : Word32
  opcode : BitVec 8
  final : Bool
  status : BitVec 16
  sq : Nat
  info : List Byte
  irq : Bool
  countInfo : Bool
  deriving DecidableEq, Repr

/-- The host link and the rings (chapter 13). Counts are free-running 32-bit counts; `lastTail` is SQ_TAIL as the last poll
found it. -/
structure Rings where
  link : LinkInfo
  dropped : Nat
  dma : Nat
  staged : HostCfg
  committed : HostCfg
  events : BitVec 3
  vecCq : BitVec 5
  evvec : List Word32
  lastTail : BitVec 32
  sqHead : BitVec 32
  sqDone : BitVec 32
  cqTail : BitVec 32
  cqHead : BitVec 32
  eqTail : BitVec 32
  eqHead : BitVec 32
  eqLost : BitVec 32
  heartbeat : BitVec 32
  pollUs : Nat
  wrote : Bool
  seq : Nat
  lost : Bool
  due : List Rec
  stall : Bool
  msix : List Nat
  vecPend : BitVec 32
  deriving DecidableEq, Repr

/-- A management alert (R340): the 32 bytes of the record, flags apart. -/
structure Alert where
  code : BitVec 16
  loc : Bool
  seq : Nat
  count : Nat
  info : List Byte
  deriving DecidableEq, Repr

/-- The management path (chapter 15). -/
structure Mgmt where
  eid : BitVec 8
  eidValid : Bool
  requests : Nat
  dropped : Nat
  alerts : List Alert
  alertSeq : Nat
  alertLost : Bool
  lostSince : Bool
  lastCommand : BitVec 8
  lastCompletion : BitVec 8
  tid : BitVec 8
  sensors : List (Nat × Int)
  deriving DecidableEq, Repr

/-- What the boundary cells do to the lands (R342). -/
inductive LandDrive where
  | functional | extest | clamp | highz
  deriving DecidableEq, Repr

/-- The TAP (R342): instruction register, boundary register, what the instruction in force drives the lands with where the stage
lets it, and the level of TRST_N. -/
structure Tap where
  ir : BitVec 8
  trstN : Bool
  boundary : List Bool
  drive : LandDrive
  deriving DecidableEq, Repr

/-- What the part answered last: to a BAR0 or BAR2 read, to a management, MCTP control or PLDM request, and the selected
TAP data register. The model's own observable (log 18). -/
structure Out where
  readData : Word64
  bytes : List Byte
  resp : List Byte
  tdo : List Bool
  deriving DecidableEq, Repr

/-- The state of the package. `pending` is the queue of commands that wait, first in first out; `entropy` counts the draws
of the entropy source (log 10); `latches` keeps the HI half of each latching 64-bit field, keyed by the BAR0 offset of the
HI half (R346). -/
structure State where
  ident : Ident
  tray : Tray
  boot : Boot
  stop : Stop
  store : Store
  unitGen : Nat
  sec : Sec
  tiles : Sparse Tile
  localq : List LocalMsg
  shadowed : List (Nat × Nat × Nat × List LineBits)
  mems : Sparse Stack
  far : Far
  ports : Sparse Port
  transits : List Transit
  bridle : Bridle
  pacer : Pacer
  job : Job
  work : Work
  window : Window
  reel : Option Reel
  det : Det
  ldr : Ldr
  power : Power
  tb : TimeBase
  rings : Rings
  mgmt : Mgmt
  tap : Tap
  out : Out
  latches : Sparse Word32
  entropy : Nat
  pending : List Instr
  deriving DecidableEq, Repr

/-- A cleared Pocket line (Table 3-2): zero bytes and residues, no tag. -/
def LineVal.zero : LineVal where
  data := 0
  side := 0
  pdue := 0
  cdue := 0
  unfin := 0

/-- A cleared line: both copies zero, no mark. -/
def LineSt.zero : LineSt where
  cur := LineVal.zero
  nxt := LineVal.zero
  mark := false

/-- A tile without a job: empty queues, clear flags, cleared Pocket. -/
def Tile.clear : Tile where
  todo := []
  flight := none
  halted := false
  exited := false
  detected := false
  lateOp := false
  lines := []
  inbox := []
  outbox := []
  mover := []
  events := []
  flags := 0
  savedFlags := 0
  txEnv := []
  rx := []
  checks := []
  badLines := []
  told := (0, 0, 0)
  rose := (false, false)
  moves := []

/-- The scrubbed block of Table 3-1: zero payload, tensor identifier 0, index 0, generation 0. LOADED, with the CRC-32C of 4,096
zero bytes (0x98F94189) and of the Envelope's first 28 bytes; every residue of zero bytes is 0 (R88 to R90). -/
def Blk.scrubbed : Blk where
  payload := 0
  env := 0x2AE6E80200000010000000000000000000000000000000000000000098F94189#256

/-- A stack that is off (Table 5-7), with scrubbed content. -/
def Stack.off : Stack where
  st := .off
  temp := 0
  blocks := []
  sel := []
  mark := []
  unfin := []

/-- A port at the reset values of Table 6-10. -/
def Port.off : Port where
  st := .off
  cls := 0
  precode := 0
  wirePs := 0
  farSerial := 0
  farPort := 0
  farSlot := 0
  farBridle := 0x7FF
  relocks := 0
  sends := .none
  rttPs := 0
  staged := []
  sent := none
  provSent := []
  provRcvd := []
  tail := none
  tailAt := 0
  tailSeen := false
  phase := none
  retrain := false
  remeasure := false
  trainDue := false
  measured := false
  quadMw := 0
  xpMw := 0

/-- A unit with no error and no test yet (Table 10-12). -/
def Health.zero : Health where
  c0 := 0
  c1 := 0
  c2 := 0
  c3 := 0
  c4 := 0
  c5 := 0
  score := 0
  passes := 0
  advised := false
  lastTest := none
  watchDue := none
  overdueAt := 0
  fsrSeq := 0

/-- The package totals at 0. -/
def Totals.zero : Totals where
  detect := 0
  res := 0
  shd := 0
  env := 0
  kat := 0
  late := 0
  link := 0
  veto := 0
  memCorr := 0
  memUncorr := 0
  fecCorr := 0
  faults := 0

/-- The settings that R45 gives when no bank is valid, for a power limit in W. -/
def Settings.defaults (limit : Nat) : Settings where
  capMin := 500
  capMax := limit
  calib := []
  units := []
  qlist := []
  history := []
  log := []

/-- A bank that holds no store (log 5). -/
def Bank.empty : Bank where
  intact := false
  generation := 0
  storeCount := 0
  tbSeconds := 0
  set := Settings.defaults 1375

/-- The SEC settings at reset (Table 10-12). -/
def SecCfg.reset : SecCfg where
  tileWatch := 3
  tileAdvise := 12
  portWatch := 8
  portAdvise := 32
  stackWatch := 4
  stackAdvise := 16
  watchPasses := 16
  scoreHalfH := 24
  stressActive := 168
  stressWatch := 24

/-- The SEC block and the health of every unit after a cold start. -/
def Sec.reset : Sec where
  testAuto := true
  overdue := 0
  commitRefused := false
  staged := SecCfg.reset
  committed := SecCfg.reset
  fsrSel := 0
  fsrs := []
  fsrSeq := 0
  totals := Totals.zero
  health := []
  uptime := 0
  halvedAt := 0
  test := none
  lastClass := 3

/-- The Bridle settings at reset (Table 7-2). -/
def BridleCfg.reset : BridleCfg where
  id := 0
  idValid := false
  root := false
  seed := 0
  mark := 0

/-- The Bridle unit at reset (Table 7-2). -/
def Bridle.reset : Bridle where
  count := 0
  st := .unsynced
  parent := none
  hops := 0xFF
  rootId := 0
  theta2 := 0
  quiet := 0
  adopted := false
  staged := BridleCfg.reset
  committed := BridleCfg.reset
  markArmed := false
  markSec := 0
  markNs := 0
  events := 0
  trimmed := []

/-- The pacer halted at Vent level 0, with an empty history (Table 11-4). -/
def Pacer.reset : Pacer where
  running := false
  vent := 0
  baseCount := 0
  baseGrid := 0
  trims := 0
  hist := []
  head := 0

/-- No job (Table 9-3). -/
def Job.none : Job where
  st := .idle
  start := 0
  launch := { tag := 0, sq := 0 }
  step := 0
  attempt := 0
  slot := 0
  pattern := 0
  phase := 0
  notice := Option.none
  noticeAt := 0
  ownFault := Option.none
  faulted := false
  sealed_ := Option.none
  rewound := 0
  final := 0
  abandoned := false
  fenceNow := Option.none
  lastCode := 0
  lastOrigin := 0
  vetoes := []
  detected := false

/-- The work counters at 0. -/
def Work.zero : Work where
  parcelsProv := 0
  storesProv := 0
  windowProv := 0
  parcels := 0
  stores := 0
  window := 0
  steps := 0
  replays := 0

/-- The window with every panel FREE at the 1 GiB that R272 gives (Table 13-2). -/
def Window.reset : Window where
  size := 16384
  panels := []
  stage := []
  gaccs := []
  trees := []
  waiting := []
  takes := []
  hostMem := []

/-- The digests with no Reel loaded (Table 12-5). -/
def Det.reset : Det where
  strict := false
  leaves := []
  filled := []
  latched := 0

/-- The loader registers at reset (Table 14-11). -/
def Ldr.reset : Ldr where
  debug := false
  status := 0
  whereUnit := 0
  whereSection := 0
  whereRec := 0
  whereSlot := 0
  wherePattern := 0
  short := 0
  unchecked := 0
  hazExpect := 0
  hazActual := 0
  hazKind := 0
  hazIndex := 0

/-- The PWR settings at reset (Table 11-4), the cap at CAP_MAX. -/
def PwrCfg.reset (capMax : Nat) : PwrCfg where
  cap := BitVec.ofNat 16 capMax
  window := 5
  ramp := 50
  order := false
  pref := List.replicate 16 0xFFFFFFFF

/-- The power controller at reset (Table 11-4). -/
def Power.reset (capMax : Nat) : Power where
  staged := PwrCfg.reset capMax
  committed := PwrCfg.reset capMax
  inForce := PwrCfg.reset capMax
  events := 0
  now := 0
  samples := []
  mean := 0
  allow := 0
  regs := []
  energy := 0
  jobEnergy := 0
  jobSampling := false
  req := 0
  limiter := 0
  upMax := 0
  vTherm := 0
  cls := 3
  capUnmet := false
  ballastUnmet := false
  thermEpisode := false
  linkRes := 0
  aggLevel := 0
  aggUpMax := 0
  epoch := 0
  decision := none
  heard := []
  seenLeader := none
  ballast := []
  ballastTiles := 0
  buffers := []
  spacing := 8
  model := { staticMw := 0, dynMw := 0, memIdleMw := 0, memActiveMw := 0 }

/-- The time base settings at reset (Table 8-3). -/
def TbCfg.reset : TbCfg where
  mode := false
  slewBound := 0
  stepSec := 0
  stepNs := 0
  stepFrac := 0
  rate := 0
  slew := 0
  civil := 0
  setDate := 0
  setTime := 0

/-- The settings of a time output at reset. -/
def ToutCfg.reset : ToutCfg where
  mode := 0
  pol := false
  startSec := 0
  startNs := 0
  period := 0
  width := 0

/-- A time output at reset. -/
def Tout.reset : Tout where
  staged := ToutCfg.reset
  committed := ToutCfg.reset
  polNow := false
  armed := false
  pulse := false
  pulsePol := false
  missed := false
  skipped := false
  nextLead := 0
  trail := 0

/-- A capture channel at reset. -/
def Capture.reset : Capture where
  edge := 0
  event := false
  queue := []
  overflow := false
  dropped := 0
  episode := false

/-- The time base at reset: seconds 0, not valid (R39, Table 8-3). -/
def TimeBase.reset : TimeBase where
  sec := 0
  ns := 0
  frac := 0
  valid := false
  stepUsed := false
  refLost := false
  slewRem := 0
  stepDue := none
  result := 0
  sub := 0
  events := 0
  staged := TbCfg.reset
  committed := TbCfg.reset
  modeNow := false
  civilNow := 0
  outs := []
  caps := []
  latchSec := 0
  latchNs := 0
  latchFrac := 0
  latchDate := 0x018447B2
  latchTime := 0

/-- The HOST settings at reset (Table 13-2). -/
def HostCfg.reset : HostCfg where
  sq := 0
  cq := 0
  eq := 0
  db := 0
  szSq := 6
  szCq := 6
  szEq := 6
  minUs := 1
  maxUs := 64
  enable := false

/-- The rings at reset, with the link that trained (Table 13-2). -/
def Rings.reset (link : LinkInfo) : Rings where
  link := link
  dropped := 0
  dma := 0
  staged := HostCfg.reset
  committed := HostCfg.reset
  events := 0
  vecCq := 0
  evvec := List.replicate 4 0x01010101
  lastTail := 0
  sqHead := 0
  sqDone := 0
  cqTail := 0
  cqHead := 0
  eqTail := 0
  eqHead := 0
  eqLost := 0
  heartbeat := 0
  pollUs := 1
  wrote := false
  seq := 0
  lost := false
  due := []
  stall := false
  msix := []
  vecPend := 0

/-- The management path at a cold start (Table 15-9). -/
def Mgmt.reset : Mgmt where
  eid := 0
  eidValid := false
  requests := 0
  dropped := 0
  alerts := []
  alertSeq := 0
  alertLost := false
  lostSince := false
  lastCommand := 0
  lastCompletion := 0
  tid := 0
  sensors := []

/-- The package before its supply rises (log 2): a CK8-M8L2 in stage OFF, every register at the reset value that the spec
gives or that a log entry names. -/
def State.reset : State where
  ident := { memDies := 8, lineDies := 2, serial := 0, slotId := 0, rom := 0 }
  tray :=
    { vin48 := 0, perstN := false, coolFlowN := false, thermTripN := true, lref0 := true, lref1 := true, lref2 := true,
      ref10m := true, tMax := 0, groupT := List.replicate 128 0, hubT := [0, 0], lineT := [0, 0, 0] }
  boot :=
    { stage := .off, lastReset := .cold, noValidBank := false, bankFallback := false, potFail := false,
      stageOverrun := false, overrunHold := false, coolCount := true }
  stop := { stopped := false, first := none, cool := false, therm := false, supply := false, clock := false }
  store :=
    { set := Settings.defaults 1375, bankA := Bank.empty, bankB := Bank.empty, active := none, run := none, waiting := [],
      lastResult := 0, worn := false }
  unitGen := 1
  sec := Sec.reset
  tiles := []
  localq := []
  shadowed := []
  mems := []
  far := { held := [], written := [] }
  ports := []
  transits := []
  bridle := Bridle.reset
  pacer := Pacer.reset
  job := Job.none
  work := Work.zero
  window := Window.reset
  reel := none
  det := Det.reset
  ldr := Ldr.reset
  power := Power.reset 1375
  tb := TimeBase.reset
  rings := Rings.reset LinkInfo.down
  mgmt := Mgmt.reset
  tap := { ir := 1, trstN := false, boundary := [], drive := .functional }
  out := { readData := 0, bytes := [], resp := [], tdo := [] }
  latches := []
  entropy := 0
  pending := []

end Sys2Proof.Machine
end

