-- ==== Sys2Proof/Machine/Bits.lean ====
section
/-! DEFINITION. Bit fields, little-endian packing, CRC-32C, mod-255 residues, SHA-256 and CBOR heads. -/

namespace Sys2Proof.Machine

/-- Bits `[lo + w - 1 : lo]` of a word, as a number. -/
def fld {n : Nat} (v : BitVec n) (lo w : Nat) : Nat := v.toNat / 2 ^ lo % 2 ^ w

/-- A number with a field put in place of its bits `[lo + w - 1 : lo]`. -/
def withBits (x lo w v : Nat) : Nat := x - x / 2 ^ lo % 2 ^ w * 2 ^ lo + v % 2 ^ w * 2 ^ lo

/-- Bit `k` of a word. -/
def bit {n : Nat} (v : BitVec n) (k : Nat) : Bool := v.getLsbD k

/-- A flag as a number. -/
def flag (b : Bool) : Nat := if b then 1 else 0

/-- The low `n` bytes of a number, little-endian (R3). -/
def leBytes : Nat → Nat → List Byte
  | 0, _ => []
  | n + 1, v => BitVec.ofNat 8 v :: leBytes n (v / 256)

/-- The number that little-endian bytes spell (R3). -/
def ofLe : List Byte → Nat
  | [] => 0
  | b :: bs => b.toNat + 256 * ofLe bs

/-- Two's complement of an integer in `n` bytes. -/
def leInt (n : Nat) (v : Int) : List Byte := leBytes n (v % (2 ^ (8 * n) : Int)).toNat

/-- The bytes of a line, byte 0 first. -/
def lineBytes (l : LineBits) : List Byte := leBytes 256 l.toNat

/-- The line that bytes spell. -/
def lineOf (bs : List Byte) : LineBits := BitVec.ofNat 2048 (ofLe bs)

/-- The bytes of a page or block payload. -/
def pageBytes (p : PageBits) : List Byte := leBytes 4096 p.toNat

/-- The payload that bytes spell. -/
def pageOf (bs : List Byte) : PageBits := BitVec.ofNat 32768 (ofLe bs)

/-- The bytes of an Envelope. -/
def envBytes (e : EnvBits) : List Byte := leBytes 32 e.toNat

/-- The Envelope that bytes spell. -/
def envOf (bs : List Byte) : EnvBits := BitVec.ofNat 256 (ofLe bs)

/-- Line `j` of a page. -/
def pageLine (p : PageBits) (j : Nat) : LineBits := p.extractLsb' (2048 * j) 2048

/-- The page of 16 lines. -/
def pageOfLines (ls : List LineBits) : PageBits :=
  BitVec.ofNat 32768 (ls.foldr (fun l acc => l.toNat + 2 ^ 2048 * acc) 0)

/-- A list filled with zero bytes, or cut, to `n` bytes. -/
def padTo (n : Nat) (bs : List Byte) : List Byte := (bs ++ List.replicate (n - bs.length) 0).take n

/-! ## CRC-32C (R89) -/

/-- One bit of the reflected CRC-32C register. -/
def crcBit (c : Nat) : Nat := if c % 2 = 1 then (c / 2) ^^^ 0x82F63B78 else c / 2

/-- One byte into the CRC-32C register. -/
def crcByte (c : Nat) (b : Byte) : Nat :=
  (List.range 8).foldl (fun a _ => crcBit a) (c ^^^ b.toNat)

/-- CRC-32C of bytes: initial value and final exclusive-or 0xFFFF_FFFF. -/
def crc32c (bs : List Byte) : Nat := (bs.foldl crcByte 0xFFFFFFFF) ^^^ 0xFFFFFFFF

/-! ## Residues modulo 255 (R90, R92) -/

/-- Column-group residue `k` of bytes: the sum modulo 255 of those at an offset `o` with `o / 8 % 8 = k`. -/
def colResidue (k : Nat) (bs : List Byte) : Nat :=
  (bs.zipIdx.foldl (fun a x => if x.2 / 8 % 8 = k then a + x.1.toNat else a) 0) % 255

/-- The eight column-group residues, byte `k` for group `k`. -/
def residues (bs : List Byte) : List Byte := (List.range 8).map (fun k => BitVec.ofNat 8 (colResidue k bs))

/-- The side residues that agree with a line's bytes. -/
def sideOf (l : LineBits) : BitVec 64 := BitVec.ofNat 64 (ofLe (residues (lineBytes l)))

/-- Residue `k` of a page from the side residues of its lines (R92). -/
def pageResidue (sides : List (BitVec 64)) (k : Nat) : Nat :=
  (sides.foldl (fun a s => a + fld s (8 * k) 8) 0) % 255

/-- By how much the residues of some lines exceed those of their bytes, modulo 255, for each column group (R92). -/
def sideError (sides fromBytes : List (BitVec 64)) (k : Nat) : Nat :=
  (pageResidue sides k + 255 - pageResidue fromBytes k) % 255

/-- Side residues with an amount added to each, modulo 255. -/
def addSide (x : BitVec 64) (err : Nat → Nat) : BitVec 64 :=
  BitVec.ofNat 64 (ofLe ((List.range 8).map (fun k => BitVec.ofNat 8 ((fld x (8 * k) 8 + err k) % 255))))

/-! ## SHA-256 (FIPS 180-4) -/

/-- The round constants, eight words to a row and the earliest word lowest: the leading 32 fractional bits of the cube roots of the
first 64 primes. -/
def shaRows : List (BitVec 256) :=
  [0xAB1C5ED5923F82A459F111F13956C25BE9B5DBA5B5C0FBCF71374491428A2F98#256,
   0xC19BF1749BDC06A780DEB1FE72BE5D74550C7DC3243185BE12835B01D807AA98#256,
   0x76F988DA5CB0A9DC4A7484AA2DE92C6F240CA1CC0FC19DC6EFBE4786E49B69C1#256,
   0x1429296706CA6351D5A79147C6E00BF3BF597FC7B00327C8A831C66D983E5152#256,
   0x92722C8581C2C92E766A0ABB650A735453380D134D2C6DFC2E1B213827B70A85#256,
   0x106AA070F40E3585D6990624D192E819C76C51A3C24B8B70A81A664BA2BFE8A1#256,
   0x682E6FF35B9CCA4F4ED8AA4A391C0CB334B0BCB52748774C1E376C0819A4C116#256,
   0xC67178F2BEF9A3F7A4506CEB90BEFFFA8CC7020884C8781478A5636F748F82EE#256]

/-- The constant of round `t`. -/
def shaK (t : Nat) : Nat := fld (shaRows.getD (t / 8) 0) (32 * (t % 8)) 32

/-- The initial hash value, as one number with its first word highest. -/
def shaStart : BitVec 256 := 0x6A09E667BB67AE853C6EF372A54FF53A510E527F9B05688C1F83D9AB5BE0CD19#256

/-- Rotate right in 32 bits. -/
def ror32 (x k : Nat) : Nat := (x * 2 ^ (32 - k) % 2 ^ 32) ||| x / 2 ^ k

/-- The exclusive-or of three rotations of a word. -/
def ror3 (x i j k : Nat) : Nat := ror32 x i ^^^ ror32 x j ^^^ ror32 x k

/-- The exclusive-or of two rotations of a word and one shift. -/
def ror2 (x i j k : Nat) : Nat := ror32 x i ^^^ ror32 x j ^^^ x / 2 ^ k

/-- The big-endian number of bytes. -/
def ofBe (bs : List Byte) : Nat := bs.foldl (fun a b => 256 * a + b.toNat) 0

/-- The low `n` bytes of a number, big-endian. -/
def beBytes (n v : Nat) : List Byte := (leBytes n v).reverse

/-- Word `k` of a 256-bit hash value, 0 the first and highest. -/
def shaWord (h k : Nat) : Nat := h / 2 ^ (224 - 32 * k) % 2 ^ 32

/-- Round `t`, on the variables packed like a hash value and the sixteen schedule words still ahead, oldest first: every variable
moves down one place, and the fifth and the first take new sums. -/
def shaStep (run : Nat × List Nat) (t : Nat) : Nat × List Nat :=
  let v := shaWord run.1
  let w := fun k => run.2.getD k 0
  let choice := v 6 ^^^ (v 4 &&& (v 5 ^^^ v 6))
  let majority := (v 0 &&& v 1) ||| (v 2 &&& (v 0 ||| v 1))
  let x := v 7 + ror3 (v 4) 6 11 25 + choice + shaK t + w 0
  let moved := withBits (run.1 / 2 ^ 32) 96 32 (v 3 + x)
  (withBits moved 224 32 (x + ror3 (v 0) 2 13 22 + majority),
    run.2.drop 1 ++ [(w 0 + ror2 (w 1) 7 18 3 + w 9 + ror2 (w 14) 17 19 10) % 2 ^ 32])

/-- The hash value after a block of 64 bytes: its variables after 64 rounds, added word by word. -/
def shaBlock (h : Nat) (block : List Byte) : Nat :=
  let words := (List.range 16).map (fun i => ofBe ((block.drop (4 * i)).take 4))
  let run := (List.range 64).foldl shaStep (h, words)
  (List.range 8).foldl (fun a k => a * 2 ^ 32 + (shaWord h k + shaWord run.1 k) % 2 ^ 32) 0

/-- A message padded to whole blocks: a one bit, zeros, and its length in bits. -/
def shaPadded (m : List Byte) : List Byte :=
  m ++ 0x80#8 :: (List.replicate ((119 - m.length % 64) % 64) 0 ++ beBytes 8 (8 * m.length))

/-- The SHA-256 digest: 32 bytes in output order. -/
def sha256 (m : List Byte) : List Byte :=
  let p := shaPadded m
  beBytes 32 ((List.range (p.length / 64)).foldl (fun h i => shaBlock h ((p.drop (64 * i)).take 64)) shaStart.toNat)

/-- A digest kept as 256 bits: byte 0 of the output order is bits [7:0]. -/
def digestBits (m : List Byte) : BitVec 256 := BitVec.ofNat 256 (ofLe (sha256 m))

/-- The 32 bytes of a kept digest. -/
def digestBytes (d : BitVec 256) : List Byte := leBytes 32 d.toNat

/-! ## CBOR, core deterministic encoding (R220, RFC 8949) -/

/-- The head of major type `t` with argument `n`, in its shortest form. -/
def cborHead (t n : Nat) : List Byte :=
  if n < 24 then [BitVec.ofNat 8 (32 * t + n)]
  else if n < 256 then BitVec.ofNat 8 (32 * t + 24) :: beBytes 1 n
  else if n < 65536 then BitVec.ofNat 8 (32 * t + 25) :: beBytes 2 n
  else if n < 2 ^ 32 then BitVec.ofNat 8 (32 * t + 26) :: beBytes 4 n
  else BitVec.ofNat 8 (32 * t + 27) :: beBytes 8 n

/-- An unsigned integer. -/
def cborUint (n : Nat) : List Byte := cborHead 0 n

/-- An integer of either sign. -/
def cborInt (n : Int) : List Byte := if n < 0 then cborHead 1 (-1 - n).toNat else cborHead 0 n.toNat

/-- A byte string. -/
def cborBytes (bs : List Byte) : List Byte := cborHead 2 bs.length ++ bs

/-- An array of encoded items. -/
def cborArray (items : List (List Byte)) : List Byte := cborHead 4 items.length ++ items.flatten

/-- A map from integer keys, in the order given, to encoded items. -/
def cborMap (items : List (Nat × List Byte)) : List Byte :=
  cborHead 5 items.length ++ items.flatMap (fun x => cborUint x.1 ++ x.2)

/-- A boolean. -/
def cborBool (b : Bool) : List Byte := [if b then 0xF5#8 else 0xF4#8]

/-- Null. -/
def cborNull : List Byte := [0xF6#8]

end Sys2Proof.Machine
end

