-- ==== Sys2Proof/Machine/Pcie.lean ====
section
/-! DEFINITION. The host link's PCIe subset (R270 to R272, Table 13-1): which links train, and what configuration space reports. -/

namespace Sys2Proof.Machine

/-! ## Training (Table 13-1) -/

/-- Whether a link trains: 64 GT/s in FLIT mode, or 32 or 16 GT/s without it, at width x16, x8 or x4. -/
def linkTrains (l : LinkInfo) : Bool :=
  (if l.flit then l.speed == 6 else l.speed == 4 || l.speed == 5) && (l.width == 4 || l.width == 8 || l.width == 16)

/-- The link as the part holds it: one that does not train stays down. -/
def trainLink (l : LinkInfo) : LinkInfo := if linkTrains l then l else LinkInfo.down

/-! ## Configuration space (R271, R272) -/

/-- Device ID and vendor ID, as the first configuration word reads. -/
def cfgIds : Nat := 2 ^ 16 * 0xCA1C + Config.vendorId.toNat

/-- Class code and Revision ID, as the third configuration word reads. -/
def cfgClass : Nat := 2 ^ 8 * 0x120000 + 0x21

/-- BAR0: 64-bit, non-prefetchable, 1 MiB. BAR2: 64-bit, prefetchable, the window's size. Their sizes in bytes. -/
def bar0Bytes : Nat := 2 ^ 20
def bar2Bytes (s : State) : Nat := 65536 * s.window.size

/-- The attribute bits of a 64-bit BAR, prefetchable or not. -/
def barKind (prefetch : Bool) : Nat := 4 + 8 * flag prefetch

/-- The sizes that BAR2 may have, in panels: 64 MiB to 64 GiB. -/
def barSizes : List Nat := [1024, 2048, 4096, 8192, 16384, 32768, 65536, 131072, 262144, 524288, 1048576]

/-- The size code of the Resizable BAR control register: 2^(code + 20) bytes. -/
def rebarCode (s : State) : Nat := Nat.log2 (bar2Bytes s) - 20

/-- The sizes that the Resizable BAR capability offers, one bit a code. -/
def rebarSizes : Nat := (barSizes.map (fun n => 2 ^ (Nat.log2 (65536 * n) - 20))).foldl (· + ·) 0

/-- The MSI-X vectors, the largest payload and the largest read request, in bytes. -/
def msixVectors : Nat := 32
def maxPayload : Nat := 512
def maxReadRequest : Nat := 4096

/-- A PCIe function of Table 13-1. -/
inductive PcieFn where
  | msix | msi | intx | casRequester | aer | flr | tenBitTags | aspm | l1pm | sriov | ats | pri | pasid | tph | ide | doe
  deriving DecidableEq, Repr

/-- Whether the host link supports a function. -/
def supported (f : PcieFn) : Bool :=
  match f with
  | .msix => true
  | .casRequester => true
  | .aer => true
  | .flr => true
  | .tenBitTags => true
  | .msi => false
  | .intx => false
  | .aspm => false
  | .l1pm => false
  | .sriov => false
  | .ats => false
  | .pri => false
  | .pasid => false
  | .tph => false
  | .ide => false
  | .doe => false

end Sys2Proof.Machine
end

