-- ==== Sys2Proof/Machine/Sparse.lean ====
section
/-! DEFINITION. Sparse data keyed by a number, in one canonical form: keys strictly rising, no entry equal to the default.
Host memory is sparse data of bytes whose default is 0 (log 7). -/

namespace Sys2Proof.Machine

/-- The entry at a key. -/
def find? {α : Type} (k : Nat) : Sparse α → Option α
  | [] => none
  | (j, w) :: m => if k = j then some w else find? k m

/-- The entry at a key, or the default. -/
def look {α : Type} (d : α) (k : Nat) (m : Sparse α) : α := (find? k m).getD d

/-- The data with an entry at a key. -/
def put {α : Type} (k : Nat) (v : α) : Sparse α → Sparse α
  | [] => [(k, v)]
  | (j, w) :: m => if k < j then (k, v) :: (j, w) :: m else if k = j then (k, v) :: m else (j, w) :: put k v m

/-- The data without the entry at a key. -/
def erase {α : Type} (k : Nat) : Sparse α → Sparse α
  | [] => []
  | (j, w) :: m => if k = j then erase k m else (j, w) :: erase k m

/-- The data with a value at a key; the default is not listed. -/
def store {α : Type} [DecidableEq α] (d : α) (k : Nat) (v : α) (m : Sparse α) : Sparse α :=
  if v = d then erase k m else put k v m

/-- The data with a function applied to every entry. -/
def mapVals {α : Type} [DecidableEq α] (d : α) (f : α → α) (m : Sparse α) : Sparse α :=
  (m.map (fun x => (x.1, f x.2))).filter (fun x => decide (x.2 ≠ d))

/-- The keys rise strictly. -/
def risingKeys {α : Type} : Sparse α → Bool
  | [] => true
  | [_] => true
  | (j, _) :: (k, w) :: m => decide (j < k) && risingKeys ((k, w) :: m)

/-- The canonical form. -/
def canonical {α : Type} [DecidableEq α] (d : α) (m : Sparse α) : Bool :=
  risingKeys m && m.all (fun x => decide (x.2 ≠ d))

/-- The canonical form of host memory. -/
def Memory.wf (m : List Host.Cell) : Bool := canonical (0 : Byte) m

/-- What host memory holds at an address. -/
def readByte (m : List Host.Cell) (a : Nat) : Byte := look 0 a m

/-- `n` bytes of host memory from an address. -/
def readBytes (m : List Host.Cell) (a n : Nat) : List Byte := (List.range n).map (fun i => readByte m (a + i))

/-- Host memory with a byte written. -/
def writeByte (m : List Host.Cell) (a : Nat) (b : Byte) : List Host.Cell := store 0 a b m

/-- Host memory with bytes written from an address. -/
def writeBytes (m : List Host.Cell) (a : Nat) : List Byte → List Host.Cell
  | [] => m
  | b :: bs => writeBytes (writeByte m a b) (a + 1) bs

/-- Host memory with single bytes written, in the order given: what others wrote (log 7). -/
def writeCells (m : List Host.Cell) (cs : List (Nat × Byte)) : List Host.Cell :=
  cs.foldl (fun m c => writeByte m c.1 c.2) m

end Sys2Proof.Machine
end

