-- ==== Sys2Proof/Machine/Civil.lean ====
section
/-! DEFINITION. The time base as a number, its tick and its civil view (R157 to R159, R177 to R179). -/

namespace Sys2Proof.Machine

/-- The signed value of a word. -/
def sgn {n : Nat} (v : BitVec n) : Int := v.toInt

/-- The largest seconds value. -/
def secMax : Nat := 2 ^ 48

/-- The fraction units in a nanosecond. -/
def fracUnit : Nat := 2 ^ 48

/-- The time base in fraction units. -/
def tbUnits (t : TimeBase) : Nat := (t.sec * 10 ^ 9 + t.ns) * fracUnit + t.frac

/-- The time base at a number of fraction units, which wraps at 2^48 seconds (R158). -/
def tbOfUnits (u : Nat) (t : TimeBase) : TimeBase :=
  let n := u / fracUnit
  { t with sec := n / 10 ^ 9 % secMax, ns := n % 10 ^ 9, frac := u % fracUnit }

/-- The slew term `s` of a cycle (R168). -/
def slewTerm (t : TimeBase) : Int :=
  let m : Int := (t.committed.slewBound.toNat * fracUnit / 10 ^ 6 : Nat)
  if t.slewRem.natAbs ≤ m.natAbs then t.slewRem else if 0 < t.slewRem then m else -m

/-- What a TIME cycle adds, in fraction units (R157). -/
def tickUnits (t : TimeBase) : Nat := (2 ^ 48 + sgn t.committed.rate + slewTerm t).toNat

/-- The time base after one TIME cycle (R157, R158, R168). -/
def tbTick (t : TimeBase) : TimeBase :=
  let u := tbUnits t + tickUnits t
  let w := decide (secMax * 10 ^ 9 * fracUnit ≤ u)
  let t' := tbOfUnits u t
  { t' with slewRem := t.slewRem - slewTerm t, valid := t.valid && !w,
            events := if w then t.events ||| 8 else t.events }

/-- The seconds of the time base where it is valid, else 0. -/
def validSec (t : TimeBase) : Nat := if t.valid then t.sec else 0

/-- The last `t` that the civil view covers (R177). -/
def civilMax : Int := 253402300799

/-- Year, month, day and day of week of a day number (R177, R178). -/
def civilDay (days : Nat) : Nat × Nat × Nat × Nat :=
  let z := days + 719468
  let era := z / 146097
  let doe := z % 146097
  let yoe := (doe - doe / 1460 + doe / 36524 - doe / 146096) / 365
  let doy := doe - (365 * yoe + yoe / 4 - yoe / 100)
  let mp := (5 * doy + 2) / 153
  let d := doy - (153 * mp + 2) / 5 + 1
  let m := if mp < 10 then mp + 3 else mp - 9
  let y := yoe + era * 400 + (if m ≤ 2 then 1 else 0)
  (y, m, d, (days + 3) % 7)

/-- The TB_CIVIL_DATE word (Table 8-2), by the offset that acts since the last TIME cycle (R177). -/
def civilDate (t : TimeBase) : Word32 :=
  let c : Int := t.sec + sgn t.civilNow
  if c < 0 ∨ civilMax < c then 0x80000000 else
    let (y, m, d, w) := civilDay (c.toNat / 86400)
    BitVec.ofNat 32 (y + m * 2 ^ 14 + d * 2 ^ 18 + w * 2 ^ 23)

/-- The TB_CIVIL_TIME word (Table 8-2). -/
def civilTime (t : TimeBase) : Word32 :=
  let c : Int := t.sec + sgn t.civilNow
  let v := flag t.valid * 2 ^ 31
  if c < 0 ∨ civilMax < c then BitVec.ofNat 32 v else
    let n := c.toNat
    BitVec.ofNat 32 (n / 3600 % 24 + n / 60 % 60 * 2 ^ 5 + n % 60 * 2 ^ 11 + v)

/-- The latched view of one TIME cycle (R159). -/
def latchTb (t : TimeBase) : TimeBase :=
  { t with latchSec := t.sec, latchNs := t.ns, latchFrac := t.frac / 2 ^ 16, latchDate := civilDate t,
           latchTime := civilTime t }

/-- The length of a month (R179). -/
def daysInMonth (y m : Nat) : Nat :=
  if m = 2 then (if y % 4 = 0 ∧ (y % 100 ≠ 0 ∨ y % 400 = 0) then 29 else 28)
  else if m = 4 ∨ m = 6 ∨ m = 9 ∨ m = 11 then 30 else 31

/-- The outcome of a civil set before its other checks (R179). -/
inductive CivilSet where
  | invalid
  | outOfRange
  | secs (n : Nat)
  deriving DecidableEq, Repr

/-- The seconds that a civil set asks for (R179). -/
def civilSeconds (date time : Word32) (offset : Int) : CivilSet :=
  let y := fld date 0 14
  let m := fld date 14 4
  let d := fld date 18 5
  let hh := fld time 0 5
  let mm := fld time 5 6
  let ss := fld time 11 6
  if y < 1970 ∨ 9999 < y ∨ m < 1 ∨ 12 < m ∨ d < 1 ∨ daysInMonth y m < d ∨ 23 < hh ∨ 59 < mm ∨ 59 < ss then .invalid
  else
    let yy := if m ≤ 2 then y - 1 else y
    let era := yy / 400
    let yoe := yy % 400
    let doy := (153 * (if m ≤ 2 then m + 9 else m - 3) + 2) / 5 + d - 1
    let days := era * 146097 + yoe * 365 + yoe / 4 - yoe / 100 + doy - 719468
    let sec : Int := (days * 86400 + hh * 3600 + mm * 60 + ss : Nat) - offset
    if sec < 0 ∨ (secMax : Int) ≤ sec then .outOfRange else .secs sec.toNat

end Sys2Proof.Machine
end

