-- ==== Sys2Proof/Machine/Reel.lean ====
section
/-! DEFINITION. Reading the loaded Reel: the sections in force (R260, R306 to R309), the fields of its records, and which
units it uses (chapter 15). -/

namespace Sys2Proof.Machine

/-! ## Fields of the instruction word (Table 4-4) -/

def wSlot (w : Rec128) : Nat := fld w 116 12
def wToken (w : Rec128) : Nat := fld w 110 6
def wOp (w : Rec128) : Nat := fld w 102 8
def wFmt (w : Rec128) : Nat := fld w 98 4
def wRnd (w : Rec128) : Nat := fld w 95 3
def wV (w : Rec128) : Bool := bit w 94
def wE (w : Rec128) : Bool := bit w 93
def wC (w : Rec128) : Bool := bit w 92
def wSat (w : Rec128) : Bool := bit w 91
def wDst (w : Rec128) : Nat := fld w 72 16
def wSrcA (w : Rec128) : Nat := fld w 56 16
def wSrcB (w : Rec128) : Nat := fld w 40 16
def wSrcC (w : Rec128) : Nat := fld w 24 16
def wAux (w : Rec128) : Nat := fld w 16 8
def wImm (w : Rec128) : Nat := fld w 0 16

/-- The issue token counted within the step (R54). -/
def wStart (w : Rec128) : Nat := 64 * wSlot w + wToken w

/-- The C word that the loader installs for a tile without a TILE section (R309): a NOP at slot COMMIT, token 0. -/
def cWord (commit : Nat) : Rec128 := BitVec.ofNat 128 (commit * 2 ^ 116 + 2 ^ 92)

/-! ## Fields of a route entry (Table 6-6) -/

def rUnit (e : Rec128) : Nat := fld e 0 16
def rPkg (e : Rec128) : Nat := fld e 16 11
def rBlock (e : Rec128) : Bool := bit e 27
def rInbound (e : Rec128) : Bool := bit e 28
def rEntry (e : Rec128) : Nat := fld e 32 4
def rEvent (e : Rec128) : Nat := fld e 36 4
def rPort (e : Rec128) : Nat := fld e 40 6
def rRx (e : Rec128) : Nat := fld e 48 8
def rHops (e : Rec128) : Nat := fld e 56 8
def rTag (e : Rec128) : Nat := fld e 64 64

/-! ## Fields of a block entry (Table 5-3) -/

def bBlock (e : Rec128) : Nat := fld e 0 25
def bStack (e : Rec128) : Nat := fld e 25 3
def bPaired (e : Rec128) : Bool := bit e 28
def bFar (e : Rec128) : Bool := bit e 29
def bGenMode (e : Rec128) : Nat := fld e 30 2
def bGenLag (e : Rec128) : Nat := fld e 32 16
def bTag (e : Rec128) : Nat := fld e 64 64

/-! ## Fields of a window entry (Table 13-12) -/

def nPanel (e : Rec128) : Nat := fld e 0 20
def nSlot (e : Rec128) : Nat := fld e 20 4
def nProv (e : Rec128) : Bool := bit e 24
def nRank (e : Rec128) : Nat := fld e 32 4
def nLeaves (e : Rec128) : Nat := fld e 36 4 + 1
def nLeafPanel (e : Rec128) : Nat := fld e 40 20
def nLeafSlot (e : Rec128) : Nat := fld e 60 4
def nTag (e : Rec128) : Nat := fld e 64 64

/-- The linear slot of leaf `r` (Table 13-12). -/
def nLeaf (e : Rec128) (r : Nat) : Nat := 15 * nLeafPanel e + nLeafSlot e + r

/-- The linear slot of the target. -/
def nTarget (e : Rec128) : Nat := 15 * nPanel e + nSlot e

/-! ## Fields of a crosspoint entry (Table 6-7), 64 bits -/

def xSlot (e : BitVec 256) : Nat := fld e 0 12
def xPort (e : BitVec 256) : Nat := fld e 12 4
def xPos (e : BitVec 256) : Nat := fld e 16 4
def xReceive (e : BitVec 256) : Bool := bit e 20
def xKind (e : BitVec 256) : Nat := fld e 21 3
def xUnit (e : BitVec 256) : Nat := fld e 24 16
def xRoute (e : BitVec 256) : Nat := fld e 40 8
def xPidx (e : BitVec 256) : Nat := fld e 48 4
def xEntry (e : BitVec 256) : Nat := fld e 52 4
def xEvent (e : BitVec 256) : Nat := fld e 56 4
/-- Arrival port and position of a transmit transit entry. -/
def xArrPort (e : BitVec 256) : Nat := fld e 24 6
def xArrPos (e : BitVec 256) : Nat := fld e 30 4

/-! ## Sections in force -/

/-- Section types (Table 14-3). -/
def secTopology : Nat := 0x01
def secJobIds : Nat := 0x02
def secPhases : Nat := 0x03
def secSequence : Nat := 0x04
def secPatterns : Nat := 0x05
def secTile : Nat := 0x06
def secRoutes : Nat := 0x07
def secBlocks : Nat := 0x08
def secWindow : Nat := 0x09
def secShadow : Nat := 0x0A
def secXpoint : Nat := 0x0B
def secWeights : Nat := 0x0C
def secInputs : Nat := 0x0D
def secFarFill : Nat := 0x0E
def secReloc : Nat := 0x0F
def secTestWin : Nat := 0x10
def secHazard : Nat := 0x11
def secJobLinks : Nat := 0x12

/-- The OWNER of a package section (Table 14-2). -/
def ownPackage : Nat := 0xFFFF

/-- A section by type, owner and the phase that it replaces. -/
def secFind (r : Reel) (typ owner : Nat) (alt : Option Nat) : Option Section_ :=
  r.sections.find? (fun x => x.typ == typ && x.owner == owner && x.alt == alt)

/-- Whether a phase has a strict alternate (R260). -/
def hasAlternate (r : Reel) (phase : Nat) : Bool := r.sections.any (fun x => x.alt == some phase)

/-- The section types that an alternate replaces whole: instruction lists, route, block, shadow and crosspoint tables (R260). -/
def replaced (typ : Nat) : Bool :=
  typ == secTile || typ == secRoutes || typ == secBlocks || typ == secShadow || typ == secXpoint

/-- The section in force in a phase. When the Reel runs strict, the phase's alternate takes its place: what R260 lists comes from the
alternate alone, and the alternate's section of another type, where it has one, goes before the primary's (log 20). -/
def secOf (r : Reel) (typ owner phase : Nat) : Option Section_ :=
  let own := secFind r typ owner (some phase)
  if r.strict && hasAlternate r phase then (if replaced typ then own else own <|> secFind r typ owner none)
  else secFind r typ owner none

/-- The records of the section in force. -/
def recsOf (r : Reel) (typ owner phase : Nat) : List (BitVec 256) :=
  match secOf r typ owner phase with
  | some x => x.recs
  | none => []

/-- The records of a package section. -/
def pkgRecs (r : Reel) (typ : Nat) : List (BitVec 256) := recsOf r typ ownPackage 0x100

/-- The sections that may be in force in some phase: every primary, and in strict mode every alternate. -/
def liveSections (r : Reel) (typ : Nat) : List Section_ :=
  r.sections.filter (fun x => x.typ == typ && (x.alt == none || r.strict))

/-- A 128-bit record of a table, by index. -/
def recAt (l : List (BitVec 256)) (i : Nat) : Option Rec128 := (l[i]?).map (fun x => x.extractLsb' 0 128)

def routeAt (r : Reel) (u phase i : Nat) : Option Rec128 := recAt (recsOf r secRoutes u phase) i
def blockAt (r : Reel) (u phase i : Nat) : Option Rec128 := recAt (recsOf r secBlocks u phase) i
def windowAt (r : Reel) (u phase i : Nat) : Option Rec128 := recAt (recsOf r secWindow u phase) i

/-! ## Phases, sequence and patterns -/

/-- A SEQUENCE record as pattern, phase and REPEAT. -/
def seqRec (e : BitVec 256) : Nat × Nat × Nat := (fld e 0 6, fld e 8 6, fld e 32 32)

/-- The SEQUENCE records in force: an alternate's records take the place of its phase's (R260, log 20). -/
def seqGo (r : Reel) : List (BitVec 256) → List Nat → List (Nat × Nat × Nat)
  | [], _ => []
  | e :: t, seen =>
    let p := (seqRec e).2.1
    match if r.strict then secFind r secSequence ownPackage (some p) else none with
    | some x => if seen.contains p then seqGo r t seen else x.recs.map seqRec ++ seqGo r t (p :: seen)
    | none => seqRec e :: seqGo r t seen

/-- The step sequence of the job (R308). -/
def seqOf (r : Reel) : List (Nat × Nat × Nat) := seqGo r (pkgRecs r secSequence) []

/-- The pattern and phase of the step with the given index from 0. -/
def walkSeq : List (Nat × Nat × Nat) → Nat → Option (Nat × Nat)
  | [], _ => none
  | (p, f, n) :: t, k => if k < n then some (p, f) else walkSeq t (k - n)

/-- The pattern and phase of a step number, which counts from 1 (R91, R308). -/
def stepPlan (r : Reel) (n : Nat) : Option (Nat × Nat) := if n = 0 then none else walkSeq (seqOf r) (n - 1)

/-- The number of steps of the job (R308). -/
def stepTotal (r : Reel) : Nat := ((seqOf r).map (fun x => x.2.2)).foldl (· + ·) 0

/-- The commit-point slot of a pattern (Table 14-3). -/
def commitSlot (r : Reel) (phase pattern : Nat) : Nat :=
  match (recsOf r secPatterns ownPackage phase)[pattern]? with
  | some e => fld e 0 12
  | none => 0

/-- The PHASES record of a phase. -/
def phaseRec (r : Reel) (phase : Nat) : BitVec 256 := (pkgRecs r secPhases).getD phase 0

/-- The record with the memory floor in force: an alternate's own is the first of its PHASES section (R260, log 20). -/
def floorRec (r : Reel) (phase : Nat) : BitVec 256 :=
  match if r.strict then secFind r secPhases ownPackage (some phase) else none with
  | some x => x.recs.getD 0 0
  | none => phaseRec r phase

/-- The voltage class and PREF_VENT, which an alternate keeps, and the memory floor, which it does not (R260). -/
def phaseClass (r : Reel) (phase : Nat) : Nat := fld (phaseRec r phase) 0 3
def phasePref (r : Reel) (phase : Nat) : Nat := fld (phaseRec r phase) 8 6
def phaseFloor (r : Reel) (phase : Nat) : Nat := fld (floorRec r phase) 16 3

/-! ## Tiles -/

/-- Pages of the three Pocket regions of a tile (Table 14-4, R309). -/
def regions (r : Reel) (u phase : Nat) : Nat × Nat × Nat :=
  match secOf r secTile u phase with
  | some x => (x.aux.getD 0 1, x.aux.getD 1 0, x.aux.getD 2 0)
  | none => (1, 0, 0)

/-- The words up to and including the first C word. -/
def upToC : List Rec128 → List Rec128
  | [] => []
  | w :: t => if wC w then [w] else w :: upToC t

/-- The words of a tile's list. -/
def tileList (r : Reel) (u phase : Nat) : List Rec128 := (recsOf r secTile u phase).map (fun x => x.extractLsb' 0 128)

/-- The words that a tile issues in a step of a pattern (R60, R308, R309). -/
def stepWords (r : Reel) (u phase pattern : Nat) : List Rec128 :=
  match secOf r secTile u phase with
  | some x =>
    let k := x.aux.getD (4 + pattern) 0xFFFF
    if k = 0xFFFF then [] else upToC ((tileList r u phase).drop k)
  | none => [cWord (commitSlot r phase pattern)]

/-! ## Line dies -/

/-- The OWNER of a line die's section. -/
def ownLine (n : Nat) : Nat := 0x6000 + n

/-- The crosspoint entries of a pattern on a line die (R308). -/
def xpEntries (r : Reel) (n phase pattern : Nat) : List (BitVec 256) :=
  match secOf r secXpoint (ownLine n) phase with
  | some x =>
    let before := ((x.aux.take pattern).foldl (· + ·) 0)
    (x.recs.drop before).take (x.aux.getD pattern 0)
  | none => []

/-- The transmit entries of a port in a step slot. -/
def txEntries (r : Reel) (p phase pattern slot : Nat) : List (BitVec 256) :=
  (xpEntries r (p / 16) phase pattern).filter
    (fun e => !xReceive e && xSlot e == slot && xPort e == p % 16)

/-- The receive entries of a port in a step slot. -/
def rxEntries (r : Reel) (p phase pattern slot : Nat) : List (BitVec 256) :=
  (xpEntries r (p / 16) phase pattern).filter
    (fun e => xReceive e && xSlot e == slot && xPort e == p % 16)

/-! ## Topology and units in use -/

/-- The TOPOLOGY record of a port. -/
def topoOf (r : Reel) (p : Nat) : Option (BitVec 256) := (pkgRecs r secTopology).find? (fun e => fld e 0 6 == p)

/-- The ports of the TOPOLOGY section. -/
def jobPorts (r : Reel) : List Nat := (pkgRecs r secTopology).map (fun e => fld e 0 6)

/-- The ports that the routes of a Reel touch: those that TOPOLOGY, a route entry or a crosspoint entry names (R41). -/
def touchedPorts (r : Reel) : List Nat :=
  jobPorts r ++
  (liveSections r secRoutes).flatMap (fun x => (x.recs.map (fun e => fld e 40 6)).filter (fun p => p != 63)) ++
  (liveSections r secXpoint).flatMap (fun x => x.recs.map (fun e => 16 * (x.owner - 0x6000) + xPort e))

/-- The class in use of a port (R127). -/
def topoClass (r : Reel) (p : Nat) : Nat :=
  match topoOf r p with
  | some e => fld e 28 3
  | none => 0

/-- The identities of the job. -/
def jobIds (r : Reel) : List Nat := (pkgRecs r secJobIds).map (fun e => fld e 0 11)

/-- The job leader (R145). -/
def leaderOf (r : Reel) : Nat := (jobIds r).headD 0

/-- The loaded job tag (R259). -/
def loadedTag (r : Reel) : Nat := r.jobTag.toNat % 2 ^ 31 + (if r.strict then 2 ^ 31 else 0)

/-- The stacks that block entries, list entries and FAR_FILL records name. -/
def reelStacks (r : Reel) : List Nat :=
  (liveSections r secBlocks).flatMap (fun x => x.recs.map (fun e => fld e 25 3)) ++
  (pkgRecs r secWeights ++ pkgRecs r secInputs).map (fun e => fld e 89 3) ++
  (pkgRecs r secFarFill).map (fun e => fld e 44 3)

/-- Whether the Reel names a unit of the unit state table, by index (Table 15-3); the sync parent counts in `usesUnit`. -/
def reelNames (r : Reel) (i : Nat) : Bool :=
  if i < 1024 then (liveSections r secTile).any (fun x => x.owner == i)
  else if i < 1072 then (jobPorts r).contains (i - 1024)
  else (reelStacks r).contains (i - 1072)

end Sys2Proof.Machine
end

