-- ==== Sys2Proof/Machine/Ops.lean ====
section
/-! DEFINITION. The named operations on the state that many commands share: access to tiles, ports, stacks and units,
host memory and rings, events, alerts, records, logs, counters, scores and unit states. -/

namespace Sys2Proof.Machine

/-! ## Access -/

/-- The Bridle count. -/
def cnt (s : State) : Nat := s.bridle.count

def tileOf (s : State) (u : Nat) : Tile := look Tile.clear u s.tiles
def setTile (u : Nat) (t : Tile) (s : State) : State := { s with tiles := store Tile.clear u t s.tiles }
def updTile (u : Nat) (f : Tile → Tile) (s : State) : State := setTile u (f (tileOf s u)) s

def portOf (s : State) (p : Nat) : Port := look Port.off p s.ports
def setPort (p : Nat) (v : Port) (s : State) : State := { s with ports := store Port.off p v s.ports }
def updPort (p : Nat) (f : Port → Port) (s : State) : State := setPort p (f (portOf s p)) s

def memOf (s : State) (k : Nat) : Stack := look Stack.off k s.mems
def setMem (k : Nat) (v : Stack) (s : State) : State := { s with mems := store Stack.off k v s.mems }
def updMem (k : Nat) (f : Stack → Stack) (s : State) : State := setMem k (f (memOf s k)) s

def healthOf (s : State) (i : Nat) : Health := look Health.zero i s.sec.health
def setHealth (i : Nat) (h : Health) (s : State) : State :=
  { s with sec := { s.sec with health := store Health.zero i h s.sec.health } }
def updHealth (i : Nat) (f : Health → Health) (s : State) : State := setHealth i (f (healthOf s i)) s

def outOf (t : TimeBase) (n : Nat) : Tout := look Tout.reset n t.outs
def setOut (n : Nat) (o : Tout) (t : TimeBase) : TimeBase := { t with outs := store Tout.reset n o t.outs }
def capOf (t : TimeBase) (c : Nat) : Capture := look Capture.reset c t.caps
def setCap (c : Nat) (v : Capture) (t : TimeBase) : TimeBase := { t with caps := store Capture.reset c v t.caps }

def panelOf (s : State) (p : Nat) : Panel := look { st := .free, blocks := false, backing := 0 } p s.window.panels
def setPanel (p : Nat) (v : Panel) (s : State) : State :=
  { s with window := { s.window with panels := store { st := .free, blocks := false, backing := 0 } p v s.window.panels } }

def hostMem (s : State) : List Host.Cell := s.window.hostMem
def setHostMem (m : List Host.Cell) (s : State) : State := { s with window := { s.window with hostMem := m } }

/-- A counter of `w` bits plus one, saturating. -/
def satInc (w n : Nat) : Nat := min (n + 1) (2 ^ w - 1)

/-- Host memory after others have written bytes (log 7). -/
def hostWrote (cs : List (Nat × Byte)) (s : State) : State := setHostMem (writeCells (hostMem s) cs) s

/-! ## Populated positions and unit indexes (R15, Table 15-3) -/

/-- The blocks of a stack (R87). -/
def stackBlocks : Nat := 25165824

/-- Whether a stack is populated: W0 to W3 are 0 to 3, E0 to E3 are 4 to 7 (Table 2-1). -/
def stackPop (s : State) (k : Nat) : Bool := decide (k < 8) && decide (k % 4 < s.ident.memDies / 2)

/-- The number of populated ports. -/
def portCount (s : State) : Nat := 16 * s.ident.lineDies

/-- Whether a port is populated. -/
def portPop (s : State) (p : Nat) : Bool := decide (p < portCount s)

/-- Whether a unit of the unit state table is populated. -/
def unitPop (s : State) (i : Nat) : Bool :=
  if i < 1024 then true else if i < 1072 then portPop s (i - 1024) else stackPop s (i - 1072)

/-- The unit index that a UNIT field names (Tables 10-11a, 15-3). -/
def unitIndex (u : UnitField) : Option Nat :=
  let n := u.toNat
  if n < 1024 then some n
  else if 0x4000 ≤ n ∧ n < 0x4030 then some (1024 + (n - 0x4000))
  else if 0x8000 ≤ n ∧ n < 0x8008 then some (1072 + (n - 0x8000))
  else none

/-- The UNIT field of a unit index. -/
def unitField (i : Nat) : UnitField :=
  BitVec.ofNat 16 (if i < 1024 then i else if i < 1072 then 0x4000 + (i - 1024) else 0x8000 + (i - 1072))

def portUnit (p : Nat) : UnitField := BitVec.ofNat 16 (0x4000 + p)
def stackUnit (k : Nat) : UnitField := BitVec.ofNat 16 (0x8000 + k)
def tileUnit (u : Nat) : UnitField := BitVec.ofNat 16 u

/-- The entry of a unit in the unit state table: unpopulated positions read OFF (R16), unlisted units ACTIVE. -/
def unitEntry (s : State) (i : Nat) : UnitEntry :=
  if unitPop s i then look { st := .active, held := false } i s.store.set.units else { st := .off, held := false }

/-- STATE as it shows: a unit held until the job boundary is FENCED, one that SET_OFF holds too (R325, R331). -/
def shownSt (e : UnitEntry) : UnitSt := if e.held then .fenced else e.st

def unitSt (s : State) (i : Nat) : UnitSt := shownSt (unitEntry s i)

/-- FENCED or OFF. -/
def outOfService (s : State) (i : Nat) : Bool := unitSt s i == .fenced || unitSt s i == .off

/-- STATE as the table encodes it (R325). -/
def unitCode (u : UnitSt) : Nat :=
  match u with
  | .active => 0
  | .watch => 1
  | .fenced => 2
  | .off => 3

/-- The byte of a unit entry (R325). -/
def entryByte (e : UnitEntry) : Byte := BitVec.ofNat 8 (unitCode (shownSt e) + 4 * flag e.held)

/-- The package power limit, W (R17). -/
def powerLimit (s : State) : Nat := 725 + 50 * s.ident.memDies + 125 * s.ident.lineDies

/-- Whether the package is READY and not in a reset. -/
def isReady (s : State) : Bool := s.boot.stage == .ready

/-- Whether the management path and the service core run: from the end of SERVICE_BOOT (Table 3-1). -/
def mgmtUp (s : State) : Bool := !(s.boot.stage == .off || s.boot.stage == .serviceBoot)

/-- Whether VR23 and LD0_SVC are on (R23). -/
def svcOn (s : State) : Bool := s.boot.stage != .off

/-- Whether a regulator feeds a position that the assembly has (R22, Table 2-5): VR20 to VR22 belong to line dies 0 to 2. -/
def regulatorPop (s : State) (r : Nat) : Bool :=
  decide (r < 24) && (decide (r < 20) || r == 23 || decide (r - 20 < s.ident.lineDies))

/-- Whether the stage has the rails of the Spar dies and the memory on: from RAILS (Table 3-1). -/
def railsUp (s : State) : Bool :=
  s.boot.stage == .rails || s.boot.stage == .memoryInit || s.boot.stage == .selfTest || s.boot.stage == .ready

/-- Whether a regulator runs: VR23 from the start threshold (R23), the line dies from HELD, the others from RAILS (Table 3-1), and
the compute rails VR0 to VR15 not while the package is stopped (R248). -/
def regulatorOn (s : State) (r : Nat) : Bool :=
  regulatorPop s r &&
  (if r = 23 then svcOn s
   else if 20 ≤ r then svcOn s && s.boot.stage != .serviceBoot
   else railsUp s && (decide (16 ≤ r) || !s.stop.stopped))

/-- Whether the host link is up: it has trained at the end of RAILS (R270, Table 3-1). -/
def linkUp (s : State) : Bool :=
  linkTrains s.rings.link && (s.boot.stage == .memoryInit || s.boot.stage == .selfTest || s.boot.stage == .ready)

/-- Whether BAR0 answers beyond the ID, BOOT and SS blocks: over a link that has trained, in READY, which a stop does not leave, and
not in the SELF_TEST that follows a CLEAR (R34, R249, R270). -/
def barOpen (s : State) : Bool := isReady s && linkUp s

/-! ## The job -/

def running (s : State) : Bool := s.job.st == .running
def armed (s : State) : Bool := s.job.st == .armed
def jobBusy (s : State) : Bool := running s || armed s

/-- *D* of the loaded Reel (R146). -/
def diam (s : State) : Nat :=
  match s.reel with
  | some r => r.diameter
  | none => 0

/-- The commit-point slot of the step that runs. -/
def curCommit (s : State) : Nat :=
  match s.reel with
  | some r => commitSlot r s.job.phase s.job.pattern
  | none => 0

/-- Whether the sync parent port counts as used: while a job runs or a launch is armed (chapter 15). -/
def parentUsed (s : State) (i : Nat) : Bool := jobBusy s && s.bridle.parent.any (fun p => 1024 + p == i)

/-- Whether the loaded Reel uses a unit (chapter 15). -/
def usesUnit (s : State) (i : Nat) : Bool :=
  match s.reel with
  | some r => reelNames r i || parentUsed s i
  | none => false

/-- Whether the loaded Reel uses a port. -/
def reelPort (s : State) (p : Nat) : Bool :=
  match s.reel with
  | some r => (jobPorts r).contains p
  | none => false

/-! ## The link reserve (R241) -/

/-- The sum of a list of numbers. -/
def total (l : List Nat) : Nat := l.foldl (· + ·) 0

/-- The largest of a list of numbers, 0 for none. -/
def largest (l : List Nat) : Nat := l.foldl max 0

/-- What a quad draws, in mW, as its TRAINED ports measured it, the largest figure of several (R241, log 76). -/
def quadReserve (s : State) (q : Nat) : Nat :=
  largest (((List.range 4).filter (fun i => (portOf s (4 * q + i)).st == .trained)).map (fun i => (portOf s (4 * q + i)).quadMw))

/-- What a crosspoint draws, in mW, as the ports of its line die measured it. -/
def crosspointReserve (s : State) (n : Nat) : Nat := largest ((List.range 16).map (fun i => (portOf s (16 * n + i)).xpMw))

/-- The power of every quad with a port in TRAINED and of every crosspoint, in mW (R241). -/
def measuredReserve (s : State) : Nat :=
  total ((List.range (4 * s.ident.lineDies)).map (quadReserve s)) + total ((List.range s.ident.lineDies).map (crosspointReserve s))

/-- The link reserve in mW: fixed while a Reel is loaded (R241). -/
def linkReserve (s : State) : Nat := if s.reel.isSome then s.power.linkRes else measuredReserve s

/-! ## Host memory as the rings see it -/

/-- A 32-bit sequence number after the given one, which skips 0 (R350). -/
def nextSeq (n : Nat) : Nat := if n + 1 = 2 ^ 32 then 1 else n + 1

/-- The part's line of the doorbell block (Table 13-3). -/
def partLine (r : Rings) : List Byte :=
  leBytes 4 r.sqHead.toNat ++ leBytes 4 r.cqTail.toNat ++ leBytes 4 r.eqTail.toNat ++ leBytes 4 r.eqLost.toNat ++
  leBytes 4 r.pollUs ++ leBytes 4 r.heartbeat.toNat

/-- Host memory with the part's line written, while the rings are enabled. -/
def syncDoorbell (s : State) : State :=
  if s.rings.committed.enable then
    setHostMem (writeBytes (hostMem s) (s.rings.committed.db.toNat + 0x40) (partLine s.rings)) s
  else s

/-- The entries of a ring (R275). -/
def ringSize (z : BitVec 5) : Nat := 2 ^ z.toNat

/-- The PHASE bit of a record with a count (R275). -/
def phaseBit (c : BitVec 32) (z : BitVec 5) : Nat := 1 - c.toNat / ringSize z % 2

/-- The address of a ring entry. -/
def ringAt (base : Word64) (c : BitVec 32) (z : BitVec 5) (w : Nat) : Nat := base.toNat + w * (c.toNat % ringSize z)

/-- The vector of an event group (R282). -/
def groupVec (r : Rings) (code : BitVec 16) : Nat :=
  let g := fld code 8 4
  fld (r.evvec.getD (g / 4) 0) (8 * (g % 4)) 8

/-- Whether a raised vector sends a message of its own: a vector from 0 to 31 that is not masked and shares none of the same
microsecond (R282, log 21). -/
def sendsMessage (v : Nat) (r : Rings) : Bool :=
  decide (v < 32) && !r.link.masked.getLsbD v && !(r.msix.contains v && Config.sharesUs r.eqTail r.cqTail)

/-- A vector raised: its message, or its pending bit while it is masked (R282). -/
def raiseVec (v : Nat) (r : Rings) : Rings :=
  { r with msix := if sendsMessage v r then r.msix ++ [v] else r.msix,
           vecPend := r.vecPend ||| (BitVec.ofNat 32 (2 ^ v) &&& r.link.masked) }

/-! ## The host's side of the link -/

/-- What the host has set in configuration space acts: a vector that is no longer masked sends the message that was pending (R282). -/
def setControl (c : LinkControl) (r : Rings) : Rings :=
  let due := r.vecPend &&& ~~~c.masked
  { r with link := { r.link with atomics := c.atomics, masked := c.masked }, vecPend := r.vecPend &&& c.masked,
           msix := r.msix ++ (List.range 32).filter (fun v => due.getLsbD v) }

/-- The registers of the host link after what has happened on the host's side: each failed read counts in HOST_ERR.DMA (Table 13-2). -/
def hostRegs (h : HostSide) (r : Rings) : Rings :=
  let r1 := { r with dma := Nat.repeat (satInc 16) h.failed r.dma }
  match h.control with
  | some c => setControl c r1
  | none => r1

/-- What has happened on the host's side of the link acts. -/
def hostActs (h : HostSide) (s : State) : State :=
  let s1 := hostWrote h.wrote s
  { s1 with rings := hostRegs h s1.rings }

/-! ## Events (R290) and alerts (R340) -/

/-- The 32 bytes of an event record (Table 13-8). -/
def eventBytes (code : BitVec 16) (flags seq count : Nat) (info : List Byte) : List Byte :=
  leBytes 2 code.toNat ++ leBytes 1 flags ++ leBytes 1 0 ++ leBytes 4 seq ++ leBytes 8 count ++ padTo 16 info

/-- The events that enter the alert queue (R340). -/
def alertCodes : List Nat :=
  [0x0AA1, 0x0AA2, 0x0AA3, 0x0AA4, 0x0AA5, 0x0BA4, 0x0BA5, 0x0BA2, 0x0FA1, 0x0FA2, 0x0FA3, 0x0FA4]

/-- The alert queue after an event: 64 entries, the oldest dropped when full (R340). -/
def pushAlert (code : BitVec 16) (count : Nat) (info : List Byte) (s : State) : State :=
  if alertCodes.contains code.toNat then
    let m := s.mgmt
    let seq := nextSeq m.alertSeq
    let a : Alert := { code := code, loc := false, seq := seq, count := count, info := padTo 16 info }
    let full := decide (64 ≤ m.alerts.length)
    let q := if full then m.alerts.drop 1 else m.alerts
    { s with mgmt := { m with alerts := q ++ [a], alertSeq := seq, alertLost := m.alertLost || full,
                              lostSince := m.lostSince || full } }
  else s

/-- The level of SMB_ALERT_N: low while the alert queue is not empty (R340). -/
def smbAlertN (s : State) : Bool := s.mgmt.alerts.isEmpty

/-- The event ring after an event (R280, R281, R290). -/
def ringEvent (code : BitVec 16) (loc : Bool) (count : Nat) (info : List Byte) (s : State) : State :=
  let r := s.rings
  let seq := nextSeq r.seq
  let full := decide (ringSize r.committed.szEq ≤ (r.eqTail - r.eqHead).toNat)
  if !r.committed.enable || full then
    syncDoorbell { s with rings := { r with seq := seq, eqLost := r.eqLost + 1, lost := true } }
  else
    let fl := phaseBit r.eqTail r.committed.szEq + 2 * flag loc + 4 * flag r.lost
    let m := writeBytes (hostMem s) (ringAt r.committed.eq r.eqTail r.committed.szEq 32) (eventBytes code fl seq count info)
    let r' := raiseVec (groupVec r code) { r with seq := seq, eqTail := r.eqTail + 1, lost := false }
    syncDoorbell (setHostMem m { s with rings := r' })

/-- An event at a given count: its alert and its record. -/
def postAt (code : BitVec 16) (loc : Bool) (count : Nat) (info : List Byte) (s : State) : State :=
  ringEvent code loc count info (pushAlert code count info s)

/-- An event at the present count. -/
def post (code : BitVec 16) (info : List Byte) (s : State) : State := postAt code false (cnt s) info s

/-! ## Completion records (R280, R281, R288) -/

/-- The 32 bytes of a completion record (Table 13-6), as it is written now. -/
def recBytes (s : State) (c : Rec) : List Byte :=
  let r := s.rings
  let info := padTo 16 c.info
  leBytes 4 c.tag.toNat ++ [c.opcode] ++ leBytes 1 (phaseBit r.cqTail r.committed.szCq + 2 * flag c.final) ++
  leBytes 2 c.status.toNat ++ leBytes 4 s.unitGen ++ leBytes 4 c.sq ++
  (if c.countInfo then leBytes 8 (cnt s) ++ info.drop 8 else info)

/-- Whether the completion ring is full (R280). -/
def cqFull (s : State) : Bool :=
  let r := s.rings
  decide (ringSize r.committed.szCq ≤ (r.cqTail - r.cqHead).toNat)

/-- One record written, if the ring has room. -/
def writeRec (c : Rec) (s : State) : State :=
  let r := s.rings
  let m := writeBytes (hostMem s) (ringAt r.committed.cq r.cqTail r.committed.szCq 32) (recBytes s c)
  let r' := { r with cqTail := r.cqTail + 1, wrote := true }
  let r'' := if c.irq then raiseVec r.vecCq.toNat r' else r'
  syncDoorbell (setHostMem m { s with rings := r'' })

/-- Records that are due, written in order while the ring has room. -/
def flushGo : List Rec → State → State
  | [], s => { s with rings := { s.rings with due := [] } }
  | c :: t, s =>
    if s.rings.committed.enable && !cqFull s then flushGo t (writeRec c s)
    else { s with rings := { s.rings with due := c :: t } }

/-- CQ_STALL as it stands: the ring is full (R280). -/
def setStall (s : State) : State :=
  { s with rings := { s.rings with stall := s.rings.committed.enable && cqFull s } }

/-- The records that are due, written as far as room allows. -/
def flushDue (s : State) : State := setStall (flushGo s.rings.due s)

/-- A record becomes due. -/
def complete (c : Rec) (s : State) : State :=
  flushDue { s with rings := { s.rings with due := s.rings.due ++ [c] } }

/-! ## Settings log (R44) and test history (R222) -/

/-- A settings log entry of the present moment (Table 3-7a). -/
def logEntry (s : State) (kind code arg : Nat) : List Byte :=
  leBytes 4 (civilDate s.tb).toNat ++ leBytes 4 (civilTime s.tb).toNat ++ leBytes 8 (validSec s.tb) ++ leBytes 8 (cnt s) ++
  leBytes 1 kind ++ leBytes 1 0 ++ leBytes 2 code ++ leBytes 4 arg

def updSet (f : Settings → Settings) (s : State) : State := { s with store := { s.store with set := f s.store.set } }

/-- The newest entries that a log of the given length keeps. -/
def keepLast {α : Type} (n : Nat) (l : List α) : List α := l.drop (l.length - n)

/-- A log entry is appended: 1,536 entries, oldest overwritten first. -/
def appendLog (kind code arg : Nat) (s : State) : State :=
  let e := logEntry s kind code arg
  updSet (fun t => { t with log := keepLast 1536 (t.log ++ [e]) }) s

/-- BOOT_FLAGS bits [3:0]. -/
def bootFlags (b : Boot) : Nat := flag b.noValidBank + 2 * flag b.bankFallback + 4 * flag b.potFail + 8 * flag b.stageOverrun

/-- LAST_RESET (Table 3-4). -/
def resetCode (k : ResetKind) : Nat :=
  match k with
  | .cold => 0
  | .fundamental => 1
  | .hot => 2

/-- Whole hours of uptime, saturating in 24 bits (R207, log 9). -/
def uptimeH (s : State) : Nat := min (s.sec.uptime / 360000000) (2 ^ 24 - 1)

/-- A test history entry (Table 10-11a), with its COUNTERS. -/
def historyEntry (s : State) (unit : UnitField) (ka prof result part : Nat) (counters : List Byte) : List Byte :=
  leBytes 8 (validSec s.tb) ++ leBytes 8 (cnt s) ++ leBytes 4 (uptimeH s) ++ leBytes 2 unit.toNat ++ leBytes 1 ka ++
  leBytes 1 prof ++ leBytes 1 result ++ leBytes 1 s.power.cls ++ leInt 1 s.tray.tMax ++ leBytes 1 part ++ padTo 36 counters

/-- A history entry is appended: 2,048 entries, oldest overwritten first. -/
def appendHistory (e : List Byte) (s : State) : State :=
  updSet (fun t => { t with history := keepLast 2048 (t.history ++ [e]) }) s

/-! ## Failure Signature Records (R219 to R221) -/

/-- The path of a unit index (Table 10-10). -/
def unitPath (i : Nat) : List Nat :=
  if i < 1024 then [1, i / 512, i % 512 / 8, i % 8] else if i < 1072 then [2, i - 1024] else [3, i - 1072]

/-- The counters of a unit as a record carries them (R220). -/
def unitCounters (s : State) (i : Nat) : List (Nat × Nat) :=
  let h := healthOf s i
  if i < 1024 then [(1, h.c0), (2, h.c1), (3, h.c2), (4, h.c3), (5, h.score)]
  else if i < 1072 then
    [(11, h.c0), (12, h.c1), (13, h.c2), (14, h.c3), (15, h.c4), (16, h.c5), (17, h.score)]
  else [(21, h.c0), (22, h.c1), (23, h.c2), (24, h.score)]

/-- The 16 bytes of a location structure (Table 4-10). -/
def locBytes (l : Loc) : List Byte :=
  leBytes 2 l.code.toNat ++ leBytes 2 l.pkg.toNat ++ leBytes 2 l.unit.toNat ++ [l.index] ++
  leBytes 1 (l.token % 64 + 64 * (l.attempt % 4)) ++ leBytes 8 l.slot

/-- The bytes of a record (Table 10-9). -/
def fsrBytes (s : State) (seq : Nat) (cls : Nat) (path : List Nat) (unit : Option Nat) (loc : Option Loc)
    (prof : Option Nat) : List Byte :=
  let counters := (match unit with | some i => unitCounters s i | none => []) ++
    [(31, s.sec.totals.detect), (32, s.work.replays)]
  let op := [(1, cborUint s.power.cls), (2, cborUint s.pacer.vent), (3, cborInt s.tray.tMax), (4, cborUint s.tray.vin48)]
  let dig := match s.reel with | some r => cborBytes (digestBytes r.program) | none => cborNull
  cborMap ([(0, cborUint 1), (1, cborUint s.ident.serial.toNat), (2, cborUint 0x21), (3, cborArray (path.map cborUint)),
    (4, cborUint cls), (5, cborMap (counters.map (fun x => (x.1, cborUint x.2)))), (6, cborMap op), (7, cborUint (cnt s)),
    (8, cborUint s.tb.sec), (9, dig), (10, cborBool s.tb.valid), (11, cborUint seq)] ++
    (match loc with | some l => [(12, cborBytes (locBytes l))] | none => []) ++
    (match prof with | some p => [(13, cborUint p)] | none => []))

/-- A record is kept: the last 64 (R221). -/
def keepFsr (bytes : List Byte) (unit : Option Nat) (s : State) : State :=
  let seq := nextSeq s.sec.fsrSeq
  let s1 := { s with sec := { s.sec with fsrSeq := seq, fsrs := keepLast 64 (s.sec.fsrs ++ [{ seq := seq, bytes := bytes }]) } }
  match unit with
  | some i => updHealth i (fun h => { h with fsrSeq := seq }) s1
  | none => s1

/-- A Failure Signature Record is written and FSR_POSTED is posted (R219, R221). -/
def writeFsr (cls : Nat) (path : List Nat) (unit : Option Nat) (loc : Option Loc) (prof : Option Nat) (s : State) : State :=
  let b := fsrBytes s (nextSeq s.sec.fsrSeq) cls path unit loc prof
  let s1 := keepFsr b unit s
  post 0x0AA1 (leBytes 4 s1.sec.fsrSeq ++ leBytes 2 b.length) s1

/-- A record about a unit of the unit state table. -/
def unitFsr (cls : Nat) (i : Nat) (prof : Option Nat) (s : State) : State :=
  writeFsr cls (unitPath i) (some i) none prof s

/-! ## Counters (Table 10-5, R206) -/

def updTotals (f : Totals → Totals) (s : State) : State := { s with sec := { s.sec with totals := f s.sec.totals } }

/-- The width of a unit's counters (R206). -/
def ctrWidth (i : Nat) : Nat := if i < 1024 then 16 else 32

/-- One of a unit's counters changed, by its place in the unit's record. -/
def Health.mapCtr (k : Nat) (f : Nat → Nat) (h : Health) : Health :=
  match k with
  | 0 => { h with c0 := f h.c0 }
  | 1 => { h with c1 := f h.c1 }
  | 2 => { h with c2 := f h.c2 }
  | 3 => { h with c3 := f h.c3 }
  | 4 => { h with c4 := f h.c4 }
  | _ => { h with c5 := f h.c5 }

/-- One of a unit's counters by its place. -/
def Health.ctr (k : Nat) (h : Health) : Nat :=
  match k with
  | 0 => h.c0
  | 1 => h.c1
  | 2 => h.c2
  | 3 => h.c3
  | 4 => h.c4
  | _ => h.c5

/-- One of a unit's counters plus one, saturating (R206). -/
def bumpCtr (k i : Nat) (s : State) : State := updHealth i (Health.mapCtr k (satInc (ctrWidth i))) s

/-! ## Unit states (R207, R208, R324 to R326) -/

/-- The table with an entry; its generation rises when the byte of R325 changes (R326). A SET_OFF that waits for the boundary
shows FENCED with HELD, so on a unit that FENCE holds it changes no entry (log 59). -/
def setUnit (i : Nat) (e : UnitEntry) (s : State) : State :=
  if unitEntry s i = e then s
  else
    let s1 := updSet (fun t => { t with units := store { st := .active, held := false } i e t.units }) s
    { s1 with unitGen := if entryByte (unitEntry s i) = entryByte e then s.unitGen else nextSeq s.unitGen }

/-- WATCH_AT and ADVISE_AT of a unit's kind. -/
def watchAt (s : State) (i : Nat) : Nat :=
  let c := s.sec.committed
  if i < 1024 then c.tileWatch.toNat else if i < 1072 then c.portWatch.toNat else c.stackWatch.toNat
def adviseAt (s : State) (i : Nat) : Nat :=
  let c := s.sec.committed
  if i < 1024 then c.tileAdvise.toNat else if i < 1072 then c.portAdvise.toNat else c.stackAdvise.toNat

/-- The uptime in which an hour is counted (log 9). -/
def hourUnits : Nat := 360000000

/-- The due time of a unit (R215): fixed at the entry to WATCH, else its last test plus the interval of its state; uptime
hour 1 for a unit not tested since cold start. -/
def dueTime (s : State) (i : Nat) : Nat :=
  let h := healthOf s i
  let c := s.sec.committed
  match h.watchDue with
  | some d => d
  | none =>
    match h.lastTest with
    | none => hourUnits
    | some t => t + hourUnits * (if unitSt s i = .watch then c.stressWatch.toNat else c.stressActive.toNat)

/-- INFO of the unit events (Table 13-9). -/
def unitInfo (s : State) (i : Nat) : List Byte := leBytes 2 (unitField i).toNat ++ leBytes 1 (healthOf s i).score

/-- A unit moves to WATCH: event, record, due time no later than now (R207, R215). -/
def enterWatch (cls : Nat) (i : Nat) (s : State) : State :=
  let due := min (dueTime s i) s.sec.uptime
  let s1 := setUnit i { st := .watch, held := false } s
  let s2 := updHealth i (fun h => { h with passes := 0, advised := false, watchDue := some due }) s1
  unitFsr cls i none (post 0x0AA2 (unitInfo s2 i) s2)

/-- FENCE_ADVISED, once per WATCH episode (R208). -/
def advise (cls : Nat) (i : Nat) (s : State) : State :=
  let h := healthOf s i
  if unitSt s i = .watch ∧ !h.advised ∧ adviseAt s i ≤ h.score then
    let s1 := updHealth i (fun h => { h with advised := true }) s
    unitFsr cls i none (post 0x0AA4 (unitInfo s1 i) s1)
  else s

/-- The moves that a unit's score calls for (R207, R208). -/
def judge (cls : Nat) (i : Nat) (s : State) : State :=
  let s1 := if unitSt s i = .active ∧ watchAt s i ≤ (healthOf s i).score then enterWatch cls i s else s
  advise cls i s1

/-- A unit's score plus one, saturating (R207). -/
def addScore (i : Nat) (s : State) : State := updHealth i (fun h => { h with score := min 255 (h.score + 1) }) s

/-- A scoring event of a unit (R207). -/
def score (cls : Nat) (i : Nat) (s : State) : State := judge cls i (addScore i s)

/-- The return to ACTIVE: score 0 and WATCH_PASSES consecutive passes (R207). -/
def settle (i : Nat) (s : State) : State :=
  let h := healthOf s i
  if unitSt s i = .watch ∧ h.score = 0 ∧ s.sec.committed.watchPasses.toNat ≤ h.passes then
    let s1 := setUnit i { st := .active, held := false } s
    let s2 := updHealth i (fun h => { h with watchDue := none, advised := false, passes := 0 }) s1
    post 0x0AA3 (unitInfo s2 i) s2
  else s

/-- The place of the known-answer counter among a unit's counters. -/
def katPlace (i : Nat) : Nat := if i < 1024 then 3 else if i < 1072 then 4 else 2

/-- A known-answer pass (R207). -/
def kaPass (i : Nat) (s : State) : State :=
  if unitSt s i = .watch then settle i (updHealth i (fun h => { h with passes := h.passes + 1 }) s) else s

/-- The class of a failed known-answer run (Table 10-11). -/
def kaClass (r : KaOutcome) : Nat :=
  match r with
  | .late => 0x0A82
  | _ => 0x0A81

/-- RESULT of a history entry (Table 10-11a). -/
def kaResult (r : KaOutcome) : Nat :=
  match r with
  | .pass => 0
  | .mismatch => 1
  | .late => 2

/-- A known-answer failure: counter, total, score, WATCH whatever the score, record and history (R207, R210, R219, R222). -/
def kaFail (i : Nat) (ka prof : Nat) (r : KaOutcome) (s : State) : State :=
  let s1 := updTotals (fun t => { t with kat := t.kat + 1 }) (bumpCtr (katPlace i) i s)
  let s2 := updHealth i (fun h => { h with score := min 255 (h.score + 1), passes := 0 }) s1
  let s3 := if unitSt s2 i = .active then enterWatch (kaClass r) i s2 else s2
  let s4 := advise (kaClass r) i s3
  let s5 := unitFsr (kaClass r) i (some prof) s4
  appendHistory (historyEntry s5 (unitField i) ka prof (kaResult r) 0 []) s5

/-! ## Descriptors -/

/-- TAG of a descriptor (Table 13-5). -/
def dTag (d : BitVec 512) : Word32 := d.extractLsb' 32 32

/-- OPCODE of a descriptor. -/
def dOp (d : BitVec 512) : Nat := fld d 0 8

/-- A completion record for a descriptor. -/
def recOf (d : BitVec 512) (sq : Nat) (final : Bool) (status : Nat) (info : List Byte) : Rec :=
  { tag := dTag d, opcode := BitVec.ofNat 8 (dOp d), final := final, status := BitVec.ofNat 16 status, sq := sq,
    info := info, irq := bit d 8, countInfo := false }

/-! ## The Vent history and memory pacing -/

/-- A change of level is recorded: 32 entries, oldest overwritten (R251). -/
def recordVent (applyAt level : Nat) (p : Pacer) : Pacer :=
  if p.hist.length < 32 then { p with hist := p.hist ++ [(applyAt, level)], head := p.hist.length }
  else
    let h := (p.head + 1) % 32
    { p with hist := p.hist.set h (applyAt, level), head := h }

/-- The pacer at a new level from a boundary (R229). -/
def setVent (count grid level : Nat) (p : Pacer) : Pacer :=
  { p with vent := level, baseCount := count, baseGrid := grid }

/-- N_max for a floor at a Vent level (R103). -/
def nMax (f v : Nat) : Nat := if f = 0 then 64 else min 64 (32768 / (10 * f * (64 - v)))

/-- The memory floor in force: 0 when no job runs (Table 5-7). -/
def floorNow (s : State) : Nat :=
  match running s, s.reel with
  | true, some r => phaseFloor r s.job.phase
  | _, _ => 0

/-- N lowered to N_max where it lies above (R103). -/
def capSpacing (s : State) : State :=
  { s with power := { s.power with spacing := min s.power.spacing (nMax (floorNow s) s.pacer.vent) } }

end Sys2Proof.Machine
end

