-- ==== Sys2Proof/Machine/Jobs.lean ====
section
/-! DEFINITION. What a job shares among its commands: counting detections, making and adopting notices, faults, unsealing, the
end of a job, the job boundary and the unload (chapters 9, 10, 15). -/

namespace Sys2Proof.Machine

/-! ## Lines of a tile -/

def lineAt (t : Tile) (ln : Nat) : LineSt := look LineSt.zero ln t.lines
def setLine (ln : Nat) (v : LineSt) (t : Tile) : Tile := { t with lines := store LineSt.zero ln v t.lines }

/-- A hold line flips: its next-step copy becomes the step-start copy (R70); flipping again reverses it (R190). -/
def flipLine (ln : Nat) (t : Tile) : Tile :=
  let l := lineAt t ln
  setLine ln { cur := l.nxt, nxt := l.cur, mark := false } t

/-- A line whose tags clear. -/
def LineSt.untag (l : LineSt) : LineSt :=
  { l with cur := { l.cur with pdue := 0, cdue := 0 }, nxt := { l.nxt with pdue := 0, cdue := 0 } }

/-- A line whose tags and mark clear (R70, R71, R79). -/
def LineSt.unmark (l : LineSt) : LineSt := { l.untag with mark := false }

/-- A tile with its queues empty and nothing in progress. -/
def Tile.quiet (t : Tile) : Tile :=
  { t with todo := [], flight := none, halted := false, exited := false, detected := false, lateOp := false, inbox := [],
           outbox := [], mover := [], events := [], txEnv := [], rx := [], checks := [], badLines := [],
           told := (0, 0, 0), rose := (false, false), moves := [] }

/-- A tile at a rewind, its sequencer yet to be placed (R79). -/
def Tile.rewound (t : Tile) : Tile :=
  { t.quiet with lines := mapVals LineSt.zero LineSt.unmark t.lines, flags := t.savedFlags }

/-- A tag that has not cleared by a slot of the step, 0 once it has (R80, R81). -/
def tagLeft (slot tag : Nat) : Nat := if slot ≤ tag then tag else 0

/-- A PDUE tag that has not cleared, also where a veto arrived in its slot (R80). -/
def pdueLeft (vetoes : List Nat) (slot tag : Nat) : Nat := if vetoes.contains tag then tag else tagLeft slot tag

/-- A line's value whose tags have cleared as far as the step came. -/
def LineVal.settled (vetoes : List Nat) (slot : Nat) (v : LineVal) : LineVal :=
  { v with pdue := pdueLeft vetoes slot v.pdue, cdue := tagLeft slot v.cdue }

/-- A line whose tags have cleared as far as the step came. -/
def LineSt.settled (vetoes : List Nat) (slot : Nat) (l : LineSt) : LineSt :=
  { l with cur := l.cur.settled vetoes slot, nxt := l.nxt.settled vetoes slot }

/-- A tile of a job that has ended in a slot of its step: it issues nothing and moves nothing, and a tag that the job did not live
to clear stays (R196, log 58). -/
def Tile.stopped (vetoes : List Nat) (slot : Nat) (t : Tile) : Tile :=
  { t with todo := [], flight := none, mover := [], checks := [], badLines := [],
           lines := mapVals LineSt.zero (LineSt.settled vetoes slot) t.lines,
           inbox := t.inbox.map (fun x => (x.1, { x.2 with pdue := pdueLeft vetoes slot x.2.pdue })),
           outbox := t.outbox.map (fun x => (x.1, { x.2 with cdue := tagLeft slot x.2.cdue })) }

/-- The selector of a pair flips (R97). -/
def flipPair (k b : Nat) (s : State) : State :=
  updMem k (fun m => { m with sel := store false b (!look false b m.sel) m.sel }) s

/-! ## Locations, notices and their rank -/

/-- The package's Bridle identity. -/
def selfId (s : State) : BitVec 11 := s.bridle.committed.id

/-- A location of the present slot (Table 4-10). -/
def locHere (s : State) (code : Nat) (unit : UnitField) (index token : Nat) : Loc :=
  { code := BitVec.ofNat 16 code, pkg := selfId s, unit := unit, index := BitVec.ofNat 8 index, token := token % 64,
    attempt := s.job.attempt, slot := cnt s }

/-- The notice that the package makes for an event of its own (R186, R193, R355). -/
def ownNotice (s : State) (l : Loc) (fault : Bool) : Notice :=
  { final := !fault && decide (s.job.attempt = 3), fault := fault, attempt := s.job.attempt, index := l.index,
    origin := l.pkg, code := l.code, unit := l.unit, step := s.job.step, detect := l.slot,
    applyAt := l.slot + 2 * diam s + 8, token := l.token }

/-- The location that every package reports for a notice (R193, R355). -/
def noticeLoc (n : Notice) : Loc :=
  { code := n.code, pkg := n.origin, unit := n.unit, index := n.index, token := n.token,
    attempt := if n.final then 3 else n.attempt, slot := n.detect }

/-- Whether a notice ranks before the held one (R187). Of two notices of one package for one slot R187 gives no order: of two faults
the lower code stands first (R317), and of two detections of one unit in one token the one that the unit reports (R84). -/
def ranksFirst (a b : Notice) : Bool :=
  if a.fault != b.fault then a.fault
  else if !a.fault && a.step != b.step then decide (a.step < b.step)
  else if !a.fault && a.attempt != b.attempt then decide (a.attempt < b.attempt)
  else if a.applyAt != b.applyAt then decide (a.applyAt < b.applyAt)
  else if a.origin != b.origin then decide (a.origin.toNat < b.origin.toNat)
  else (a.fault || (a.unit == b.unit && a.token == b.token)) && decide (a.code.toNat < b.code.toNat)

/-- Whether a notice names a rewound attempt or a final step (R187); a notice for a step that does not run yet can only
name an attempt that a rewind to an earlier step has undone (log 22). -/
def staleNotice (s : State) (n : Notice) : Bool :=
  let j := s.job
  !n.fault &&
    (decide (n.step ≤ j.final) || decide (j.step < n.step) ||
     (if n.step = j.step then decide (n.attempt < j.attempt)
      else match j.sealed_ with
        | some x => !(n.step == x.step) || decide (n.attempt < x.attempt)
        | none => true))

/-- Whether the package holds a notice whose effect on issue, gathering and delivery has begun, or has raised a fault
(R188, R355). -/
def haltedJob (s : State) : Bool :=
  s.job.faulted || (s.job.notice.isSome && decide (s.job.noticeAt < cnt s))

/-! ## Window tests (R216, R217) -/

/-- Whether a test window of a pattern covers a unit. -/
def windowCovers (r : Reel) (i pattern : Nat) : Bool :=
  (pkgRecs r secTestWin).any (fun e =>
    fld e 0 6 == pattern &&
    (if i < 1024 then fld e 6 2 == 0 && bit e (128 + i / 512 * 64 + i % 512 / 8)
     else if i < 1072 then fld e 6 2 == 1 && bit e (128 + (i - 1024))
     else fld e 6 2 == 2 && bit e (128 + (i - 1072))))

/-- A notice for a window's step ends the test that runs in the window as ABORTED (R217, R222). -/
def abortWindowTest (step : Nat) (s : State) : State :=
  match s.sec.test, s.reel with
  | some t, some r =>
    if t.by_ = .window ∧ (stepPlan r step).any (fun x => windowCovers r t.unit x.1) then
      let s1 := { s with sec := { s.sec with test := none } }
      appendHistory (historyEntry s1 (unitField t.unit) 0xFF 0 4 0 []) s1
    else s
  | _, _ => s

/-- The known-answer result on its unit. -/
def scoreRun (u ka prof : Nat) (r : KaOutcome) (s : State) : State :=
  match r with
  | .pass => kaPass u s
  | r => kaFail u ka prof r s

/-- The results that a window's test held back count (R217). -/
def scoreHeld (t : TestRun) (s : State) : State := t.held.foldl (fun a x => scoreRun t.unit x.1 x.2.1 x.2.2 a) s

/-- A window's test ends with its window: the kernels that ended count, and the unit stays due (R216, log 43). -/
def endWindowTest (s : State) : State :=
  match s.sec.test with
  | some t => if t.by_ = .window then scoreHeld t { s with sec := { s.sec with test := none } } else s
  | none => s

/-- Whether a window of the running pattern covers the unit under test. -/
def testInWindow (s : State) : Bool :=
  match s.sec.test, s.reel with
  | some t, some r => windowCovers r t.unit s.job.pattern
  | _, _ => false

/-- A step begins: a window's test goes on only in a step whose window covers its unit (R216). -/
def closeWindow (s : State) : State := if testInWindow s then s else endWindowTest s

/-- The notice that a package holds once it has met another: the one that ranks first (R187). -/
def holdNotice (n : Notice) (s : State) : State :=
  match s.job.notice with
  | some h => if ranksFirst n h then { s with job := { s.job with notice := some n } } else s
  | none => { s with job := { s.job with notice := some n, noticeAt := cnt s } }

/-- A notice reaches the package: it may replace the held one (R187), and a test in a window of its step ends (R217). -/
def takeNotice (n : Notice) (s : State) : State :=
  if running s then abortWindowTest n.step (holdNotice n s) else s

/-! ## Detections (R204, Table 10-5) -/

/-- Whether a code is a fault's (R347). -/
def isFaultCode (c : Nat) : Bool := decide (c % 256 < 0x80)

/-- The totals that a detection counts in, each changed (Table 10-5). -/
def detectTotals (code : Nat) (f : Nat → Nat) (t : Totals) : Totals :=
  let t1 := { t with detect := f t.detect }
  match code with
  | 0x0481 => { t1 with res := f t1.res }
  | 0x0482 => { t1 with shd := f t1.shd }
  | 0x0483 => { t1 with env := f t1.env }
  | 0x0484 | 0x0485 | 0x0582 | 0x0684 => { t1 with late := f t1.late }
  | 0x0683 => { t1 with veto := f t1.veto }
  | 0x0681 | 0x0682 | 0x0685 => { t1 with link := f t1.link }
  | _ => t1

/-- The counter of its unit that a detection counts in, by its place in the unit's record (Table 10-5). A stack's own counts are
made where the burst is met. -/
def detectPlace (code : Nat) : Option Nat :=
  match code with
  | 0x0481 => some 0
  | 0x0482 | 0x0681 | 0x0682 | 0x0685 => some 1
  | 0x0483 | 0x0683 => some 2
  | 0x0684 => some 3
  | _ => none

/-- Whether a detection adds to its unit's score (Table 10-5). -/
def detectScores (code : Nat) : Bool := [0x0481, 0x0482, 0x0483, 0x0484, 0x0681, 0x0682, 0x0685].contains code

/-- The counter and the score of a unit that reports a detection (Table 10-5). What a tile reports is settled at the end of the slot
alone (R84), and the moves that its score calls for wait for it (log 75). -/
def countUnit (code i : Nat) (s : State) : State :=
  let s1 := match detectPlace code with | some k => bumpCtr k i s | none => s
  if detectScores code then (if i < 1024 then addScore i s1 else score code i s1) else s1

/-- The counters, totals and scores of a detection of a unit, by its index (Table 10-5). -/
def countDetect (code : Nat) (i : Option Nat) (s : State) : State :=
  let s1 := updTotals (detectTotals code (· + 1)) s
  match i with
  | some j => countUnit code j s1
  | none => s1

/-- Whether a detection of a tile raises its counter and its score: neither moves once it has saturated (R206, R207). -/
def willRise (code : Nat) (h : Health) : Bool × Bool :=
  ((detectPlace code).any (fun k => decide (h.ctr k < 2 ^ 16 - 1)), detectScores code && decide (h.score < 255))

/-- A detection of a tile that is not the one reported in its token counts nothing (R204): what it raised falls back (log 75). -/
def uncountDetect (code i : Nat) (rose : Bool × Bool) (s : State) : State :=
  updHealth i (fun h =>
      let h1 := match detectPlace code with | some k => if rose.1 then h.mapCtr k (· - 1) else h | none => h
      if rose.2 then { h1 with score := h1.score - 1 } else h1)
    (updTotals (detectTotals code (· - 1)) s)

/-- The package has raised a detection in the attempt that runs (R321). -/
def markDetected (s : State) : State := { s with job := { s.job with detected := true } }

/-- A detection: it counts, and while a job runs it makes a replay notice (R83, R186). -/
def raiseDetect (code : Nat) (unit : UnitField) (index token : Nat) (s : State) : State :=
  let l := locHere s code unit index token
  let s1 := countDetect code (unitIndex unit) s
  if running s then
    let s2 := markDetected s1
    let n := ownNotice s2 l false
    if staleNotice s2 n then s2 else takeNotice n s2
  else s1

/-! ## Faults (R355) -/

/-- The package's own fault after another: of those of one slot the one with the lowest code (R317). -/
def keepOwn (old : Option Loc) (l : Loc) : Option Loc :=
  match old with
  | some o => if o.slot = l.slot ∧ l.code.toNat < o.code.toNat then some l else some o
  | none => some l

/-- A fault while a job runs: work stops at once and a fault notice is made (R355). -/
def raiseFaultLoc (l : Loc) (s : State) : State :=
  if running s then
    let s1 := { s with job := { s.job with ownFault := keepOwn s.job.ownFault l, faulted := true } }
    takeNotice (ownNotice s1 l true) s1
  else s

/-- A fault of the present slot. -/
def raiseFault (code : Nat) (unit : UnitField) (index token : Nat) (s : State) : State :=
  raiseFaultLoc (locHere s code unit index token) s

/-- The code of the event that a tile has told of in a token of the present slot. -/
def toldIn (s : State) (t : Tile) (token : Nat) : Option Nat :=
  if t.told.1 = cnt s ∧ t.told.2.1 = token ∧ t.told.2.2 ≠ 0 then some t.told.2.2 else none

/-- Whether a tile has told of no event of a lower or equal code in this token (R84). -/
def fresh (s : State) (t : Tile) (code token : Nat) : Bool := (toldIn s t token).all (fun c => decide (code < c))

/-- A lower code takes the place of what the tile told of earlier in the token: a detection of a higher code no longer counts or
calls for a move (R84, R204). -/
def retract (u token : Nat) (s : State) : State :=
  match toldIn s (tileOf s u) token with
  | some c =>
    if isFaultCode c then s
    else
      updTile u (fun t => { t with moves := if detectScores c then t.moves.dropLast else t.moves })
        (uncountDetect c u (tileOf s u).rose s)
  | none => s

/-- What a tile keeps of an event that it tells of in the present slot: for a detection whether its counter and score rise, and that
a scoring one may move the unit. -/
def tellTile (s : State) (u code token : Nat) (t : Tile) : Tile :=
  if isFaultCode code then { t with told := (cnt s, token, code) }
  else { t with told := (cnt s, token, code), detected := true, rose := willRise code (healthOf s u),
                moves := if detectScores code then t.moves ++ [code] else t.moves }

/-- The moves of a tile's unit that the detections of the slot call for (R207, R208). -/
def takeMoves (u : Nat) (s : State) : State :=
  (tileOf s u).moves.foldl (fun a c => judge c u a) (updTile u (fun t => { t with moves := [] }) s)

/-- The tiles whose moves wait. -/
def movers (s : State) : List Nat := (s.tiles.filter (fun x => !x.2.moves.isEmpty)).map (fun x => x.1)

/-- Every move that the detections of the slot call for, at its end. -/
def takeAllMoves (s : State) : State := (movers s).foldl (fun a u => takeMoves u a) s

/-- A fault of a tile. -/
def tileFault (code u index token : Nat) (s : State) : State :=
  if fresh s (tileOf s u) code token then
    let s1 := retract u token s
    raiseFault code (tileUnit u) index token (updTile u (tellTile s1 u code token) s1)
  else s

/-- A detection of a tile: the hazard detector leaves the tile out until the rewind (R321). -/
def tileDetect (code u index token : Nat) (s : State) : State :=
  if fresh s (tileOf s u) code token then
    let s1 := retract u token s
    raiseDetect code (tileUnit u) index token (updTile u (tellTile s1 u code token) s1)
  else s

/-! ## Unsealing (R190, R191) -/

/-- A sealed step that is not final is unsealed: flips are reversed, the saved flag words and the step number restored. -/
def unsealStep (s : State) : State :=
  match s.job.sealed_ with
  | none => s
  | some x =>
    let s1 := x.lines.foldl (fun a p => updTile p.1 (flipLine p.2) a) s
    let s2 := x.pairs.foldl (fun a p => flipPair p.1 p.2 a) s1
    let s3 := x.flags.foldl (fun a p => updTile p.1 (fun t => { t with savedFlags := p.2, flags := p.2 }) a) s2
    { s3 with job := { s3.job with step := x.step, attempt := x.attempt, sealed_ := none } }

/-! ## Tests that end early -/

/-- A test in progress ends without a result: a TEST descriptor completes as ABORTED (log 24). -/
def dropTest (s : State) : State :=
  match s.sec.test with
  | some t =>
    let s1 := { s with sec := { s.sec with test := none } }
    match t.by_ with
    | .ring tag irq sq =>
      complete { tag := tag, opcode := 0x09, final := true, status := 0, sq := sq, info := [4, 0xFF], irq := irq,
                 countInfo := false } s1
    | _ => s1
  | none => s

/-- The test of a unit that leaves service ends: a unit that is FENCED or OFF runs none (Table 15-1). -/
def dropTestOf (i : Nat) (s : State) : State := if s.sec.test.any (fun t => t.unit == i) then dropTest s else s

/-! ## Ports and units in and out of service -/

/-- A port out of the trained state, sending a signal; it knows nothing of its far end yet (R112, Table 6-8). -/
def portDown (sends : Signal) (v : Port) : Port :=
  { v with st := .absent, sends := sends, staged := [], sent := none, provSent := [], provRcvd := [], tail := none,
           tailSeen := false, phase := none, trainDue := false, remeasure := false, measured := false }

/-- A port from which nothing has been heard since the package became UNSYNCED (R141). -/
def portUnheard (v : Port) : Port := { v with tail := none, tailSeen := false, phase := none }

/-- Whether a port is in MEASURING or TRAINED. -/
def portUp (v : Port) : Bool := v.st == .trained || v.st == .measuring

/-- Whether a port sends and receives frames: also in a relock whose lock is back (R130). -/
def framing (v : Port) : Bool := portUp v || (v.st == .relock && v.measured)

/-- Whether the link reference of a line die is present (R24); a stop covers the loss of LREF0. -/
def lrefOn (s : State) (n : Nat) : Bool := if n = 1 then s.tray.lref1 else if n = 2 then s.tray.lref2 else true

/-- Whether a unit is FENCED and no job boundary holds it in service (R328, Table 15-1). -/
def fencedOut (s : State) (i : Nat) : Bool := unitSt s i == .fenced && !(unitEntry s i).held

/-- What a port of this package sends outside training (R24, R40, R112); a unit that is HELD is still in service (Table 15-1). -/
def idleSignal (s : State) (p : Nat) : Signal :=
  if s.boot.stage = .off ∨ s.boot.stage = .serviceBoot ∨ unitSt s (1024 + p) = .off ∨ !lrefOn s (p / 16) then .none
  else if s.boot.stage ≠ .ready ∨ s.stop.stopped ∨ fencedOut s (1024 + p) then .notReady
  else .wake

/-- A populated port leaves the trained state and sends what the package's stage gives it. -/
def dropPort (p : Nat) (s : State) : State :=
  if unitSt s (1024 + p) = .off then setPort p { portOf s p with st := .off, sends := .none } s
  else updPort p (portDown (idleSignal s p)) s

/-- Whether the stacks have been initialised since the supply rose (Table 3-1). -/
def memoryUp (s : State) : Bool := s.boot.stage == .selfTest || s.boot.stage == .ready

/-- The tiles of group `g`, which share a power domain (Table 2-8): west from 0, east from 64. -/
def groupTiles (g : Nat) : List Nat := (List.range 8).map (fun k => 8 * g + k)

/-- Whether the table lets a tile group's power domain be on: it is off only when all 8 of its tiles are OFF (R330). -/
def groupKept (s : State) (g : Nat) : Bool := (groupTiles g).any (fun u => unitSt s u != .off)

/-- Whether a tile group's power domain is on: from RAILS, not while the package is stopped, and as the table lets it (Table 3-1,
R248, R330). -/
def groupOn (s : State) (g : Nat) : Bool := railsUp s && !s.stop.stopped && groupKept s g

/-- What a tile's Ballast buffer holds (R246). -/
def bufferOf (s : State) (u : Nat) : List Byte := look [] u s.power.buffers

/-- A Ballast buffer as READY loads it from the ROM: 16 KiB (R246). -/
def ballastImage : List Byte := (List.range 16384).map Config.ballastRom

/-- The Ballast buffers at READY: every tile whose group has power is loaded (R246). -/
def loadBuffers (s : State) : State :=
  { s with power := { s.power with
      buffers := ((List.range 1024).filter (fun u => groupOn s (u / 8))).map (fun u => (u, ballastImage)) } }

/-- The buffers of a group whose power comes back in READY are loaded anew (log 31). -/
def wakeBuffers (g : Nat) (s : State) : State :=
  if isReady s && groupOn s g then
    (groupTiles g).foldl (fun a u =>
      if (bufferOf a u).isEmpty then { a with power := { a.power with buffers := put u ballastImage a.power.buffers } } else a) s
  else s

/-- A tile leaves service: it runs no Ballast, and when its group goes off with it the group's Pockets, queues and Ballast buffers are
lost. -/
def tileLeaves (u : Nat) (s : State) : State :=
  let s1 := { s with power := { s.power with ballast := s.power.ballast.filter (fun x => x.1 != u) } }
  if groupKept s1 (u / 8) then s1
  else
    (groupTiles (u / 8)).foldl (fun a v => setTile v Tile.clear a)
      { s1 with power := { s1.power with buffers := s1.power.buffers.filter (fun x => x.1 / 8 != u / 8) } }

/-- What a unit's hardware does when it leaves service (Table 15-1): a FENCED port sends NOT_READY and an OFF port nothing; a
FENCED stack goes to self-refresh and an OFF one loses its contents. -/
def unitLeaves (i : Nat) (s : State) : State :=
  if i < 1024 then tileLeaves i s
  else if i < 1072 then
    if unitSt s i = .off then setPort (i - 1024) { portDown .none (portOf s (i - 1024)) with st := .off } s
    else updPort (i - 1024) (portDown (idleSignal s (i - 1024))) s
  else if unitSt s i = .off then setMem (i - 1072) Stack.off s
  else updMem (i - 1072) (fun m =>
    if m.st = .trained ∨ (m.st = .off ∧ memoryUp s) then { m with st := .selfRefresh } else m) s

/-- A unit leaves service (R330): a test of it ends, and its hardware takes the form of Table 15-1. -/
def leaveService (i : Nat) (s : State) : State := unitLeaves i (dropTestOf i s)

/-! ## Unload and the job boundary -/

/-- The LDR block after an unload: LDR_CTRL, LDR_LAST and the LDR_WHERE fields keep their values (Table 14-11). -/
def Ldr.cleared (l : Ldr) : Ldr :=
  { Ldr.reset with debug := l.debug, status := l.status, whereUnit := l.whereUnit, whereSection := l.whereSection,
                   whereRec := l.whereRec, whereSlot := l.whereSlot, wherePattern := l.wherePattern }

/-- A port that waited for the unload trains in full (R130, R131). -/
def retrainAfter (v : Port) : Port :=
  if v.retrain || v.trainDue then
    if v.sends = .none ∨ v.sends = .notReady ∨ v.sends = .stopped then v
    else { portDown .wake v with retrain := v.retrain }
  else v

/-- A port whose quad was off for want of use comes back (R26). -/
def wakeQuad (p : Nat) (s : State) : State :=
  if (portOf s p).st = .off ∧ unitSt s (1024 + p) ≠ .off then dropPort p s else s

/-- Every quad that was off for want of use comes back (R26). -/
def wakeQuads (s : State) : State := (List.range (portCount s)).foldl (fun a p => wakeQuad p a) s

/-- What goes with the loaded Reel: digests, loader registers, prefetcher, and the link reserve that was fixed for it (R241). -/
def dropReel (s : State) : State :=
  { s with reel := none, far := { held := [], written := [] }, det := { s.det with leaves := [], filled := [], latched := 0 },
           ldr := s.ldr.cleared, power := { s.power with linkRes := 0 } }

/-- The Reel is unloaded (R284): digests, loader registers and prefetcher clear, ports that waited train (R131), quads that no
port of the Reel used are on again (R26), and the link reserve is fixed anew for the next Reel (R241). -/
def unloadReel (s : State) : State :=
  let s1 := dropReel s
  wakeQuads { s1 with ports := mapVals Port.off retrainAfter s1.ports }

/-- The first unit, by index, that the loaded Reel names and that is FENCED or OFF. -/
def firstOut (s : State) : Option Nat :=
  match s.reel with
  | some r => (s.store.set.units.find? (fun x => reelNames r x.1 && outOfService s x.1)).map (fun x => x.1)
  | none => none

/-- REASON of a unit's quarantine entry. -/
def reasonOf (s : State) (i : Nat) : Nat :=
  match s.store.set.qlist.find? (fun q => q.unit == unitField i) with
  | some q => q.reason.toNat
  | none => 0

/-- The log entry of a unit's change by the management path (Table 3-7b). -/
def logUnit (i reason : Nat) (s : State) : State :=
  appendLog 6 (unitField i).toNat (unitCode (unitSt s i) + 2 ^ 8 * reason + 2 ^ 16 * (s.unitGen % 2 ^ 16)) s

/-- A held unit leaves service at the boundary; the entry of a unit that SET_OFF held becomes OFF (R328, R331). -/
def releaseHeld (i : Nat) (e : UnitEntry) (s : State) : State :=
  let s1 := setUnit i { e with held := false } s
  let s2 := updSet (fun t => { t with qlist := t.qlist.map (fun q => if q.unit = unitField i then { q with st := e.st } else q) }) s1
  leaveService i (if e.st = .off then logUnit i (reasonOf s2 i) s2 else s2)

/-- Every held unit leaves service: HELD clears at a boundary, and where no Reel is loaded (R325, R328). -/
def releaseAll (s : State) : State :=
  (s.store.set.units.filter (fun x => x.2.held)).foldl (fun a x => releaseHeld x.1 x.2 a) s

/-- The job boundary (R328): HELD clears, and a Reel that uses a unit out of service is unloaded. -/
def jobBoundary (s : State) : State :=
  let s1 := releaseAll s
  match firstOut s1 with
  | some i => post 0x0FA3 (leBytes 2 (unitField i).toNat ++ leBytes 4 s1.unitGen) (unloadReel s1)
  | none => s1

/-! ## The end of a job -/

/-- A port after a job: nothing staged, and a wire latency that moved is measured again, until when the port has no measured class
(R127, R130); one still in a relock keeps the mark. -/
def portAfterJob (v : Port) : Port :=
  let again := v.remeasure && v.st == .trained
  { v with staged := [], provSent := [], provRcvd := [], remeasure := v.remeasure && !again,
           st := if again then .measuring else v.st, cls := if again then 0 else v.cls }

/-- What every end of a job leaves: tiles and crosspoints stop, staged blocks and provisional counts go (R191, R195). R97 names no
clearing of written marks here, and the model keeps them until the next rewind, seal, reset, stop or load (log 75). -/
def clearJob (faulted : Bool) (s : State) : State :=
  { s with job := { Job.none with faulted := faulted, lastCode := s.job.lastCode, lastOrigin := s.job.lastOrigin },
           tiles := mapVals Tile.clear (Tile.stopped s.job.vetoes s.job.slot) s.tiles, ports := mapVals Port.off portAfterJob s.ports,
           localq := [], transits := [], shadowed := [], window := { s.window with stage := [] },
           far := { held := [], written := [] },
           work := { s.work with parcelsProv := 0, storesProv := 0, windowProv := 0 } }

/-- The job-end record of a LAUNCH_AT (R250, R287). -/
def jobEndRec (l : LaunchRef) (status energy : Nat) : Rec :=
  { tag := l.tag, opcode := 0x07, final := true, status := BitVec.ofNat 16 status, sq := l.sq,
    info := leBytes 8 0 ++ leBytes 8 (energy / 1000), irq := true, countInfo := true }

/-- The job ends with a status: its record is written, and that is a job boundary. -/
def finishJob (status : Nat) (faulted : Bool) (s : State) : State :=
  let l := s.job.launch
  let s1 := clearJob faulted (endWindowTest (unsealStep s))
  jobBoundary (complete (jobEndRec l status s1.power.jobEnergy) s1)

/-- An armed launch is disarmed (R142, R150, R249). -/
def disarm (s : State) : State :=
  if armed s then finishJob 0x0002 s.job.faulted s else s

/-- The unit of this package that a location names. -/
def locUnit (s : State) (l : Loc) : Option Nat := if l.pkg = selfId s then unitIndex l.unit else none

/-- The path of a location in a Failure Signature Record (Table 10-10). -/
def locPath (s : State) (l : Loc) : List Nat :=
  match locUnit s l with
  | some i => unitPath i
  | none => [6]

/-- The location that the record of a job fault carries: the package's own fault where it lost to another notice (R355). -/
def fsrLoc (s : State) (l : Loc) : Loc := s.job.ownFault.getD l

/-- The job ends in a fault (R191, R219, R287): counted, recorded, posted, and its record written. -/
def endByFault (l : Loc) (s : State) : State :=
  let f := fsrLoc s l
  let s1 := updTotals (fun t => { t with faults := t.faults + 1 }) (unsealStep s)
  let s2 := writeFsr f.code.toNat (locPath s1 f) (locUnit s1 f) (some f) none s1
  let s3 := postAt 0x0DA1 true (cnt s2) (locBytes l) s2
  finishJob 0x0004 true s3

end Sys2Proof.Machine
end

