-- ==== Sys2Proof/Machine/Stops.lean ====
section
/-! DEFINITION. The stop sequence (R248, R249), what the resets of Table 3-2 share, and the counter snapshot (R223). -/

namespace Sys2Proof.Machine

/-- A function applied for every populated port. -/
def eachPort (f : Nat → State → State) (s : State) : State := (List.range (portCount s)).foldl (fun a p => f p a) s

/-- Every populated port leaves the trained state and sends what the stage gives it. -/
def dropPorts (s : State) : State := eachPort dropPort s

/-! ## Synchronisation -/

/-- The Bridle unit leaves its state; SYNC_LOST sets when it leaves SYNCED (Table 7-2). -/
def bridleTo (st : SyncSt) (b : Bridle) : Bridle :=
  { b with st := st, quiet := 0, adopted := false, events := if b.st = .synced ∧ st ≠ .synced then b.events ||| 1 else b.events }

/-- A package that is not synchronised has no parent and no hops (Table 7-2). -/
def bridleLost (b : Bridle) : Bridle := { bridleTo .unsynced b with parent := none, hops := 0xFF }

/-- The pacer halts and the count stops (R135). -/
def haltPacer (s : State) : State :=
  { s with pacer := { s.pacer with running := false }, bridle := bridleLost s.bridle }

/-! ## Stops (R248, R249) -/

/-- The fault code of a stop cause (Table 11-5). -/
def causeCode (c : StopCause) : Nat :=
  match c with
  | .cool => 0x0B01
  | .therm => 0x0B02
  | .supply => 0x0B03
  | .clock => 0x0B04

/-- The flags of the causes present: bits 0 to 3 COOL, THERM, SUPPLY, CLOCK. -/
def causeFlags (t : Stop) : Nat := flag t.cool + 2 * flag t.therm + 4 * flag t.supply + 8 * flag t.clock

/-- The causes that a stop's event names (R29): those recorded, and those whose condition is present at the stop, which are flow
reported lost, a junction at 105 C, VIN48 outside the supply-stop thresholds, and LREF0 absent (log 69). -/
def presentCauses (s : State) : Stop :=
  { s.stop with cool := s.stop.cool || !s.tray.coolFlowN, therm := s.stop.therm || decide (105 ≤ s.tray.tMax),
                supply := s.stop.supply || decide (s.tray.vin48 < 38000) || decide (60500 < s.tray.vin48),
                clock := s.stop.clock || !s.tray.lref0 }

/-- A cause is recorded (R29). -/
def markCause (c : StopCause) (t : Stop) : Stop :=
  match c with
  | .cool => { t with cool := true }
  | .therm => { t with therm := true }
  | .supply => { t with supply := true }
  | .clock => { t with clock := true }

/-- Whether a cause drives THERM_TRIP_N low (R28). -/
def thermal (c : StopCause) : Bool := c == .cool || c == .therm

/-- A port at a stop: STOPPED within the trained stream, NOT_READY otherwise (R112). -/
def stopPort (p : Nat) (s : State) : State :=
  let v := portOf s p
  if v.st = .trained ∨ v.st = .measuring ∨ v.st = .relock then setPort p (portDown .stopped v) s
  else if unitSt s (1024 + p) = .off then s
  else setPort p (portDown (idleSignal s p) v) s

/-- A stack at a stop or at a reset that keeps contents: written marks clear (R99). -/
def Stack.unmarked (m : Stack) : Stack := { m with mark := [] }

/-- A stack at a stop: self-refresh (Table 11-3). -/
def Stack.resting (m : Stack) : Stack := { m.unmarked with st := if m.st = .trained then .selfRefresh else m.st }

/-- The job at a stop: an armed launch is disarmed and a running job faults with the cause's code (R249). -/
def stopJob (c : StopCause) (s : State) : State :=
  if running s then
    endByFault (locHere s (causeCode c) 0xC001 0xFF 0) { s with job := { s.job with ownFault := none } }
  else writeFsr (causeCode c) [6] none none none (disarm s)

/-- The hardware at a stop (Table 11-3), but for its ports: Pockets, Ballast with its buffers and transfers end, the Reel goes, memory rests. -/
def stopUnits (s : State) : State :=
  let s1 := unloadReel s
  { s1 with tiles := [], localq := [], transits := [], shadowed := [], mems := mapVals Stack.off Stack.resting s1.mems,
            power := { s1.power with ballast := [], ballastTiles := 0, buffers := [], ballastUnmet := false, decision := none } }

/-- The event and the log entry of a stop (R44, R249). -/
def postStopped (c : StopCause) (s : State) : State :=
  let fl := causeFlags (presentCauses s)
  appendLog 2 (causeCode c) fl (post 0x0BA4 (leBytes 2 (causeCode c) ++ leBytes 1 fl) s)

/-- The package stops with a cause; a cause that arises while it is stopped is recorded (R29, R248, R249). The ports send what R112
gives a port trained at the stop, or another, before the end of the job and the unload can move them. -/
def stopPackage (c : StopCause) (s : State) : State :=
  let tray := if thermal c then { s.tray with thermTripN := false } else s.tray
  if s.stop.stopped then { s with stop := markCause c s.stop, tray := tray }
  else
    let s1 := haltPacer { s with stop := { markCause c s.stop with stopped := true, first := some c }, tray := tray }
    postStopped c (stopUnits (dropTest (stopJob c (eachPort stopPort s1))))

/-! ## Resets (Table 3-2) -/

/-- A record that is written without an event record, since the reset clears the rings (R348). -/
def quietFsr (l : Loc) (s : State) : State :=
  let b := fsrBytes s (nextSeq s.sec.fsrSeq) l.code.toNat [6] none (some l) none
  let s1 := keepFsr b none s
  pushAlert 0x0AA1 (cnt s) (leBytes 4 s1.sec.fsrSeq ++ leBytes 2 b.length) s1

/-- A job that a reset ends: counted and recorded (R348), its sealed step reversed (R191). -/
def resetJob (code : Nat) (s : State) : State :=
  if running s then
    quietFsr (locHere s code 0xC002 0xFF 0) (updTotals (fun t => { t with faults := t.faults + 1 }) (unsealStep s))
  else s

/-- A store whose descriptor's record a reset loses (R51). -/
def loseReq (q : StoreReq) : StoreReq :=
  match q with
  | .ring _ _ _ => .lost
  | q => q

/-- The store engine at a reset: it goes on (R51). -/
def Store.afterReset (t : Store) : Store :=
  { t with run := t.run.map (fun x => { x with req := loseReq x.req }), waiting := t.waiting.map loseReq }

/-- The SEC block at a reset: settings at reset values, records, counters and scores kept. -/
def Sec.afterReset (c : Sec) : Sec :=
  { c with testAuto := true, commitRefused := false, staged := SecCfg.reset, committed := SecCfg.reset, fsrSel := 0,
           test := none }

/-- The PWR and MEM registers at a reset: reset values, with the energy (R250) and what the meters measured last kept (log 52). -/
def Power.afterReset (capMax : Nat) (w : Power) : Power :=
  { w with staged := PwrCfg.reset capMax, committed := PwrCfg.reset capMax, inForce := PwrCfg.reset capMax, events := 0,
           jobSampling := false, req := 0, allow := 0, spacing := 8, limiter := 0, upMax := 0, vTherm := 0, capUnmet := false,
           ballastUnmet := false, thermEpisode := false, linkRes := 0, aggLevel := 0, aggUpMax := 0, epoch := 0, decision := none,
           heard := [], seenLeader := none, ballast := [], ballastTiles := 0, cls := 3 }

/-- A port at a hot reset: training is kept (Table 3-2). The reset ends the job, so a wire latency that moved is measured again (R130). -/
def portKept (v : Port) : Port := { portAfterJob (portUnheard v) with retrain := false, trainDue := false }

/-- The part without power (R21): everything that LD0_SVC and the rails hold is lost but the settings banks. -/
def unpowered (mv : Nat) (s : State) : State :=
  { State.reset with
      ident := s.ident, tray := { s.tray with vin48 := mv, thermTripN := true },
      boot := { State.reset.boot with coolCount := !s.tray.coolFlowN },
      store := { State.reset.store with bankA := s.store.bankA, bankB := s.store.bankB },
      window := { Window.reset with hostMem := s.window.hostMem }, entropy := s.entropy, pending := s.pending }

/-- What a fundamental and a hot reset both clear (Table 3-2). The Reel goes without training a port that waited for its unload,
since a hot reset keeps port training. No job runs afterwards and none is armed, so every held unit leaves service (R328). -/
def resetShared (link : LinkInfo) (s : State) : State :=
  let s1 := wakeQuads (dropReel s)
  releaseAll
  { s1 with store := s.store.afterReset, sec := s.sec.afterReset, tiles := [], localq := [], transits := [],
            shadowed := [], job := Job.none, work := { s.work with parcelsProv := 0, storesProv := 0, windowProv := 0 },
            window := { Window.reset with hostMem := s.window.hostMem }, det := Det.reset,
            ldr := { s1.ldr with debug := false },
            power := s1.power.afterReset s.store.set.capMax, rings := Rings.reset link, latches := [] }

/-! ## The counter snapshot (R38, R223) -/

/-- A snapshot entry. -/
def snapEntry (s : State) (unit : UnitField) (part : Nat) (counters : List Byte) : List Byte :=
  historyEntry s unit 0xFF 0 5 part counters

/-- The entry of a unit with a nonzero counter. -/
def snapUnit (s : State) (x : Nat × Health) : List (List Byte) :=
  let h := x.2
  if x.1 < 1024 then
    if h.c0 + h.c1 + h.c2 + h.c3 = 0 then []
    else [snapEntry s (unitField x.1) 0 (leBytes 2 h.c0 ++ leBytes 2 h.c1 ++ leBytes 2 h.c2 ++ leBytes 2 h.c3)]
  else if x.1 < 1072 then
    if h.c0 + h.c1 + h.c2 + h.c3 + h.c4 + h.c5 = 0 then []
    else [snapEntry s (unitField x.1) 0 (leBytes 4 h.c0 ++ leBytes 4 h.c1 ++ leBytes 4 h.c2 ++ leBytes 4 h.c3 ++
      leBytes 4 h.c4 ++ leBytes 4 h.c5)]
  else if h.c0 + h.c1 + h.c2 = 0 then []
  else [snapEntry s (unitField x.1) 0 (leBytes 4 h.c0 ++ leBytes 4 h.c1 ++ leBytes 4 h.c2)]

/-- The twelve package totals in the order of Table 10-12. -/
def totalsList (t : Totals) : List Nat :=
  [t.detect, t.res, t.shd, t.env, t.kat, t.late, t.link, t.veto, t.memCorr, t.memUncorr, t.fecCorr, t.faults]

/-- The entries of a snapshot, in order. -/
def snapshot (s : State) : List (List Byte) :=
  let tot := totalsList s.sec.totals ++ [s.work.replays]
  (List.range 4).map (fun p => snapEntry s 0xC000 p (((tot.drop (4 * p)).take 4).flatMap (leBytes 8))) ++
  s.sec.health.flatMap (snapUnit s)

/-- The snapshot appended to the test history (R38). -/
def takeSnapshot (s : State) : State := (snapshot s).foldl (fun a e => appendHistory e a) s

/-- A unit's counters at 0; its score, tests and records are kept (R206). -/
def Health.uncounted (h : Health) : Health := { h with c0 := 0, c1 := 0, c2 := 0, c3 := 0, c4 := 0, c5 := 0 }

/-- Tile, port and package counters at 0 (Tables 3-2, 16-6). -/
def clearCounters (s : State) : State :=
  { s with work := Work.zero,
           sec := { s.sec with overdue := 0, totals := Totals.zero, health := mapVals Health.zero Health.uncounted s.sec.health } }

/-- A port at a fundamental reset, which keeps its relock count (Table 16-6) and its precoding (Table 6-10). -/
def portReset (v : Port) : Port := { Port.off with relocks := v.relocks, precode := v.precode }

/-- The fundamental reset (R37 to R40): the part returns to HELD. BOOT_FLAGS are kept, and the Vent history returns to its reset
value with the other BAR0 setup registers (log 74). -/
def fundamentalReset (s : State) : State :=
  let s1 := clearCounters (takeSnapshot (resetJob 0x0D02 (haltPacer s)))
  let s2 := resetShared LinkInfo.down s1
  let s3 := { s2 with mems := [], ports := mapVals Port.off portReset s2.ports, bridle := Bridle.reset,
                      pacer := Pacer.reset,
                      boot := { s.boot with stage := .held, lastReset := .fundamental, overrunHold := false } }
  let s4 := dropPorts s3
  appendLog 1 1 (bootFlags s4.boot) s4

/-- The hot reset (R37): memory, training, counters, the count and the Vent level are kept. An overrun hold is kept too, because the
stages do not begin again (log 74). -/
def hotResetAll (s : State) : State :=
  let s1 := resetShared s.rings.link (resetJob 0x0D03 s)
  let s2 := { s1 with mems := mapVals Stack.off Stack.unmarked s1.mems, ports := mapVals Port.off portKept s1.ports,
                      bridle := { Bridle.reset with count := s.bridle.count },
                      pacer := { s1.pacer with hist := [], head := 0 },
                      boot := { s.boot with lastReset := .hot } }
  appendLog 1 2 (bootFlags s2.boot) s2

end Sys2Proof.Machine
end

