-- ==== Sys2Proof/Machine/TimeBase.lean ====
section
/-! DEFINITION. The time base, its commits, outputs and captures (chapter 8). -/

namespace Sys2Proof.Machine

def updTb (f : TimeBase → TimeBase) (s : State) : State := { s with tb := f s.tb }

/-- The whole nanoseconds of the time base. -/
def tbNs (t : TimeBase) : Nat := t.sec * 10 ^ 9 + t.ns

/-! ## Time outputs -/

/-- The pulse width in nanoseconds: WIDTH 0 is 2^32 ns (R170). -/
def pulseNs (c : ToutCfg) : Nat := if c.width = 0 then 2 ^ 32 else c.width.toNat

/-- The start time of an output in nanoseconds. -/
def startNs (c : ToutCfg) : Nat := c.startSec.toNat * 10 ^ 9 + c.startNs.toNat

/-- The earliest grid point later than a time (R172). -/
def gridAfter (c : ToutCfg) (t : Nat) : Nat :=
  if t < startNs c then startNs c else startNs c + ((t - startNs c) / c.period.toNat + 1) * c.period.toNat

/-- A pulse ends: the land is idle, and a one-shot that fired or an output turned off is unarmed (R171, R173). -/
def endPulse (o : Tout) : Tout :=
  if o.pulse then
    { o with pulse := false,
             armed := o.armed && (o.committed.mode == 2 || (o.committed.mode == 1 && o.nextLead != 0)) }
  else o

/-- Every output's pulse ends (R169, R174). -/
def endPulses (t : TimeBase) : TimeBase :=
  (List.range 4).foldl (fun a n => setOut n (endPulse (outOf a n)) a) t

/-- Whether the time base runs: VR23 on and REF10M present (R25). -/
def tbRuns (s : State) : Bool := svcOn s && !s.tb.refLost

/-- TOUT_MISSED (Table 13-9). -/
def postMissed (n kind : Nat) (s : State) : State := post 0x08A4 (leBytes 1 n ++ leBytes 1 kind) s

/-- An output at its leading edge: it starts a pulse at its POL, and a periodic one moves to its next grid edge. A pulse that began
under older settings and still runs ends at its old trailing edge (R173, log 50). -/
def leadEdge (o : Tout) : Tout :=
  let o1 := { o with nextLead := if o.committed.mode = 2 then o.nextLead + o.committed.period.toNat else 0 }
  if o.pulse then o1
  else { o1 with pulse := true, pulsePol := o.committed.pol, trail := o.nextLead + pulseNs o.committed }

/-- TOUT_LEADING_EDGE (R170). -/
def execToutLeadingEdge (n : Nat) (s : State) : Host.Outcome State Fault Refusal :=
  .next (
    let o := outOf s.tb n
    if n < 4 ∧ tbRuns s ∧ o.armed ∧ o.nextLead ≠ 0 ∧ o.nextLead ≤ tbNs s.tb then updTb (setOut n (leadEdge o)) s else s)

/-- TOUT_TRAILING_EDGE (R170): the output returns to idle. -/
def execToutTrailingEdge (n : Nat) (s : State) : Host.Outcome State Fault Refusal :=
  .next (
    let o := outOf s.tb n
    if n < 4 ∧ tbRuns s ∧ o.pulse ∧ o.trail ≤ tbNs s.tb then updTb (setOut n (endPulse o)) s else s)

/-- Whether the settings of an output are in range (R170). -/
def toutInRange (c : ToutCfg) : Bool :=
  c.mode != 3 && decide (c.startNs.toNat ≤ 999999999) && !(c.width == 1 || c.width == 2 || c.width == 3) &&
  !(c.mode == 2 && decide (c.period.toNat < pulseNs c + 4))

/-- An output after an accepted commit (R171 to R173). -/
def toutTaken (now : Nat) (o : Tout) : Tout :=
  let c := o.staged
  let o1 := { o with committed := c }
  if c.mode = 1 then
    if startNs c ≤ now + 64 then { o1 with armed := false, missed := true, nextLead := 0 }
    else { o1 with armed := true, nextLead := startNs c }
  else if c.mode = 2 then { o1 with armed := true, nextLead := gridAfter c (now + 64) }
  else { o1 with armed := o.armed && o.pulse, nextLead := 0 }

/-- TB_RESULT (R162). -/
def tbResult (code sub : Nat) (t : TimeBase) : TimeBase := { t with result := code, sub := sub }

/-- Whether a write of a commit register commits (Table 0-1, R34). -/
def commits (v : Word32) (s : State) : Bool := barOpen s && bit v 0

/-- TOUT_COMMIT (R170): accepted or OUT_OF_RANGE. -/
def toutGo (n : Nat) (v : Word32) (s : State) : State :=
  if commits v s && decide (n < 4) then
    let o := outOf s.tb n
    if toutInRange o.staged then
      let s1 := updTb (fun t => tbResult 1 (8 + n) (setOut n (toutTaken (tbNs t) o) t)) s
      if o.staged.mode = 1 ∧ startNs o.staged ≤ tbNs s.tb + 64 then postMissed n 0 s1 else s1
    else updTb (tbResult 2 (8 + n)) s
  else s

/-- A write of the commit register of `toutGo`. -/
def execToutCommit (n : Nat) (v : Word32) (s : State) : Host.Outcome State Fault Refusal := .next (toutGo n v s)

/-! ## The reference -/

/-- The time base without its reference (R25, R169). -/
def loseRef10m (s : State) : State :=
  post 0x08A2 [] (updTb (fun t => { endPulses t with
    refLost := true, events := t.events ||| 2, valid := false, stepUsed := false, slewRem := 0 }) s)

/-- REF10M_LOSS (R25, R169). -/
def execRef10mLoss (s : State) : Host.Outcome State Fault Refusal :=
  .next (
    let s1 := { s with tray := { s.tray with ref10m := false } }
    if tbRuns s then loseRef10m s1 else s1)

/-- REF10M_RETURN (R169). -/
def execRef10mReturn (s : State) : Host.Outcome State Fault Refusal :=
  .next (
    let s1 := { s with tray := { s.tray with ref10m := true } }
    if svcOn s && s.tb.refLost then
      post 0x08A3 [] (updTb (fun t => { t with refLost := false, events := t.events ||| 4 }) s1)
    else s1)

/-! ## Steps (R163 to R166, R174) -/

/-- The step offset in units of 2^-32 ns (R163). -/
def stepUnits (c : TbCfg) : Int := (sgn c.stepSec * 10 ^ 9 + c.stepNs.toNat) * 2 ^ 32 + c.stepFrac.toNat

/-- The time base as visible units of 2^-32 ns. -/
def tbVisible (t : TimeBase) : Nat := tbUnits t / 2 ^ 16

/-- The visible units at which the seconds end. -/
def visibleEnd : Nat := secMax * 10 ^ 9 * 2 ^ 32

/-- An armed output under a step from one time to another, in whole ns (R174); answers the kind of miss. -/
def outStepped (old new : Nat) (o0 : Tout) : Tout × Option Nat :=
  let o := endPulse o0
  if !o.armed then (o, none)
  else if o.committed.mode = 1 then
    if old < o.nextLead ∧ o.nextLead ≤ new then ({ o with armed := false, missed := true, nextLead := 0 }, some 0)
    else (o, none)
  else if o.committed.mode = 2 then
    let o1 := { o with nextLead := gridAfter o.committed new }
    if gridAfter o.committed old ≤ new then ({ o1 with skipped := true }, some 1) else (o1, none)
  else (o, none)

/-- One output of the package under a step. -/
def stepOut (old new n : Nat) (s : State) : State :=
  let r := outStepped old new (outOf s.tb n)
  let s1 := updTb (setOut n r.1) s
  match r.2 with
  | some k => postMissed n k s1
  | none => s1

/-- The INFO of TB_STEPPED (Table 13-9). -/
def steppedInfo (off : Int) : List Byte :=
  leInt 8 (off / (10 ^ 9 * 2 ^ 32)) ++ leBytes 4 (off / 2 ^ 32 % 10 ^ 9).toNat ++ leBytes 4 (off % 2 ^ 32).toNat

/-- A step by an offset in visible units, once accepted: VALID, STEPPED and its event at once, its offset at the first TIME cycle
(R163 to R165). A step that waits already is added to. -/
def acceptStep (off : Int) (s : State) : State :=
  post 0x08A1 (steppedInfo off) (updTb (fun t => { t with
    stepDue := some (t.stepDue.getD 0 + off), valid := true, stepUsed := t.stepUsed || !t.modeNow,
    events := t.events ||| 1 }) s)

/-- The time base moved by an offset in visible units: the hidden 16 bits of the fraction stay (R163). -/
def tbMoved (off : Int) (t : TimeBase) : TimeBase :=
  { tbOfUnits (((tbVisible t : Int) + off).toNat * 2 ^ 16 + t.frac % 2 ^ 16) t with stepDue := none }

/-- The step that waits takes effect, and the outputs follow it (R163, R174). -/
def takeStep (s : State) : State :=
  match s.tb.stepDue with
  | some off =>
    let t := tbMoved off s.tb
    (List.range 4).foldl (fun a n => stepOut (tbNs s.tb) (tbNs t) n a) { s with tb := t }
  | none => s

/-- The visible time that a step starts from: with a step that waits already taken. -/
def stepBase (t : TimeBase) : Int := (tbVisible t : Int) + t.stepDue.getD 0

/-- Whether a step by an offset stays in range (R163). -/
def stepInRange (t : TimeBase) (off : Int) : Bool :=
  let v := stepBase t + off
  decide (0 ≤ v) && decide (v < (visibleEnd : Int))

/-- The refusal of a step by the mode that acts since the last TIME cycle (R162, R165, R166), 1 when none applies. -/
def stepMode (t : TimeBase) : Nat :=
  if t.modeNow && t.valid then 5 else if !t.modeNow && t.stepUsed then 6 else 1

/-- TB_STEP_COMMIT (R163). -/
def tbStepGo (v : Word32) (s : State) : State :=
  if commits v s then
    let t := s.tb
    let off := stepUnits t.staged
    if (999999999 < t.staged.stepNs.toNat : Bool) || !stepInRange t off then updTb (tbResult 2 1) s
    else if stepMode t ≠ 1 then updTb (tbResult (stepMode t) 1) s
    else
      acceptStep off (updTb (fun t => tbResult 1 1 { t with
        committed := { t.committed with stepSec := t.staged.stepSec, stepNs := t.staged.stepNs,
                                        stepFrac := t.staged.stepFrac } }) s)
  else s

/-- A write of the commit register of `tbStepGo`. -/
def execTbStepCommit (v : Word32) (s : State) : Host.Outcome State Fault Refusal := .next (tbStepGo v s)

/-- TB_CIVIL_SET_COMMIT (R179): a step to a date and time. -/
def tbCivilSetGo (v : Word32) (s : State) : State :=
  if commits v s then
    let t := s.tb
    match civilSeconds t.staged.setDate t.staged.setTime (sgn t.committed.civil) with
    | .invalid => updTb (tbResult 3 5) s
    | .outOfRange => updTb (tbResult 2 5) s
    | .secs n =>
      if stepMode t ≠ 1 then updTb (tbResult (stepMode t) 5) s
      else
        acceptStep ((n * 10 ^ 9 * 2 ^ 32 : Nat) - stepBase t) (updTb (fun t => tbResult 1 5 { t with
          committed := { t.committed with setDate := t.staged.setDate, setTime := t.staged.setTime } }) s)
  else s

/-- A write of the commit register of `tbCivilSetGo`. -/
def execTbCivilSetCommit (v : Word32) (s : State) : Host.Outcome State Fault Refusal := .next (tbCivilSetGo v s)

/-- TB_MODE_COMMIT (R165, R166). -/
def tbModeGo (v : Word32) (s : State) : State :=
  if commits v s then
    let c := s.tb.staged
    if c.mode && (c.slewBound == 0 || (500 < c.slewBound.toNat : Bool)) then updTb (tbResult 2 0) s
    else updTb (fun t => tbResult 1 0 { t with
      committed := { t.committed with mode := c.mode, slewBound := c.slewBound },
      stepUsed := t.stepUsed && c.mode, slewRem := if c.mode then t.slewRem else 0 }) s
  else s

/-- A write of the commit register of `tbModeGo`. -/
def execTbModeCommit (v : Word32) (s : State) : Host.Outcome State Fault Refusal := .next (tbModeGo v s)

/-- TB_RATE_COMMIT (R167). -/
def tbRateGo (v : Word32) (s : State) : State :=
  if commits v s then
    if 562949953421 < (sgn s.tb.staged.rate).natAbs then updTb (tbResult 2 2) s
    else updTb (fun t => tbResult 1 2 { t with committed := { t.committed with rate := t.staged.rate } }) s
  else s

/-- A write of the commit register of `tbRateGo`. -/
def execTbRateCommit (v : Word32) (s : State) : Host.Outcome State Fault Refusal := .next (tbRateGo v s)

/-- TB_SLEW_COMMIT (R168): the offset replaces any remaining one. -/
def tbSlewGo (v : Word32) (s : State) : State :=
  if commits v s then
    let off := sgn s.tb.staged.slew
    if 1000000000 < off.natAbs then updTb (tbResult 2 3) s
    else if !s.tb.valid then updTb (tbResult 4 3) s
    else if !s.tb.modeNow then updTb (tbResult 5 3) s
    else updTb (fun t => tbResult 1 3 { t with
      committed := { t.committed with slew := t.staged.slew }, slewRem := off * (fracUnit : Nat) }) s
  else s

/-- A write of the commit register of `tbSlewGo`. -/
def execTbSlewCommit (v : Word32) (s : State) : Host.Outcome State Fault Refusal := .next (tbSlewGo v s)

/-- TB_CIVIL_COMMIT (R177). -/
def tbCivilGo (v : Word32) (s : State) : State :=
  if commits v s then
    updTb (fun t => tbResult 1 4 { t with committed := { t.committed with civil := t.staged.civil } }) s
  else s

/-- A write of the commit register of `tbCivilGo`. -/
def execTbCivilCommit (v : Word32) (s : State) : Host.Outcome State Fault Refusal := .next (tbCivilGo v s)

/-! ## Counting -/

/-- What was committed acts from a TIME cycle on (R162): the correction mode, in mode 0 without a slew, the civil offset, and each
output's POL. The rate word and the slew bound are read at each cycle. -/
def actNow (t : TimeBase) : TimeBase :=
  let t1 := { t with modeNow := t.committed.mode, slewRem := if t.committed.mode then t.slewRem else 0, civilNow := t.committed.civil }
  (List.range 4).foldl (fun a n => setOut n { outOf a n with polNow := (outOf a n).committed.pol } a) t1

/-- A TIME cycle (R157): what was committed acts, and a step that waits is taken first (R163). -/
def timeCycle (s : State) : State := updTb (fun t => tbTick (actNow t)) (takeStep s)

/-- TIME_CYCLE (R157). -/
def execTimeCycle (s : State) : Host.Outcome State Fault Refusal :=
  .next (if tbRuns s then timeCycle s else s)

/-- Whether the next TIME cycle passes the last second (R158). -/
def tbAtEnd (t : TimeBase) : Bool := decide (secMax * 10 ^ 9 * fracUnit ≤ tbUnits t + tickUnits t)

/-- TB_WRAP (R158): the TIME cycle that returns the seconds to 0. -/
def execTbWrap (s : State) : Host.Outcome State Fault Refusal :=
  .next (if tbRuns s && tbAtEnd (actNow (takeStep s).tb) then timeCycle s else s)

/-! ## Captures (R175) -/

/-- Whether a channel's EDGE selects an edge. -/
def edgeSelected (edge : BitVec 2) (rising : Bool) : Bool := if rising then bit edge 0 else bit edge 1

/-- The entry of an edge at the present moment. -/
def captureEntry (s : State) (rising : Bool) : CapEntry :=
  { sec := s.tb.sec, ns := s.tb.ns, bridle := cnt s, rising := rising, held := s.tb.refLost, invalid := !s.tb.valid }

/-- The INFO of TB_CAPTURE (Table 13-9). -/
def captureInfo (c : Nat) (e : CapEntry) : List Byte :=
  leBytes 1 c ++ leBytes 1 (flag e.held + 2 * flag e.invalid + 4 * flag e.rising) ++ leBytes 6 e.sec ++ leBytes 4 e.ns

/-- CAPTURE_EDGE (R175). -/
def execCaptureEdge (c : Nat) (rising : Bool) (s : State) : Host.Outcome State Fault Refusal :=
  .next (
    let k := capOf s.tb c
    if svcOn s && decide (c < 3) && edgeSelected k.edge rising then
      if 16 ≤ k.queue.length then
        let s1 := updTb (setCap c { k with overflow := true, dropped := min 65535 (k.dropped + 1), episode := true }) s
        if k.episode then s1 else post 0x08A5 (leBytes 1 c) s1
      else
        let e := captureEntry s rising
        let s1 := updTb (setCap c { k with queue := k.queue ++ [e] }) s
        if k.event then postAt 0x08A6 false e.bridle (captureInfo c e) s1 else s1
    else s)

/-- A channel whose head entry is removed; an overflow episode ends below 16 entries. -/
def popped (k : Capture) : Capture :=
  { k with queue := k.queue.drop 1, episode := k.episode && decide (16 ≤ (k.queue.drop 1).length) }

/-- A write of CAPc_POP (R175). -/
def capPopGo (c : Nat) (v : Word32) (s : State) : State :=
  if commits v s && decide (c < 3) then updTb (setCap c (popped (capOf s.tb c))) s else s

/-- CAP_POP (R175). -/
def execCapPop (c : Nat) (v : Word32) (s : State) : Host.Outcome State Fault Refusal := .next (capPopGo c v s)

end Sys2Proof.Machine
end

