-- ==== Sys2Proof/Machine/Boot.lean ====
section
/-! DEFINITION. Start-up and resets (chapter 3). -/

namespace Sys2Proof.Machine

/-- The bank that SERVICE_BOOT loads (R45): the valid bank with the higher generation, bank A of two equal ones (log 17). -/
def chooseBank (t : Store) (okA okB : Bool) : Option Bool :=
  let a := okA && t.bankA.intact
  let b := okB && t.bankB.intact
  if a && b then some (decide (t.bankA.generation < t.bankB.generation))
  else if a then some false else if b then some true else none

/-- Whether the bank with the higher generation failed and the other was used (R45). -/
def fellBack (t : Store) (c : Option Bool) : Bool :=
  match c with
  | some false => decide (t.bankA.generation < t.bankB.generation)
  | some true => decide (t.bankB.generation < t.bankA.generation)
  | none => false

/-- The contents that start-up loads (R45). -/
def loadedSet (s : State) (c : Option Bool) : Settings :=
  match c with
  | some false => s.store.bankA.set
  | some true => s.store.bankB.set
  | none => Settings.defaults (powerLimit s)

/-- The unit entries of a bank as start-up takes them: no Reel is loaded, so none is HELD (R325). -/
def Settings.unheld (t : Settings) : Settings :=
  { t with units := mapVals { st := .active, held := false } (fun e => { st := shownSt e, held := false }) t.units }

/-- STORE_COUNT of a choice of bank. -/
def loadedCount (t : Store) (c : Option Bool) : Nat :=
  match c with
  | some false => t.bankA.storeCount
  | some true => t.bankB.storeCount
  | none => 0

/-- The cold start (R33, R37, R39, R45); without REF10M the time base loses its reference at once (R169). -/
def coldStart (mv : Nat) (straps : BitVec 6) (okA okB : Bool) (s : State) : State :=
  let c := chooseBank s.store okA okB
  let vol := (loadedSet s c).unheld
  let s1 := unpowered mv s
  let s2 := { s1 with ident := { s.ident with slotId := straps },
                      boot := { s1.boot with stage := .serviceBoot, lastReset := .cold, noValidBank := c.isNone,
                                             bankFallback := fellBack s.store c },
                      store := { s1.store with set := vol, active := c,
                                               worn := decide (100000 ≤ loadedCount s.store c) },
                      power := Power.reset vol.capMax, tb := TimeBase.reset }
  let s3 := appendLog 1 0 (bootFlags s2.boot) s2
  if s.tray.ref10m then s3 else loseRef10m s3

/-- VIN48_RISE (R33): a cold start when the supply rises through the start threshold of 39.0 V. -/
def execVin48Rise (mv : Nat) (straps : BitVec 6) (bankA bankB : Bool) (s : State) : Host.Outcome State Fault Refusal :=
  .next (if s.boot.stage = .off ∧ 39000 ≤ mv then coldStart mv straps bankA bankB s else s)

/-- Whether a stage may end: it is the stage in progress and has not overrun (R33). -/
def inStage (st : Stage) (s : State) : Bool := s.boot.stage == st && !s.boot.overrunHold

/-- SERVICE_BOOT_END (R33): HELD or RAILS follows, and every port sends NOT_READY (R40). -/
def execServiceBootEnd (s : State) : Host.Outcome State Fault Refusal :=
  .next (if inStage .serviceBoot s then
    dropPorts { s with boot := { s.boot with stage := if s.tray.perstN then .rails else .held } }
  else s)

/-- PERST_N_RISE (R35): the part leaves HELD for RAILS. -/
def execPerstNRise (s : State) : Host.Outcome State Fault Refusal :=
  let s1 := { s with tray := { s.tray with perstN := true } }
  .next (if s.boot.stage = .held then { s1 with boot := { s1.boot with stage := .rails } } else s1)

/-- PERST_N_FALL (R40): from stages 3 to 6 a fundamental reset. -/
def execPerstNFall (s : State) : Host.Outcome State Fault Refusal :=
  let s1 := { s with tray := { s.tray with perstN := false } }
  .next (match s.boot.stage with
    | .rails => fundamentalReset s1
    | .memoryInit => fundamentalReset s1
    | .selfTest => fundamentalReset s1
    | .ready => fundamentalReset s1
    | _ => s1)

/-- RAILS_END (R33): MEMORY_INIT begins, with the host link if it trained (R270) and the pacer running (log 25). -/
def execRailsEnd (link : LinkInfo) (s : State) : Host.Outcome State Fault Refusal :=
  .next (if inStage .rails s then
    { s with boot := { s.boot with stage := .memoryInit }, rings := { s.rings with link := trainLink link },
             pacer := { s.pacer with running := !s.stop.stopped } }
  else s)

/-- A stack after training and scrub (Table 3-1): one out of service is left unpowered (R36), and the others of a stopped package rest
(R21, Table 11-3). -/
def initStack (s : State) (k : Nat) : Stack :=
  if !stackPop s k || outOfService s (1072 + k) then Stack.off
  else { Stack.off with st := if s.stop.stopped then .selfRefresh else .trained }

/-- MEMORY_INIT_END (R33): every stack is scrubbed with its selectors at side 0 (R99), and SELF_TEST begins. -/
def execMemoryInitEnd (s : State) : Host.Outcome State Fault Refusal :=
  .next (if inStage .memoryInit s then
    let s1 := (List.range 8).foldl (fun a k => setMem k (initStack s k) a) s
    { s1 with boot := { s.boot with stage := .selfTest } }
  else s)

/-- A unit that failed its SELF_TEST kernel (R36). -/
def potFail (x : Nat × BitVec 8 × KaOutcome) (s : State) : State :=
  if outOfService s x.1 || x.2.2 == .pass || (1072 ≤ x.1 : Bool) then s
  else kaFail x.1 x.2.1.toNat 0 x.2.2 { s with boot := { s.boot with potFail := true } }

/-- The tiles and ports in WATCH whose SELF_TEST kernel passed (R207, Table 3-1). -/
def potPassed (fails : List (Nat × BitVec 8 × KaOutcome)) (s : State) : List Nat :=
  ((s.store.set.units.map (fun x => x.1)).filter (fun i =>
    decide (i < 1072) && unitSt s i == .watch && !fails.any (fun x => x.1 == i && x.2.2 != .pass)))

/-- From READY on a FENCED stack that start-up left unpowered takes the form of Table 15-1, which is self-refresh (R330, log 78). -/
def restFenced (k : Nat) (s : State) : State :=
  if unitSt s (1072 + k) = .fenced then updMem k (fun m => { m with st := if m.st = .off then .selfRefresh else m.st }) s else s

/-- SELF_TEST_END (R33): the part is READY, its Ballast buffers are loaded (R246), and its ports stop sending NOT_READY. A kernel that passed counts as a pass of a unit in
WATCH (R207). -/
def execSelfTestEnd (fails : List (Nat × BitVec 8 × KaOutcome)) (s : State) : Host.Outcome State Fault Refusal :=
  .next (if inStage .selfTest s then
    let s1 := (potPassed fails s).foldl (fun a i => kaPass i a) (fails.foldl (fun a x => potFail x a) s)
    let s2 := loadBuffers { s1 with boot := { s1.boot with stage := .ready } }
    dropPorts ((List.range 8).foldl (fun a k => restFenced k a) s2)
  else s)

/-- The number of a stage (Table 3-1). -/
def stageCode (st : Stage) : Nat :=
  match st with
  | .off => 0
  | .serviceBoot => 1
  | .held => 2
  | .rails => 3
  | .memoryInit => 4
  | .selfTest => 5
  | .ready => 6

/-- Whether a stage has a maximum duration (Table 3-1). -/
def timedStage (st : Stage) : Bool :=
  st == .serviceBoot || st == .rails || st == .memoryInit || st == .selfTest

/-- STAGE_OVERRUN (R33): the part stays in the stage until the next reset, and a record names the stage. -/
def execStageOverrun (s : State) : Host.Outcome State Fault Refusal :=
  .next (if timedStage s.boot.stage && !s.boot.overrunHold then
    writeFsr 0x0A84 [7, stageCode s.boot.stage] none none none
      { s with boot := { s.boot with stageOverrun := true, overrunHold := true } }
  else s)

/-- HOT_RESET (R37, R271): it comes over the host link. -/
def execHotReset (s : State) : Host.Outcome State Fault Refusal := .next (if linkUp s then hotResetAll s else s)

end Sys2Proof.Machine
end

