-- ==== Sys2Proof/Machine/Flags.lean ====
section
/-! DEFINITION. The number formats of a tile, their rounding, and the flag word (R64 to R68, R353, R354). -/

namespace Sys2Proof.Machine

/-- The formats that FMT 0 to 6 names (Table 4-5). -/
inductive Fmt where
  | fp64 | fp32 | bf16 | e4m3 | e5m2 | int8 | int32
  deriving DecidableEq, Repr

/-- The format of an FMT value below 7. -/
def fmtOf (k : Nat) : Option Fmt := [Fmt.fp64, .fp32, .bf16, .e4m3, .e5m2, .int8, .int32][k]?

/-- The bytes of an element. -/
def elemBytes (f : Fmt) : Nat :=
  match f with
  | .fp64 => 8
  | .fp32 => 4
  | .bf16 => 2
  | .e4m3 => 1
  | .e5m2 => 1
  | .int8 => 1
  | .int32 => 4

/-- Whether a format is an integer format. -/
def isInt (f : Fmt) : Bool := f == .int8 || f == .int32

/-- Exponent and fraction widths of a floating-point format. -/
def expW (f : Fmt) : Nat :=
  match f with
  | .fp64 => 11
  | .fp32 => 8
  | .bf16 => 8
  | .e4m3 => 4
  | _ => 5
def fracW (f : Fmt) : Nat :=
  match f with
  | .fp64 => 52
  | .fp32 => 23
  | .bf16 => 7
  | .e4m3 => 3
  | _ => 2

/-- The exponent of the unit in the last place of a subnormal. -/
def minLsb (f : Fmt) : Int := 2 - 2 ^ (expW f - 1) - fracW f

/-- The magnitude bits of the largest finite value (R67). -/
def maxFinite (f : Fmt) : Nat := if f = .e4m3 then 0x7E else (2 ^ expW f - 1) * 2 ^ fracW f - 1

/-- The magnitude bits of infinity, in a format that has it. -/
def infBits (f : Fmt) : Nat := (2 ^ expW f - 1) * 2 ^ fracW f

/-- The canonical quiet NaN (R65). -/
def nanBits (f : Fmt) : Nat := if f = .e4m3 then 0x7F else infBits f + 2 ^ (fracW f - 1)

/-- The sign bit of a format in place. -/
def signBit (f : Fmt) (neg : Bool) : Nat := flag neg * 2 ^ (expW f + fracW f)

/-! ## Flags (R68): bits 0 to 5 inexact, underflow, overflow, division by zero, invalid, saturation -/

def flInexact : BitVec 8 := 1
def flUnderflow : BitVec 8 := 2
def flOverflow : BitVec 8 := 4
def flInvalid : BitVec 8 := 16
def flSat : BitVec 8 := 32

/-- A flag raised when a condition holds. -/
def raised (b : Bool) (f : BitVec 8) : BitVec 8 := if b then f else 0

/-! ## Values -/

/-- A floating-point datum: a NaN, an infinity, or the finite value m times 2^e with its sign. -/
inductive Num where
  | nan (signalling : Bool)
  | inf (neg : Bool)
  | fin (neg : Bool) (m : Nat) (e : Int)
  deriving DecidableEq, Repr

/-- The datum that an encoding of a floating-point format spells. -/
def decodeNum (f : Fmt) (v : Nat) : Num :=
  let neg := decide (v / 2 ^ (expW f + fracW f) % 2 = 1)
  let x := v / 2 ^ fracW f % 2 ^ expW f
  let m := v % 2 ^ fracW f
  let special := if f = .e4m3 then x == 15 && m == 7 else x == 2 ^ expW f - 1
  if special then
    if f = .e4m3 then .nan false
    else if m = 0 then .inf neg
    else .nan (decide (m < 2 ^ (fracW f - 1)))
  else if x = 0 then .fin neg m (minLsb f)
  else .fin neg (m + 2 ^ fracW f) (minLsb f + x - 1)

/-- Whether `rem` of `2^shift` parts beyond `sig` rounds up in magnitude (Table 4-6); a stochastic draw of 64 bits takes the
larger neighbour with the probability that the remainder gives. -/
def roundsUp (rnd draw : Nat) (neg : Bool) (sig rem shift : Nat) : Bool :=
  match rnd with
  | 0 => decide (2 ^ shift < 2 * rem) || (2 * rem == 2 ^ shift && sig % 2 == 1)
  | 1 => false
  | 2 => !neg && rem != 0
  | 3 => neg && rem != 0
  | _ => decide (draw * 2 ^ shift < rem * 2 ^ 64)

/-- The multiple of `2^q` that `m` times `2^e` rounds to, in units of `2^q`, and whether it is inexact. -/
def roundAt (rnd draw : Nat) (neg : Bool) (m : Nat) (e q : Int) : Nat × Bool :=
  if q ≤ e then (m * 2 ^ (e - q).toNat, false)
  else
    let shift := (q - e).toNat
    let sig := m / 2 ^ shift
    let rem := m % 2 ^ shift
    (sig + flag (roundsUp rnd draw neg sig rem shift), rem != 0)

/-- Whether a direction takes an overflow of a sign to infinity (R67). -/
def toInfinity (rnd : Nat) (neg : Bool) : Bool :=
  match rnd with
  | 0 => true
  | 1 => false
  | 2 => !neg
  | 3 => neg
  | _ => true

/-- An infinity as a result, under SAT (R67). -/
def infResult (f : Fmt) (sat neg : Bool) : Nat × BitVec 8 :=
  if sat then (signBit f neg + maxFinite f, 0)
  else if f = .e4m3 then (nanBits f, flInvalid)
  else (signBit f neg + infBits f, 0)

/-- The result of an overflow (R67). -/
def overflowResult (f : Fmt) (rnd : Nat) (sat neg : Bool) : Nat :=
  if !sat && toInfinity rnd neg then (if f = .e4m3 then nanBits f else signBit f neg + infBits f)
  else signBit f neg + maxFinite f

/-- The finite value m times 2^e rounded into a format: bits and flags. Tininess is judged after rounding (R64). -/
def roundNum (f : Fmt) (rnd draw : Nat) (sat neg : Bool) (m : Nat) (e : Int) : Nat × BitVec 8 :=
  if m = 0 then (signBit f neg, 0)
  else
    let top : Int := e + Nat.log2 m
    let q := max (top - fracW f) (minLsb f)
    let r := roundAt rnd draw neg m e q
    let bits := (q - minLsb f).toNat * 2 ^ fracW f + r.1
    if maxFinite f < bits then (overflowResult f rnd sat neg, flOverflow ||| flInexact)
    else
      let free := roundAt rnd draw neg m e (top - fracW f)
      let tiny := decide (top < minLsb f + fracW f) &&
        !(decide (top = minLsb f + fracW f - 1) && free.1 == 2 ^ (fracW f + 1))
      (signBit f neg + bits, raised r.2 flInexact ||| raised (tiny && r.2) flUnderflow)

/-- A datum as a result in a format. -/
def encodeNum (f : Fmt) (rnd draw : Nat) (sat : Bool) (x : Num) : Nat × BitVec 8 :=
  match x with
  | .nan _ => (nanBits f, 0)
  | .inf neg => infResult f sat neg
  | .fin neg m e => roundNum f rnd draw sat neg m e

/-! ## Exact sums and products -/

/-- Whether a datum is a signalling NaN. -/
def isSnan (x : Num) : Bool := x == .nan true

/-- Whether a datum is a NaN. -/
def isNan (x : Num) : Bool :=
  match x with
  | .nan _ => true
  | _ => false

/-- Whether a datum is a zero. -/
def isZero (x : Num) : Bool :=
  match x with
  | .fin _ m _ => m == 0
  | _ => false

/-- The sign of a datum. -/
def isNeg (x : Num) : Bool :=
  match x with
  | .nan _ => false
  | .inf n => n
  | .fin n _ _ => n

/-- The exact product, with the invalid flag of an infinity times a zero and of a signalling NaN. -/
def mulNum (a b : Num) : Num × BitVec 8 :=
  match a, b with
  | .nan x, y => (.nan false, raised (x || isSnan y) flInvalid)
  | x, .nan y => (.nan false, raised (y || isSnan x) flInvalid)
  | .inf n, y => if isZero y then (.nan false, flInvalid) else (.inf (n != isNeg y), 0)
  | x, .inf n => if isZero x then (.nan false, flInvalid) else (.inf (n != isNeg x), 0)
  | .fin n1 m1 e1, .fin n2 m2 e2 => (.fin (n1 != n2) (m1 * m2) (e1 + e2), 0)

/-- The finite terms of a sum, as signed integers in units of 2^e. -/
def termAt (e : Int) (x : Num) : Int :=
  match x with
  | .fin n m k => (if n then -1 else 1) * ((m * 2 ^ (k - e).toNat : Nat) : Int)
  | _ => 0

/-- The exponent of a finite term. -/
def expOf (x : Num) : Int :=
  match x with
  | .fin _ _ k => k
  | _ => 0

/-- The exact sum of data, with its invalid flag. An exact zero is +0, or -0 under roundTowardNegative, unless every term
is a zero of one sign (log 16). -/
def sumNum (rnd : Nat) (xs : List Num) : Num × BitVec 8 :=
  if xs.any isNan then (.nan false, raised (xs.any isSnan) flInvalid)
  else if xs.any (fun x => x == .inf false) && xs.any (fun x => x == .inf true) then (.nan false, flInvalid)
  else if xs.any (fun x => x == .inf false) then (.inf false, 0)
  else if xs.any (fun x => x == .inf true) then (.inf true, 0)
  else
    let e := xs.foldl (fun a x => min a (expOf x)) (expOf (xs.headD (.fin false 0 0)))
    let t := (xs.map (termAt e)).foldl (· + ·) 0
    let neg :=
      if t = 0 then
        if xs.all (fun x => isZero x && isNeg x) then true
        else if xs.all (fun x => isZero x && !isNeg x) then false
        else rnd == 3
      else decide (t < 0)
    (.fin neg t.natAbs e, 0)

/-- a + b in a floating-point format (R64, R353). -/
def addF (f : Fmt) (rnd a b : Nat) : Nat × BitVec 8 :=
  let s := sumNum rnd [decodeNum f a, decodeNum f b]
  let r := encodeNum f rnd 0 false s.1
  (r.1, r.2 ||| s.2)

/-- a x b in a floating-point format. -/
def mulF (f : Fmt) (rnd a b : Nat) : Nat × BitVec 8 :=
  let p := mulNum (decodeNum f a) (decodeNum f b)
  let r := encodeNum f rnd 0 false p.1
  (r.1, r.2 ||| p.2)

/-- a x b + c in a floating-point format, rounded once. -/
def fmaF (f : Fmt) (rnd a b c : Nat) : Nat × BitVec 8 :=
  let p := mulNum (decodeNum f a) (decodeNum f b)
  let z := decodeNum f c
  let s := sumNum rnd [p.1, z]
  let r := encodeNum f rnd 0 false s.1
  (r.1, r.2 ||| p.2 ||| s.2)

/-- Whether a finite or infinite datum lies below another; -0 lies below +0 (R65). -/
def numLt (a b : Num) : Bool :=
  match a, b with
  | .inf n, y => n && !(y == .inf true)
  | x, .inf n => !n && !(x == .inf false)
  | x, y =>
    let e := min (expOf x) (expOf y)
    let p := termAt e x
    let q := termAt e y
    decide (p < q) || (p == q && isZero x && isNeg x && !isNeg y)

/-- Whether the second of two data is the maximum, or the minimum: a number beside a NaN, and the second of two equal ones in neither
case (R64, R65). -/
def takesSecond (f : Fmt) (largest : Bool) (a b : Nat) : Bool :=
  let x := decodeNum f a
  let y := decodeNum f b
  isNan x || (!isNan y && numLt x y == largest)

/-- maximumNumber, or minimumNumber (R64, R65). -/
def extremeF (f : Fmt) (largest : Bool) (a b : Nat) : Nat × BitVec 8 :=
  let x := decodeNum f a
  let y := decodeNum f b
  (if isNan x && isNan y then nanBits f else if takesSecond f largest a b then b else a, raised (isSnan x || isSnan y) flInvalid)

/-! ## Integers (R353, R354) -/

/-- The signed value of an integer element. -/
def decodeInt (f : Fmt) (v : Nat) : Int :=
  let w := 8 * elemBytes f
  let u := v % 2 ^ w
  if u < 2 ^ (w - 1) then u else (u : Int) - 2 ^ w

/-- The bits of an integer in range. -/
def encodeInt (f : Fmt) (v : Int) : Nat := (v % (2 ^ (8 * elemBytes f) : Int)).toNat

/-- The range of an integer format. -/
def intMin (f : Fmt) : Int := -(2 ^ (8 * elemBytes f - 1))
def intMax (f : Fmt) : Int := 2 ^ (8 * elemBytes f - 1) - 1

/-- An exact integer saturated once, with the flags of a saturation. -/
def satInt (f : Fmt) (onSat : BitVec 8) (v : Int) : Nat × BitVec 8 :=
  if v < intMin f then (encodeInt f (intMin f), onSat)
  else if intMax f < v then (encodeInt f (intMax f), onSat)
  else (encodeInt f v, 0)

/-- A floating-point datum as an integer element (R354). -/
def numToInt (f : Fmt) (rnd : Nat) (x : Num) : Nat × BitVec 8 :=
  match x with
  | .nan _ => (0, flInvalid)
  | .inf neg => (encodeInt f (if neg then intMin f else intMax f), flInvalid ||| flSat)
  | .fin neg m e =>
    let r := roundAt rnd 0 neg m e 0
    let v : Int := if neg then -(r.1 : Int) else r.1
    let s := satInt f (flInvalid ||| flSat) v
    if v < intMin f ∨ intMax f < v then s else (s.1, raised r.2 flInexact)

/-! ## One element of an operation -/

/-- a + b (R353). -/
def addE (f : Fmt) (rnd a b : Nat) : Nat × BitVec 8 :=
  if isInt f then satInt f flSat (decodeInt f a + decodeInt f b) else addF f rnd a b

/-- a x b (R353). -/
def mulE (f : Fmt) (rnd a b : Nat) : Nat × BitVec 8 :=
  if isInt f then satInt f flSat (decodeInt f a * decodeInt f b) else mulF f rnd a b

/-- a x b + c (R353). -/
def fmaE (f : Fmt) (rnd a b c : Nat) : Nat × BitVec 8 :=
  if isInt f then satInt f flSat (decodeInt f a * decodeInt f b + decodeInt f c) else fmaF f rnd a b c

/-- Whether the second of two integer elements is the maximum, or the minimum. -/
def intSecond (f : Fmt) (largest : Bool) (a b : Nat) : Bool := decide (decodeInt f a < decodeInt f b) == largest

/-- The maximum or minimum (R353). -/
def extremeE (f : Fmt) (largest : Bool) (a b : Nat) : Nat × BitVec 8 :=
  if isInt f then (if intSecond f largest a b then b else a, 0) else extremeF f largest a b

/-- VCVT of one element (R67, R354). -/
def convertE (dst src : Fmt) (rnd draw : Nat) (sat : Bool) (v : Nat) : Nat × BitVec 8 :=
  if isInt src then
    let x := decodeInt src v
    if isInt dst then satInt dst flSat x else roundNum dst rnd draw sat (decide (x < 0)) x.natAbs 0
  else
    let x := decodeNum src v
    if isInt dst then numToInt dst rnd x
    else
      let r := encodeNum dst rnd draw sat x
      (r.1, r.2 ||| raised (isSnan x) flInvalid)

/-! ## The residue channel of an addition (R92), on FP64 words modulo 255 -/

/-- The residue of a word from its sign, exponent field and fraction. -/
def elemRes (s e m : Nat) : Nat := (128 * s + 16 * e + m) % 255

/-- The residue of an operand's significand: an operand with exponent field 0 has no hidden bit. -/
def sigRes (r s e : Nat) : Nat := (r + 127 * s + (if e = 0 then 0 else 239 * e + 16)) % 255

/-- The residue that the channel predicts for a + b: from the operands' residues, signs and exponents, the alignment of b, whether the
datapath took the magnitude, the bits dropped with their residue, the increment, and the sign and exponent of the result. -/
def predictAdd (ra sa ea rb sb eb shift : Nat) (neg : Bool) (t dRes inc s e : Nat) : Nat :=
  let x := (sigRes ra sa ea * 2 ^ (shift % 8) + (if sa = sb then 1 else 254) * sigRes rb sb eb) % 255
  let magnitude := if neg then (255 - x) % 255 else x
  let y := (magnitude + 255 - dRes % 255) * 2 ^ ((8 - t % 8) % 8) + inc
  elemRes s e ((if e = 0 then y else y + 239) % 255)

/-! ## The residue channel of every operation (R92) -/

/-- An element with the error of its residue modulo 255, which is 0 for an element whose line agrees with its side residues. -/
abbrev Elem := Nat × Int

/-- What the channel has of a finite operand: its significand with its sign, the error of that significand's residue, and the exponent
of its last place. An integer is its own significand. -/
structure Carried where
  sig : Int
  err : Int
  exp : Int
  deriving DecidableEq, Repr

/-- An element as the channel has it; infinities and NaNs take the residue of their encoding and carry nothing. -/
def carried (f : Fmt) (x : Elem) : Option Carried :=
  if isInt f then some { sig := decodeInt f x.1, err := x.2, exp := 0 }
  else
    match decodeNum f x.1 with
    | .fin neg m e => some { sig := if neg then -(m : Int) else m, err := if neg then -x.2 else x.2, exp := e }
    | _ => none

/-- Multiplication multiplies significand residues. -/
def carriedMul (f g : Fmt) (x y : Elem) : Option Carried :=
  match carried f x, carried g y with
  | some a, some b => some { sig := a.sig * b.sig, err := a.sig * b.err + a.err * b.sig + a.err * b.err, exp := a.exp + b.exp }
  | _, _ => none

/-- 2^k modulo 255. -/
def pow2Mod (k : Int) : Int := 2 ^ (k % 8).toNat

/-- The error of the residue of a result that is the sum of terms, rounded once: each term's error is shifted as the term is aligned
with the result, and negated where the datapath took the magnitude. -/
def sumErr (f : Fmt) (r : Nat) (terms : List (Option Carried)) : Int :=
  match carried f (r, 0) with
  | none => 0
  | some x =>
    let d := terms.foldl (fun a t => match t with | some c => a + c.err * pow2Mod (c.exp - x.exp) | none => a) 0
    (if !isInt f && isNeg (decodeNum f r) then -d else d) % 255

/-- Sign, exponent field and fraction of an FP64 word. -/
def fp64Parts (v : Nat) : Nat × Nat × Nat := (v / 2 ^ 63 % 2, v / 2 ^ 52 % 2 ^ 11, v % 2 ^ 52)

/-- The residue of an element of a column group as the channel has it. -/
def elemResidue (x : Elem) : Nat := ((x.1 + x.2) % 255).toNat

/-- An FP64 sum `r` of `a`, the one with the larger exponent, and `b` through predict_add: the predicted residue less that of the
result's bytes. The rounding unit's figures are those of the exact sum. -/
def predictErr (r : Nat) (a b : Elem) : Int :=
  match decodeNum .fp64 a.1, decodeNum .fp64 b.1, decodeNum .fp64 r with
  | .fin na ma ea, .fin nb mb eb, .fin nr mr er =>
    let shift := (ea - eb).toNat
    let x : Int := ((ma * 2 ^ shift : Nat) : Int) + (if na = nb then (mb : Int) else -(mb : Int))
    let t := (er - eb).toNat
    let exact := x.natAbs * 2 ^ (eb - er).toNat
    let p := fp64Parts r
    let pa := fp64Parts a.1
    let pb := fp64Parts b.1
    ((predictAdd (elemResidue a) pa.1 pa.2.1 (elemResidue b) pb.1 pb.2.1 shift (decide (x < 0)) ((er - eb) % 8).toNat
      (exact % 2 ^ t) (mr - exact / 2 ^ t) (flag nr) p.2.1 : Int) - (r : Int)) % 255
  | _, _, _ => 0

/-- The error of a sum's residue: by predict_add in FP64, whose method R92 gives, and alike in the other formats. -/
def addErr (f : Fmt) (r : Nat) (a b : Elem) : Int :=
  if f = .fp64 then (if fld64Exp a.1 < fld64Exp b.1 then predictErr r b a else predictErr r a b)
  else sumErr f r [carried f a, carried f b]
where
  fld64Exp (v : Nat) : Nat := max 1 (fp64Parts v).2.1

/-- a + b, a x b, a x b + c, the extreme and a conversion, as the channel takes each element's error to the result. -/
def addX (f : Fmt) (rnd : Nat) (a b : Elem) : Elem := let r := (addE f rnd a.1 b.1).1; (r, addErr f r a b)
def mulX (f : Fmt) (rnd : Nat) (a b : Elem) : Elem := let r := (mulE f rnd a.1 b.1).1; (r, sumErr f r [carriedMul f f a b])
def fmaX (f : Fmt) (rnd : Nat) (a b c : Elem) : Elem :=
  let r := (fmaE f rnd a.1 b.1 c.1).1
  (r, sumErr f r [carriedMul f f a b, carried f c])
def extremeX (f : Fmt) (largest : Bool) (a b : Elem) : Elem :=
  let r := (extremeE f largest a.1 b.1).1
  let second := if isInt f then intSecond f largest a.1 b.1 else takesSecond f largest a.1 b.1
  (r, if second then (if r = b.1 then b.2 else 0) else (if r = a.1 then a.2 else 0))
def convertX (dst src : Fmt) (r : Nat) (x : Elem) : Elem := (r, sumErr dst r [carried src x])

/-! ## Whole operands -/

/-- The first `n` elements of an operand whose bytes a number holds. -/
def elems (f : Fmt) (n v : Nat) : List Nat :=
  (List.range n).map (fun i => v / 2 ^ (8 * elemBytes f * i) % 2 ^ (8 * elemBytes f))

/-- The number whose bytes are the elements in order. -/
def packElems (f : Fmt) (xs : List Nat) : Nat := xs.foldr (fun x acc => x + 2 ^ (8 * elemBytes f) * acc) 0

/-- The results of an operation on many elements: the elements and every flag raised. -/
def gather (rs : List (Nat × BitVec 8)) : List Nat × BitVec 8 :=
  (rs.map (fun r => r.1), rs.foldl (fun a r => a ||| r.2) 0)

/-- Neighbouring pairs of a level of the tree. -/
def pairUp {α : Type} (g : α → α → α) : List α → List α
  | a :: b :: t => g a b :: pairUp g t
  | l => l

/-- The fixed binary tree over `2^n` elements. -/
def treeUp {α : Type} (g : α → α → α) : Nat → List α → List α
  | 0, l => l
  | n + 1, l => treeUp g n (pairUp g l)

/-- A page's tree sum (R353). -/
def treeSum (f : Fmt) (rnd : Nat) (xs : List Nat) : Nat × BitVec 8 :=
  if isInt f then satInt f flSat ((xs.map (decodeInt f)).foldl (· + ·) 0)
  else
    (treeUp (fun a b => let r := addF f rnd a.1 b.1; (r.1, a.2 ||| b.2 ||| r.2)) 12 (xs.map (fun x => (x, (0 : BitVec 8))))).headD
      (0, 0)

/-- Consecutive groups of `n`, `k` of them. -/
def chunks {α : Type} (n : Nat) : Nat → List α → List (List α)
  | 0, _ => []
  | k + 1, l => l.take n :: chunks n k (l.drop n)

/-- The columns of a list of `c` columns' rows. -/
def columns (c : Nat) (rows : List (List Nat)) : List (List Nat) :=
  (List.range c).map (fun j => rows.map (fun r => r.getD j 0))

/-- A chain of fused multiply-adds (R66). -/
def fmaChain (f : Fmt) (rnd : Nat) (y : Nat) (ab : List (Nat × Nat)) : Nat × BitVec 8 :=
  ab.foldl (fun acc x => let r := fmaF f rnd x.1 x.2 acc.1; (r.1, acc.2 ||| r.2)) (y, 0)

/-- One group of products into an FP32 accumulator, rounded once (R66). -/
def groupAdd (fa fb : Fmt) (rnd acc : Nat) (ab : List (Nat × Nat)) : Nat × BitVec 8 :=
  let ps := ab.map (fun x => mulNum (decodeNum fa x.1) (decodeNum fb x.2))
  let s := sumNum rnd (decodeNum .fp32 acc :: ps.map (fun p => p.1))
  let r := encodeNum .fp32 rnd 0 false s.1
  (r.1, ps.foldl (fun a p => a ||| p.2) (r.2 ||| s.2))

/-- The groups of `n` products of one C element, `k` of them (R66). -/
def groupChain (fa fb : Fmt) (rnd n k acc : Nat) (ab : List (Nat × Nat)) : Nat × BitVec 8 :=
  (chunks n k ab).foldl (fun a g => let r := groupAdd fa fb rnd a.1 g; (r.1, a.2 ||| r.2)) (acc, 0)

/-- MVD and MVS: y + A x with 64 rows of 64. -/
def matVec (f : Fmt) (rnd : Nat) (a x y : List Nat) : List Nat × BitVec 8 :=
  gather (((chunks 64 64 a).zip y).map (fun r => fmaChain f rnd r.2 (r.1.zip x)))

/-- MMH and MMQ: C + A B with 64 rows of `k` and `k` rows of 64, in groups of `n`. -/
def matMul (fa fb : Fmt) (rnd n k : Nat) (a b c : List Nat) : List Nat × BitVec 8 :=
  let cols := columns 64 (chunks 64 k b)
  let pairs := (chunks k 64 a).flatMap (fun row => cols.map (fun col => row.zip col))
  gather ((pairs.zip c).map (fun x => groupChain fa fb rnd n (k / n) x.2 x.1))

/-- MMI: the exact sum of 128 products and the old element, saturated once. -/
def matInt (a b c : List Nat) : List Nat × BitVec 8 :=
  let cols := columns 64 (chunks 64 128 b)
  let pairs := (chunks 128 64 a).flatMap (fun row => cols.map (fun col => row.zip col))
  gather ((pairs.zip c).map (fun x =>
    satInt .int32 flSat (x.1.foldl (fun s p => s + decodeInt .int8 p.1 * decodeInt .int8 p.2) (decodeInt .int32 x.2))))

/-! ## The channel over whole operands -/

/-- A page's tree sum (R353). -/
def treeSumX (f : Fmt) (rnd : Nat) (xs : List Elem) : Elem :=
  if isInt f then let r := (treeSum f rnd (xs.map (fun x => x.1))).1; (r, sumErr f r (xs.map (carried f)))
  else (treeUp (addX f rnd) 12 xs).headD (0, 0)

/-- One group of products into an FP32 accumulator, rounded once (R66). -/
def groupAddX (fa fb : Fmt) (rnd : Nat) (acc : Elem) (ab : List (Elem × Elem)) : Elem :=
  let r := (groupAdd fa fb rnd acc.1 (ab.map (fun x => (x.1.1, x.2.1)))).1
  (r, sumErr .fp32 r (carried .fp32 acc :: ab.map (fun x => carriedMul fa fb x.1 x.2)))

/-- MVD and MVS. -/
def matVecX (f : Fmt) (rnd : Nat) (a x y : List Elem) : List Elem :=
  ((chunks 64 64 a).zip y).map (fun r => (r.1.zip x).foldl (fun acc p => fmaX f rnd p.1 p.2 acc) r.2)

/-- Rows of `k` of A with columns of B, one pair for each element of C. -/
def rowsByCols (k : Nat) (a b : List Elem) : List (List (Elem × Elem)) :=
  let rows := chunks 64 k b
  (chunks k 64 a).flatMap (fun row => (List.range 64).map (fun j => row.zip (rows.map (fun r => r.getD j (0, 0)))))

/-- MMH and MMQ. -/
def matMulX (fa fb : Fmt) (rnd n k : Nat) (a b c : List Elem) : List Elem :=
  ((rowsByCols k a b).zip c).map (fun x => (chunks n (k / n) x.1).foldl (groupAddX fa fb rnd) x.2)

/-- MMI. -/
def matIntX (a b c : List Elem) : List Elem :=
  let v := (matInt (a.map (fun x => x.1)) (b.map (fun x => x.1)) (c.map (fun x => x.1))).1
  (v.zip ((rowsByCols 128 a b).zip c)).map (fun x =>
    (x.1, sumErr .int32 x.1 (carried .int32 x.2.2 :: x.2.1.map (fun p => carriedMul .int8 .int8 p.1 p.2))))

end Sys2Proof.Machine
end

