-- ==== Sys2Proof/Machine/Operands.lean ====
section
/-! DEFINITION. The operand forms of an instruction word: which values its fields may hold (R61, R62, R69, Table 4-7a), which
lines it reads and writes, and how long it takes (R58, Tables 4-3 and 4-7). -/

namespace Sys2Proof.Machine

/-- What an operand field names. -/
inductive Use where
  | none
  | entry
  | tile
  | line (n : Nat)
  | page (n : Nat)
  deriving DecidableEq, Repr

/-- What RND may hold: 0, a direction from 0 to 3, a direction in floating-point formats only, or VCVT's choice. -/
inductive RndRule where
  | zero | dir | vector | convert
  deriving DecidableEq, Repr

/-- A row of Tables 4-7 and 4-7a: FMT values, RND, DST, SRCA, SRCB and SRCC, whether DST is read too, the largest AUX, and
the range of IMM. -/
structure Shape where
  fmts : List Nat
  rnd : RndRule
  dst : Use
  a : Use
  b : Use
  c : Use
  accum : Bool
  auxMax : Nat
  immLo : Nat
  immHi : Nat
  deriving DecidableEq, Repr

def allFmts : List Nat := [0, 1, 2, 3, 4, 5, 6]

/-- A row that uses no operand, AUX or IMM. -/
def plainShape : Shape where
  fmts := [0]
  rnd := .zero
  dst := .none
  a := .none
  b := .none
  c := .none
  accum := false
  auxMax := 0
  immLo := 0
  immHi := 0

/-- A matrix-matrix row (Table 4-7). -/
def mmShape (fmts : List Nat) (rnd : RndRule) : Shape :=
  { plainShape with fmts := fmts, rnd := rnd, dst := .page 4, a := .page 2, b := .page 2, accum := true }

/-- A vector row over pages. -/
def vecShape (rnd : RndRule) (b c : Use) : Shape :=
  { plainShape with fmts := allFmts, rnd := rnd, dst := .page 1, a := .page 1, b := b, c := c }

/-- The row of an opcode, none for a reserved one (Tables 4-7, 4-7a). -/
def shapeOf (op : Nat) : Option Shape :=
  match op with
  | 0x00 => some plainShape
  | 0x01 => some { plainShape with auxMax := 15, immLo := 1, immHi := 255 }
  | 0x02 => some { plainShape with dst := .tile, auxMax := 15 }
  | 0x03 => some { plainShape with dst := .line 1 }
  | 0x04 => some { plainShape with fmts := allFmts, a := .line 1, auxMax := 3, immHi := 255 }
  | 0x10 => some { plainShape with dst := .line 1, a := .entry }
  | 0x11 => some { plainShape with a := .line 1, immHi := 255 }
  | 0x12 => some { plainShape with dst := .page 1, immHi := 65535 }
  | 0x13 => some { plainShape with fmts := allFmts, a := .page 1, immHi := 65535 }
  | 0x14 => some { plainShape with fmts := allFmts, a := .page 1, immHi := 65535 }
  | 0x15 => some { plainShape with fmts := [0, 1, 6], a := .page 1, immHi := 65535 }
  | 0x16 => some { plainShape with fmts := [0, 1, 6], a := .page 1, immHi := 65535 }
  | 0x20 => some { plainShape with rnd := .dir, dst := .line 2, a := .page 8, b := .line 2, accum := true }
  | 0x21 => some { plainShape with fmts := [1], rnd := .dir, dst := .line 1, a := .page 4, b := .line 1, accum := true }
  | 0x22 => some (mmShape [2] .dir)
  | 0x23 => some (mmShape [3, 4, 7, 8] .dir)
  | 0x24 => some (mmShape [5] .zero)
  | 0x30 => some (vecShape .vector (.page 1) (.page 1))
  | 0x31 => some (vecShape .vector (.page 1) .none)
  | 0x32 => some (vecShape .vector (.page 1) .none)
  | 0x33 => some (vecShape .zero (.page 1) .none)
  | 0x34 => some (vecShape .zero (.page 1) .none)
  | 0x35 => some { vecShape .convert .none .none with auxMax := 6 }
  | 0x36 => some { vecShape .vector .none .none with dst := .line 1 }
  | 0x37 => some (vecShape .zero .none .none)
  | _ => none

/-- Whether RND is allowed. -/
def rndOk (rule : RndRule) (fmt rnd : Nat) : Bool :=
  match rule with
  | .zero => rnd == 0
  | .dir => decide (rnd ≤ 3)
  | .vector => if fmt ≤ 4 then decide (rnd ≤ 3) else rnd == 0
  | .convert => decide (rnd ≤ 3) || (rnd == 4 && decide (2 ≤ fmt) && decide (fmt ≤ 4))

/-- Whether a word's V is as R61 requires. -/
def vOk (w : Rec128) : Bool :=
  wV w == (wOp w == 0x15 || wOp w == 0x04 || (wOp w == 0x35 && wRnd w == 4))

/-- Whether an operand field holds an address of its kind (R59). -/
def fieldOk (u : Use) (v : Nat) : Bool :=
  match u with
  | .none => v == 0
  | .entry => decide (v < 16)
  | .tile => decide (v < 1024)
  | .line _ => decide (v < 2048)
  | .page _ => decide (v < 2048) && v % 16 == 0

/-- Whether every field of a word holds a value that Table 4-7a allows for its opcode (R62). -/
def fieldsOk (w : Rec128) : Bool :=
  match shapeOf (wOp w) with
  | none => false
  | some x =>
    fld w 88 3 == 0 && x.fmts.contains (wFmt w) && rndOk x.rnd (wFmt w) (wRnd w) && vOk w &&
    (!wE w || wOp w == 0x11) && (!wSat w || (wOp w == 0x35 && (wFmt w == 3 || wFmt w == 4))) &&
    fieldOk x.dst (wDst w) && fieldOk x.a (wSrcA w) && fieldOk x.b (wSrcB w) && fieldOk x.c (wSrcC w) &&
    decide (wAux w ≤ x.auxMax) && decide (x.immLo ≤ wImm w) && decide (wImm w ≤ x.immHi) &&
    (wOp w != 0x04 || (match fmtOf (wFmt w) with | some f => decide (wImm w * elemBytes f < 256) | none => false))

/-! ## Lines -/

/-- The number of lines that a use covers. -/
def useLines (u : Use) : Nat :=
  match u with
  | .line n => n
  | .page n => 16 * n
  | _ => 0

/-- The lines that an operand names. -/
def span (u : Use) (v : Nat) : List Nat := (List.range (useLines u)).map (fun i => v + i)

/-- Whether lines lie in the hold and working regions (R62, R69). -/
def inRegions (rg : Nat × Nat × Nat) (ls : List Nat) : Bool :=
  ls.all (fun l => decide (16 * rg.1 ≤ l) && decide (l < 16 * (rg.1 + rg.2.1 + rg.2.2)))

/-- Whether a line is a hold line (R70). -/
def isHold (rg : Nat × Nat × Nat) (l : Nat) : Bool := decide (16 * rg.1 ≤ l) && decide (l < 16 * (rg.1 + rg.2.1))

/-- The lines that a word writes. -/
def dstLines (w : Rec128) : List Nat :=
  match shapeOf (wOp w) with
  | some x => span x.dst (wDst w)
  | none => []

/-- The lines that a word reads: its sources, and the destination that it accumulates into. -/
def srcLines (w : Rec128) : List Nat :=
  match shapeOf (wOp w) with
  | some x => span x.a (wSrcA w) ++ span x.b (wSrcB w) ++ span x.c (wSrcC w) ++ (if x.accum then span x.dst (wDst w) else [])
  | none => []

/-- Whether a word's operands lie in the tile's regions. -/
def operandsOk (rg : Nat × Nat × Nat) (w : Rec128) : Bool := inRegions rg (dstLines w) && inRegions rg (srcLines w)

/-- What a read of a line returns: the step-start copy of a hold line (R70). -/
def readLine (t : Tile) (l : Nat) : LineVal := (lineAt t l).cur

/-- Whether a read of a line is stale (R71). -/
def staleLine (rg : Nat × Nat × Nat) (t : Tile) (l : Nat) : Bool := !isHold rg l && !(lineAt t l).mark

/-- A line written: the next-step copy of a hold line, else the line, marked (R70, R71). -/
def writeLine (rg : Nat × Nat × Nat) (l : Nat) (v : LineVal) (t : Tile) : Tile :=
  let x := lineAt t l
  setLine l (if isHold rg l then { x with nxt := v, mark := true } else { x with cur := v, mark := true }) t

/-- Whether a tag has not cleared in a slot of the step (R80, R81). -/
def tagUp (slot tag : Nat) : Bool := tag != 0 && decide (slot ≤ tag)

/-- Whether a PDUE tag has not cleared in the present slot: a veto that arrived in the tag's slot keeps it until the rewind (R80). -/
def pdueUp (s : State) (tag : Nat) : Bool := tagUp s.job.slot tag || (tag != 0 && s.job.vetoes.contains tag)

/-- The number whose bytes are those of lines in order. -/
def linesNat (t : Tile) (ls : List Nat) : Nat := ls.foldr (fun l acc => (readLine t l).data.toNat + 2 ^ 2048 * acc) 0

/-- `n` lines of a number's bytes. -/
def natLines (n v : Nat) : List LineBits := (List.range n).map (fun i => BitVec.ofNat 2048 (v / 2 ^ (2048 * i)))

/-- Whether a line's bytes disagree with its side residues (R200). -/
def sideBad (v : LineVal) : Bool := sideOf v.data != v.side

/-- Whether the residues of a page's bytes differ from its predicted residues (R93). -/
def pageBad (t : Tile) (page : Nat) : Bool :=
  let ls := (span (.page 1) page).map (readLine t)
  (List.range 8).any (fun k =>
    pageResidue (ls.map (fun v => v.side)) k != pageResidue (ls.map (fun v => sideOf v.data)) k)

/-! ## Durations (R57, R58) -/

/-- A class's budgets: FP64, FP32, BF16, 8-bit and vector bytes per slot (Table 4-2); class 3 outside 1 to 4. -/
def budget (cls : Nat) : Nat × Nat × Nat × Nat × Nat :=
  match cls with
  | 1 => (1000, 2000, 16000, 32000, 5120)
  | 2 => (1300, 2600, 20800, 41600, 6656)
  | 4 => (1950, 3900, 31200, 62400, 9728)
  | _ => (1625, 3250, 26000, 52000, 8192)

/-- The smallest whole number of tokens for a work at a budget (R58). -/
def tokensFor (work perSlot : Nat) : Nat := (64 * work + perSlot - 1) / perSlot

/-- The duration of an opcode in tokens at a class (Tables 4-3, 4-7). -/
def opTokens (cls op : Nat) : Nat :=
  let b := budget cls
  if op = 0x04 ∨ op = 0x10 ∨ op = 0x11 then 2
  else if op = 0x20 then tokensFor 4096 b.1
  else if op = 0x21 then tokensFor 4096 b.2.1
  else if op = 0x22 then tokensFor 262144 b.2.2.1
  else if op = 0x23 ∨ op = 0x24 then tokensFor 524288 b.2.2.2.1
  else if 0x30 ≤ op then tokensFor 4096 b.2.2.2.2
  else 1

/-- Whether a Ballast kernel uses the engine of an opcode (Table 10-7, R246). -/
def ballastEngine (ka : BitVec 8) (op : Nat) : Bool :=
  if ka = 1 then op == 0x20 || op == 0x21 else if ka = 2 then decide (0x22 ≤ op) && decide (op ≤ 0x24)
  else ka == 3 && decide (0x30 ≤ op)

/-- Whether an opcode's operation is checked (Table 4-7). -/
def opChecked (op : Nat) : Bool := decide (0x20 ≤ op)

/-- The last token of a word at a class, counted within the step (R54). -/
def wLast (cls : Nat) (w : Rec128) : Nat := wStart w + opTokens cls (wOp w) - 1

/-- The completion slot of a word (R54). -/
def wDone (cls : Nat) (w : Rec128) : Nat := wLast cls w / 64

/-! ## Envelopes (R88, R93, R94) -/

/-- An Envelope from its fields: FLAGS.FMT, LOADED and FAR in one number (Tables 5-1, 5-2). -/
def mkEnv (payload : List Byte) (res : List Byte) (tag gen flags : Nat) : EnvBits :=
  let body := leBytes 4 (crc32c payload) ++ res ++ leBytes 8 tag ++ leBytes 4 gen ++ leBytes 4 flags
  envOf (body ++ leBytes 4 (crc32c body))

def eTag (e : EnvBits) : Nat := fld e 96 64
def eGen (e : EnvBits) : Nat := fld e 160 32
def eFmt (e : EnvBits) : Nat := fld e 192 4

/-- Whether OWN and CRC agree. -/
def envSound (e : EnvBits) (payload : List Byte) : Bool :=
  crc32c ((envBytes e).take 28) == fld e 224 32 && crc32c payload == fld e 0 32

/-- Whether OWN, CRC and residues agree (R94, R95). -/
def envOk (e : EnvBits) (payload : List Byte) : Bool :=
  envSound e payload && (((envBytes e).drop 4).take 8 == residues payload)

/-- The predicted residues of a page as bytes (R92). -/
def predicted (t : Tile) (page : Nat) : List Byte :=
  let sides := (span (.page 1) page).map (fun l => (readLine t l).side)
  (List.range 8).map (fun k => BitVec.ofNat 8 (pageResidue sides k))

/-- The payload of a page. -/
def pageData (t : Tile) (page : Nat) : PageBits := BitVec.ofNat 32768 (linesNat t (span (.page 1) page))

/-- The Envelope that a tile builds of a page (R93). -/
def buildEnv (t : Tile) (page tag gen flags : Nat) : EnvBits :=
  mkEnv (pageBytes (pageData t page)) (predicted t page) tag gen flags

end Sys2Proof.Machine
end

