-- ==== Sys2Proof/Machine/Issue.lean ====
section
/-! DEFINITION. The issue of an instruction word: what every opcode shares (R54, R61, R62, R71, R82, R84). -/

namespace Sys2Proof.Machine

/-- An event that a word raises at its issue token: code and INDEX. -/
abbrev Ev := Nat × Nat

/-- The event with the lowest code (R84). -/
def lowest (evs : List Ev) : Option Ev :=
  evs.foldl (fun a e => match a with | some x => if e.1 < x.1 then some e else some x | none => some e) none

/-- Events that hold, from their conditions. -/
def evsOf (l : List (Bool × Ev)) : List Ev := (l.filter (fun x => x.1)).map (fun x => x.2)

/-- The class that the running job's phase names. -/
def jobClass (s : State) (r : Reel) : Nat := phaseClass r s.job.phase

/-- The Pocket regions of a tile in the running phase. -/
def jobRegions (s : State) (r : Reel) (u : Nat) : Nat × Nat × Nat := regions r u s.job.phase

/-- The events that any word may raise: ILLEGAL_OP, V_IN_STRICT and POCKET_STALE. -/
def commonEvs (s : State) (r : Reel) (u : Nat) (t : Tile) (w : Rec128) : List Ev :=
  let rg := jobRegions s r u
  let legal := fieldsOk w && operandsOk rg w
  evsOf [(!legal, (0x0409, 0xFF)), (wV w && r.strict, (0x040A, 0xFF)),
    (legal && (srcLines w).any (staleLine rg t), (0x0407, 0xFF))]

/-- Whether a tile may issue: a job runs, nothing holds it, and no operation executes (R54, R56, R188). -/
def mayIssue (s : State) (u : Nat) : Bool :=
  decide (u < 1024) && running s && !haltedJob s && !(tileOf s u).lateOp && !(tileOf s u).halted && (tileOf s u).flight.isNone

/-- What an opcode does beyond what all share: its own events at issue, and the state after an issue without a fault, which
is told whether one of its own detections arose. -/
structure OpRule where
  evs : State → Reel → Nat → Tile → Rec128 → List Ev
  go : State → Reel → Nat → Tile → Rec128 → State

/-- The issue of a word: the lowest code of its events is reported (R84); a fault stops the work, and a detection lets the
operation go on. A word that is illegal by its fields or operands tells no event of its opcode (log 78). -/
def issueWord (rule : OpRule) (r : Reel) (u : Nat) (w : Rec128) (rest : List Rec128) (s : State) : State :=
  let t := { tileOf s u with todo := rest }
  let s1 := setTile u t s
  let legal := fieldsOk w && operandsOk (jobRegions s r u) w
  match lowest (commonEvs s r u t w ++ (if legal then rule.evs s r u t w else [])) with
  | none => rule.go s1 r u t w
  | some e =>
    if isFaultCode e.1 then tileFault e.1 u e.2 (wToken w) s1
    else tileDetect e.1 u e.2 (wToken w) (rule.go s1 r u t w)

/-- The word at a tile's sequencer issues when its slot has come and it has the opcode; a word with a reserved opcode raises
ILLEGAL_OP whichever opcode its issue is named by. -/
def issue (op : Nat) (rule : OpRule) (u : Nat) (s : State) : State :=
  match mayIssue s u, s.reel, (tileOf s u).todo with
  | true, some r, w :: rest =>
    if wSlot w = s.job.slot ∧ (wOp w = op ∨ (shapeOf (wOp w)).isNone) then issueWord rule r u w rest s else s
  | _, _, _ => s

/-! ## Flights -/

/-- A word in flight that has no result line yet. -/
def flightOf (s : State) (r : Reel) (w : Rec128) : Flight where
  word := w
  last := wLast (jobClass s r) w
  results := []
  flags := 0
  effect := .nothing
  checked := opChecked (wOp w)
  srcBad := false
  pastStep := false

/-- A tile with an operation in flight. -/
def fly (u : Nat) (f : Flight) (s : State) : State := updTile u (fun t => { t with flight := some f }) s

/-- The largest PDUE among lines (R80). -/
def maxPdue (t : Tile) (ls : List Nat) : Nat := ls.foldl (fun a l => max a (readLine t l).pdue) 0

/-- A line whose side residues agree with its bytes. -/
def cleanLine (d : LineBits) (pdue : Nat) : LineVal := { data := d, side := sideOf d, pdue := pdue, cdue := 0 }

/-- A column group's place in a line of elements of `b` bytes: its group and its place among that group's elements (R90). -/
def groupPlace (b i : Nat) : Nat × Nat := (i * b / 8 % 8, i * b / 64 * (8 / b) + i * b % 8 / b)

/-- By how much a line's side residue `k` exceeds the residue of its bytes, modulo 255 (R92). -/
def lineError (v : LineVal) (k : Nat) : Nat := sideError [v.side] [sideOf v.data] k

/-- The error that the residue channel has of each element of a line: a column group's error is that of one of its elements. -/
def elemErrors (f : Fmt) (v : LineVal) : List Int :=
  let b := elemBytes f
  (List.range (256 / b)).map (fun i =>
    let g := groupPlace b i
    if g.2 = Config.errPlace v.data g.1 % (32 / b) then (lineError v g.1 : Int) else 0)

/-- The side residues of a result line from its bytes and the errors of its elements: what the residue channel makes of it (R92). -/
def channelSide (f : Fmt) (d : LineBits) (errs : List Int) : BitVec 64 :=
  let amount (k : Nat) : Int :=
    errs.zipIdx.foldl (fun a x => if (groupPlace (elemBytes f) x.2).1 = k then a + x.1 else a) 0
  addSide (sideOf d) (fun k => (amount k % 255).toNat)

/-- The lines of a word's destination as results: bytes, side residues, and the largest PDUE of the source lines (R80). -/
def resultLines (t : Tile) (w : Rec128) (data : List (LineBits × BitVec 64)) : List (Nat × LineVal) :=
  let p := maxPdue t (srcLines w)
  (dstLines w).zip (data.map (fun x => { data := x.1, side := x.2, pdue := p, cdue := 0 }))

/-- An operation that does nothing but take its tokens. -/
def justFly (s : State) (r : Reel) (u : Nat) (w : Rec128) : State := fly u (flightOf s r w) s

/-- A rule without events of its own. -/
def noEvs (_ : State) (_ : Reel) (_ : Nat) (_ : Tile) (_ : Rec128) : List Ev := []

end Sys2Proof.Machine
end

