-- ==== Sys2Proof/Machine/Control.lean ====
section
/-! DEFINITION. The control words: NOP, EWAIT, ESIG, RDFLG, EXIT_IF and RECV (Table 4-7). -/

namespace Sys2Proof.Machine

/-- What an event input counts. -/
def eventOf (t : Tile) (k : Nat) : Nat := look 0 k t.events
def setEvent (k v : Nat) (t : Tile) : Tile := { t with events := store 0 k v t.events }

/-- NOP (R54): one token. -/
def execNop (u : Nat) (s : State) : Host.Outcome State Fault Refusal :=
  .next (issue 0x00 { evs := noEvs, go := fun s r u _ w => justFly s r u w } u s)

/-- Whether an EWAIT finds its input short (R77). -/
def inputShort (t : Tile) (w : Rec128) : Bool := decide (eventOf t (wAux w) < wImm w)

/-- EWAIT (R74, R77): a short input is left unchanged. -/
def ewaitRule : OpRule where
  evs := fun _ _ _ t w => evsOf [(inputShort t w, (0x0485, wAux w))]
  go := fun s r u t w =>
    let s1 := if inputShort t w then s else updTile u (fun x => setEvent (wAux w) (eventOf x (wAux w) - wImm w) x) s
    justFly s1 r u w

/-- EWAIT. -/
def execEwait (u : Nat) (s : State) : Host.Outcome State Fault Refusal := .next (issue 0x01 ewaitRule u s)

/-- ESIG (R73): the signal goes out at the deadline. -/
def esigRule : OpRule where
  evs := noEvs
  go := fun s r u _ w => fly u { flightOf s r w with effect := .signal (wDst w) (wAux w) } s

/-- ESIG. -/
def execEsig (u : Nat) (s : State) : Host.Outcome State Fault Refusal := .next (issue 0x02 esigRule u s)

/-- RDFLG (R68): the flag word in byte 0, zeros in the rest; the flags clear. -/
def rdflgRule : OpRule where
  evs := noEvs
  go := fun s r u t w =>
    fly u { flightOf s r w with results := resultLines t w [(BitVec.ofNat 2048 t.flags.toNat, sideOf (BitVec.ofNat 2048 t.flags.toNat))], effect := .clearFlags } s

/-- RDFLG. -/
def execRdflg (u : Nat) (s : State) : Host.Outcome State Fault Refusal := .next (issue 0x03 rdflgRule u s)

/-- The test of EXIT_IF on an element (R63). -/
def exitTest (f : Fmt) (test v : Nat) : Bool :=
  if isInt f then
    let x := decodeInt f v
    match test with
    | 0 => x == 0
    | 1 => x != 0
    | 2 => decide (x < 0)
    | _ => false
  else
    let x := decodeNum f v
    match test with
    | 0 => isZero x
    | 1 => !isZero x
    | 2 => isNeg x && !isZero x
    | _ => isNan x

/-- The element that an EXIT_IF names. -/
def exitElem (f : Fmt) (t : Tile) (w : Rec128) : Nat :=
  (readLine t (wSrcA w)).data.toNat / 2 ^ (8 * elemBytes f * wImm w) % 2 ^ (8 * elemBytes f)

/-- Whether an EXIT_IF's test is true. -/
def exitTaken (t : Tile) (w : Rec128) : Bool :=
  match fmtOf (wFmt w) with
  | some f => exitTest f (wAux w) (exitElem f t w)
  | none => false

/-- EXIT_IF (R63): when the test is true only the C word still issues. -/
def exitRule : OpRule where
  evs := noEvs
  go := fun s r u t w =>
    let s1 := if exitTaken t w then updTile u (fun x => { x with exited := true, todo := x.todo.filter wC }) s else s
    justFly s1 r u w

/-- EXIT_IF. -/
def execExitIf (u : Nat) (s : State) : Host.Outcome State Fault Refusal := .next (issue 0x04 exitRule u s)

/-- Whether a RECV starves: its entry is empty or holds a LATE marker (R77). -/
def recvStarved (t : Tile) (w : Rec128) : Bool :=
  match find? (wSrcA w) t.inbox with
  | some e => e.late
  | none => true

/-- The line that a RECV writes: the entry's bytes, their residues on arrival and its PDUE, or zeros (R77, R80, R92, R200). -/
def recvLine (t : Tile) (w : Rec128) : LineVal :=
  match find? (wSrcA w) t.inbox with
  | some e => if e.late then LineVal.zero else { cleanLine e.data e.pdue with side := e.side }
  | none => LineVal.zero

/-- RECV (R75, R77): the entry frees at the deadline. -/
def recvRule : OpRule where
  evs := fun _ _ _ t w => evsOf [(recvStarved t w, (0x0485, wSrcA w))]
  go := fun s r u t w =>
    fly u { flightOf s r w with results := [(wDst w, recvLine t w)], effect := .freeEntry (wSrcA w) } s

/-- RECV. -/
def execRecv (u : Nat) (s : State) : Host.Outcome State Fault Refusal := .next (issue 0x10 recvRule u s)

end Sys2Proof.Machine
end

