-- ==== Sys2Proof/Machine/Moves.lean ====
section
/-! DEFINITION. The words that move data off a tile or into its Pocket from memory: SEND, BLD, BST, BWR, GACC and GTREE. -/

namespace Sys2Proof.Machine

/-- Whether any line carries a provisional value, or, unless allowed, an unchecked one (R82). -/
def escapes (s : State) (unchecked : Bool) (t : Tile) (ls : List Nat) : Bool :=
  ls.any (fun l => pdueUp s (readLine t l).pdue || (!unchecked && tagUp s.job.slot (readLine t l).cdue))

/-! ## SEND -/

/-- The index of a parcel on its route (R114). -/
def sendPidx (e : Rec128) (w : Rec128) : Nat := if rBlock e then wSrcA w % 16 else 0

/-- The lines that a SEND reads: its own, and the whole page where it builds the Envelope (R95). -/
def sendLines (e : Rec128) (w : Rec128) : List Nat :=
  if rBlock e && sendPidx e w == 8 then span (.page 1) (wSrcA w / 16 * 16) else [wSrcA w]

/-- Whether a SEND of a block route breaks the order of R95. -/
def orderBroken (t : Tile) (e : Rec128) (w : Rec128) : Bool :=
  rBlock e &&
    ((sendPidx e w == 8 && (find? (wImm w) t.txEnv).isSome) || (decide (8 < sendPidx e w) && (find? (wImm w) t.txEnv).isNone))

/-- The events of a SEND on its route entry. -/
def sendEvsOn (s : State) (r : Reel) (u : Nat) (t : Tile) (e : Rec128) (w : Rec128) : List Ev :=
  let rg := jobRegions s r u
  let ls := sendLines e w
  evsOf [(rInbound e || (wE w && rPort e == 63) || orderBroken t e w || !inRegions rg ls, (0x0409, 0xFF)),
    (decide (8 ≤ t.outbox.length), (0x0403, 0xFF)), (escapes s (wE w) t ls, (0x0406, 0xFF)),
    (ls.any (staleLine rg t), (0x0407, 0xFF)),
    (rBlock e && sendPidx e w == 8 && pageBad t (wSrcA w / 16 * 16), (0x0483, 0xFF))]

/-- The Envelope of the block that a SEND belongs to: its own, the one its route holds, or the part known before parcel 8. -/
def sendEnv (s : State) (t : Tile) (e : Rec128) (w : Rec128) : EnvBits :=
  if sendPidx e w = 8 then buildEnv t (wSrcA w / 16 * 16) (rTag e) s.job.step 0
  else if sendPidx e w < 8 then BitVec.ofNat 256 (rTag e * 2 ^ 96 + s.job.step % 2 ^ 32 * 2 ^ 160)
  else look 0 (wImm w) t.txEnv

/-- Where a parcel's two Envelope bytes lie (R95). -/
def envPlace (pidx : Nat) : Nat := if pidx < 8 then 12 + 2 * pidx else if pidx < 14 then 2 * (pidx - 8) else 28 + 2 * (pidx - 14)

/-- The two Envelope bytes of a parcel. -/
def envPart (e : EnvBits) (pidx : Nat) : BitVec 16 := e.extractLsb' (8 * envPlace pidx) 16

/-- The outbox entry that a SEND makes. Parcel 8 of a block leaves provisional by the line that it carries alone, though its SEND reads
the whole page (log 75). -/
def sendEntry (s : State) (r : Reel) (t : Tile) (e : Rec128) (w : Rec128) : OutEntry where
  route := wImm w
  pidx := sendPidx e w
  payload := (readLine t (wSrcA w)).data
  env := if rBlock e then envPart (sendEnv s t e w) (sendPidx e w) else 0
  prov := wE w && tagUp s.job.slot (readLine t (wSrcA w)).cdue
  line := wSrcA w
  cdue := (readLine t (wSrcA w)).cdue
  leaves := if rPort e = 63 then some (wDone (jobClass s r) w) else none

/-- The Envelopes that a tile holds after a SEND: built at parcel 8, held until parcel 15 (R95). -/
def heldEnvs (s : State) (t : Tile) (e : Rec128) (w : Rec128) : Sparse EnvBits :=
  if rBlock e && sendPidx e w == 8 then put (wImm w) (sendEnv s t e w) t.txEnv
  else if rBlock e && sendPidx e w == 15 then erase (wImm w) t.txEnv else t.txEnv

/-- SEND (R62, R76, R82, R95): the parcel is placed at the deadline. -/
def sendRule : OpRule where
  evs := fun s r u t w =>
    match routeAt r u s.job.phase (wImm w) with
    | none => [(0x0409, 0xFF)]
    | some e => sendEvsOn s r u t e w
  go := fun s r u t w =>
    match routeAt r u s.job.phase (wImm w) with
    | none => s
    | some e =>
      fly u { flightOf s r w with effect := .send (sendEntry s r t e w) }
        (updTile u (fun x => { x with txEnv := heldEnvs s t e w }) s)

/-- SEND. -/
def execSend (u : Nat) (s : State) : Host.Outcome State Fault Refusal := .next (issue 0x11 sendRule u s)

/-! ## Block moves (R100, Table 5-4) -/

/-- Whether a tile and a stack share a Spar die (R86). -/
def nearStack (u k : Nat) : Bool := u / 512 == k / 4

/-- The slots after its issue in which a move is served and retires (Table 5-4). -/
def moveTimes (kind : MoveKind) (near : Bool) : Nat × Nat :=
  match kind with
  | .bld => if near then (1, 2) else (1, 3)
  | .bst => if near then (1, 1) else (2, 2)
  | _ => (1, 2)

/-- A request as it enters the mover. -/
def moveReq (s : State) (u : Nat) (kind : MoveKind) (e : Rec128) (page : Nat) (blk : Option Blk) (w : Rec128) : MoveReq :=
  let times := moveTimes kind (nearStack u (bStack e))
  { kind := kind, entry := e, page := page, serve := s.job.slot + times.1, retire := s.job.slot + times.2, served := false,
    complete := false, uncorr := false, blk := blk, slot := wSlot w, token := wToken w }

/-- A tile with a request in its mover. -/
def enqueueMove (u : Nat) (q : MoveReq) (s : State) : State := updTile u (fun t => { t with mover := t.mover ++ [q] }) s

/-- Whether the mover is full (R76). -/
def moverFull (t : Tile) : Bool := decide (2 ≤ t.mover.length)

/-- The key of a cache block. -/
def cacheKey (k b : Nat) : Nat := 2 ^ 25 * k + b

/-- Whether a far entry's cache block was not written in its far-fill slot (R105). -/
def farMissing (s : State) (e : Rec128) : Bool := bFar e && !look false (cacheKey (bStack e) (bBlock e)) s.far.written

/-- BLD (R100, R105): the request enters the mover; a far block that has not arrived is late at the issue, and its
request takes no place in the mover (log 78). -/
def bldRule : OpRule where
  evs := fun s r u t w =>
    match blockAt r u s.job.phase (wImm w) with
    | none => evsOf [(true, (0x0409, 0xFF)), (moverFull t, (0x0404, 0xFF))]
    | some e => evsOf [(moverFull t, (0x0404, 0xFF)), (farMissing s e, (0x0582, 0xFF))]
  go := fun s r u _ w =>
    match blockAt r u s.job.phase (wImm w) with
    | none => s
    | some e => justFly (if farMissing s e then s else enqueueMove u (moveReq s u .bld e (wDst w) none w) s) r u w

/-- BLD. -/
def execBld (u : Nat) (s : State) : Host.Outcome State Fault Refusal := .next (issue 0x12 bldRule u s)

/-- The events of a move that reads a page: a full mover, tags, and residues that disagree (R76, R82, R93). -/
def pageMoveEvs (s : State) (t : Tile) (w : Rec128) : List Ev :=
  evsOf [(moverFull t, (0x0404, 0xFF)), (escapes s false t (srcLines w), (0x0406, 0xFF)),
    (pageBad t (wSrcA w), (0x0483, 0xFF))]

/-- The block that a move of a page carries, none when its residues disagree (R93). -/
def pageBlk (s : State) (t : Tile) (tag : Nat) (w : Rec128) : Option Blk :=
  if pageBad t (wSrcA w) then none
  else some { payload := pageData t (wSrcA w), env := buildEnv t (wSrcA w) tag s.job.step (wFmt w) }

/-- BST (R93, R97): to a paired block only. One whose residues disagree keeps its place in the mover and stores nothing (log 78). -/
def bstRule : OpRule where
  evs := fun s r u t w =>
    match blockAt r u s.job.phase (wImm w) with
    | none => (0x0409, 0xFF) :: pageMoveEvs s t w
    | some e => evsOf [(!bPaired e || bFar e, (0x0409, 0xFF))] ++ pageMoveEvs s t w
  go := fun s r u t w =>
    match blockAt r u s.job.phase (wImm w) with
    | none => s
    | some e => justFly (enqueueMove u (moveReq s u .bst e (wSrcA w) (pageBlk s t (bTag e) w) w) s) r u w

/-- BST. -/
def execBst (u : Nat) (s : State) : Host.Outcome State Fault Refusal := .next (issue 0x13 bstRule u s)

/-- A move into the window stage (R93, R192). One whose residues disagree keeps its place in the mover and stages nothing (log 78). -/
def windowRule (kind : MoveKind) : OpRule where
  evs := fun s r u t w =>
    match windowAt r u s.job.phase (wImm w) with
    | none => (0x0409, 0xFF) :: pageMoveEvs s t w
    | some _ => pageMoveEvs s t w
  go := fun s r u t w =>
    match windowAt r u s.job.phase (wImm w) with
    | none => s
    | some e => justFly (enqueueMove u (moveReq s u kind e (wSrcA w) (pageBlk s t (nTag e) w) w) s) r u w

/-- BWR. -/
def execBwr (u : Nat) (s : State) : Host.Outcome State Fault Refusal := .next (issue 0x14 (windowRule .bwr) u s)

/-- GACC. -/
def execGacc (u : Nat) (s : State) : Host.Outcome State Fault Refusal := .next (issue 0x15 (windowRule .gacc) u s)

/-- GTREE. -/
def execGtree (u : Nat) (s : State) : Host.Outcome State Fault Refusal := .next (issue 0x16 (windowRule .gtree) u s)

end Sys2Proof.Machine
end

