-- ==== Sys2Proof/Machine/Checks.lean ====
section
/-! DEFINITION. The end of an operation, its residue checks and the shadow comparison (R56, R80, R81, R202, R205). -/

namespace Sys2Proof.Machine

/-! ## The deadline -/

/-- A result line as it is written: tags at the deadline, bytes as the datapath made them (R80, R81). -/
def finishLine (s : State) (f : Flight) (flips : LineBits) (v : LineVal) : LineVal :=
  let done := f.last / 64
  { v with data := v.data ^^^ flips, pdue := if tagUp done v.pdue || pdueUp s v.pdue then v.pdue else 0,
           cdue := if f.checked then done + 2 else 0, unfin := cnt s + 1 }

/-- The result lines as they are written. -/
def finishedLines (s : State) (f : Flight) (upsets : List (Nat × LineBits)) : List (Nat × LineVal) :=
  f.results.zipIdx.map (fun x => (x.1.1, finishLine s f (look 0 x.2 upsets) x.1.2))

/-- The lowest free place of an outbox. -/
def freePlace (t : Tile) : Nat := ((List.range 8).find? (fun k => (find? k t.outbox).isNone)).getD 8

/-- The slot at whose start an event or a parcel reaches a tile of the package (R73). -/
def localDue (s : State) (u dst done : Nat) : Nat :=
  cnt s - s.job.slot + done + (if u / 512 = dst / 512 then 1 else 2)

/-- What else an operation does at its deadline. -/
def doEffect (u : Nat) (f : Flight) (s : State) : State :=
  match f.effect with
  | .nothing => s
  | .send e => updTile u (fun t => { t with outbox := put (freePlace t) e t.outbox }) s
  | .freeEntry k => updTile u (fun t => { t with inbox := erase k t.inbox }) s
  | .signal dst input =>
    { s with localq := s.localq ++ [{ due := localDue s u dst (f.last / 64), dst := dst, event := input, parcel := none }] }
  | .clearFlags => updTile u (fun t => { t with flags := 0 }) s

/-- The tile at position 0 of a group, and the group of a tile. -/
def groupHead (g : Nat) : Nat := g / 64 * 512 + g % 64 * 8
def groupOf (u : Nat) : Nat := u / 512 * 64 + u % 512 / 8

/-- Fields of a shadow entry (Table 10-3). -/
def shPSlot (e : BitVec 256) : Nat := fld e 0 12
def shPToken (e : BitVec 256) : Nat := fld e 12 6
def shPPos (e : BitVec 256) : Nat := fld e 18 3
def shSSlot (e : BitVec 256) : Nat := fld e 21 12
def shSToken (e : BitVec 256) : Nat := fld e 33 6
def shSPos (e : BitVec 256) : Nat := fld e 39 3

/-- The shadow table of a group. -/
def shadowTable (r : Reel) (phase g : Nat) : List (BitVec 256) := recsOf r secShadow (groupHead g) phase

/-- Whether a shadow entry names an operation. -/
def inShadow (r : Reel) (phase u slot token : Nat) : Bool :=
  (shadowTable r phase (groupOf u)).any (fun e =>
    (shPPos e == u % 8 && shPSlot e == slot && shPToken e == token) ||
    (shSPos e == u % 8 && shSSlot e == slot && shSToken e == token))

/-- The result of an operation that a shadow entry names is kept for the comparator (R202). -/
def keepShadow (u : Nat) (w : Rec128) (lines : List (Nat × LineVal)) (s : State) : State :=
  match s.reel with
  | some r =>
    if inShadow r s.job.phase u (wSlot w) (wToken w) then
      { s with shadowed := s.shadowed ++ [(u, wSlot w, wToken w, lines.map (fun x => x.2.data))] }
    else s
  | none => s

/-- The regions of a tile in the running phase. -/
def regionsNow (s : State) (u : Nat) : Nat × Nat × Nat :=
  match s.reel with
  | some r => jobRegions s r u
  | none => (1, 0, 0)

/-- An operation that completed by its deadline (R54, R81). -/
def completeOp (u : Nat) (f : Flight) (upsets : List (Nat × LineBits)) (s : State) : State :=
  let ls := finishedLines s f upsets
  let check : Check :=
    { slot := f.last / 64 + 2, lines := ls.map (fun x => x.1), bad := f.srcBad || ls.any (fun x => sideBad x.2) }
  let write (t : Tile) : Tile := ls.foldl (fun a x => writeLine (regionsNow s u) x.1 x.2 a) t
  let s1 := updTile u (fun t => { write t with flight := none, flags := t.flags ||| f.flags,
                                               checks := if f.checked then t.checks ++ [check] else t.checks }) s
  doEffect u f (if f.checked then keepShadow u f.word ls s1 else s1)

/-- An operation that missed its deadline: LATE_OP at the next token, and the tile issues nothing further (R56). -/
def lateOp (u : Nat) (f : Flight) (s : State) : State :=
  tileDetect 0x0484 u 0xFF ((f.last + 1) % 64) (updTile u (fun t => { t with flight := none, lateOp := true }) s)

/-- Whether an operation's deadline token lies in the present slot of its step. -/
def deadlineHere (s : State) (f : Flight) : Bool := !f.pastStep && s.job.slot == f.last / 64

/-- Whether the token after an operation's deadline lies in the present slot: the first slot of the step after, when the operation's
own step has ended. -/
def lateHere (s : State) (f : Flight) : Bool := if f.pastStep then s.job.slot == 0 else s.job.slot == (f.last + 1) / 64

/-- Whether a Ballast operation that runs past its duration still has the engine of a tile's operation (R246). -/
def engineHeld (s : State) (u : Nat) (f : Flight) : Bool :=
  s.power.ballast.any (fun x => x.1 == u && ballastEngine x.2 (wOp f.word))

/-- OP_DEADLINE (R56): in the slot of the deadline token, or of the token after it where the operation is late; an operation whose
engine Ballast still has is not done (R246). -/
def execOpDeadline (u : Nat) (res : OpEnd) (s : State) : Host.Outcome State Fault Refusal :=
  .next (
    match decide (u < 1024) && running s, (tileOf s u).flight with
    | true, some f =>
      match res with
      | .done upsets => if deadlineHere s f && !engineHeld s u f then completeOp u f upsets s else s
      | .late => if lateHere s f then lateOp u f s else s
    | _, _ => s)

/-! ## Residue checks (R81) -/

/-- A check of a slot that has completed. -/
def markCheck (slot : Nat) (parityBad : Bool) (c : Check) : Check :=
  if c.slot = slot ∧ c.lines ≠ [] then { c with lines := [], bad := c.bad || parityBad } else c

/-- A line whose CDUE has cleared. -/
def clearCdue (slot ln : Nat) (t : Tile) : Tile :=
  let x := lineAt t ln
  let clr (v : LineVal) : LineVal := if v.cdue = slot then { v with cdue := 0 } else v
  setLine ln { x with cur := clr x.cur, nxt := clr x.nxt } t

/-- RESIDUE_CHECK_COMPLETE (R81): the checks of the slot complete at its end; a failed one raises RESIDUE_MISMATCH, and the
lines that it covers veto what was sent from them (R123). -/
def execResidueCheckComplete (u : Nat) (parityBad : Bool) (s : State) : Host.Outcome State Fault Refusal :=
  .next (
    let t := tileOf s u
    let cs := t.checks.filter (fun c => c.slot == s.job.slot && !c.lines.isEmpty)
    if decide (u < 1024) && running s && !cs.isEmpty then
      let lines := cs.flatMap (fun c => c.lines)
      let badLines := (cs.filter (fun c => c.bad || parityBad)).flatMap (fun c => c.lines)
      let cleared := lines.foldl (fun a l => clearCdue s.job.slot l a) t
      let s1 := setTile u { cleared with checks := t.checks.map (markCheck s.job.slot parityBad),
                                         badLines := t.badLines ++ badLines } s
      if badLines.isEmpty then s1 else tileDetect 0x0481 u 0xFF 63 s1
    else s)

/-! ## Shadow comparison (R202, R205) -/

/-- The completion slot of the word that a tile issues at a slot and token of the step. -/
def doneAt (s : State) (r : Reel) (u slot token : Nat) : Option Nat :=
  ((stepWords r u s.job.phase s.job.pattern).find? (fun w => wSlot w == slot && wToken w == token)).map
    (fun w => wDone (jobClass s r) w)

/-- The kept result of an operation. -/
def shadowResult (s : State) (u slot token : Nat) : Option (List LineBits) :=
  (s.shadowed.find? (fun x => x.1 == u && x.2.1 == slot && x.2.2.1 == token)).map (fun x => x.2.2.2)

/-- A mismatch: reported by the primary unless it reports a lower code in the token, and counted by both (R84, R205). -/
def shadowMiss (p q : Nat) (s : State) : State :=
  let s1 := tileDetect 0x0482 p 0xFF 63 s
  score 0x0482 q (bumpCtr 1 q s1)

/-- SHADOW_COMPARE (R202): entry `i` of group `g`, at the end of slot max(c_P, c_S) + 2. -/
def execShadowCompare (g i : Nat) (s : State) : Host.Outcome State Fault Refusal :=
  .next (
    match decide (g < 128) && running s, s.reel with
    | true, some r =>
      match (shadowTable r s.job.phase g)[i]? with
      | none => s
      | some e =>
        let p := groupHead g + shPPos e
        let q := groupHead g + shSPos e
        match shadowResult s p (shPSlot e) (shPToken e), shadowResult s q (shSSlot e) (shSToken e),
          doneAt s r p (shPSlot e) (shPToken e), doneAt s r q (shSSlot e) (shSToken e) with
        | some x, some y, some a, some b => if max a b + 2 = s.job.slot ∧ x ≠ y then shadowMiss p q s else s
        | _, _, _, _ => s
    | _, _ => s)

end Sys2Proof.Machine
end

