-- ==== Sys2Proof/Machine/Commits.lean ====
section
/-! DEFINITION. The commits of the BRIDLE, SEC, PWR and HOST blocks and the re-train request (R131, R152, R226, R253, R274). -/

namespace Sys2Proof.Machine

/-! ## BRIDLE_COMMIT -/

/-- Whether two settings name the same identity and root. -/
def sameIdentity (a b : BridleCfg) : Bool := a.id == b.id && a.idValid == b.idValid && a.root == b.root

/-- A mark whose committed value changes is judged (R153). -/
def judgeMark (mark : Word64) (b : Bridle) : Bridle :=
  if mark = 0 then { b with markArmed := false }
  else if mark.toNat ≤ b.count then { b with markArmed := false, events := b.events ||| 8 }
  else { b with markArmed := true }

/-- The staged settings take effect; a change of identity or root starts the synchronisation anew (log 26). -/
def bridleTaken (b : Bridle) : Bridle :=
  let b1 := { b with committed := b.staged }
  let b2 := if b.staged.mark = b.committed.mark then b1 else judgeMark b.staged.mark b1
  if sameIdentity b.staged b.committed then b2 else bridleLost b2

/-- BRIDLE_COMMIT (R152). -/
def bridleGo (v : Word32) (s : State) : State :=
  if commits v s then
    if s.reel.isSome && !sameIdentity s.bridle.staged s.bridle.committed then
      { s with bridle := { s.bridle with events := s.bridle.events ||| 16 } }
    else
      let s1 := { s with bridle := bridleTaken s.bridle }
      if sameIdentity s.bridle.staged s.bridle.committed then s1
      else { s1 with ports := mapVals Port.off portUnheard s1.ports }
  else s

/-- A write of BRIDLE_COMMIT. -/
def execBridleCommit (v : Word32) (s : State) : Host.Outcome State Fault Refusal := .next (bridleGo v s)

/-! ## SEC_COMMIT -/

/-- Whether a SEC commit is in range (R226). -/
def secInRange (c : SecCfg) : Bool :=
  c.tileWatch != 0 && c.portWatch != 0 && c.stackWatch != 0 && decide (c.tileWatch.toNat ≤ c.tileAdvise.toNat) &&
  decide (c.portWatch.toNat ≤ c.portAdvise.toNat) && decide (c.stackWatch.toNat ≤ c.stackAdvise.toNat) &&
  c.watchPasses != 0 && c.scoreHalfH != 0 && c.stressActive != 0 && c.stressWatch != 0

/-- SEC_COMMIT (R226). -/
def secGo (v : Word32) (s : State) : State :=
  if commits v s then
    if secInRange s.sec.staged then { s with sec := { s.sec with committed := s.sec.staged } }
    else { s with sec := { s.sec with commitRefused := true } }
  else s

/-- A write of SEC_COMMIT. -/
def execSecCommit (v : Word32) (s : State) : Host.Outcome State Fault Refusal := .next (secGo v s)

/-! ## PWR_COMMIT -/

/-- Whether a byte of PWR_PREF is a level or 0xFF (R253). -/
def prefOk (b : Nat) : Bool := decide (b ≤ 48) || b == 0xFF

/-- Whether a PWR commit is in range (R253). -/
def pwrInRange (capMin capMax : Nat) (c : PwrCfg) : Bool :=
  decide (capMin ≤ c.cap.toNat) && decide (c.cap.toNat ≤ capMax) &&
  decide (1 ≤ c.window.toNat) && decide (c.window.toNat ≤ 30) &&
  decide (20 ≤ c.ramp.toNat) && decide (c.ramp.toNat ≤ 2000) &&
  c.pref.all (fun w => (List.range 4).all (fun k => prefOk (fld w (8 * k) 8)))

/-- PWR_COMMIT (R253). -/
def pwrGo (v : Word32) (s : State) : State :=
  if commits v s then
    if pwrInRange s.store.set.capMin s.store.set.capMax s.power.staged then
      { s with power := { s.power with committed := s.power.staged } }
    else { s with power := { s.power with events := s.power.events ||| 1 } }
  else s

/-- A write of PWR_COMMIT. -/
def execPwrCommit (v : Word32) (s : State) : Host.Outcome State Fault Refusal := .next (pwrGo v s)

/-! ## HOST_COMMIT -/

/-- Whether a base is 4 KiB aligned. -/
def aligned4k (b : Word64) : Bool := decide (b.toNat % 4096 = 0)

/-- Whether a ring size lies from 6 to 16. -/
def sizeOk (z : BitVec 5) : Bool := decide (6 ≤ z.toNat) && decide (z.toNat ≤ 16)

/-- Whether two settings have the same bases and sizes. -/
def sameRings (a b : HostCfg) : Bool :=
  a.sq == b.sq && a.cq == b.cq && a.eq == b.eq && a.db == b.db && a.szSq == b.szSq && a.szCq == b.szCq && a.szEq == b.szEq

/-- Whether a HOST commit is accepted (R274). -/
def hostAccepts (s : State) : Bool :=
  let c := s.rings.staged
  let o := s.rings.committed
  aligned4k c.sq && aligned4k c.cq && aligned4k c.eq && aligned4k c.db && sizeOk c.szSq && sizeOk c.szCq && sizeOk c.szEq &&
  decide (1 ≤ c.minUs.toNat) && decide (c.minUs.toNat ≤ c.maxUs.toNat) && decide (c.maxUs.toNat ≤ 64) &&
  !(o.enable && c.enable && !sameRings c o) && !(!c.enable && (jobBusy s || s.store.run.isSome))

/-- The rings as an enabling commit starts them: every count 0 (R274). -/
def ringsStarted (r : Rings) : Rings :=
  { r with committed := r.staged, lastTail := 0, sqHead := 0, sqDone := 0, cqTail := 0, cqHead := 0, eqTail := 0, eqHead := 0,
           eqLost := 0, heartbeat := 0, pollUs := r.staged.minUs.toNat, wrote := false, seq := 0, stall := false }

/-- HOST_COMMIT (R274); records that were due go to the rings (log 27). -/
def hostGo (v : Word32) (s : State) : State :=
  if commits v s then
    if hostAccepts s then
      if s.rings.staged.enable && !s.rings.committed.enable then
        flushDue (syncDoorbell { s with rings := ringsStarted s.rings })
      else { s with rings := { s.rings with committed := s.rings.staged } }
    else { s with rings := { s.rings with events := s.rings.events ||| 1 } }
  else s

/-- A write of HOST_COMMIT. -/
def execHostCommit (v : Word32) (s : State) : Host.Outcome State Fault Refusal := .next (hostGo v s)

/-! ## FAB_RETRAIN -/

/-- A request for full training of a port: it waits while the loaded Reel uses the port (R131). -/
def askRetrain (p : Nat) (s : State) : State :=
  if !portPop s p then s
  else
    let s1 := updPort p (fun v => { v with retrain := true }) s
    if reelPort s p || idleSignal s p != .wake then s1
    else updPort p (fun v => { portDown .wake v with retrain := true }) s1

/-- FAB_RETRAIN (R131): bit `k` of the LO half asks for port `k`, of the HI half for port 32 + `k`. -/
def retrainGo (hi : Bool) (v : Word32) (s : State) : State :=
  if barOpen s then
    let lo := if hi then 32 else 0
    ((List.range 32).filter (fun k => bit v k)).foldl (fun a k => askRetrain (lo + k) a) s
  else s

/-- A write of FAB_RETRAIN. -/
def execFabRetrain (hi : Bool) (v : Word32) (s : State) : Host.Outcome State Fault Refusal := .next (retrainGo hi v s)

end Sys2Proof.Machine
end

