-- ==== Sys2Proof/Machine/Regs.lean ====
section
/-! DEFINITION. The registers of BAR0: what each reads and what a write to it does, block by block, and the latching reads. -/

namespace Sys2Proof.Machine

/-! ## Parts of registers -/

def lo32 (n : Nat) : Nat := n % 2 ^ 32
def hi32 (n : Nat) : Nat := n / 2 ^ 32 % 2 ^ 32

/-- The two's complement of an integer in `w` bits. -/
def intBits (w : Nat) (v : Int) : Nat := (v % (2 ^ w : Int)).toNat

/-- A 64-bit word with its low or high half replaced. -/
def withLo (v : Word64) (x : Word32) : Word64 := BitVec.ofNat 64 (hi32 v.toNat * 2 ^ 32 + x.toNat)
def withHi (v : Word64) (x : Word32) : Word64 := BitVec.ofNat 64 (x.toNat * 2 ^ 32 + lo32 v.toNat)

/-- A 48-bit word with its low 32 or high 16 bits replaced. -/
def withLo48 (v : BitVec 48) (x : Word32) : BitVec 48 := BitVec.ofNat 48 (v.toNat / 2 ^ 32 * 2 ^ 32 + x.toNat)
def withHi48 (v : BitVec 48) (x : Word32) : BitVec 48 := BitVec.ofNat 48 (fld x 0 16 * 2 ^ 32 + v.toNat % 2 ^ 32)

/-- Word `i` of a 256-bit digest. -/
def digWord (d : BitVec 256) (i : Nat) : Nat := fld d (32 * i) 32

/-- The sum of a list of words shifted by 8 bits each: four bytes as a word. -/
def word4 (b : List Nat) : Nat := b.getD 0 0 + 2 ^ 8 * b.getD 1 0 + 2 ^ 16 * b.getD 2 0 + 2 ^ 24 * b.getD 3 0

/-! ## The blocks that report the part -/

/-- The populated stacks as bits. -/
def stackMap (s : State) : Nat := (List.range 8).foldl (fun a k => a + flag (stackPop s k) * 2 ^ k) 0

/-- ID_ASSEMBLY (Table 3-3). -/
def idAssembly (s : State) : Nat :=
  s.ident.memDies % 16 + 16 * (s.ident.lineDies % 4) + 2 ^ 8 * stackMap s + 2 ^ 16 * (2 ^ s.ident.lineDies - 1)

/-- The ID block (Table 3-3). -/
def readId (s : State) (o : Nat) : Nat :=
  if o = 0x00 then 0xCA1C2100 else if o = 0x04 then idAssembly s
  else if o = 0x08 then lo32 s.ident.serial.toNat else if o = 0x0C then hi32 s.ident.serial.toNat
  else if o = 0x10 then s.ident.slotId.toNat else if o = 0x14 then s.ident.rom.toNat else 0

/-- BOOT_STAGE (Table 3-4). -/
def bootStage (s : State) : Nat := stageCode s.boot.stage + 16 * resetCode s.boot.lastReset

/-- The BOOT block (Table 3-4). -/
def readBoot (s : State) (o : Nat) : Nat :=
  if o = 0x00 then bootStage s else if o = 0x04 then bootFlags s.boot else 0

/-- The contents of the active bank. -/
def activeSet (t : Store) : Option Bank := t.active.map (fun b => if b then t.bankB else t.bankA)

/-- Whether the volatile set differs from the active bank (R46). With no active bank DIRTY reads 1 and ACTIVE_BANK 0, which is the
model's choice (log 74). -/
def dirty (t : Store) : Bool :=
  match activeSet t with
  | some b => decide (b.set ≠ t.set)
  | none => true

/-- SS_STATUS (Table 3-8). -/
def ssStatus (s : State) : Nat :=
  flag s.store.run.isSome + 2 * flag (dirty s.store) + 4 * flag (s.store.active == some true) + 8 * flag s.store.worn

/-- SS_CAP_LIMITS (Table 3-8). -/
def ssCapLimits (s : State) : Nat := s.store.set.capMin % 2 ^ 16 + 2 ^ 16 * (s.store.set.capMax % 2 ^ 16)

/-- The SS block (Table 3-8). -/
def readSs (s : State) (o : Nat) : Nat :=
  let b := activeSet s.store
  if o = 0x00 then ssStatus s
  else if o = 0x04 then (match b with | some x => x.generation | none => 0)
  else if o = 0x08 then (match b with | some x => x.storeCount | none => 0)
  else if o = 0x0C then ssCapLimits s else if o = 0x10 then s.store.lastResult else 0

/-- The SPAR block (Table 4-12). -/
def readSpar (o : Nat) : Nat :=
  if o = 0x00 then 1024 + 64 * 2 ^ 16 + 8 * 2 ^ 24 else if o = 0x04 then 512 + 128 * 2 ^ 16
  else if o = 0x08 then 16 + 8 * 2 ^ 8 + 2 * 2 ^ 16 + 2 * 2 ^ 20 + 16 * 2 ^ 24 else if o = 0x0C then 0x0100
  else if o = 0x10 then 1000 + 5120 * 2 ^ 16 else if o = 0x14 then 1300 + 6656 * 2 ^ 16
  else if o = 0x18 then 1625 + 8192 * 2 ^ 16 else if o = 0x1C then 1950 + 9728 * 2 ^ 16 else 0

/-- STATE of a stack (Table 5-7). -/
def stackCode (x : StackSt) : Nat :=
  match x with
  | .off => 0
  | .trained => 1
  | .selfRefresh => 2
  | .lost => 3

/-- The MEM block (Table 5-7). -/
def readMem (s : State) (o : Nat) : Nat :=
  if o = 0x00 then stackMap s + 96 * 2 ^ 8 else if o = 0x04 then 6 + 8 * 2 ^ 8 + 64 * 2 ^ 16 + 32 * 2 ^ 24
  else if o = 0x08 then floorNow s + 2 ^ 8 * nMax (floorNow s) s.pacer.vent + 2 ^ 16 * s.power.spacing
  else if 0x10 ≤ o ∧ o < 0x30 then
    let m := memOf s ((o - 0x10) / 4)
    stackCode m.st + 2 ^ 8 * intBits 8 (if m.st = .off then 0 else m.temp)
  else 0

/-- STATE of a port (Table 6-8). -/
def portCode (x : PortSt) : Nat :=
  match x with
  | .off => 0
  | .absent => 1
  | .notReady => 2
  | .training => 3
  | .measuring => 4
  | .trained => 5
  | .relock => 6
  | .stopped => 7
  | .failed => 8

/-- The class in use of a port, 0 when none. -/
def reelClass (s : State) (p : Nat) : Nat := match s.reel with | some r => topoClass r p | none => 0

/-- A port's sub-block (Table 6-10). -/
def readPort (s : State) (p o : Nat) : Nat :=
  let v := portOf s p
  if o = 0x00 then portCode v.st + 2 ^ 4 * v.cls + 2 ^ 8 * reelClass s p + 2 ^ 12 * v.precode.toNat
  else if o = 0x04 then lo32 v.wirePs
  else if o = 0x08 then lo32 v.farSerial.toNat else if o = 0x0C then hi32 v.farSerial.toNat
  else if o = 0x10 then v.farPort.toNat + 2 ^ 8 * v.farSlot.toNat + 2 ^ 16 * v.farBridle.toNat
  else if o = 0x14 then v.relocks else 0

/-- The re-train bits of 32 ports (Table 6-10). -/
def retrainBits (s : State) (lo : Nat) : Nat :=
  (List.range 32).foldl (fun a k => a + flag ((portOf s (lo + k)).retrain) * 2 ^ k) 0

/-- The FAB block (Table 6-10). -/
def readFab (s : State) (o : Nat) : Nat :=
  if o = 0x00 then portCount s + 4 * 2 ^ 8 + 10 * 2 ^ 16 + 12 * 2 ^ 20
  else if o = 0x04 then (match s.reel with | some r => loadedTag r | none => 0)
  else if o = 0x08 then retrainBits s 0 else if o = 0x0C then retrainBits s 32
  else if 0x100 ≤ o then
    let p := (o - 0x100) / 0x20
    if portPop s p then readPort s p ((o - 0x100) % 0x20) else 0
  else 0

/-! ## BRIDLE, TB and REPLAY -/

/-- STATE of the Bridle unit (Table 7-2). -/
def syncCode (x : SyncSt) : Nat :=
  match x with
  | .unsynced => 0
  | .acquiring => 1
  | .synced => 2
  | .holdover => 3

/-- BRIDLE_CFG (Table 7-2). -/
def bridleCfgWord (c : BridleCfg) : Nat := c.id.toNat + 2 ^ 15 * flag c.idValid + 2 ^ 16 * flag c.root

/-- *S* of the armed or running job. -/
def launchCount (s : State) : Nat := if jobBusy s then s.job.start else 0

/-- The identity of the root that the package follows, its own when it is root (Table 7-1). -/
def rootIdOf (b : Bridle) : BitVec 11 :=
  if b.committed.root ∧ (b.st = .unsynced ∨ (b.st = .synced ∧ b.parent.isNone)) then b.committed.id else b.rootId

/-- PARENT_PORT as the tables give it: 63 for a package without a parent and for a root, also one that aligns to a neighbour as if
that were its parent (Tables 7-1, 7-2, R141). -/
def parentPort (b : Bridle) : Nat := if b.committed.root ∧ rootIdOf b = b.committed.id then 63 else b.parent.getD 63

/-- The BRIDLE block (Table 7-2), latches apart. -/
def readBridle (s : State) (o : Nat) : Nat :=
  let b := s.bridle
  if o = 0x08 then syncCode b.st + 2 ^ 8 * parentPort b + 2 ^ 16 * b.hops
  else if o = 0x0C then b.events.toNat
  else if o = 0x10 then bridleCfgWord b.staged
  else if o = 0x14 then lo32 b.staged.seed.toNat else if o = 0x18 then hi32 b.staged.seed.toNat
  else if o = 0x1C then lo32 b.staged.mark.toNat else if o = 0x20 then hi32 b.staged.mark.toNat
  else if o = 0x28 then bridleCfgWord b.committed
  else if o = 0x2C then lo32 b.committed.seed.toNat else if o = 0x30 then hi32 b.committed.seed.toNat
  else if o = 0x34 then lo32 b.committed.mark.toNat else if o = 0x38 then hi32 b.committed.mark.toNat
  else if o = 0x3C then intBits 32 (b.theta2 / 2)
  else if o = 0x40 then lo32 b.markSec else if o = 0x44 then hi32 b.markSec else if o = 0x48 then b.markNs
  else if o = 0x4C then
    (match s.reel with | some r => leaderOf r + 2 ^ 16 * (r.diameter % 64) | none => 0) + 2 ^ 30 * flag (armed s) +
      2 ^ 31 * flag (running s)
  else if o = 0x50 then lo32 (launchCount s) else if o = 0x54 then hi32 (launchCount s) else 0

/-- The words of a sub-block of time output settings: CTRL, START_SEC, START_NS, PERIOD and WIDTH. -/
def toutWord (c : ToutCfg) (o : Nat) : Nat :=
  if o = 0x00 then c.mode.toNat + 4 * flag c.pol
  else if o = 0x04 then lo32 c.startSec.toNat else if o = 0x08 then hi32 c.startSec.toNat
  else if o = 0x0C then c.startNs.toNat
  else if o = 0x10 then lo32 c.period.toNat else if o = 0x14 then hi32 c.period.toNat
  else if o = 0x18 then c.width.toNat else 0

/-- The level of a time output's land: POL inverts it, a pulse keeps the POL it began with until it ends (R173), and no reference
holds the land low (R25, R170). -/
def toutLevel (s : State) (o : Tout) : Bool := !s.tb.refLost && (if o.pulse then !o.pulsePol else o.polNow)

/-- A time output's registers (Table 8-3). -/
def readTout (s : State) (n o : Nat) : Nat :=
  let t := outOf s.tb n
  if o < 0x1C then toutWord t.staged o
  else if 0x20 ≤ o ∧ o < 0x3C then toutWord t.committed (o - 0x20)
  else if o = 0x3C then flag t.armed + 2 * flag (toutLevel s t) + 4 * flag t.missed + 8 * flag t.skipped else 0

/-- A capture channel's registers (Table 8-3). -/
def readCap (t : TimeBase) (c o : Nat) : Nat :=
  let k := capOf t c
  let h := k.queue.headD { sec := 0, ns := 0, bridle := 0, rising := false, held := false, invalid := false }
  if o = 0x00 then k.edge.toNat + 4 * flag k.event
  else if o = 0x04 then lo32 h.sec else if o = 0x08 then hi32 h.sec + 2 ^ 16 * flag h.rising
  else if o = 0x0C then h.ns + 2 ^ 30 * flag h.held + 2 ^ 31 * flag h.invalid
  else if o = 0x10 then lo32 h.bridle else if o = 0x14 then hi32 h.bridle
  else if o = 0x1C then k.queue.length + 2 ^ 8 * flag k.overflow + 2 ^ 16 * k.dropped else 0

/-- TB_STATUS (Table 8-3). -/
def tbStatus (t : TimeBase) : Nat :=
  flag t.valid + 2 * flag t.stepUsed + 4 * flag t.refLost + 8 * flag (t.slewRem != 0)

/-- The settings words of the TB block, at the offset of the staged ones (Table 8-3). -/
def tbWord (c : TbCfg) (o : Nat) : Nat :=
  if o = 0x40 then flag c.mode + 2 ^ 16 * c.slewBound.toNat
  else if o = 0x60 then lo32 c.stepSec.toNat else if o = 0x64 then hi32 c.stepSec.toNat
  else if o = 0x68 then c.stepNs.toNat else if o = 0x6C then c.stepFrac.toNat
  else if o = 0xA0 then lo32 c.rate.toNat else if o = 0xA4 then hi32 c.rate.toNat
  else if o = 0xC0 then lo32 c.slew.toNat else if o = 0xC4 then hi32 c.slew.toNat
  else if o = 0xE0 then c.civil.toNat
  else if o = 0x100 then c.setDate.toNat else if o = 0x104 then c.setTime.toNat else 0

/-- Where the committed copy of a TB word has its staged one. -/
def tbStagedAt (o : Nat) : Nat :=
  if o = 0x48 then 0x40 else if 0x74 ≤ o ∧ o ≤ 0x80 then o - 0x14 else if o = 0xAC ∨ o = 0xB0 then o - 0x0C
  else if o = 0xCC ∨ o = 0xD0 then o - 0x0C else if o = 0xE8 then 0xE0 else if o = 0x10C ∨ o = 0x110 then o - 0x0C
  else 0

/-- The TB block (Table 8-3). -/
def readTb (s : State) (o : Nat) : Nat :=
  let t := s.tb
  if o = 0x00 then lo32 t.sec else if o = 0x04 then hi32 t.latchSec else if o = 0x08 then t.latchNs
  else if o = 0x0C then t.latchFrac else if o = 0x10 then tbStatus t
  else if o = 0x14 then t.result + 2 ^ 8 * t.sub else if o = 0x18 then t.events.toNat
  else if o = 0xD4 then lo32 (intBits 64 (t.slewRem.tdiv (fracUnit : Nat)))
  else if o = 0xD8 then hi32 (intBits 64 (t.slewRem.tdiv (fracUnit : Nat)))
  else if o = 0xEC then t.latchDate.toNat else if o = 0xF0 then t.latchTime.toNat
  else if 0x200 ≤ o ∧ o < 0x300 then readTout s ((o - 0x200) / 0x40) ((o - 0x200) % 0x40)
  else if 0x300 ≤ o ∧ o < 0x360 then readCap t ((o - 0x300) / 0x20) ((o - 0x300) % 0x20)
  else if tbStagedAt o ≠ 0 then tbWord t.committed (tbStagedAt o) else tbWord t.staged o

/-- REPLAY_STATUS (Table 9-3). -/
def replayStatus (s : State) : Nat :=
  let j := s.job
  (if running s then (if j.notice.isSome then 2 else 1) else if j.faulted then 3 else 0) + 4 * (j.attempt % 4) +
    16 * flag j.sealed_.isSome

/-- The REPLAY block (Table 9-3), latches apart. -/
def readReplay (s : State) (o : Nat) : Nat :=
  if o = 0x00 then replayStatus s else if o = 0x04 then lo32 s.job.step
  else if o = 0x10 then s.job.lastCode.toNat + 2 ^ 16 * s.job.lastOrigin.toNat
  else if o = 0x20 then lo32 s.work.parcelsProv else if o = 0x24 then lo32 s.work.storesProv
  else if o = 0x28 then lo32 s.work.windowProv else 0

/-! ## SEC -/

/-- SEC_STATUS.LEVEL of a shadow code (R198): the highest named level whose fraction it reaches. -/
def levelOf (shadow : Nat) : Nat := if shadow ≤ 1 then 1 else if shadow ≤ 3 then 2 else 3

/-- The words of SEC settings (Table 10-12). -/
def secWord (c : SecCfg) (i : Nat) : Nat :=
  if i = 0 then c.tileWatch.toNat + 2 ^ 8 * c.tileAdvise.toNat else if i = 1 then c.portWatch.toNat + 2 ^ 8 * c.portAdvise.toNat
  else if i = 2 then c.stackWatch.toNat + 2 ^ 8 * c.stackAdvise.toNat
  else if i = 3 then c.watchPasses.toNat + 2 ^ 8 * c.scoreHalfH.toNat
  else c.stressActive.toNat + 2 ^ 16 * c.stressWatch.toNat

/-- The bytes of the record that SEC_FSR_SEL names: none when it is no longer held (R221). -/
def heldFsr (s : State) (seq : Nat) : Option (List Byte) := (s.sec.fsrs.find? (fun f => f.seq == seq)).map (fun f => f.bytes)

/-- The SEC block (Table 10-12), latches apart. -/
def readSec (s : State) (o : Nat) : Nat :=
  let rec_ := (heldFsr s s.sec.fsrSel.toNat).getD []
  if o = 0x00 then
    (match s.reel with | some r => levelOf r.shadow + 2 ^ 4 * r.shadow | none => 0) + 2 ^ 8 * uptimeH s
  else if o = 0x04 then flag s.sec.testAuto else if o = 0x08 then s.sec.overdue else if o = 0x0C then flag s.sec.commitRefused
  else if 0x10 ≤ o ∧ o ≤ 0x20 then secWord s.sec.staged ((o - 0x10) / 4)
  else if 0x30 ≤ o ∧ o ≤ 0x40 then secWord s.sec.committed ((o - 0x30) / 4)
  else if o = 0x44 then s.sec.fsrSel.toNat else if o = 0x48 then rec_.length
  else if 0x200 ≤ o ∧ o < 0x400 then ofLe ((padTo 512 rec_).drop (o - 0x200) |>.take 4) else 0

/-- LAST_TEST as whole hours (Table 10-12). -/
def lastTestH (h : Health) : Nat := (h.lastTest.getD 0) / hourUnits

/-- SCORE and STATE of a unit (Table 10-12). -/
def scoreState (s : State) (i : Nat) : Nat := (healthOf s i).score + 2 ^ 8 * unitCode (unitSt s i)

/-- A 16-bit view of a counter (R349). -/
def view16 (n : Nat) : Nat := min n 65535

/-- A unit's SEC entry, as words (Table 10-12); an unpopulated position reads 0 (R16). -/
def secEntry (s : State) (i : Nat) : List Nat :=
  let h := healthOf s i
  if !unitPop s i then List.replicate (if i < 1024 then 4 else if i < 1072 then 8 else 4) 0
  else if i < 1024 then [h.c0 + 2 ^ 16 * h.c1, h.c2 + 2 ^ 16 * h.c3, scoreState s i, lastTestH h]
  else if i < 1072 then
    [h.c0, h.c1, h.c2, h.c3, view16 h.c4 + 2 ^ 16 * view16 h.c5, scoreState s i, lastTestH h, 0]
  else [h.c0, h.c1, scoreState s i + 2 ^ 16 * view16 h.c2, lastTestH h]

/-- The SEC unit array (R225). -/
def readSecArray (s : State) (o : Nat) : Nat :=
  if o < 0x4000 then (secEntry s (o / 0x10)).getD (o % 0x10 / 4) 0
  else if o < 0x4600 then (secEntry s (1024 + (o - 0x4000) / 0x20)).getD (o % 0x20 / 4) 0
  else if 0x4800 ≤ o ∧ o < 0x4880 then (secEntry s (1072 + (o - 0x4800) / 0x10)).getD (o % 0x10 / 4) 0 else 0

/-! ## PWR, DET, MGMT, LDR and HOST -/

/-- Whether this package issues Vent decisions. -/
def isLeader (s : State) : Bool := running s && s.reel.any (fun r => leaderOf r == (selfId s).toNat)

/-- PWR_STATUS (Table 11-4). -/
def pwrStatus (s : State) : Nat :=
  let w := s.power
  s.pacer.vent + 2 ^ 8 * w.req + 2 ^ 16 * w.limiter + 2 ^ 20 * w.cls + 2 ^ 24 * flag (w.capUnmet || w.ballastUnmet) +
    2 ^ 25 * flag (!w.ballast.isEmpty) + 2 ^ 26 * flag (isLeader s)

/-- The PWR settings at the offset of the staged ones (Table 11-4). -/
def pwrWord (c : PwrCfg) (o : Nat) : Nat :=
  if o = 0x20 then c.cap.toNat else if o = 0x24 then c.window.toNat else if o = 0x28 then c.ramp.toNat
  else if o = 0x2C then flag c.order
  else if 0x40 ≤ o ∧ o < 0x80 then (c.pref.getD ((o - 0x40) / 4) 0).toNat else 0

/-- The PWR block (Table 11-4), latches apart. -/
def readPwr (s : State) (o : Nat) : Nat :=
  let w := s.power
  if o = 0x00 then lo32 w.now else if o = 0x04 then lo32 w.mean else if o = 0x08 then lo32 w.allow
  else if o = 0x0C then pwrStatus s else if o = 0x10 then intBits 8 s.tray.tMax
  else if o = 0x14 then linkReserve s / 1000 % 2 ^ 16 + 2 ^ 16 * w.upMax else if o = 0x18 then w.events.toNat
  else if o < 0x80 then pwrWord w.staged o
  else if 0xA0 ≤ o ∧ o < 0x100 then pwrWord w.committed (o - 0x80)
  else if o = 0x110 then s.pacer.head
  else if 0x200 ≤ o ∧ o < 0x400 then
    if o % 0x10 = 8 then ((s.pacer.hist.getD ((o - 0x200) / 0x10) (0, 0)).2) else 0
  else if 0x400 ≤ o ∧ o < 0x460 then
    let r := w.regs.getD ((o - 0x400) / 4) (0, 0)
    r.1 % 2 ^ 16 + 2 ^ 16 * (r.2 % 2 ^ 16)
  else 0

/-- The length of the input list. -/
def inputsTotal (s : State) : Nat := match s.reel with | some r => (pkgRecs r secInputs).length | none => 0

/-- Whether a Reel uses the far tier (Table 12-4). -/
def reelFar (r : Reel) : Bool :=
  !(pkgRecs r secFarFill).isEmpty || (pkgRecs r secWeights ++ pkgRecs r secInputs).any (fun e => bit e 93)

/-- Whether the loader installed strict alternates (R260). -/
def hasAlternates (r : Reel) : Bool := r.strict && r.sections.any (fun x => x.alt.isSome)

/-- DET_STATUS (Table 12-5). -/
def detStatus (s : State) : Nat :=
  match s.reel with
  | some r => flag r.strict + 2 * flag r.vari + 4 * flag (reelFar r) + 8 +
      16 * flag (s.det.leaves.length == inputsTotal s) + 32 * flag (hasAlternates r)
  | none => 0

/-- DET_COST of a phase (R261): the Reel's estimate for its alternate, 0xFF for a phase without one. -/
def phaseCost (s : State) (f : Nat) : Nat :=
  match s.reel with
  | some r =>
    if r.sections.any (fun x => x.alt == some f) then
      (match (r.sections.find? (fun x => x.typ == secPhases && x.alt.isNone)).bind (fun x => x.recs[f]?) with
        | some e => fld e 24 8
        | none => 0xFF)
    else 0xFF
  | none => 0xFF

/-- The DET block (Table 12-5). -/
def readDet (s : State) (o : Nat) : Nat :=
  if o = 0x00 then flag s.det.strict else if o = 0x04 then detStatus s
  else if o = 0x08 then s.det.leaves.length else if o = 0x0C then inputsTotal s
  else if 0x40 ≤ o ∧ o < 0x60 then (match s.reel with | some r => digWord r.program ((o - 0x40) / 4) | none => 0)
  else if 0x60 ≤ o ∧ o < 0x80 then (match s.reel with | some r => digWord r.weights ((o - 0x60) / 4) | none => 0)
  else if 0x80 ≤ o ∧ o < 0xA0 then digWord s.det.latched ((o - 0x80) / 4)
  else if 0x100 ≤ o ∧ o < 0x140 then word4 ((List.range 4).map (fun k => phaseCost s (o - 0x100 + k))) else 0

/-- The MGMT block (Table 15-9). -/
def readMgmt (s : State) (o : Nat) : Nat :=
  let m := s.mgmt
  if o = 0x00 then s.unitGen
  else if o = 0x04 then (0x10 + s.ident.slotId.toNat) % 128 + 2 ^ 8 * m.eid.toNat + 2 ^ 16 * flag m.eidValid
  else if o = 0x08 then m.requests + 2 ^ 16 * m.dropped
  else if o = 0x0C then m.alerts.length + 2 ^ 8 * flag m.lostSince
  else if o = 0x10 then s.store.set.qlist.length
  else if o = 0x14 then m.lastCommand.toNat + 2 ^ 8 * m.lastCompletion.toNat else 0

/-- The LDR block (Table 14-11), latches apart. -/
def readLdr (s : State) (o : Nat) : Nat :=
  let l := s.ldr
  if o = 0x00 then flag l.debug
  else if o = 0x04 then
    (match s.reel with | some r => 1 + 2 * flag r.debug + 4 * flag r.patched | none => 0)
  else if o = 0x08 then l.status.toNat
  else if o = 0x0C then l.whereUnit.toNat + 2 ^ 16 * l.whereSection.toNat else if o = 0x10 then l.whereRec.toNat
  else if o = 0x14 then l.whereSlot.toNat + 2 ^ 12 * l.wherePattern.toNat
  else if o = 0x28 then (match s.reel with | some r => r.slots.length | none => 0)
  else if o = 0x2C then l.unchecked else if o = 0x30 then l.hazExpect.toNat + 2 ^ 16 * l.hazActual.toNat
  else if o = 0x34 then l.hazKind.toNat + 2 ^ 4 * l.hazIndex.toNat else 0

/-- The HOST settings at the offset of the staged ones (Table 13-2). -/
def hostWord (c : HostCfg) (o : Nat) : Nat :=
  if o = 0x10 then lo32 c.sq.toNat else if o = 0x14 then hi32 c.sq.toNat
  else if o = 0x18 then lo32 c.cq.toNat else if o = 0x1C then hi32 c.cq.toNat
  else if o = 0x20 then lo32 c.eq.toNat else if o = 0x24 then hi32 c.eq.toNat
  else if o = 0x28 then lo32 c.db.toNat else if o = 0x2C then hi32 c.db.toNat
  else if o = 0x30 then c.szSq.toNat + 2 ^ 8 * c.szCq.toNat + 2 ^ 16 * c.szEq.toNat
  else if o = 0x34 then c.minUs.toNat + 2 ^ 8 * c.maxUs.toNat else if o = 0x38 then flag c.enable else 0

/-- The HOST block (Table 13-2). -/
def readHost (s : State) (o : Nat) : Nat :=
  let r := s.rings
  if o = 0x00 then
    r.link.speed.toNat + 2 ^ 4 * r.link.width.toNat + 2 ^ 10 * flag r.link.flit + 2 ^ 11 * flag r.link.atomics
  else if o = 0x04 then r.dropped + 2 ^ 16 * r.dma
  else if 0x10 ≤ o ∧ o < 0x3C then hostWord r.staged o
  else if 0x40 ≤ o ∧ o < 0x6C then hostWord r.committed (o - 0x30)
  else if o = 0x70 then r.events.toNat else if o = 0x80 then r.vecCq.toNat
  else if 0x84 ≤ o ∧ o < 0x94 then (r.evvec.getD ((o - 0x84) / 4) 0).toNat
  else if o = 0xA0 then s.window.size
  else if o = 0xA4 then flag r.committed.enable + 2 * flag (r.committed.enable && r.stall) + 4 * flag s.stop.stopped else 0

/-- The state of a panel (R273). -/
def panelCode (x : PanelSt) : Nat :=
  match x with
  | .free => 0
  | .host => 1
  | .device => 2
  | .moving => 3

/-- Word `i` of the panel state array (R273). -/
def panelStates (s : State) (i : Nat) : Nat :=
  (List.range 16).foldl (fun a k =>
    let p := 16 * i + k
    a + (if p < s.window.size then panelCode (panelOf s p).st else 0) * 4 ^ k) 0

/-- Word `i` of the panel format array (R273). -/
def panelFormats (s : State) (i : Nat) : Nat :=
  (List.range 32).foldl (fun a k =>
    let p := 32 * i + k
    a + flag (decide (p < s.window.size) && (panelOf s p).blocks) * 2 ^ k) 0

/-! ## Latching fields (R346) -/

/-- The 64-bit value of a latching field whose LO half lies at a BAR0 offset. -/
def wideAt (s : State) (off : Nat) : Option Nat :=
  let t := s.sec.totals
  if off = 0x5000 then some (cnt s)
  else if off = 0x7008 then some (match s.job.notice with | some n => n.applyAt | none => 0)
  else if off = 0x7018 then some s.work.replays
  else if off = 0x7030 then some s.work.parcels else if off = 0x7038 then some s.work.stores
  else if off = 0x7040 then some s.work.window else if off = 0x7048 then some s.work.steps
  else if 0x8400 ≤ off ∧ off < 0x8460 ∧ off % 8 = 0 then (totalsList t)[(off - 0x8400) / 8]?
  else if off = 0x9100 then some (s.power.energy / 1000) else if off = 0x9108 then some (s.power.jobEnergy / 1000)
  else if 0x9200 ≤ off ∧ off < 0x9400 ∧ off % 16 = 0 then some (s.pacer.hist.getD ((off - 0x9200) / 16) (0, 0)).1
  else if off = 0xF018 then some s.ldr.short
  else if off = 0xF020 then some (match s.reel with | some r => stepTotal r | none => 0)
  else none

/-- A register word by its BAR0 offset (chapter 16), once the part answers. -/
def regWord (s : State) (off : Nat) : Nat :=
  match wideAt s off with
  | some v => lo32 v
  | none =>
    if 4 ≤ off ∧ (wideAt s (off - 4)).isSome then (look 0 off s.latches : Word32).toNat
    else if off < 0x800 then readId s off else if off < 0x1000 then readBoot s (off - 0x800)
    else if off < 0x2000 then readSs s (off - 0x1000) else if off < 0x3000 then readSpar (off - 0x2000)
    else if off < 0x4000 then readMem s (off - 0x3000) else if off < 0x5000 then readFab s (off - 0x4000)
    else if off < 0x6000 then readBridle s (off - 0x5000) else if off < 0x7000 then readTb s (off - 0x6000)
    else if off < 0x8000 then readReplay s (off - 0x7000) else if off < 0x9000 then readSec s (off - 0x8000)
    else if off < 0xA000 then readPwr s (off - 0x9000) else if off < 0xB000 then readDet s (off - 0xA000)
    else if off < 0xE000 then 0 else if off < 0xF000 then readMgmt s (off - 0xE000)
    else if off < 0x10000 then readLdr s (off - 0xF000) else if off < 0x20000 then readHost s (off - 0x10000)
    else if off < 0x30000 then readSecArray s (off - 0x20000) else if off < 0x40000 then 0
    else if off < 0x80000 then panelStates s ((off - 0x40000) / 4)
    else if off < 0xA0000 then panelFormats s ((off - 0x80000) / 4) else 0

/-- Whether BAR0 answers at an offset (R34): the ID, BOOT and SS blocks as soon as the host link is up. -/
def barAnswers (s : State) (off : Nat) : Bool := barOpen s || (linkUp s && decide (off < 0x2000))

/-- What a 32-bit read at an aligned offset returns. -/
def readWord (s : State) (off : Nat) : Nat := if barAnswers s off && off % 4 == 0 then regWord s off % 2 ^ 32 else 0

/-! ## Latching reads -/

/-- The inputs digest of the entries chained so far (R266). -/
def inputsDigest (leaves : List (BitVec 256)) : BitVec 256 := digestBits (leaves.flatMap digestBytes)

/-- A BAR0 read answers a value. -/
def answerRead (v : Nat) (s : State) : State := { s with out := { s.out with readData := BitVec.ofNat 64 v } }

/-- A read of DET_INPUTS_HASHED latches the digest that belongs to its count (R269). -/
def latchDet (s : State) : State :=
  { s with det := { s.det with latched := if s.reel.isSome then inputsDigest s.det.leaves else 0 } }

/-- What a read of a register latches, once the part answers: TB_NOW_SEC_LO the time base (R159), DET_INPUTS_HASHED the digest
(R269), the LO half of a 64-bit field its HI half (R346); any other register latches nothing. -/
def latchAt (off : Nat) (s : State) : State :=
  if off = 0x6000 then { s with tb := latchTb s.tb }
  else if off = 0xA008 then latchDet s
  else
    match wideAt s off with
    | some v => { s with latches := store 0 (off + 4) (BitVec.ofNat 32 (hi32 v)) s.latches }
    | none => s

/-- A 32-bit read of a register at an offset, with what it latches (R34, R345, R346). -/
def latchRead (off : Nat) (s : State) : State :=
  if barAnswers s off && off % 4 == 0 then answerRead (readWord s off) (latchAt off s) else answerRead 0 s

/-- A 64-bit read: two 32-bit reads, the lower address first, so that a LO and HI pair answers one consistent value (R345, R346). -/
def latchRead64 (off : Nat) (s : State) : State :=
  let a := latchRead off s
  let b := latchRead (off + 4) a
  answerRead (a.out.readData.toNat + 2 ^ 32 * b.out.readData.toNat) b

/-- A BAR0 read (R345): a narrower or unaligned read answers 0 and latches nothing. -/
def barRead (r : BarRead) (s : State) : State :=
  if r.width = 32 then latchRead r.off s
  else if r.width = 64 ∧ r.off % 8 = 0 then latchRead64 r.off s
  else answerRead 0 s

/-- BRIDLE_COUNT_LO_READ (R154), of 32 bits; a 64-bit read of the pair is a `BarRead`. -/
def execBridleCountLoRead (s : State) : Host.Outcome State Fault Refusal := .next (latchRead 0x5000 s)

/-- TB_NOW_SEC_LO_READ (R159). -/
def execTbNowSecLoRead (s : State) : Host.Outcome State Fault Refusal := .next (latchRead 0x6000 s)

/-- DET_INPUTS_HASHED_READ (R269). -/
def execDetInputsHashedRead (s : State) : Host.Outcome State Fault Refusal := .next (latchRead 0xA008 s)

/-- LATCHING_LO_READ (R346): a read of any register; the LO half of a latching field latches its HI half. -/
def execLatchingLoRead (r : BarRead) (s : State) : Host.Outcome State Fault Refusal := .next (barRead r s)

end Sys2Proof.Machine
end

