-- ==== Sys2Proof/Machine/Wire.lean ====
section
/-! DEFINITION. What a port puts on its wire in a slot: the parcel header, SLOT_START, and the tail with its BRIDLE, REPLAY and
PACE fields (Tables 6-4, 6-5, 7-1, 9-2, 11-1), and the frame that a slot boundary sends (R111, R123). -/

namespace Sys2Proof.Machine

/-! ## The parcel (Table 6-5) -/

def pType (p : BitVec 2304) : Nat := fld p 0 4
def pProv (p : BitVec 2304) : Bool := bit p 4
def pConfValid (p : BitVec 2304) : Bool := bit p 5
def pVerdict (p : BitVec 2304) : Bool := bit p 6
def pBlock (p : BitVec 2304) : Bool := bit p 7
def pPidx (p : BitVec 2304) : Nat := fld p 8 4
def pConfMask (p : BitVec 2304) : BitVec 10 := p.extractLsb' 16 10
def pDst (p : BitVec 2304) : Nat := fld p 64 16
def pEntry (p : BitVec 2304) : Nat := fld p 80 4
def pEvent (p : BitVec 2304) : Nat := fld p 84 4
def pRx (p : BitVec 2304) : Nat := fld p 88 8
def pDepSlot (p : BitVec 2304) : Nat := fld p 96 16
def pEnv (p : BitVec 2304) : BitVec 16 := p.extractLsb' 112 16
def pPayload (p : BitVec 2304) : LineBits := p.extractLsb' 256 2048

/-- The CRC-32C of the first 28 bytes of a 32-byte item. -/
def headCrc (x : Nat) : Nat := crc32c (leBytes 28 x)

/-- Whether HCRC and PCRC hold and TYPE is not reserved (R121). -/
def parcelOk (p : BitVec 2304) : Bool :=
  headCrc p.toNat == fld p 224 32 && crc32c (lineBytes (pPayload p)) == fld p 128 32 &&
  decide (1 ≤ pType p) && decide (pType p ≤ 3)

/-- Whether a parcel's header can be read and its HCRC checks (R118). -/
def headerOk (p : BitVec 2304) : Bool := headCrc p.toNat == fld p 224 32

/-- A parcel without the fields that each hop writes. -/
def mkParcel (typ : Nat) (prov block : Bool) (pidx dst entry ev rx : Nat) (env : BitVec 16) (tag : Nat) (payload : LineBits) :
    BitVec 2304 :=
  BitVec.ofNat 2304 (typ + 2 ^ 4 * flag prov + 2 ^ 7 * flag block + 2 ^ 8 * pidx + 2 ^ 64 * dst + 2 ^ 80 * entry +
    2 ^ 84 * ev + 2 ^ 88 * rx + 2 ^ 112 * env.toNat + 2 ^ 128 * crc32c (lineBytes payload) + 2 ^ 160 * tag +
    2 ^ 256 * payload.toNat)

/-- The job tag that frames and parcels carry: the loaded Reel's, 0 when none (Table 6-4). -/
def tagNow (s : State) : Nat :=
  match s.reel with
  | some r => loadedTag r
  | none => 0

/-- A CARRIER. -/
def carrier (s : State) : BitVec 2304 := mkParcel 2 false false 0 0 0 0 0 0 (tagNow s) 0

/-- A LATE marker. -/
def lateMarker (s : State) (block : Bool) (pidx dst entry ev rx : Nat) (env : BitVec 16) : BitVec 2304 :=
  mkParcel 3 false block pidx dst entry ev rx env (tagNow s) 0

/-- The LATE marker that stands for a parcel with a readable header (R118). -/
def lateOf (s : State) (p : BitVec 2304) : BitVec 2304 :=
  lateMarker s (pBlock p) (pPidx p) (pDst p) (pEntry p) (pEvent p) (pRx p) (pEnv p)

/-- The LATE marker that stands for an arrival with an unreadable header (R118). -/
def lateLost (s : State) (pidx : Nat) : BitVec 2304 := lateMarker s false pidx 0 0 0 0 0

/-- A parcel as it leaves a port: the fields of the hop, with the confirm where there is one (R118, R123). -/
def depart (s : State) (p pos : Nat) (conf : Option (BitVec 10 × Bool)) (x : BitVec 2304) : BitVec 2304 :=
  let n0 := withBits (withBits x.toNat 16 16 0) 5 2 0
  let n1 := match conf with
    | some (m, v) => withBits (withBits n0 16 10 m.toNat) 5 2 (1 + 2 * flag v)
    | none => n0
  let n2 := withBits (withBits (withBits (withBits n1 32 16 (selfId s).toNat) 48 8 p) 56 8 pos) 96 16 (cnt s)
  BitVec.ofNat 2304 (withBits n2 224 32 (headCrc n2))

/-! ## SLOT_START and the tail (Table 6-4) -/

/-- SLOT_START of the present slot. -/
def slotStartOf (s : State) (mask : Nat) : EnvBits :=
  let n := 0x33 + 2 ^ 8 * mask + 2 ^ 24 * (cnt s % 2 ^ 16) + 2 ^ 40 * tagNow s
  BitVec.ofNat 256 (withBits n 224 32 (headCrc n))

def ssMask (x : EnvBits) : Nat := fld x 8 16
def ssJobTag (x : EnvBits) : Nat := fld x 40 32

/-- Whether a block is a SLOT_START whose CRC checks (R120). -/
def slotStartOk (x : EnvBits) : Bool := fld x 0 8 == 0x33 && headCrc x.toNat == fld x 224 32

/-- A signed number of ps in 32 bits. -/
def ps32 (v : Int) : Nat := (v % (2 ^ 32 : Int)).toNat

/-- The BRIDLE field, tail bytes [39:8] (Table 7-1). -/
def bridleField (b : Bridle) (v : Port) : List Byte :=
  leBytes 2 (rootIdOf b).toNat ++ leBytes 1 (if b.st = .unsynced then 0xFF else b.hops) ++ leBytes 1 (syncCode b.st) ++
  leBytes 2 (b.committed.id.toNat + 2 ^ 15 * flag b.committed.idValid) ++
  leBytes 4 (match v.phase with | some m => ps32 m | none => 0x80000000) ++
  leBytes 1 (parentPort b) ++ leBytes 21 0

/-- The REPLAY field, tail bytes [71:40], of a notice (Table 9-2). -/
def replayField (n : Notice) : List Byte :=
  leBytes 1 (1 + 2 * flag n.final + 4 * (n.attempt % 4) + 16 * flag n.fault) ++ [n.index] ++ leBytes 2 n.origin.toNat ++
  leBytes 2 n.code.toNat ++ leBytes 2 n.unit.toNat ++ leBytes 4 n.step ++ leBytes 8 n.detect ++ leBytes 8 n.applyAt ++
  leBytes 1 (n.token % 64) ++ leBytes 3 0

/-- Whether a job runs in the slot that begins: it runs, or its launch fires at this boundary (R150). -/
def runsSlot (s : State) : Bool := running s || (armed s && s.job.start == cnt s)

/-- The level of the slot that begins (R148). -/
def slotLevel (s : State) : Nat :=
  match s.power.decision with
  | some d => if d.applyAt = cnt s then d.level else s.pacer.vent
  | none => s.pacer.vent

/-- The decision that is held and not yet applied (R235). -/
def heldDecision (s : State) : Option Decision := s.power.decision.filter (fun d => decide (cnt s < d.applyAt))

/-! ## The PACE field -/

/-- UPMAX for a ramp in W/ms and a compute dynamic power at Vent level 0 in mW (R232). -/
def upMaxOf (ramp dynMw : Nat) : Nat := if dynMw = 0 then 48 else max 1 (min 48 (64000 * ramp / dynMw))

/-- The aggregates at a launch: no request of the job yet, and the allowed raise of the figures last known (R233). -/
def launchPace (w : Power) : Power :=
  let up := upMaxOf w.committed.ramp.toNat w.model.dynMw
  { w with epoch := 0, req := 0, limiter := 0, upMax := up, aggLevel := 0, aggUpMax := up, seenLeader := none,
           jobEnergy := 0, jobSampling := false }

/-- The PACE field, tail bytes [103:72], on a port (Table 11-1, R233, R235). -/
def paceField (s : State) (p : Nat) : List Byte :=
  let w := if running s then s.power else launchPace s.power
  let req := runsSlot s && reelPort s p
  let dec := heldDecision s
  leBytes 1 (flag dec.isSome + 2 * flag req) ++ leBytes 1 (slotLevel s) ++
  (match dec with
    | some d => leBytes 1 d.level ++ leBytes 2 d.leader.toNat ++ leBytes 2 d.epoch.toNat ++ leBytes 8 d.applyAt
    | none => leBytes 13 0) ++
  (if req then leBytes 1 w.aggLevel ++ leBytes 1 w.aggUpMax ++ leBytes 2 w.epoch.toNat else leBytes 4 0) ++ leBytes 13 0

/-- The notice that a job port's tail carries: held, and its apply-at count still ahead (R186, R187). -/
def noticeSent (s : State) (p : Nat) : Option Notice :=
  if running s && reelPort s p then s.job.notice.filter (fun n => decide (cnt s < n.applyAt)) else none

/-- The tail of a port's frame in the present slot. -/
def tailOf (s : State) (p : Nat) : BitVec 992 :=
  let body := leBytes 8 (cnt s) ++ bridleField s.bridle (portOf s p) ++
    (match noticeSent s p with | some n => replayField n | none => leBytes 32 0) ++ paceField s p ++ leBytes 16 0
  BitVec.ofNat 992 (ofLe (body ++ leBytes 4 (crc32c body)))

/-- Whether a tail's TCRC checks. -/
def tailOk (t : BitVec 992) : Bool := crc32c (leBytes 120 t.toNat) == fld t 960 32

def tCount (t : BitVec 992) : Nat := fld t 0 64
def tRoot (t : BitVec 992) : BitVec 11 := t.extractLsb' 64 11
def tHops (t : BitVec 992) : Nat := fld t 80 8
def tState (t : BitVec 992) : Nat := fld t 88 2
def tOwn (t : BitVec 992) : BitVec 11 := t.extractLsb' 96 11
def tIdValid (t : BitVec 992) : Bool := bit t 111
def tParent (t : BitVec 992) : Nat := fld t 144 6

/-- PHASE of a tail: the sender's measurement, none before its first. -/
def tPhase (t : BitVec 992) : Option Int :=
  let v := fld t 112 32
  if v = 0x80000000 then none else some (if v < 2 ^ 31 then (v : Int) else (v : Int) - 2 ^ 32)

/-- The notice that a tail carries (Table 9-2). -/
def tNotice (t : BitVec 992) : Option Notice :=
  if bit t 320 then
    some { final := bit t 321, fault := bit t 324, attempt := fld t 322 2, index := t.extractLsb' 328 8,
           origin := t.extractLsb' 336 11, code := t.extractLsb' 352 16, unit := t.extractLsb' 368 16, step := fld t 384 32,
           detect := fld t 416 64, applyAt := fld t 480 64, token := fld t 544 6 }
  else none

def tLevel (t : BitVec 992) : Nat := fld t 584 6

/-- The decision that a tail carries (Table 11-1). R9 bounds a level to 48; the spec gives a receiver nothing to do about a field of 49
to 63 in LEVEL, DEC_LEVEL or REQ_LEVEL, and the model takes it as it stands (log 78). -/
def tDecision (t : BitVec 992) : Option Decision :=
  if bit t 576 then
    some { level := fld t 592 6, leader := t.extractLsb' 600 11, epoch := t.extractLsb' 616 16, applyAt := fld t 632 64 }
  else none

/-- The request that a tail carries: level, UPMAX and epoch (Table 11-1). -/
def tRequest (t : BitVec 992) : Option (Nat × Nat × BitVec 16) :=
  if bit t 577 then some (fld t 696 6, fld t 704 8, t.extractLsb' 712 16) else none

/-! ## The frame of a slot (R111, R123) -/

/-- The mask of positions. -/
def maskOf (l : List Nat) : Nat := ((List.range 10).filter (fun k => l.contains k)).foldl (fun a k => a + 2 ^ k) 0

/-- The confirm that position 0 carries for the slot two before (R123): the mask, and whether every check held. -/
def confirmOf (s : State) (v : Port) : Option (BitVec 10 × Bool) :=
  (v.provSent.find? (fun x => x.1 + 2 == cnt s)).map
    (fun x => (x.2.1, !x.2.2.any (fun y => (tileOf s y.1).badLines.contains y.2)))

/-- Whether a CARRIER may take position 0: not in the empty frames that follow a held notice (R188). -/
def carrierAllowed (s : State) : Bool := s.job.notice.isNone || decide (cnt s ≤ s.job.noticeAt + 1)

/-- The staged parcels with the CARRIER that a confirm needs (R123), in ascending positions. -/
def withCarrier (s : State) (conf : Option (BitVec 10 × Bool)) (l : List Staged) : List Staged :=
  if conf.isSome && !(l.any (fun x => x.pos == 0)) && carrierAllowed s then
    { pos := 0, parcel := carrier s, prov := false, src := none } :: l
  else l

/-- The test parcels of a frame in MEASURING (R126). -/
def testParcels (s : State) (p : Nat) : List (Nat × BitVec 2304) :=
  (List.range 10).map (fun k => (k, Config.testParcel (cnt s) p k))

/-- What a frame of parcels needs. -/
def frameOf (s : State) (p : Nat) (ps : List (Nat × BitVec 2304)) : TxFrame :=
  { slotStart := slotStartOf s (maskOf (ps.map (fun x => x.1))), parcels := ps, tail := tailOf s p }

/-- A port that has sent the slot's frame of its staged parcels, and keeps what left provisional (R123). -/
def sendStaged (s : State) (p : Nat) (v : Port) : Port :=
  let conf := confirmOf s v
  let l := withCarrier s conf v.staged
  let ps := l.map (fun x => (x.pos, depart s p x.pos (if x.pos = 0 then conf else none) x.parcel))
  let prov := l.filter (fun x => x.prov)
  let kept := v.provSent.filter (fun x => decide (cnt s < x.1 + 2))
  let entry := if prov.isEmpty then []
    else [(cnt s, BitVec.ofNat 10 (maskOf (prov.map (fun x => x.pos))), prov.filterMap (fun x => x.src))]
  { v with staged := [], sent := some (frameOf s p ps), provSent := kept ++ entry }

/-- FRAME_TRANSMIT on a port (R111): in MEASURING a synchronised package fills every position with test parcels (R126). -/
def transmit (p : Nat) (s : State) : State :=
  let v := portOf s p
  if framing v then
    if v.st = .measuring ∧ s.bridle.st = .synced then
      setPort p { v with staged := [], sent := some (frameOf s p (testParcels s p)) } s
    else setPort p (sendStaged s p v) s
  else if v.sent.isSome ∨ v.staged ≠ [] then setPort p { v with staged := [], sent := none } s else s

/-- Every port's frame of the present slot. -/
def transmitAll (s : State) : State := (List.range (portCount s)).foldl (fun a p => transmit p a) s

end Sys2Proof.Machine
end

