-- ==== Sys2Proof/Machine/Sync.lean ====
section
/-! DEFINITION. The synchronisation tree: candidates, parents, adoption and loss of the count (R136 to R144), and the mark
(R153). -/

namespace Sys2Proof.Machine

def updBridle (f : Bridle → Bridle) (s : State) : State := { s with bridle := f s.bridle }

/-- A bit of BRIDLE_EVENTS sets. -/
def bridleEvent (k : Nat) (s : State) : State :=
  updBridle (fun b => { b with events := b.events ||| BitVec.ofNat 8 (2 ^ k) }) s

/-- A fault of the Bridle unit (R156). -/
def bridleFault (code index : Nat) (s : State) : State := raiseFault code 0xC000 index 0 s

/-- The index that names a port, 0xFF for none. -/
def portIndex (p : Option Nat) : Nat := p.getD 0xFF

/-! ## Padding class and theta -/

/-- The class to which a port pads delivery (R127). -/
def padClass (s : State) (p : Nat) : Nat :=
  match s.reel with
  | some r => if (jobPorts r).contains p then topoClass r p else if (portOf s p).cls = 0 then 4 else (portOf s p).cls
  | none => if (portOf s p).cls = 0 then 4 else (portOf s p).cls

/-- Twice theta-hat to the neighbour on a port, in ps, once both ends have measured (R140). -/
def theta2Of (s : State) (p : Nat) : Option Int :=
  match (portOf s p).phase, (portOf s p).tail.bind tPhase with
  | some m, some n => some (m - n)
  | _, _ => none

/-- Whether theta-hat to the neighbour on a port is at most 1 ns (R143). -/
def closeTo (s : State) (p : Nat) : Bool :=
  match theta2Of s p with
  | some t => decide (t.natAbs ≤ 2000)
  | none => false

/-! ## Candidates (R137, R138, R141) -/

/-- The tails last delivered on ports in MEASURING or TRAINED, in port order. -/
def heard (s : State) : List (Nat × BitVec 992) :=
  (List.range (portCount s)).filterMap (fun p =>
    if portUp (portOf s p) then (portOf s p).tail.map (fun t => (p, t)) else none)

/-- Whether a neighbour advertises a root. -/
def advertises (t : BitVec 992) : Bool := tState t != 0 && tHops t != 0xFF

/-- A neighbour that a follower may follow, but for its hops (R137). -/
def followable (s : State) (p : Nat) (t : BitVec 992) : Bool := advertises t && tParent t != (portOf s p).farPort.toNat

/-- A neighbour that may be a follower's parent: the follower's own HOPS would not pass 15 (R137). -/
def candidate (s : State) (p : Nat) (t : BitVec 992) : Bool := followable s p t && decide (tHops t < 15)

/-- Whether one candidate ranks before another: lower root, fewer hops, lower port. -/
def ranksParent (a b : Nat × BitVec 992) : Bool :=
  if tRoot a.2 != tRoot b.2 then decide ((tRoot a.2).toNat < (tRoot b.2).toNat)
  else if tHops a.2 != tHops b.2 then decide (tHops a.2 < tHops b.2) else decide (a.1 < b.1)

/-- The first of a list in the order of parents. -/
def firstParent (l : List (Nat × BitVec 992)) : Option (Nat × BitVec 992) :=
  l.foldl (fun a x => match a with | some y => if ranksParent x y then some x else some y | none => some x) none

/-- Whether the package holds the count of its own root, as a root does that is synchronised or aligns to its own count (R141). -/
def ownCount (s : State) : Bool := s.bridle.committed.root && s.bridle.rootId == selfId s

/-- Whether a package that looks for a parent has a count of that parent's fabric to keep (R143): a root's own count is not (R138). -/
def keepsCount (s : State) : Bool := (s.bridle.st == .synced || s.bridle.st == .holdover) && !ownCount s

/-- The candidates of the package; one that keeps a count leaves out a neighbour it has no theta-hat for yet (log 36). -/
def candidates (s : State) : List (Nat × BitVec 992) :=
  (heard s).filter (fun x => candidate s x.1 x.2 && (!keepsCount s || (theta2Of s x.1).isSome))

/-- Whether every neighbour that the package may follow is too many hops from the root (R137). -/
def allTooFar (s : State) : Bool :=
  (heard s).any (fun x => followable s x.1 x.2) && (heard s).all (fun x => !candidate s x.1 x.2)

/-- A neighbour's tail that shows an identity as its sender's own. -/
def showsId (id : BitVec 11) (t : BitVec 992) : Bool := tIdValid t && tOwn t == id

/-- Whether a neighbour's tail shows the package's own identity (R138). -/
def idClash (s : State) : Bool := (heard s).any (fun x => showsId (selfId s) x.2)

/-- Whether a root hears a root with a lower identity (R138). -/
def rootClash (s : State) : Bool :=
  s.bridle.committed.root && (heard s).any (fun x => advertises x.2 && decide ((tRoot x.2).toNat < (selfId s).toNat))

/-- The lowest port whose neighbour holds the root's own count (R141). -/
def ownCandidate (s : State) : Option (Nat × BitVec 992) :=
  (heard s).find? (fun x => (tState x.2 == 2 || tState x.2 == 3) && tRoot x.2 == selfId s)

/-! ## Changes of state -/

/-- A port whose neighbour has delivered nothing since the package became UNSYNCED (R141), but that a tail with the package's own
identity stays known, since the package stays UNSYNCED while its neighbour shows it (R138). -/
def unheardBut (id : BitVec 11) (v : Port) : Port := { portUnheard v with tail := v.tail.filter (showsId id) }

/-- The package is not synchronised, and has heard nothing since (R136 to R138, R141); a job that runs has lost its count (R142,
Table 7-3). -/
def toUnsynced (s : State) : State :=
  if s.bridle.st = .unsynced then s
  else
    let s1 := if running s then bridleFault 0x0701 0xFF s else s
    { updBridle bridleLost s1 with ports := mapVals Port.off (unheardBut (selfId s1)) s1.ports }

/-- ACQUIRING from a parent; while a job runs the fault instead (R142, R143). -/
def toAcquiring (p : Nat) (root : BitVec 11) (hops : Nat) (s : State) : State :=
  if running s then bridleFault 0x0701 p s
  else updBridle (fun b => { bridleTo .acquiring b with parent := some p, rootId := root, hops := hops }) s

/-- A count to be adopted again from the parent the package has; a root without one starts anew (R143, R144, R235). -/
def reacquire (s : State) : State :=
  match s.bridle.parent with
  | some p => toAcquiring p s.bridle.rootId s.bridle.hops s
  | none => toUnsynced s

/-- SYNCED left for ACQUIRING after a late decision outside a job (R235); a root without a parent has none there either. -/
def leaveSynced (s : State) : State :=
  if s.bridle.st = .synced then
    match s.bridle.parent with
    | some p => toAcquiring p s.bridle.rootId s.bridle.hops s
    | none => updBridle (bridleTo .acquiring) s
  else s

/-- HOLDOVER (R143): no parent, the count goes on. -/
def toHoldover (s : State) : State :=
  if s.bridle.st = .holdover then s else updBridle (fun b => { bridleTo .holdover b with parent := none }) s

/-- A parent taken with the count kept. -/
def keepParent (x : Nat × BitVec 992) (s : State) : State :=
  updBridle (fun b => { b with parent := some x.1, rootId := tRoot x.2, hops := tHops x.2 + 1 }) s

/-- Whether the tail last delivered on a port agrees with the package's count (R144). -/
def countAgrees (s : State) (p : Nat) : Bool :=
  match (portOf s p).tail with
  | some t => tCount t + padClass s p == (portOf s p).tailAt
  | none => false

/-- A follower's parent (R137, R143); a package whose HOPS would pass 15 is UNSYNCED. A root that follows a lower root adopts that
root's count (R138). -/
def followBest (s : State) : State :=
  let b := s.bridle
  match firstParent (candidates s) with
  | none =>
    match b.st with
    | .synced => if allTooFar s then toUnsynced s else toHoldover s
    | .holdover => if allTooFar s then toUnsynced s else s
    | .acquiring => toUnsynced s
    | .unsynced => s
  | some x =>
    if b.parent = some x.1 ∧ !ownCount s then keepParent x s
    else if b.st = .synced ∧ keepsCount s ∧ closeTo s x.1 then keepParent x s
    else if b.st = .holdover ∧ keepsCount s ∧ closeTo s x.1 ∧ countAgrees s x.1 then updBridle (bridleTo .synced) (keepParent x s)
    else toAcquiring x.1 (tRoot x.2) (tHops x.2 + 1) s

/-- A root's place (R141): SYNCED without a parent, or aligning to a neighbour that holds its own count. One that left SYNCED by R235
takes such a neighbour as one that is UNSYNCED does, and one that followed a lower root and hears it no longer is UNSYNCED, without a
HOLDOVER on a count that is not its own (log 36). -/
def rootPlace (s : State) : State :=
  let b := s.bridle
  match b.st with
  | .synced => if b.parent.isNone then s else toUnsynced s
  | .acquiring =>
    match b.parent, ownCandidate s with
    | none, some x => toAcquiring x.1 (selfId s) 0 s
    | none, none => s
    | some p, o => if o.any (fun x => x.1 == p) then s else toUnsynced s
  | .holdover => toUnsynced s
  | .unsynced =>
    match ownCandidate s with
    | some x => toAcquiring x.1 (selfId s) 0 s
    | none => s

/-- A package that hears its own identity is UNSYNCED; a job that runs has lost its count (R138, R142; Table 7-3). -/
def clashed (s : State) : State := toUnsynced (bridleEvent 5 s)

/-- The package's place in the tree, from the tails last delivered (R136 to R138, R141, R143). -/
def elect (s : State) : State :=
  if !s.bridle.committed.idValid then toUnsynced s
  else if idClash s then clashed s
  else if rootClash s then followBest (bridleEvent 6 s)
  else if s.bridle.committed.root then rootPlace s
  else followBest s

/-! ## Trimming (R140) -/

/-- The trim of a slot, in steps of 7.8125 ps: theta-hat over the step, to the nearest, within 4 steps. -/
def trimOf (t2 : Int) : Int := max (-4) (min 4 ((16 * t2 + 125) / 250))

/-- A follower that has adopted a count. -/
def aligning (b : Bridle) : Bool := b.parent.isSome && (b.st == .synced || (b.st == .acquiring && b.adopted))

/-- The trims that a HOLDOVER averages: those of the last 1,024 slots (log 36). -/
def keptTrims : Nat := 1024

/-- The last averaged trim, on which a package in HOLDOVER counts on, within the 4 steps of R140 (R143). -/
def heldTrim (b : Bridle) : Int := max (-4) (min 4 (Config.averagedTrim b.trimmed))

/-- Steps of 7.8125 ps added to the pacer's phase. -/
def addTrim (k : Int) (s : State) : State := { s with pacer := { s.pacer with trims := s.pacer.trims + k } }

/-- What a slot aligned to a parent records: twice theta-hat, the quiet count, and the trim. -/
def noteTheta (t : Int) (b : Bridle) : Bridle :=
  { b with theta2 := t, quiet := if t.natAbs ≤ 100 then b.quiet + 1 else 0, trimmed := (trimOf t :: b.trimmed).take keptTrims }

/-- SYNC_TRIM (R140, R143): theta-hat, the trim, the quiet count, and the loss of synchronisation above 1 ns. In HOLDOVER the last
averaged trim goes on. -/
def syncSlot (s : State) : State :=
  match s.bridle.parent with
  | none => if s.bridle.st = .holdover then addTrim (heldTrim s.bridle) s else s
  | some p =>
    match if aligning s.bridle then theta2Of s p else none with
    | none => s
    | some t =>
      let s1 := addTrim (trimOf t) (updBridle (noteTheta t) s)
      if 2000 < t.natAbs then reacquire s1 else s1

/-- SYNCED_ENTRY (R140): after 1,024 quiet slots; a root that aligned to its own count keeps no parent (R141). -/
def execSyncedEntry (s : State) : Host.Outcome State Fault Refusal :=
  .next (
    let b := s.bridle
    if s.pacer.running && b.st == .acquiring && aligning b && decide (1024 ≤ b.quiet) then
      updBridle (fun b =>
        let b1 := bridleTo .synced b
        if b.committed.root ∧ b.rootId = b.committed.id then { b1 with parent := none, hops := 0 } else b1) s
    else s)

/-! ## Counts and their grid (R229) -/

/-- The place of the present boundary on the grid of 7.8125 ps: rounded from the boundary at which the level took effect, a tie
to the earlier point, then moved by the trims (R229). -/
def boundaryGrid (p : Pacer) (count : Nat) : Int :=
  let k := count - p.baseCount
  let d := 64 - p.vent
  (p.baseGrid : Int) + ((2 * (k * 262144) + d - 1) / (2 * d) : Nat) + p.trims

/-- The pacer at a new level from the present boundary (R229, R251). -/
def levelFrom (count level : Nat) (p : Pacer) : Pacer :=
  { setVent count (boundaryGrid p count).toNat level p with trims := 0 }

/-! ## Adoption (R141, R142, R236) -/

/-- The level that a package takes with its parent's count (R236). -/
def parentLevel (s : State) (p : Nat) : Nat :=
  match (portOf s p).tail with
  | some t => tLevel t
  | none => s.pacer.vent

/-- The count of the present boundary when the parent's SLOT_START for count `c` arrives: half the round trip has passed since
the parent's boundary (R141). -/
def adoptedCount (c rttPs level : Nat) : Nat := c + rttPs * (64 - level) / 4096000

/-- An armed mark under a jump of the count (R153). -/
def markJump (new : Nat) (b : Bridle) : Bridle :=
  if b.markArmed ∧ b.committed.mark.toNat < new then { b with markArmed := false, events := b.events ||| 8 } else b

/-- A count adopted from a port (R141, R142, R236). -/
def adopt (c p : Nat) (s : State) : State :=
  let lvl := parentLevel s p
  let n := adoptedCount c (portOf s p).rttPs lvl
  let s1 := updPort p (fun v => { v with phase := none }) (disarm s)
  let b := markJump n s1.bridle
  let s2 := { s1 with bridle := { b with count := n, adopted := true, quiet := 0, theta2 := 0, trimmed := [], events := b.events ||| 2 },
                      pacer := recordVent n lvl { setVent n (boundaryGrid s1.pacer s1.bridle.count).toNat lvl s1.pacer with
                        trims := 0 },
                      job := { s1.job with notice := none },
                      power := { s1.power with decision := none, heard := [] } }
  capSpacing s2

/-- COUNT_ADOPT (R141, R142): in ACQUIRING, and never while a job runs. -/
def execCountAdopt (c : Nat) (s : State) : Host.Outcome State Fault Refusal :=
  .next (
    match s.pacer.running && s.bridle.st == .acquiring && !s.bridle.adopted, s.bridle.parent with
    | true, some p => if running s then bridleFault 0x0701 p s else adopt c p s
    | _, _ => s)

/-- Whether a root may decide that no neighbour holds its count (R141). -/
def seedDue (s : State) : Bool :=
  let b := s.bridle
  s.pacer.running && (b.st == .unsynced || (b.st == .acquiring && b.parent.isNone)) && b.committed.root && b.committed.idValid &&
  !idClash s && !rootClash s &&
  (ownCandidate s).isNone &&
  (List.range (portCount s)).all (fun p =>
    (portOf s p).st != .training && (!portUp (portOf s p) || (portOf s p).tailSeen))

/-- ROOT_SEED_LOAD (R141): the root loads the committed seed and is SYNCED at once. -/
def execRootSeedLoad (s : State) : Host.Outcome State Fault Refusal :=
  .next (if seedDue s then
    let n := s.bridle.committed.seed.toNat
    { s with
        bridle := { markJump n s.bridle with st := .synced, count := n, parent := none, hops := 0, quiet := 0,
                                             rootId := selfId s },
        pacer := { setVent n (boundaryGrid s.pacer s.bridle.count).toNat s.pacer.vent s.pacer with trims := 0 },
        power := { s.power with heard := [] } }
  else s)

/-- PARENT_LOST (R143): the parent port has left MEASURING and TRAINED. -/
def execParentLost (s : State) : Host.Outcome State Fault Refusal :=
  .next (
    match s.bridle.parent with
    | some p => if s.pacer.running && !portUp (portOf s p) then elect s else s
    | none => s)

/-- HOLDOVER_TIMEOUT (R143): HOLDOVER has lasted 1 ms while a job runs. -/
def execHoldoverTimeout (s : State) : Host.Outcome State Fault Refusal :=
  .next (if s.bridle.st = .holdover ∧ running s then bridleFault 0x0701 0xFF s else s)

/-- BRIDLE_MARK_FIRE (R153): the count equals the armed mark; the time base is captured and BRIDLE_MARK posted. -/
def execBridleMarkFire (s : State) : Host.Outcome State Fault Refusal :=
  .next (
    let b := s.bridle
    if s.pacer.running && b.markArmed && b.committed.mark.toNat == b.count then
      post 0x07A1 (leBytes 6 s.tb.sec ++ leBytes 4 s.tb.ns)
        { s with bridle := { b with markArmed := false, markSec := s.tb.sec, markNs := s.tb.ns, events := b.events ||| 4 } }
    else s)

end Sys2Proof.Machine
end

