-- ==== Sys2Proof/Machine/Pace.lean ====
section
/-! DEFINITION. What the PACE field does at its receiver (R233, R235). -/

namespace Sys2Proof.Machine

/-- A fault of the power controller. -/
def paceFault (code index : Nat) (s : State) : State := raiseFault code 0xC001 index 0 s

/-- APPLY_LATE (R147), for what arrived on a port. -/
def applyLate (p : Nat) (s : State) : State := bridleFault 0x0703 p s

/-- A decision held: the aggregates start from the package's own values under the new epoch (R233). -/
def holdDecision (d : Decision) (w : Power) : Power :=
  { w with decision := some d, epoch := d.epoch, aggLevel := w.req, aggUpMax := w.upMax,
           heard := put d.leader.toNat d.applyAt w.heard }

/-- Whether a decision has been heard before: the apply-at counts of one leader's decisions rise (R234). -/
def heardBefore (w : Power) (d : Decision) : Bool := decide (d.applyAt ≤ look 0 d.leader.toNat w.heard)

/-- Whether a decision replaces the one that is held (R235). -/
def outranks (w : Power) (d : Decision) : Bool := w.decision.all (fun h => decide (h.applyAt < d.applyAt))

/-- A request received on a job port folds into the aggregates of its epoch (R233). -/
def foldRequest (p : Nat) (t : BitVec 992) (s : State) : State :=
  match running s && reelPort s p, tRequest t with
  | true, some (level, up, epoch) =>
    if epoch = s.power.epoch then
      { s with power := { s.power with aggLevel := max s.power.aggLevel level, aggUpMax := min s.power.aggUpMax up } }
    else s
  | _, _ => s

/-- A decision received while a job runs (R147, R235). -/
def jobDecision (p : Nat) (d : Decision) (s : State) : State :=
  if s.reel.any (fun r => leaderOf r != d.leader.toNat) then paceFault 0x0B05 0xFF s
  else if heardBefore s.power d then s
  else if d.applyAt ≤ cnt s then applyLate p s
  else if outranks s.power d then { s with power := holdDecision d s.power } else s

/-- A second leader seen outside a job sets PWR_EVENTS.VENT_CONFLICT (R235). -/
def seeLeader (d : Decision) (s : State) : State :=
  let clash := s.power.seenLeader.any (fun l => l != d.leader)
  { s with power := { s.power with seenLeader := some d.leader,
                                   events := if clash then s.power.events ||| 8 else s.power.events } }

/-- A decision received outside a job: a late one costs the count and applies at the next boundary (R235). -/
def idleDecision (d : Decision) (s : State) : State :=
  let s1 := seeLeader d s
  if heardBefore s1.power d then s1
  else if d.applyAt ≤ cnt s1 then
    let s2 := leaveSynced s1
    { s2 with power := { holdDecision d s2.power with decision := some { d with applyAt := cnt s1 + 1 } } }
  else if outranks s1.power d then { s1 with power := holdDecision d s1.power } else s1

/-- The PACE field of a tail at its receiver. -/
def hearPace (p : Nat) (t : BitVec 992) (s : State) : State :=
  let s1 := foldRequest p t s
  match tDecision t with
  | some d => if running s1 then jobDecision p d s1 else idleDecision d s1
  | none => s1

end Sys2Proof.Machine
end

