-- ==== Sys2Proof/Machine/Deliver.lean ====
section
/-! DEFINITION. What arrives at a tile (R73 to R75, R80, R95) and the delivery of a frame (R120 to R122, R124, R144, R187). -/

namespace Sys2Proof.Machine

/-! ## Arrivals at a tile -/

/-- A parcel as it reaches a tile. -/
structure Arrival where
  dst : Nat
  entry : Nat
  event : Nat
  rx : Nat
  pidx : Nat
  block : Bool
  late : Bool
  prov : Bool
  data : LineBits
  env : BitVec 16
  deriving DecidableEq, Repr

/-- A delivery to an entry that still holds a parcel: INBOX_COLLISION for the second of one slot, else INBOX_OVERRUN; the entry keeps
its bytes (R75). -/
def collide (a : Arrival) (e : InEntry) (s : State) : State :=
  tileFault (if e.at_ = cnt s then 0x0401 else 0x0402) a.dst a.entry 0
    (updTile a.dst (fun t => { t with inbox := put a.entry { e with at_ := cnt s } t.inbox }) s)

/-- The inbox entry of an arrival (R75, R80). -/
def fillEntry (a : Arrival) (s : State) : State :=
  match find? a.entry (tileOf s a.dst).inbox with
  | some e => collide a e s
  | none =>
    let e : InEntry :=
      { late := a.late, at_ := cnt s, data := a.data, side := sideOf a.data,
        pdue := if a.prov && !a.late then s.job.slot + 2 else 0 }
    updTile a.dst (fun t => { t with inbox := put a.entry e t.inbox }) s

/-- An event input counts an arrival (R74). -/
def countEvent (dst k : Nat) (s : State) : State :=
  let v := eventOf (tileOf s dst) k
  if 255 ≤ v then tileFault 0x0405 dst k 0 s else updTile dst (setEvent k (v + 1)) s

/-- A gathered block with a parcel's line and Envelope bytes (R95). -/
def RxBlock.add (b : RxBlock) (pidx : Nat) (data : LineBits) (env : BitVec 16) : RxBlock where
  payload := BitVec.ofNat 32768 (withBits b.payload.toNat (2048 * pidx) 2048 data.toNat)
  env := BitVec.ofNat 256 (withBits b.env.toNat (8 * envPlace pidx) 16 env.toNat)

/-- Whether a gathered block passes its checks: CRC, residues, OWN, and TAG against the inbound block entry (R95, R114). -/
def rxOk (s : State) (dst rx : Nat) (b : RxBlock) : Bool :=
  envOk b.env (pageBytes b.payload) &&
  (match s.reel with
    | some r =>
      match routeAt r dst s.job.phase rx with
      | some e => rInbound e && rBlock e && rTag e == eTag b.env
      | none => false
    | none => false)

/-- A parcel of a block is gathered, and the last one has the block checked; R95 gives ENVELOPE_BAD no TOKEN here, and the model puts
0, the first token of the slot of delivery (log 75). -/
def gatherRx (a : Arrival) (s : State) : State :=
  if !a.block || a.late then s
  else
    let b := ((find? a.rx (tileOf s a.dst).rx).getD { payload := 0, env := 0 }).add a.pidx a.data a.env
    if a.pidx = 15 then
      let s1 := updTile a.dst (fun t => { t with rx := erase a.rx t.rx }) s
      if rxOk s a.dst a.rx b then s1 else tileDetect 0x0483 a.dst a.entry 0 s1
    else updTile a.dst (fun t => { t with rx := put a.rx b t.rx }) s

/-- A parcel reaches a tile: entry, event input, block check, and the work counter (R195). -/
def arrive (a : Arrival) (s : State) : State :=
  if a.dst < 1024 then
    let s1 := gatherRx a (countEvent a.dst a.event (fillEntry a s))
    if a.late then s1 else { s1 with work := { s1.work with parcelsProv := s1.work.parcelsProv + 1 } }
  else s

/-- Parcels and signals between tiles of the package that are due (R73). -/
def arriveLocal (m : LocalMsg) (s : State) : State :=
  match m.parcel with
  | none => if m.dst < 1024 then countEvent m.dst m.event s else s
  | some (p, e) =>
    arrive { dst := m.dst, entry := if rBlock e then (rEntry e + p.pidx) % 16 else rEntry e, event := m.event, rx := rRx e,
             pidx := p.pidx, block := rBlock e, late := false, prov := false, data := p.payload, env := p.env } s

/-- The messages that are due in the present slot reach their tiles; a package that holds a notice delivers none. -/
def deliverLocal (s : State) : State :=
  let due := s.localq.filter (fun m => m.due == cnt s)
  let s1 := { s with localq := s.localq.filter (fun m => decide (cnt s < m.due)) }
  if running s && !haltedJob s then due.foldl (fun a m => arriveLocal m a) s1 else s1

/-! ## Reading a frame -/

/-- An event of a port: code and INDEX. The one reported has the lowest code, and of those the lowest index (R84, R122). -/
def firstEvent (evs : List Ev) : Option Ev :=
  evs.foldl (fun a e =>
    match a with
    | some x => if e.1 < x.1 ∨ (e.1 = x.1 ∧ e.2 < x.2) then some e else some x
    | none => some e) none

/-- A port's event is reported. -/
def portEvent (p : Nat) (evs : List Ev) (s : State) : State :=
  match firstEvent evs with
  | none => s
  | some e => if isFaultCode e.1 then raiseFault e.1 (portUnit p) e.2 0 s else raiseDetect e.1 (portUnit p) e.2 0 s

/-- The receive entries of a port in the step slot that runs. -/
def expected (s : State) (p : Nat) : List (BitVec 256) :=
  match running s, s.reel with
  | true, some r => rxEntries r p s.job.phase s.job.pattern s.job.slot
  | _, _ => []

/-- The entry of a position. -/
def entryAt (es : List (BitVec 256)) (k : Nat) : Option (BitVec 256) := es.find? (fun e => xPos e == k)

/-- The parcel of a position, none when it overlaps an uncorrectable codeword. -/
def parcelAt (f : Frame) (k : Nat) : Option (BitVec 2304) := (f.positions.find? (fun x => x.1 == k)).bind (fun x => x.2)

/-- The positions that a MASK marks. -/
def marked (x : EnvBits) : List Nat := (List.range 10).filter (fun k => bit x (8 + k))

/-- The record of provisional positions whose confirm is due (R124). -/
def confirmDue (s : State) (v : Port) : Option (BitVec 10) :=
  (v.provRcvd.find? (fun x => x.1 + 2 == cnt s)).map (fun x => x.2)

/-- Whether position 0 carries a confirm. -/
def carriesConf (f : Frame) : Bool := (parcelAt f 0).any (fun x => parcelOk x && pConfValid x)

/-- What is read of a frame whose SLOT_START checks: it, the receive entries and the confirm that is due. -/
structure Reading where
  start : EnvBits
  entries : List (BitVec 256)
  due : Option (BitVec 10)
  deriving DecidableEq, Repr

/-- The positions that a slot expects (R120). -/
def expects (f : Frame) (g : Reading) (k : Nat) : Bool :=
  (entryAt g.entries k).isSome || (k == 0 && (g.due.isSome || ((marked g.start).contains 0 && carriesConf f)))

/-- XP_MISMATCH (R120). -/
def xpEvs (f : Frame) (g : Reading) : List Ev :=
  ((List.range 10).filter (fun k => (marked g.start).contains k != expects f g k)).map (fun k => (0x0605, k))

/-- Whether a DATA parcel disagrees with its receive entry or its delivery slot (R120). -/
def misrouted (s : State) (p : Nat) (e : BitVec 256) (x : BitVec 2304) : Bool :=
  pPidx x != xPidx e || (pDepSlot x + padClass s p) % 2 ^ 16 != cnt s % 2 ^ 16 ||
  (xKind e == 0 &&
    (pDst x != xUnit e || pEntry x != xEntry e || pEvent x != xEvent e || pRx x != xRoute e))

/-- What a test of a receive entry and a parcel that arrived whole finds at the positions of a frame. -/
def overPositions (f : Frame) (g : Reading) (bad : BitVec 256 → BitVec 2304 → Bool) (code : Nat) : List Ev :=
  ((marked g.start).filter (fun k =>
    match entryAt g.entries k, parcelAt f k with
    | some e, some x => parcelOk x && bad e x
    | _, _ => false)).map (fun k => (code, k))

/-- PROV_TRANSIT (R119): a provisional parcel that a transit entry names. -/
def transitFaults (f : Frame) (g : Reading) : List Ev := overPositions f g (fun e x => pProv x && xKind e == 1) 0x0603

/-- The faults of R120 for a frame. -/
def frameFaults (s : State) (p : Nat) (f : Frame) (g : Reading) : List Ev :=
  if ssJobTag g.start ≠ tagNow s then [(0x0606, 0xFF)]
  else xpEvs f g ++ overPositions f g (fun e x => pType x == 1 && misrouted s p e x) 0x0604

/-- The detections of a frame's positions (R121). -/
def positionDetects (f : Frame) (g : Reading) : List Ev :=
  (marked g.start).flatMap (fun k =>
    match parcelAt f k with
    | none => [(0x0681, k)]
    | some x => if !parcelOk x then [(0x0682, k)] else if pType x = 3 then [(0x0684, k)] else [])

/-- Whether position 0 is there but cannot be read. -/
def confirmLost (f : Frame) (g : Reading) : Bool :=
  (marked g.start).contains 0 && !(parcelAt f 0).any parcelOk

/-- The detections of the confirm (R124): where one is due, or where position 0 carries one. -/
def confirmDetects (f : Frame) (g : Reading) : List Ev :=
  let x := if (marked g.start).contains 0 then parcelAt f 0 else none
  let valid := x.any (fun y => parcelOk y && pConfValid y)
  if confirmLost f g || !(g.due.isSome || valid) then []
  else
    evsOf [(valid && !x.any pVerdict, (0x0683, 0)),
      (!valid || x.any (fun y => pConfMask y != g.due.getD 0), (0x0685, 0))]

/-- A veto keeps the tags that would clear at the end of its slot (R80). -/
def noteVeto (evs : List Ev) (s : State) : State :=
  if evs.any (fun e => e.1 == 0x0683) then { s with job := { s.job with vetoes := s.job.vetoes ++ [s.job.slot] } } else s

/-! ## The positions of a frame -/

/-- The parcel of a deliver entry at its tile; a LATE marker takes the entry and input of the receive entry (R121). -/
def arrivalOf (e : BitVec 256) (x : BitVec 2304) : Arrival where
  dst := xUnit e
  entry := xEntry e
  event := xEvent e
  rx := pRx x
  pidx := pPidx x
  block := pBlock x
  late := pType x == 3
  prov := pProv x
  data := pPayload x
  env := pEnv x

/-- What a transit entry's arrival sends on (R118). -/
def transitOf (s : State) (e : BitVec 256) (x : Option (BitVec 2304)) : BitVec 2304 :=
  match x with
  | some y =>
    if parcelOk y && pType y == 1 then y
    else if headerOk y && pType y != 2 then lateOf s y else lateLost s (xPidx e)
  | none => lateLost s (xPidx e)

/-- A transit arrival waits to be forwarded. -/
def keepTransit (p : Nat) (e : BitVec 256) (x : Option (BitVec 2304)) (s : State) : State :=
  { s with transits := s.transits ++ [{ port := p, pos := xPos e, at_ := cnt s, parcel := transitOf s e x }] }

/-- What a receive entry makes of its position. -/
def takePosition (p : Nat) (e : BitVec 256) (x : Option (BitVec 2304)) (s : State) : State :=
  if xKind e = 1 then keepTransit p e x s
  else
    match x with
    | some y => if parcelOk y && pType y != 2 then arrive (arrivalOf e y) s else s
    | none => s

/-- The positions that were delivered provisional (R124). -/
def provDelivered (f : Frame) (g : Reading) : List Nat :=
  (marked g.start).filter (fun k =>
    (entryAt g.entries k).any (fun e => xKind e == 0) &&
    (parcelAt f k).any (fun x => parcelOk x && pType x == 1 && pProv x))

/-- The records of a port, with those of this slot. -/
def recordProv (p : Nat) (f : Frame) (g : Reading) (s : State) : State :=
  let l := provDelivered f g
  if l.isEmpty then s
  else updPort p (fun v => { v with provRcvd := v.provRcvd ++ [(cnt s, BitVec.ofNat 10 (maskOf l))] }) s

/-- The positions of a frame whose SLOT_START checks are delivered. -/
def takePositions (p : Nat) (f : Frame) (g : Reading) (s : State) : State :=
  recordProv p f g
    (g.entries.foldl (fun a e =>
      takePosition p e (if (marked g.start).contains (xPos e) then parcelAt f (xPos e) else none) a) s)

/-- The transit entries of a slot whose SLOT_START is bad forward LATE markers (R118, R122). -/
def loseTransits (p : Nat) (es : List (BitVec 256)) (s : State) : State :=
  es.foldl (fun a e => if xKind e = 1 then keepTransit p e none a else a) s

/-- What a slot without a frame brings (R122). -/
def Frame.lost : Frame := { late := false, slotStart := none, positions := [], tail := none, phase := 0, corrected := 0 }

/-- Records whose slot has passed are dropped. -/
def dropRecords (p : Nat) (s : State) : State :=
  updPort p (fun v => { v with provRcvd := v.provRcvd.filter (fun x => decide (cnt s < x.1 + 2)) }) s

/-- Whether the positions of a frame began before the last rewind (R189). -/
def beforeRewind (s : State) (p : Nat) : Bool := decide (cnt s < s.job.rewound + padClass s p)

/-- The events of a slot without a SLOT_START that checks: every expected position, and a codeword that did not decode. -/
def badStartEvs (f : Frame) (es : List (BitVec 256)) (due : Option (BitVec 10)) : List Ev :=
  es.map (fun e => (0x0681, xPos e)) ++ evsOf [(due.isSome, (0x0681, 0)), (f.slotStart.isNone, (0x0681, 0xFF))]

/-- The positions of a frame outside a job: the checks of R121 alone. -/
def checkPositions (p : Nat) (f : Frame) (tailEvs : List Ev) (s : State) : State :=
  match f.slotStart.filter slotStartOk with
  | none => portEvent p (badStartEvs f [] none ++ tailEvs) s
  | some x => portEvent p (positionDetects f { start := x, entries := [], due := none } ++ tailEvs) s

/-- The faults of a frame at a port of the job: a held notice lifts those of R120 (R188), not PROV_TRANSIT (R119). -/
def portFaults (s : State) (p : Nat) (f : Frame) (g : Reading) (held : Bool) : List Ev :=
  if reelPort s p then (if held then [] else frameFaults s p f g) ++ transitFaults f g else []

/-- The positions of a frame. `held` says that a notice keeps them from the tiles (R188), `tailEvs` are the tail's events. A frame
that raises a fault of R119 or R120 has none of its positions delivered or forwarded: R120 says so of JOB_TAG_MISMATCH, and the model
takes the others alike (log 37). -/
def deliverPositions (p : Nat) (f : Frame) (held : Bool) (tailEvs : List Ev) (s : State) : State :=
  let es := expected s p
  let due := confirmDue s (portOf s p)
  let s1 := dropRecords p s
  if !running s then checkPositions p f tailEvs s1
  else if beforeRewind s p then portEvent p tailEvs s1
  else
    match f.slotStart.filter slotStartOk with
    | none =>
      let s2 := portEvent p (badStartEvs f es due ++ tailEvs) s1
      if held then s2 else loseTransits p es s2
    | some x =>
      let g : Reading := { start := x, entries := es, due := due }
      let faults := portFaults s p f g held
      let conf := confirmDetects f g
      let s2 := portEvent p (faults ++ positionDetects f g ++ conf ++ tailEvs) (noteVeto conf s1)
      if held || !faults.isEmpty then s2 else takePositions p f g s2

/-! ## The tail of a frame -/

/-- The port keeps the tail and the measurement of SLOT_START. -/
def keepTail (p : Nat) (f : Frame) (t : BitVec 992) (s : State) : State :=
  let ok := (f.slotStart.filter slotStartOk).isSome
  updPort p (fun v => { v with tail := some t, tailAt := cnt s, tailSeen := true,
                               phase := if ok then some f.phase else v.phase }) s

/-- Whether the counts of a tail are compared (R144). -/
def comparesCount (s : State) (p : Nat) (t : BitVec 992) : Bool :=
  portUp (portOf s p) && (s.bridle.st == .synced || s.bridle.st == .holdover) && (tState t == 2 || tState t == 3) &&
  tRoot t == rootIdOf s.bridle

/-- The count of a tail against the package's own (R144). -/
def compareCount (p : Nat) (t : BitVec 992) (s : State) : State :=
  if comparesCount s p t && tCount t + padClass s p != cnt s then
    if running s then
      if reelPort s p || s.bridle.parent == some p then bridleFault 0x0702 p s else bridleEvent 7 s
    else if s.bridle.parent = some p then reacquire s else bridleEvent 7 s
  else s

/-- The notice of a tail (R147, R187): on a job port, while a job runs. -/
def hearNotice (p : Nat) (t : BitVec 992) (s : State) : State :=
  match running s && reelPort s p, tNotice t with
  | true, some n =>
    if staleNotice s n || s.job.notice == some n then s
    else if n.applyAt ≤ cnt s then applyLate p s
    else takeNotice n s
  | _, _ => s

/-- A tail whose TCRC checks. -/
def hearTail (p : Nat) (f : Frame) (t : BitVec 992) (s : State) : State :=
  hearPace p t (hearNotice p t (elect (compareCount p t (keepTail p f t s))))

/-- The tail of a frame, if it can be read. -/
def goodTail (f : Frame) : Option (BitVec 992) := f.tail.filter tailOk

/-! ## The delivery -/

/-- Codewords that the decoder corrected (Table 10-5). -/
def countFec (p n : Nat) (s : State) : State :=
  if n = 0 then s
  else
    updTotals (fun t => { t with fecCorr := t.fecCorr + n })
      (updHealth (1024 + p) (fun h => { h with c0 := min (h.c0 + n) (2 ^ 32 - 1) }) s)

/-- Whether a port has a class to which its frames must fit: the loaded Reel's or a measured one (R127). -/
def hasClass (s : State) (p : Nat) : Bool := reelPort s p || (portOf s p).cls != 0

/-- Whether a tail carries the notice that the package has adopted (R188). -/
def carriesHeld (s : State) (p : Nat) (t : BitVec 992) : Bool :=
  running s && reelPort s p && (tNotice t).isSome && tNotice t == s.job.notice

/-- A frame at its delivery slot. A late one faults a job on any port with a class (R128); on a port without one it is dropped
(R127). -/
def deliverFrame (p : Nat) (f : Frame) (s : State) : State :=
  let s0 := countFec p f.corrected s
  if f.late then
    if running s0 && hasClass s0 p then raiseFault 0x0602 (portUnit p) 0xFF 0 (dropRecords p s0) else dropRecords p s0
  else
    match goodTail f with
    | some t =>
      let s1 := hearTail p f t s0
      deliverPositions p f (haltedJob s1 || s1.job.notice != s0.job.notice || carriesHeld s1 p t) [] s1
    | none => deliverPositions p f (haltedJob s0) [(0x0681, 0xFF)] s0

/-- A slot in which a port of the job has left the trained state (R42, R122, R130). -/
def deliverSilence (p : Nat) (s : State) : State :=
  let es := if beforeRewind s p then [] else expected s p
  let due := if beforeRewind s p || !running s then none else confirmDue s (portOf s p)
  if (portOf s p).st = .relock then
    let s1 := portEvent p (badStartEvs Frame.lost es due) (dropRecords p s)
    if haltedJob s then s1 else loseTransits p es s1
  else portEvent p (es.map (fun e => (0x0607, xPos e))) (dropRecords p s)

/-- FRAME_DELIVERY (R120): once for a port in each slot. -/
def execFrameDelivery (p : Nat) (f : Frame) (s : State) : Host.Outcome State Fault Refusal :=
  .next (if portPop s p && s.pacer.running then
    (if framing (portOf s p) then deliverFrame p f s else deliverSilence p s)
  else s)

end Sys2Proof.Machine
end

