-- ==== Sys2Proof/Machine/Engines.lean ====
section
/-! DEFINITION. The matrix and vector words (R64 to R67, R353, R354): operands are read at the issue, results are written at
the deadline. -/

namespace Sys2Proof.Machine

/-- The number whose bytes an operand's lines hold. -/
def operand (t : Tile) (u : Use) (v : Nat) : Nat := linesNat t (span u v)

/-- Whether a line that a word reads disagrees with its residues (R200). -/
def anySideBad (t : Tile) (w : Rec128) : Bool := (srcLines w).any (fun l => sideBad (readLine t l))

/-- What an operation computes: the result bytes, the flags, and what the residue channel makes of the result, element by element in
the result's format (R92). -/
structure Result where
  bytes : Nat
  flags : BitVec 8
  fmt : Fmt
  chan : List Elem

/-- The result lines of an operation: their bytes, and side residues from the residue channel, which agrees with the bytes where
every line that the operation reads does (R92). -/
def computed (t : Tile) (w : Rec128) (x : Result) : List (Nat × LineVal) :=
  let n := (dstLines w).length
  let errs := x.chan.map (fun e => e.2)
  let per := 256 / elemBytes x.fmt
  resultLines t w ((natLines n x.bytes).zipIdx.map (fun d =>
    (d.1, if anySideBad t w then channelSide x.fmt d.1 ((errs.drop (per * d.2)).take per) else sideOf d.1)))

/-- An operation whose result is known. -/
def flyResult (s : State) (r : Reel) (u : Nat) (t : Tile) (w : Rec128) (x : Result) : State :=
  fly u { flightOf s r w with results := computed t w x, flags := x.flags, srcBad := anySideBad t w } s

/-- A rule that computes the result from the operands. -/
def engineRule (f : Tile → Rec128 → Result) : OpRule where
  evs := noEvs
  go := fun s r u t w => flyResult s r u t w (f t w)

/-- The first `n` elements of an operand with what the residue channel has of each. -/
def operandX (f : Fmt) (n : Nat) (t : Tile) (u : Use) (v : Nat) : List Elem :=
  (elems f n (operand t u v)).zip ((span u v).flatMap (fun l => elemErrors f (readLine t l)))

/-- Result elements with their flags, and the channel's elements, as a result. -/
def resultOf (f : Fmt) (x : List Nat × BitVec 8) (chan : List Elem) : Result :=
  { bytes := packElems f x.1, flags := x.2, fmt := f, chan := chan }

/-! ## Matrix words -/

/-- MVD and MVS: y of 64 elements, A in `pages` pages, x of 64 elements. -/
def matVecResult (f : Fmt) (pages lines : Nat) (t : Tile) (w : Rec128) : Result :=
  resultOf f (matVec f (wRnd w) (elems f 4096 (operand t (.page pages) (wSrcA w)))
      (elems f 64 (operand t (.line lines) (wSrcB w))) (elems f 64 (operand t (.line lines) (wDst w))))
    (matVecX f (wRnd w) (operandX f 4096 t (.page pages) (wSrcA w))
      (operandX f 64 t (.line lines) (wSrcB w)) (operandX f 64 t (.line lines) (wDst w)))

/-- MVD (R66). -/
def execMvd (u : Nat) (s : State) : Host.Outcome State Fault Refusal :=
  .next (issue 0x20 (engineRule (matVecResult .fp64 8 2)) u s)

/-- MVS (R66). -/
def execMvs (u : Nat) (s : State) : Host.Outcome State Fault Refusal :=
  .next (issue 0x21 (engineRule (matVecResult .fp32 4 1)) u s)

/-- MMH and MMQ: C of 64 x 64 in FP32, A of 64 x k and B of k x 64. -/
def matMulResult (fa fb : Fmt) (n k : Nat) (t : Tile) (w : Rec128) : Result :=
  resultOf .fp32 (matMul fa fb (wRnd w) n k (elems fa (64 * k) (operand t (.page 2) (wSrcA w)))
      (elems fb (64 * k) (operand t (.page 2) (wSrcB w))) (elems .fp32 4096 (operand t (.page 4) (wDst w))))
    (matMulX fa fb (wRnd w) n k (operandX fa (64 * k) t (.page 2) (wSrcA w))
      (operandX fb (64 * k) t (.page 2) (wSrcB w)) (operandX .fp32 4096 t (.page 4) (wDst w)))

/-- MMH (R66). -/
def execMmh (u : Nat) (s : State) : Host.Outcome State Fault Refusal :=
  .next (issue 0x22 (engineRule (matMulResult .bf16 .bf16 8 64)) u s)

/-- The formats of A and B of an MMQ (Table 4-5). -/
def mmqFmts (fmt : Nat) : Fmt × Fmt :=
  if fmt = 3 then (.e4m3, .e4m3) else if fmt = 4 then (.e5m2, .e5m2) else if fmt = 7 then (.e4m3, .e5m2) else (.e5m2, .e4m3)

/-- MMQ (R66). -/
def execMmq (u : Nat) (s : State) : Host.Outcome State Fault Refusal :=
  .next (issue 0x23 (engineRule (fun t w => matMulResult (mmqFmts (wFmt w)).1 (mmqFmts (wFmt w)).2 16 128 t w)) u s)

/-- MMI: the old C and 128 INT8 products for each element. -/
def matIntResult (t : Tile) (w : Rec128) : Result :=
  resultOf .int32 (matInt (elems .int8 8192 (operand t (.page 2) (wSrcA w)))
      (elems .int8 8192 (operand t (.page 2) (wSrcB w))) (elems .int32 4096 (operand t (.page 4) (wDst w))))
    (matIntX (operandX .int8 8192 t (.page 2) (wSrcA w)) (operandX .int8 8192 t (.page 2) (wSrcB w))
      (operandX .int32 4096 t (.page 4) (wDst w)))

/-- MMI (R66). -/
def execMmi (u : Nat) (s : State) : Host.Outcome State Fault Refusal := .next (issue 0x24 (engineRule matIntResult) u s)

/-! ## Vector words -/

/-- The format that FMT names. -/
def wordFmt (w : Rec128) : Fmt := (fmtOf (wFmt w)).getD .fp64

/-- The elements of a page in a word's format. -/
def pageElems (t : Tile) (w : Rec128) (v : Nat) : List Nat :=
  elems (wordFmt w) (4096 / elemBytes (wordFmt w)) (operand t (.page 1) v)

/-- The elements of a page in a word's format, with what the residue channel has of each. -/
def pageElemsX (t : Tile) (w : Rec128) (v : Nat) : List Elem :=
  operandX (wordFmt w) (4096 / elemBytes (wordFmt w)) t (.page 1) v

/-- An operation on two pages, element by element, and its residue channel. -/
def zipResult (g : Fmt → Nat → Nat → Nat → Nat × BitVec 8) (gx : Fmt → Nat → Elem → Elem → Elem) (t : Tile) (w : Rec128) :
    Result :=
  let f := wordFmt w
  resultOf f (gather (((pageElems t w (wSrcA w)).zip (pageElems t w (wSrcB w))).map (fun x => g f (wRnd w) x.1 x.2)))
    (((pageElemsX t w (wSrcA w)).zip (pageElemsX t w (wSrcB w))).map (fun x => gx f (wRnd w) x.1 x.2))

/-- VFMA: a x b + c. -/
def fmaResult (t : Tile) (w : Rec128) : Result :=
  let f := wordFmt w
  let xs := (pageElems t w (wSrcA w)).zip ((pageElems t w (wSrcB w)).zip (pageElems t w (wSrcC w)))
  let ys := (pageElemsX t w (wSrcA w)).zip ((pageElemsX t w (wSrcB w)).zip (pageElemsX t w (wSrcC w)))
  resultOf f (gather (xs.map (fun x => fmaE f (wRnd w) x.1 x.2.1 x.2.2)))
    (ys.map (fun x => fmaX f (wRnd w) x.1 x.2.1 x.2.2))

/-- VFMA (R353). -/
def execVfma (u : Nat) (s : State) : Host.Outcome State Fault Refusal := .next (issue 0x30 (engineRule fmaResult) u s)

/-- VADD (R353). -/
def execVadd (u : Nat) (s : State) : Host.Outcome State Fault Refusal := .next (issue 0x31 (engineRule (zipResult addE addX)) u s)

/-- VMUL (R353). -/
def execVmul (u : Nat) (s : State) : Host.Outcome State Fault Refusal := .next (issue 0x32 (engineRule (zipResult mulE mulX)) u s)

/-- VMAX (R65, R353). -/
def execVmax (u : Nat) (s : State) : Host.Outcome State Fault Refusal :=
  .next (issue 0x33 (engineRule (zipResult (fun f _ a b => extremeE f true a b) (fun f _ a b => extremeX f true a b))) u s)

/-- VMIN (R65, R353). -/
def execVmin (u : Nat) (s : State) : Host.Outcome State Fault Refusal :=
  .next (issue 0x34 (engineRule (zipResult (fun f _ a b => extremeE f false a b) (fun f _ a b => extremeX f false a b))) u s)

/-- The source format of a VCVT. -/
def cvtSrc (w : Rec128) : Fmt := (fmtOf (wAux w)).getD .fp64

/-- The number of elements that a VCVT converts (Table 4-7). -/
def cvtCount (w : Rec128) : Nat := min (4096 / elemBytes (wordFmt w)) (4096 / elemBytes (cvtSrc w))

/-- VCVT with the stochastic draws from a place in the entropy source. -/
def cvtResult (base : Nat) (t : Tile) (w : Rec128) : Result :=
  let xs := elems (cvtSrc w) (cvtCount w) (operand t (.page 1) (wSrcA w))
  let draw (i : Nat) : Nat := if wRnd w = 4 then (Config.entropy (base + i)).toNat else 0
  let y := gather (xs.zipIdx.map (fun x => convertE (wordFmt w) (cvtSrc w) (wRnd w) (draw x.2) (wSat w) x.1))
  resultOf (wordFmt w) y ((y.1.zip (operandX (cvtSrc w) (cvtCount w) t (.page 1) (wSrcA w))).map (fun x =>
    convertX (wordFmt w) (cvtSrc w) x.1 x.2))

/-- VCVT (R67, R354): RND 4 draws once for each element (log 10). -/
def cvtRule : OpRule where
  evs := noEvs
  go := fun s r u t w =>
    flyResult { s with entropy := if wRnd w = 4 then s.entropy + cvtCount w else s.entropy } r u t w (cvtResult s.entropy t w)

/-- VCVT. -/
def execVcvt (u : Nat) (s : State) : Host.Outcome State Fault Refusal := .next (issue 0x35 cvtRule u s)

/-- VRED: the tree sum in element 0, zeros in the rest of the line (R353). -/
def redResult (t : Tile) (w : Rec128) : Result :=
  let x := treeSum (wordFmt w) (wRnd w) (pageElems t w (wSrcA w))
  { bytes := x.1, flags := x.2, fmt := wordFmt w, chan := [treeSumX (wordFmt w) (wRnd w) (pageElemsX t w (wSrcA w))] }

/-- VRED. -/
def execVred (u : Nat) (s : State) : Host.Outcome State Fault Refusal := .next (issue 0x36 (engineRule redResult) u s)

/-- The lines that a VCPY writes: bytes and side residues carried through (R92). -/
def cpyLines (t : Tile) (w : Rec128) : List (Nat × LineVal) :=
  let p := maxPdue t (srcLines w)
  (dstLines w).zip ((srcLines w).map (fun l => { readLine t l with pdue := p, cdue := 0 }))

/-- VCPY (R92). -/
def cpyRule : OpRule where
  evs := noEvs
  go := fun s r u t w =>
    fly u { flightOf s r w with results := cpyLines t w, srcBad := anySideBad t w } s

/-- VCPY. -/
def execVcpy (u : Nat) (s : State) : Host.Outcome State Fault Refusal := .next (issue 0x37 cpyRule u s)

end Sys2Proof.Machine
end

