-- ==== Sys2Proof/Machine/Slot.lean ====
section
/-! DEFINITION. The slot boundary (R73, R76, R111, R134, R140), the start of a step (R68, R70, R71, R308) and of a job (R150). -/

namespace Sys2Proof.Machine

/-! ## Steps -/

/-- What a step that ends leaves in flight: an operation whose deadline was the last token of the slot, and which is late at the next
token (R56). Nothing else executes beyond the commit-point slot (R60, R78), and a rewind leaves nothing. -/
def overdue (slot : Nat) (t : Tile) : Option Flight :=
  (t.flight.filter (fun f => f.last == 64 * slot + 63)).map (fun f => { f with pastStep := true })

/-- A tile at slot 0 of a step: its sequencer at the step's first word, its flag word saved, its marks and tags clear. -/
def beginTile (words : List Rec128) (slot : Nat) (t : Tile) : Tile :=
  { t.quiet with todo := words, flight := overdue slot t, lines := mapVals LineSt.zero LineSt.unmark t.lines,
                 savedFlags := t.flags }

/-- Every tile at slot 0 of a step of a pattern. -/
def beginTiles (r : Reel) (phase pattern : Nat) (s : State) : Sparse Tile :=
  ((List.range 1024).map (fun u => (u, beginTile (stepWords r u phase pattern) s.job.slot (tileOf s u)))).filter
    (fun x => decide (x.2 ≠ Tile.clear))

/-- Slot 0 of an attempt of a step begins. -/
def beginStep (r : Reel) (step attempt : Nat) (s : State) : State :=
  match stepPlan r step with
  | some (pattern, phase) =>
    { s with tiles := beginTiles r phase pattern s, shadowed := [],
             job := { s.job with step := step, attempt := attempt, slot := 0, pattern := pattern, phase := phase,
                                 vetoes := [], detected := false } }
  | none => s

/-- Whether the next step begins at the present boundary: the step was sealed in the slot that ended, and another follows. -/
def stepEnds (s : State) (r : Reel) : Bool :=
  match s.job.sealed_ with
  | some x => x.step == s.job.step && x.at_ + 1 == cnt s && decide (x.step < stepTotal r) && !haltedJob s
  | none => false

/-- The slot within the step that begins at the present boundary. -/
def advanceJob (s : State) : State :=
  match running s, s.reel with
  | true, some r =>
    if stepEnds s r then closeWindow (beginStep r (s.job.step + 1) 1 s) else { s with job := { s.job with slot := s.job.slot + 1 } }
  | _, _ => s

/-! ## Within the package -/

/-- The parcel of an outbox entry on its way to a tile of the package. -/
def localMsg (s : State) (u : Nat) (p : OutEntry) (e : Rec128) (done : Nat) : LocalMsg :=
  { due := localDue s u (rUnit e) done, dst := rUnit e, event := rEvent e, parcel := some (p, e) }

/-- The messages of a tile whose routes end in the package and whose SEND completed in the slot that ends. -/
def leavingOf (s : State) (r : Reel) (u : Nat) (t : Tile) : List LocalMsg :=
  t.outbox.filterMap (fun x =>
    if x.2.leaves = some s.job.slot then
      (routeAt r u s.job.phase x.2.route).map (fun e => localMsg s u x.2 e s.job.slot)
    else none)

/-- The outbox after the slot. -/
def dropLeaving (slot : Nat) (t : Tile) : Tile :=
  { t with outbox := t.outbox.filter (fun x => decide (x.2.leaves ≠ some slot)) }

/-- Parcels for tiles of the package leave their outboxes at the end of a slot (R73, R76). -/
def leaveLocal (s : State) : State :=
  match running s, s.reel with
  | true, some r =>
    { s with localq := s.localq ++ s.tiles.flatMap (fun x => leavingOf s r x.1 x.2),
             tiles := mapVals Tile.clear (dropLeaving s.job.slot) s.tiles }
  | _, _ => s

/-! ## The boundary -/

/-- Transit arrivals that can still leave: one slot later on another line die (R118). -/
def ageTransits (s : State) : State := { s with transits := s.transits.filter (fun x => decide (cnt s ≤ x.at_ + 1)) }

/-- The package at the boundary that ends a slot: the units move as the slot's detections call for, the count rises by 1, the next slot of the step begins, what is due reaches
its tiles, and every port sends its frame. -/
def slotBegin (s : State) : State :=
  let s1 := updBridle (fun b => { b with count := b.count + 1 }) (syncSlot (leaveLocal (takeAllMoves s)))
  transmitAll (capSpacing (deliverLocal (advanceJob (ageTransits s1))))

/-- SLOT_BOUNDARY (R134, R135): while the pacer runs. -/
def execSlotBoundary (s : State) : Host.Outcome State Fault Refusal := .next (if s.pacer.running then slotBegin s else s)

/-! ## Launch -/

/-- Input entries that are resident in a stack, which come first (R266). -/
def residentInputs (r : Reel) : Nat := ((pkgRecs r secInputs).filter (fun e => !bit e 93)).length

/-- The package as a job: nothing provisional, nothing final (R105, R266). -/
def enterJob (r : Reel) (s : State) : State :=
  { s with job := { Job.none with st := .running, start := s.job.start, launch := s.job.launch,
                                  lastCode := s.job.lastCode, lastOrigin := s.job.lastOrigin },
           det := { s.det with leaves := s.det.leaves.take (residentInputs r), filled := [] },
           power := launchPace s.power }

/-- An armed launch that fires; one whose unit was fenced at once faults in its first slot (R329). -/
def fire (r : Reel) (s : State) : State :=
  let s1 := capSpacing (beginStep r 1 1 (enterJob r s))
  match s.job.fenceNow with
  | some u => raiseFault 0x0F01 u 0xFF 0 s1
  | none => s1

/-- LAUNCH_FIRE (R150): at the boundary whose count is the one that the launch names. -/
def execLaunchFire (s : State) : Host.Outcome State Fault Refusal :=
  .next (
    match s.pacer.running && armed s && s.job.start == cnt s, s.reel with
    | true, some r => fire r s
    | _, _ => s)

end Sys2Proof.Machine
end

