-- ==== Sys2Proof/Machine/Gather.lean ====
section
/-! DEFINITION. The crosspoint's gather (R116, R118, R320) and the hazard detector (R319, R321, R322). -/

namespace Sys2Proof.Machine

/-! ## The gather -/

/-- Whose transmit entries the slot after the present one runs: phase, pattern and slot (R116). Nothing new is gathered once a
notice is held (R188). -/
def gatherPlan (s : State) : Option (Reel × Nat × Nat × Nat) :=
  match s.reel with
  | none => none
  | some r =>
    if running s then
      if haltedJob s then none
      else if s.job.slot = curCommit s then (stepPlan r (s.job.step + 1)).map (fun x => (r, x.2, x.1, 0))
      else some (r, s.job.phase, s.job.pattern, s.job.slot + 1)
    else if armed s && s.job.start == cnt s + 1 then (stepPlan r 1).map (fun x => (r, x.2, x.1, 0))
    else none

/-- A parcel in a port's staging. -/
def stage (p pos : Nat) (x : BitVec 2304) (prov : Bool) (src : Option (Nat × Nat)) (s : State) : State :=
  updPort p (fun v => { v with staged := v.staged ++ [{ pos := pos, parcel := x, prov := prov, src := src }] }) s

/-- The inbox entry where a route places a parcel index (R114). -/
def placeOf (e : Rec128) (pidx : Nat) : Nat := if rBlock e then (rEntry e + pidx) % 16 else rEntry e

/-- The parcel that an outbox entry makes. -/
def parcelOf (s : State) (e : Rec128) (x : OutEntry) : BitVec 2304 :=
  mkParcel 1 x.prov (rBlock e) x.pidx (rUnit e) (placeOf e x.pidx) (rEvent e) (rRx e) x.env (tagNow s) x.payload

/-- The LATE marker for a parcel that the tile never made (R116). -/
def neverMade (s : State) (e : Rec128) (pidx : Nat) : BitVec 2304 :=
  lateMarker s (rBlock e) pidx (rUnit e) (placeOf e pidx) (rEvent e) (rRx e) 0

/-- The outbox place of a route's parcel. -/
def outboxPlace (t : Tile) (route pidx : Nat) : Option Nat :=
  (t.outbox.find? (fun x => x.2.route == route && x.2.pidx == pidx && x.2.leaves.isNone)).map (fun x => x.1)

/-- Whether the gather checks of debug mode are in force: a job runs and the package holds no notice (R320, R321). -/
def gatherChecks (s : State) (r : Reel) : Bool := r.debug && running s && s.job.notice.isNone && !s.job.faulted

/-- Whether they are in force for a tile, which has raised no detection. -/
def debugChecks (s : State) (r : Reel) (t : Tile) : Bool := gatherChecks s r && !t.detected

/-- A transmit entry without its parcel: HAZARD_GATHER where it is checked, otherwise a LATE marker (R116, R320). No job runs yet in the
slot before a launch, whose gather stages the marker (log 76). -/
def missingParcel (check : Bool) (p : Nat) (e : BitVec 256) (marker : BitVec 2304) (s : State) : State :=
  if check then raiseFault 0x0E06 (portUnit p) (xPos e) 48 s else stage p (xPos e) marker false none s

/-- A departure from a tile (R116). -/
def gatherTile (r : Reel) (phase p : Nat) (e : BitVec 256) (s : State) : State :=
  let u := xUnit e
  let t := tileOf s u
  let check := debugChecks s r t && !t.lateOp
  match routeAt r u phase (xRoute e) with
  | none => missingParcel check p e (lateLost s (xPidx e)) s
  | some q =>
    match outboxPlace t (xRoute e) (xPidx e) with
    | some k =>
      match find? k t.outbox with
      | some x =>
        stage p (xPos e) (parcelOf s q x) x.prov (if x.prov then some (u, x.line) else none)
          (setTile u { t with outbox := erase k t.outbox } s)
      | none => s
    | none => missingParcel check p e (neverMade s q (xPidx e)) s

/-- The count at which a transit arrival must have been delivered to leave in the next slot (R118). -/
def arrivedAt (s : State) (p : Nat) (e : BitVec 256) : Nat := if xArrPort e / 16 = p / 16 then cnt s else cnt s - 1

/-- A departure in transit (R118). -/
def gatherTransit (r : Reel) (p : Nat) (e : BitVec 256) (s : State) : State :=
  let hit (x : Transit) : Bool := x.port == xArrPort e && x.pos == xArrPos e && x.at_ == arrivedAt s p e
  match s.transits.find? hit with
  | some x => stage p (xPos e) x.parcel false none { s with transits := s.transits.filter (fun y => !hit y) }
  | none => missingParcel (gatherChecks s r) p e (lateLost s (xPidx e)) s

/-- A transmit entry's departure. -/
def gatherEntry (r : Reel) (phase p : Nat) (e : BitVec 256) (s : State) : State :=
  if xKind e = 0 then gatherTile r phase p e s
  else if xKind e = 1 then gatherTransit r p e s
  else stage p (xPos e) (carrier s) false none s

/-- The departures of a port. -/
def gatherPort (plan : Reel × Nat × Nat × Nat) (p : Nat) (s : State) : State :=
  (txEntries plan.1 p plan.2.1 plan.2.2.1 plan.2.2.2).foldl (fun a e => gatherEntry plan.1 plan.2.1 p e a) s

/-- The outbox places of a tile whose parcels, for a port of a line die, the slot did not gather. -/
def orphans (r : Reel) (phase n u : Nat) (t : Tile) : List Nat :=
  (t.outbox.filter (fun x =>
    x.2.leaves.isNone && (routeAt r u phase x.2.route).any (fun e => rPort e / 16 == n))).map (fun x => x.1)

/-- HAZARD_ORPHAN (R320), with the checks that are in force when the gather begins: a HAZARD_GATHER of the same gather does not
lift them, and of two faults of one slot the one with the lower code is reported (R317). -/
def orphanCheck (r : Reel) (phase n : Nat) (before s : State) : State :=
  s.tiles.foldl (fun a x =>
    match orphans r phase n x.1 x.2 with
    | k :: _ => if debugChecks before r x.2 then tileFault 0x0E05 x.1 k 48 a else a
    | [] => a) s

/-- CROSSPOINT_GATHER (R116): line die `n` fills the staging of its ports for the next slot. -/
def execCrosspointGather (n : Nat) (s : State) : Host.Outcome State Fault Refusal :=
  .next (
    match s.pacer.running && decide (n < s.ident.lineDies), gatherPlan s with
    | true, some plan =>
      let s1 := (List.range 16).foldl (fun a k => gatherPort plan (16 * n + k) a) s
      if running s && plan.1.debug then orphanCheck plan.1 s.job.phase n s s1 else s1
    | _, _ => s)

/-! ## The hazard detector -/

/-- The fields of a HAZARD record (Table 14-4). -/
def hSlot (e : BitVec 256) : Nat := fld e 0 12
def hPattern (e : BitVec 256) : Nat := fld e 12 6
def hKind (e : BitVec 256) : Nat := fld e 18 2
def hIndex (e : BitVec 256) : Nat := fld e 20 4
def hValue (e : BitVec 256) : Nat := fld e 32 16

/-- Whether a record gives a part of a tile's expected state by the end of a slot. -/
def hazNames (pattern slot kind index : Nat) (e : BitVec 256) : Bool :=
  hPattern e == pattern && hKind e == kind && (kind != 3 || hIndex e == index) && decide (hSlot e ≤ slot)

/-- The value that the annex gives a part of a tile at the end of a slot: that of the record with the latest slot which names it, and of
several for one slot the last listed, else 0 (R319, log 56). -/
def hazExpected (recs : List (BitVec 256)) (pattern slot kind index : Nat) : Nat :=
  ((recs.filter (hazNames pattern slot kind index)).foldl (fun a e => if a.1 ≤ hSlot e then (hSlot e, hValue e) else a) (0, 0)).2

/-- The parcels in a tile's outbox once those that leave it at the end of a slot have left (R76). -/
def outboxCount (slot : Nat) (t : Tile) : Nat := (t.outbox.filter (fun x => decide (x.2.leaves ≠ some slot))).length

/-- The value of a part of a tile at the end of a slot. -/
def hazActual (slot : Nat) (t : Tile) (kind index : Nat) : Nat :=
  match kind with
  | 0 => t.inbox.foldl (fun a x => a + 2 ^ x.1) 0
  | 1 => outboxCount slot t
  | 2 => t.mover.length
  | _ => eventOf t index

/-- The parts of a tile in the order of their fault codes: kind and input. -/
def hazParts : List (Nat × Nat) := [(0, 0), (1, 0), (2, 0)] ++ (List.range 16).map (fun k => (3, k))

/-- The first part of a tile that differs from the annex: kind, input, expected and actual value. -/
def hazDiff (r : Reel) (phase pattern slot u : Nat) (t : Tile) : Option (Nat × Nat × Nat × Nat) :=
  let recs := recsOf r secHazard u phase
  (hazParts.map (fun x => (x.1, x.2, hazExpected recs pattern slot x.1 x.2, hazActual slot t x.1 x.2))).find?
    (fun x => x.2.2.1 != x.2.2.2)

/-- The lowest bit in which two bitmaps differ. -/
def firstBit (a b : Nat) : Nat := ((List.range 16).find? (fun k => a.testBit k != b.testBit k)).getD 0xFF

/-- INDEX of a hazard: the entry or input concerned, 0xFF for a count. -/
def hazIndexOf (x : Nat × Nat × Nat × Nat) : Nat :=
  if x.1 = 0 then firstBit x.2.2.1 x.2.2.2 else if x.1 = 3 then x.2.1 else 0xFF

/-- A hazard fault: LDR_HAZ takes the values, and the tile reports the part's code (Table 14-10). -/
def hazFault (u : Nat) (x : Nat × Nat × Nat × Nat) (s : State) : State :=
  tileFault (0x0E01 + x.1) u (hazIndexOf x) 63
    { s with ldr := { s.ldr with hazExpect := BitVec.ofNat 16 x.2.2.1, hazActual := BitVec.ofNat 16 x.2.2.2,
                                 hazKind := BitVec.ofNat 2 x.1, hazIndex := BitVec.ofNat 4 x.2.1 } }

/-- The tiles that differ from the annex; one that has raised a detection is left out (R321). -/
def hazards (r : Reel) (s : State) : List (Nat × Nat × Nat × Nat × Nat) :=
  (List.range 1024).filterMap (fun u =>
    let t := tileOf s u
    if t.detected then none
    else (hazDiff r s.job.phase s.job.pattern s.job.slot u t).map (fun x => (u, x)))

/-- The one with the lowest code is reported, of several the lowest tile's (R317). -/
def firstHazard (l : List (Nat × Nat × Nat × Nat × Nat)) : Option (Nat × Nat × Nat × Nat × Nat) :=
  l.foldl (fun a x => match a with | some y => if x.2.1 < y.2.1 then some x else some y | none => some x) none

/-- Whether the detector compares in the present slot: the package has raised no detection in the attempt and holds no replay notice
(R321); in the slot in which a fault is raised or heard it still compares, and later the package is halted (R317, R355, log 76). -/
def comparing (s : State) : Bool := !s.job.detected && s.job.notice.all (fun n => n.fault && s.job.noticeAt == cnt s)

/-- HAZARD_CHECK (R319): at token 63 of a slot of a job in debug mode; a slot below level 32 is counted and not checked
(R322). -/
def execHazardCheck (s : State) : Host.Outcome State Fault Refusal :=
  .next (
    match running s, s.reel with
    | true, some r =>
      if !r.debug then s
      else if s.pacer.vent < 32 then { s with ldr := { s.ldr with unchecked := satInc 32 s.ldr.unchecked } }
      else if !comparing s then s
      else
        match firstHazard (hazards r s) with
        | some x => hazFault x.1 x.2 s
        | none => s
    | _, _ => s)

end Sys2Proof.Machine
end

