-- ==== Sys2Proof/Machine/Links.lean ====
section
/-! DEFINITION. The life of a link: training, measuring, relock, and what a port hears from its far end (R26, R42, R112, R125, R126,
R130, R131). -/

namespace Sys2Proof.Machine

/-! ## Quads (R26) -/

/-- The ports of a port's quad. -/
def quadOf (p : Nat) : List Nat := (List.range 4).map (fun i => 4 * (p / 4) + i)

/-- Whether a port keeps its quad on: the loaded Reel uses it, the count is followed on it, or it trains. -/
def keepsQuad (s : State) (p : Nat) : Bool :=
  reelPort s p || s.bridle.parent == some p || (portOf s p).st == .training

/-- A port whose quad is off. -/
def quadOff (p : Nat) (s : State) : State := updPort p (fun v => { portDown .none v with st := .off }) s

/-- With a Reel loaded, the quads that nothing keeps on are off. -/
def gateQuads (s : State) : State :=
  if s.reel.isNone then s
  else (List.range (portCount s)).foldl (fun a p => if (quadOf p).any (keepsQuad s) then a else quadOff p a) s

/-! ## Training (R125) -/

/-- Whether a port may train now: it sends WAKE, and a port that the loaded Reel uses waits for the unload (R130, R131). -/
def mayTrain (s : State) (p : Nat) : Bool :=
  portPop s p && isReady s && (portOf s p).sends == .wake && !reelPort s p && !(portOf s p).trainDue

/-- A port that trains in full: it has no measured class and no wire latency from then on, where a port that only left the trained
state still shows its last ones (log 35). -/
def inTraining (v : Port) : Port := { portDown .train v with st := .training, retrain := false, cls := 0, wirePs := 0 }

/-- TRAINING_START (R112): a port that sends WAKE receives WAKE. -/
def execTrainingStart (p : Nat) (s : State) : Host.Outcome State Fault Refusal :=
  .next (if mayTrain s p then updPort p inTraining s else s)

/-- A port that has trained: it measures, and sends frames. -/
def trained (info : TrainInfo) (v : Port) : Port :=
  { v with st := .measuring, sends := .frames, cls := 0, wirePs := 0, farSerial := info.serial, farPort := info.port,
           farSlot := info.slotId, farBridle := info.bridle, rttPs := info.rttPs, precode := info.precode }

/-- TRAINING_DONE (R125). -/
def execTrainingDone (p : Nat) (info : TrainInfo) (s : State) : Host.Outcome State Fault Refusal :=
  .next (if portPop s p && (portOf s p).st == .training then gateQuads (updPort p (trained info) s) else s)

/-- TRAINING_TIMEOUT (R125): the port has FAILED, and the failure counts and scores. -/
def execTrainingTimeout (p : Nat) (s : State) : Host.Outcome State Fault Refusal :=
  .next (if portPop s p && (portOf s p).st == .training then
    gateQuads (score 0x0A83 (1024 + p) (bumpCtr 5 (1024 + p) (updPort p (fun v => { portDown .none v with st := .failed }) s)))
  else s)

/-- TRAINING_RETRY (R125): 1 s after FAILED the port sends WAKE. -/
def execTrainingRetry (p : Nat) (s : State) : Host.Outcome State Fault Refusal :=
  .next (if portPop s p && (portOf s p).st == .failed then dropPort p s else s)

/-! ## Measuring (R126) -/

/-- The measured class of a wire latency in ps: the smallest of 1 to 4 that holds it, 0 above 128 ns. -/
def classOf (ps : Nat) : Nat :=
  if ps ≤ 32000 then 1 else if ps ≤ 64000 then 2 else if ps ≤ 96000 then 3 else if ps ≤ 128000 then 4 else 0

/-- MEASURING_DONE (R126, R241): the count is synchronised, and 4,096 full frames have been measured. -/
def execMeasuringDone (p : Nat) (x : MeasureInfo) (s : State) : Host.Outcome State Fault Refusal :=
  .next (if portPop s p && (portOf s p).st == .measuring && s.bridle.st == .synced then
    updPort p (fun v => { v with st := .trained, wirePs := x.ps, cls := classOf x.ps, quadMw := x.quadMw, xpMw := x.xpMw }) s
  else s)

/-! ## Relock (R130) -/

/-- A port that enters RELOCK: it sends IDLE blocks only. -/
def relocking (v : Port) : Port :=
  { v with st := .relock, sends := .idle, staged := [], sent := none, measured := false, relocks := satInc 16 v.relocks }

/-- LANE_LOCK_LOSS (R130): with a Reel loaded a port in TRAINED relocks; any other port trains in full, one in MEASURING too, of
which R130 does not speak (log 35). -/
def execLaneLockLoss (p : Nat) (s : State) : Host.Outcome State Fault Refusal :=
  .next (
    let v := portOf s p
    if portPop s p && framing v then
      (if s.reel.isSome && v.st != .measuring then setPort p (relocking v) s else dropPort p s)
    else s)

/-- A port whose relock has failed sends WAKE; one that the loaded Reel uses trains once the Reel is unloaded. -/
def relockFailed (p : Nat) (s : State) : State :=
  let due := reelPort s p
  updPort p (fun v => { v with trainDue := due }) (dropPort p s)

/-- RELOCK_TIMEOUT (R130): lock has not returned within 2 us. -/
def execRelockTimeout (p : Nat) (s : State) : Host.Outcome State Fault Refusal :=
  .next (
    let v := portOf s p
    if portPop s p && v.st == .relock && !v.measured then
      relockFailed p (if running s && reelPort s p then raiseFault 0x0601 (portUnit p) 0xFF 0 s else s)
    else s)

/-- RELOCK_DONE (R130): lock is back, and the port resumes its frames at the next boundary. -/
def execRelockDone (p : Nat) (s : State) : Host.Outcome State Fault Refusal :=
  .next (
    let v := portOf s p
    if portPop s p && v.st == .relock && !v.measured then setPort p { v with measured := true, sends := .frames } s else s)

/-- A port whose new wire latency is known: while a job runs one that has moved since its class was measured is measured again after
it, else at once. -/
def remeasured (job : Bool) (ps : Nat) (v : Port) : Port :=
  let moved := v.remeasure || ps != v.wirePs
  { v with st := if moved && !job then .measuring else .trained, measured := false, wirePs := ps,
           cls := if moved && !job then 0 else v.cls, remeasure := moved && job }

/-- RELOCK_MEASURE_DONE (R130): the new wire latency fits the class in use, or LATENCY_EXCEEDED arises. -/
def execRelockMeasureDone (p : Nat) (ps : Nat) (s : State) : Host.Outcome State Fault Refusal :=
  .next (
    let v := portOf s p
    if portPop s p && v.st == .relock && v.measured then
      let s1 := updPort p (remeasured (running s) ps) s
      if running s && reelPort s p && decide (32000 * padClass s p < ps) then raiseFault 0x0602 (portUnit p) 0xFF 0 s1 else s1
    else s)

/-! ## What a port hears (R42, R112) -/

/-- Whether the slot schedules a position on the port that no frame has brought yet (R42). -/
def missesParcel (s : State) (p : Nat) : Bool :=
  !(expected s p).isEmpty && !beforeRewind s p && !((portOf s p).tail.isSome && (portOf s p).tailAt == cnt s)

/-- PEER_NOT_READY at the lowest position that the slot expects. -/
def peerGone (p : Nat) (s : State) : State :=
  if missesParcel s p then portEvent p ((expected s p).map (fun e => (0x0607, xPos e))) s else s

/-- Whether a port listens for its far end's signal: it is powered, not FAILED, and has a reference. -/
def listens (s : State) (p : Nat) : Bool :=
  portPop s p && mgmtUp s && (portOf s p).st != .off && (portOf s p).st != .failed && lrefOn s (p / 16)

/-- A port that reports a state of its far end; one that was up or training sends what its package's stage gives it. -/
def hear (p : Nat) (st : PortSt) (s : State) : State :=
  let v := portOf s p
  if portUp v || v.st == .relock || v.st == .training then
    let s1 := dropPort p (peerGone p s)
    updPort p (fun w => { w with st := st }) s1
  else updPort p (fun w => { w with st := st }) s

/-- FAR_NOT_READY (R112). -/
def execFarNotReady (p : Nat) (s : State) : Host.Outcome State Fault Refusal :=
  .next (if listens s p then hear p .notReady s else s)

/-- FAR_STOPPED (R112). -/
def execFarStopped (p : Nat) (s : State) : Host.Outcome State Fault Refusal :=
  .next (if listens s p then hear p .stopped s else s)

/-- SIGNAL_LOSS (R112): no signal for 1 us. -/
def execSignalLoss (p : Nat) (s : State) : Host.Outcome State Fault Refusal :=
  .next (if listens s p then hear p .absent s else s)

end Sys2Proof.Machine
end

