-- ==== Sys2Proof/Machine/Image.lean ====
section
/-! DEFINITION. The Reel image (R306 to R308, R312): header, directory, sections and records as bytes, the checks that
REEL_FORMAT stands for, digests, and fixups. -/

namespace Sys2Proof.Machine

/-! ## Bytes -/

/-- The little-endian number of `n` bytes at an offset. -/
def numAt (bs : List Byte) (o n : Nat) : Nat := ofLe ((bs.drop o).take n)

/-- `n` records of `w` bytes. -/
def takeRecs (w : Nat) : Nat → List Byte → List (BitVec 256)
  | 0, _ => []
  | n + 1, bs => BitVec.ofNat 256 (ofLe (bs.take w)) :: takeRecs w n (bs.drop w)

/-- Bytes with `n` of them read as 0 from an offset. -/
def zeroRange (bs : List Byte) (o n : Nat) : List Byte := bs.take o ++ List.replicate n 0 ++ bs.drop (o + n)

/-! ## Header (Table 14-1) -/

def hIsa (bs : List Byte) : Nat := numAt bs 6 2
def hPart (bs : List Byte) : Nat := numAt bs 8 2
def hStep (bs : List Byte) : Nat := numAt bs 10 1
def hAssembly (bs : List Byte) : Nat := numAt bs 11 1
def hShadow (bs : List Byte) : Nat := numAt bs 12 1
def hPkgId (bs : List Byte) : Nat := numAt bs 14 2
def hJobTag (bs : List Byte) : Nat := numAt bs 16 4
def hSections (bs : List Byte) : Nat := numAt bs 20 4
def hLength (bs : List Byte) : Nat := numAt bs 24 4
def hRelocs (bs : List Byte) : Nat := numAt bs 28 4
def hBodyCrc (bs : List Byte) : Nat := numAt bs 56 4

/-- Whether the header is one: magic, format, its CRC, its length, and its reserved bits. -/
def headerOkImg (bs : List Byte) (len : Nat) : Bool :=
  decide (64 ≤ len) && numAt bs 0 4 == 0x4C454552 && numAt bs 4 2 == 1 && hLength bs == len &&
  crc32c (bs.take 60) == numAt bs 60 4 && numAt bs 13 1 == 0 && numAt bs 32 24 == 0 && decide (hPkgId bs < 2048) &&
  decide (hAssembly bs < 64) && decide (64 + 16 * hSections bs ≤ len)

/-! ## Directory (Table 14-2) -/

/-- A directory entry. -/
structure Dir where
  index : Nat
  typ : Nat
  alt : Option Nat
  owner : Nat
  off : Nat
  len : Nat
  count : Nat
  spare : Bool
  deriving DecidableEq, Repr

/-- A directory entry read. -/
def dirAt (bs : List Byte) (i : Nat) : Dir :=
  let o := 64 + 16 * i
  let t := numAt bs o 2
  { index := i, typ := t % 256, alt := if t / 2 ^ 15 = 1 then some (t / 2 ^ 8 % 64) else none, owner := numAt bs (o + 2) 2,
    off := numAt bs (o + 4) 4, len := numAt bs (o + 8) 4, count := numAt bs (o + 12) 4, spare := t / 2 ^ 14 % 2 == 1 }

def dirsOf (bs : List Byte) : List Dir := (List.range (hSections bs)).map (dirAt bs)

/-- The bytes of a record, by section type (Table 14-3). -/
def recWidth (typ : Nat) : Nat :=
  match typ with
  | 0x02 => 2
  | 0x03 => 8
  | 0x04 => 8
  | 0x05 => 8
  | 0x0A => 8
  | 0x0B => 8
  | 0x0F => 8
  | 0x10 => 32
  | 0x11 => 8
  | _ => 16

/-- The bytes before a section's records: the TILE header, the XPOINT counts, the relocation slots. -/
def recPrefix (relocs typ : Nat) : Nat :=
  match typ with
  | 0x06 => 144
  | 0x0B => 256
  | 0x0F => 8 * relocs
  | _ => 0

/-- The most records of a section (Table 14-3). -/
def recLimit (typ : Nat) : Nat :=
  match typ with
  | 0x01 => 48
  | 0x02 => 2048
  | 0x03 => 64
  | 0x04 => 65536
  | 0x05 => 64
  | 0x06 => 255 * 256
  | 0x07 => 256
  | 0x08 => 65536
  | 0x09 => 65536
  | 0x0A => 65536
  | 0x0B => 262144
  | 0x0C => 2 ^ 24
  | 0x0D => 2 ^ 24
  | 0x0E => 2 ^ 24
  | 0x0F => 2 ^ 20
  | 0x10 => 256
  | 0x11 => 2 ^ 20
  | 0x12 => 49152
  | _ => 0

/-- Whether a section type belongs to a tile. -/
def tileType (typ : Nat) : Bool := [0x06, 0x07, 0x08, 0x09, 0x0A, 0x11].contains typ

/-- Whether a strict alternate may hold a section of the type (R260, log 20). -/
def altType (typ : Nat) : Bool := tileType typ || [0x03, 0x04, 0x05, 0x0B].contains typ

/-- Whether a section's owner is of the kind that its type has. -/
def ownerOk (lineDies : Nat) (d : Dir) : Bool :=
  if tileType d.typ then decide (d.owner < 1024) && (d.typ != secShadow || d.owner % 8 == 0)
  else if d.typ = secXpoint then decide (0x6000 ≤ d.owner) && decide (d.owner < 0x6000 + lineDies)
  else d.owner == ownPackage

/-- Whether a directory entry is well formed and its section lies in the image after the directory. -/
def dirOk (bs : List Byte) (d : Dir) : Bool :=
  !d.spare && decide (1 ≤ d.typ) && decide (d.typ ≤ 0x12) && ownerOk (hAssembly bs / 16) d &&
  (d.alt.isNone || altType d.typ) && d.off % 16 == 0 && decide (d.count ≤ recLimit d.typ) &&
  d.len == recPrefix (hRelocs bs) d.typ + recWidth d.typ * d.count && decide (64 + 16 * hSections bs ≤ d.off) &&
  decide (d.off + d.len ≤ hLength bs)

/-- Whether two entries overlap, or hold the same section (R307). -/
def dirsClash (a b : Dir) : Bool :=
  (decide (a.off < b.off + b.len) && decide (b.off < a.off + a.len)) ||
  (a.typ == b.typ && a.owner == b.owner && a.alt == b.alt)

/-- The first entry that clashes with one before it. -/
def firstClash : List Dir → List Dir → Option Dir
  | _, [] => none
  | seen, d :: t => if seen.any (dirsClash d) then some d else firstClash (d :: seen) t

/-! ## Sections -/

/-- What precedes a section's records: I, H, W, WORDS and 64 STARTs of a TILE section, 64 counts of an XPOINT section. -/
def auxOf (typ : Nat) (bs : List Byte) : List Nat :=
  if typ = secTile then
    [numAt bs 0 1, numAt bs 1 1, numAt bs 2 1, numAt bs 4 4] ++ (takeRecs 2 64 (bs.drop 16)).map (fun x => x.toNat)
  else if typ = secXpoint then (takeRecs 4 64 bs).map (fun x => x.toNat)
  else []

/-- A section read from the image. -/
def sectionAt (bs : List Byte) (d : Dir) : Section_ :=
  let body := bs.drop d.off
  { dir := d.index, typ := d.typ, alt := d.alt, owner := d.owner, aux := auxOf d.typ body,
    recs := takeRecs (recWidth d.typ) d.count (body.drop (recPrefix (hRelocs bs) d.typ)) }

def sectionsOf (bs : List Byte) : List Section_ := (dirsOf bs).map (sectionAt bs)

/-- The relocation slots of the image; RELOC_COUNT slots of 0 where it has no RELOC section. -/
def slotsOf (bs : List Byte) : List Word64 :=
  match (dirsOf bs).find? (fun d => d.typ == secReloc) with
  | some d => (takeRecs 8 (hRelocs bs) (bs.drop d.off)).map (fun x => x.extractLsb' 0 64)
  | none => List.replicate (hRelocs bs) 0

/-! ## What R264 reads as 0 -/

/-- The image with one section's relocation slots or far serials read as 0. -/
def blankSection (relocs : Nat) (bs : List Byte) (d : Dir) : List Byte :=
  if d.typ = secReloc then zeroRange bs d.off (8 * relocs)
  else if d.typ = secTopology then (List.range d.count).foldl (fun a k => zeroRange a (d.off + 16 * k + 8) 8) bs
  else bs

/-- The image as R264 reads it. -/
def blankImage (bs : List Byte) : List Byte := (dirsOf bs).foldl (blankSection (hRelocs bs)) bs

/-! ## Records (Table 14-4) -/

/-- The reserved bits of a record, as places and widths. -/
def spareBits (typ : Nat) : List (Nat × Nat) :=
  match typ with
  | 0x01 => [(6, 2), (14, 2), (27, 1), (31, 33)]
  | 0x02 => [(11, 5)]
  | 0x03 => [(3, 5), (14, 2), (19, 5), (32, 32)]
  | 0x04 => [(6, 2), (14, 18)]
  | 0x05 => [(12, 52)]
  | 0x07 => [(29, 3), (46, 2)]
  | 0x08 => [(48, 16)]
  | 0x09 => [(25, 7)]
  | 0x0A => [(42, 22)]
  | 0x0B => [(60, 4)]
  | 0x0C => [(94, 2), (120, 8)]
  | 0x0D => [(94, 2), (120, 8)]
  | 0x0E => [(47, 1), (73, 7), (104, 24)]
  | 0x0F => [(60, 4)]
  | 0x10 => [(8, 120)]
  | 0x11 => [(24, 8), (48, 16)]
  | 0x12 => [(11, 5), (22, 10), (43, 5), (54, 2), (59, 1), (63, 65)]
  | _ => []

/-- Whether a crosspoint entry's fields are in range (Table 6-7). -/
def xpOk (e : BitVec 256) : Bool :=
  decide (xPos e ≤ 9) &&
  (if xReceive e then decide (xKind e ≤ 1) else decide (xKind e ≤ 2) && (xKind e != 1 || fld e 34 6 == 0))

/-- Whether a block entry's generation fields are in range (Table 5-3). -/
def genFieldsOk (e : BitVec 256) : Bool :=
  match fld e 30 2 with
  | 2 => fld e 32 16 != 0
  | 3 => false
  | _ => fld e 32 16 == 0

/-- The records of the first section of a type. -/
def firstRecs (ss : List Section_) (typ : Nat) (alt : Option Nat) : List (BitVec 256) :=
  match ss.find? (fun x => x.typ == typ && x.alt == alt) with
  | some x => x.recs
  | none => []

/-- The patterns that a phase counts. -/
def patternCount (ss : List Section_) (alt : Option Nat) : Nat :=
  let own := (firstRecs ss secPatterns alt).length
  if own = 0 then (firstRecs ss secPatterns none).length else own

/-- The phases of a Reel. -/
def phaseCount (ss : List Section_) : Nat := (firstRecs ss secPhases none).length

/-- The type of the section that a fixup's KIND may name. -/
def fixupTarget (kind typ : Nat) : Bool :=
  match kind with
  | 0 => typ == secWindow
  | 1 => typ == secWindow
  | 2 => typ == secWeights || typ == secInputs
  | 3 => typ == secFarFill
  | _ => false

/-- Whether a fixup names a slot, and a record of a section that its KIND fits. -/
def fixupOk (relocs : Nat) (ss : List Section_) (e : BitVec 256) : Bool :=
  decide (fld e 0 16 < relocs) &&
  (match ss[fld e 16 16]? with
    | some x => fixupTarget (fld e 56 4) x.typ && decide (fld e 32 24 < x.recs.length)
    | none => false)

/-- Whether the fields of a record that have a stated range lie in it. -/
def rangeFieldsOk (relocs : Nat) (ss : List Section_) (x : Section_) (e : BitVec 256) : Bool :=
  match x.typ with
  | 0x01 => decide (1 ≤ fld e 28 3) && decide (fld e 28 3 ≤ 4)
  | 0x03 => decide (1 ≤ fld e 0 3) && decide (fld e 0 3 ≤ 4) && decide (fld e 8 6 ≤ 48) &&
      (decide (fld e 24 8 ≤ 250) || fld e 24 8 == 0xFF)
  | 0x04 => decide (fld e 0 6 < patternCount ss x.alt) && decide (fld e 8 6 < phaseCount ss) && decide (1 ≤ fld e 32 32) &&
      (match x.alt with | some k => fld e 8 6 == k | none => true)
  | 0x08 => genFieldsOk e
  | 0x09 => decide (fld e 20 4 ≤ 14)
  | 0x0B => xpOk e
  | 0x0F => fixupOk relocs ss e
  | 0x10 => decide (fld e 0 6 < patternCount ss none) && decide (fld e 6 2 ≤ 2)
  | 0x11 => decide (fld e 12 6 < patternCount ss x.alt)
  | _ => true

/-- Whether a record is well formed. -/
def recordOk (relocs : Nat) (ss : List Section_) (x : Section_) (e : BitVec 256) : Bool :=
  (spareBits x.typ).all (fun p => fld e p.1 p.2 == 0) && rangeFieldsOk relocs ss x e

/-- The first identity of JOB_IDS that does not lie above the one before it (Table 14-5): the one order that the loader checks. -/
def firstDisorder (typ : Nat) : Nat → List (BitVec 256) → Option Nat
  | i, a :: b :: t =>
    if typ = secJobIds ∧ fld b 0 11 ≤ fld a 0 11 then some (i + 1) else firstDisorder typ (i + 1) (b :: t)
  | _, _ => none

/-- Whether what precedes a section's records is well formed. -/
def auxOk (ss : List Section_) (bs : List Byte) (d : Dir) (x : Section_) : Bool :=
  (match x.alt with | some k => decide (k < phaseCount ss) | none => true) &&
  (if x.typ = secTile then
    numAt bs (d.off + 3) 1 == 0 && numAt bs (d.off + 8) 8 == 0 && x.aux.getD 3 0 == d.count &&
    decide (d.count ≤ 256 * x.aux.getD 0 0) && (x.aux.drop 4).all (fun k => k == 0xFFFF || decide (k < d.count))
  else if x.typ = secXpoint then x.aux.foldl (· + ·) 0 == d.count
  else true)

/-! ## The job's links (R146) -/

/-- One end of a link: identity and port, the far identity and port, and the class of the frames that it receives. -/
abbrev LinkEnd := Nat × Nat × Nat × Nat × Nat

/-- The two ends of a JOB_LINKS record. -/
def linkEnds (e : BitVec 256) : List LinkEnd :=
  let a := fld e 0 11
  let pa := fld e 16 6
  let b := fld e 32 11
  let pb := fld e 48 6
  [(a, pa, b, pb, fld e 60 3), (b, pb, a, pa, fld e 56 3)]

/-- The end that a TOPOLOGY record of the package describes. -/
def topoEnd (pkg : Nat) (e : BitVec 256) : LinkEnd := (pkg, fld e 0 6, fld e 16 11, fld e 8 6, fld e 28 3)

/-- Whether two records list one link. -/
def sameLink (a b : BitVec 256) : Bool :=
  (linkEnds a).any (fun x => (linkEnds b).any (fun y => x.1 == y.1 && x.2.1 == y.2.1 && x.2.2.1 == y.2.2.1 &&
    x.2.2.2.1 == y.2.2.2.1))

/-- The first record that repeats a link before it or names an identity outside the job. -/
def firstBadLink (ids : List Nat) : Nat → List (BitVec 256) → List (BitVec 256) → Option Nat
  | _, _, [] => none
  | i, seen, e :: t =>
    if seen.any (sameLink e) || !(ids.contains (fld e 0 11) && ids.contains (fld e 32 11)) then some i
    else firstBadLink ids (i + 1) (e :: seen) t

/-- Whether the package's own links are the same in JOB_LINKS and TOPOLOGY. -/
def ownLinksAgree (pkg : Nat) (links topo : List (BitVec 256)) : Bool :=
  let mine := (links.flatMap linkEnds).filter (fun x => x.1 == pkg)
  let ends := topo.map (topoEnd pkg)
  mine.all (fun x => ends.contains x) && ends.all (fun x => mine.contains x)

/-! ## Fixups (R312) -/

/-- The field that a fixup's KIND names: its place and width. -/
def fixupField (kind : Nat) : Nat × Nat :=
  match kind with
  | 0 => (0, 20)
  | 1 => (40, 20)
  | 2 => (96, 24)
  | _ => (80, 24)

/-- The bound of a relocated field: below it, for a window of a number of panels. -/
def fixupBound (panels kind : Nat) : Nat := if kind < 2 then min panels (2 ^ 20) else min (15 * panels) (2 ^ 24)

/-- The fixups of a Reel. -/
def fixupsOf (ss : List Section_) : List (BitVec 256) := firstRecs ss secReloc none

/-- Whether two fixups have the same target field. -/
def sameTarget (a b : BitVec 256) : Bool := fld a 16 16 == fld b 16 16 && fld a 32 24 == fld b 32 24 && fld a 56 4 == fld b 56 4

/-- The value that fixups add to the target field of one of them. -/
def fixupSum (fixups : List (BitVec 256)) (slots : List Word64) (e : BitVec 256) : Nat :=
  ((fixups.filter (sameTarget e)).map (fun f => (slots.getD (fld f 0 16) 0).toNat)).foldl (· + ·) 0

/-- The record that a fixup names, in the image. -/
def fixupRecord (ss : List Section_) (e : BitVec 256) : BitVec 256 :=
  match ss[fld e 16 16]? with
  | some x => x.recs.getD (fld e 32 24) 0
  | none => 0

/-- The field in force of a fixup's target. -/
def fixedValue (ss : List Section_) (slots : List Word64) (e : BitVec 256) : Nat :=
  let p := fixupField (fld e 56 4)
  fld (fixupRecord ss e) p.1 p.2 + fixupSum (fixupsOf ss) slots e

/-- A record with a fixup's field in force. -/
def putField (v : Nat) (kind : Nat) (x : BitVec 256) : BitVec 256 :=
  let p := fixupField kind
  BitVec.ofNat 256 (withBits x.toNat p.1 p.2 v)

/-- Sections with a fixup applied; `image` holds the compiled values. -/
def applyFixup (image : List Section_) (slots : List Word64) (ss : List Section_) (e : BitVec 256) : List Section_ :=
  ss.map (fun x =>
    if x.dir = fld e 16 16 then
      { x with recs := x.recs.modify (fld e 32 24) (putField (fixedValue image slots e) (fld e 56 4)) }
    else x)

/-- The installed copy of every section, its relocated fields in force. -/
def installed (image : List Section_) (slots : List Word64) : List Section_ :=
  (fixupsOf image).foldl (applyFixup image slots) image

/-- Whether a fixup of an installed section puts its field out of range (R312). -/
def rangeBad (strict : Bool) (panels : Nat) (image : List Section_) (slots : List Word64) (e : BitVec 256) : Bool :=
  (match image[fld e 16 16]? with | some x => x.alt.isNone || strict | none => false) &&
  decide (fixupBound panels (fld e 56 4) ≤ fixedValue image slots e)

/-- The first fixup whose field leaves its range. -/
def firstRange (strict : Bool) (panels : Nat) (image : List Section_) (slots : List Word64) : Option (BitVec 256) :=
  (fixupsOf image).find? (rangeBad strict panels image slots)

end Sys2Proof.Machine
end

