-- ==== Sys2Proof/Machine/Panels.lean ====
section
/-! DEFINITION. The Gondola window as the part reaches it: block slots of BLOCKS panels in their backing (R291, Table 13-10), and the
provenance record (R267, R268). -/

namespace Sys2Proof.Machine

/-- An address in the backing of a linear slot: `off` plus `w` for each slot of the panel. -/
def slotAddr (s : State) (n off w : Nat) : Nat := (panelOf s (n / 15)).backing + off + w * (n % 15)

def payloadAddr (s : State) (n : Nat) : Nat := slotAddr s n 0 0x1000
def envAddr (s : State) (n : Nat) : Nat := slotAddr s n 0xF000 0x20
def provAddr (s : State) (n : Nat) : Nat := slotAddr s n 0xF200 0x80
def lockAddr (s : State) (n : Nat) : Nat := slotAddr s n 0xFA00 8

/-- The Envelope of a linear slot. -/
def slotEnv (s : State) (n : Nat) : EnvBits := envOf (readBytes (hostMem s) (envAddr s n) 32)

/-- The block of a linear slot. -/
def slotBlk (s : State) (n : Nat) : Blk :=
  { payload := pageOf (readBytes (hostMem s) (payloadAddr s n) 4096), env := slotEnv s n }

/-- Whether the part owns a panel that holds blocks. -/
def devicePanel (s : State) (p : Nat) : Bool :=
  decide (p < s.window.size) && (panelOf s p).st == .device && (panelOf s p).blocks

/-- The panels that a block's release writes: of a GTREE the leaf's, and the target's for RANK 0 alone (R299). -/
def writtenPanels (b : StageBlk) : List Nat :=
  if b.kind = .gtree then
    (nLeaf b.entry (nRank b.entry) / 15) :: (if nRank b.entry = 0 then [nTarget b.entry / 15] else [])
  else [nTarget b.entry / 15]

/-- Whether a panel that was taken while a released block of it was still staged waits for the block (R293). -/
def waitsFor (s : State) (b : StageBlk) (p : Nat) : Bool := (panelOf s p).st == .moving && b.awaited.contains p

/-- Whether the part may write the panels of a release: each is DEVICE, or moves and waits for this block (R293, R299). -/
def ownsPanels (s : State) (b : StageBlk) : Bool := (writtenPanels b).all (fun p => devicePanel s p || waitsFor s b p)

/-- Bytes written into host memory. -/
def hostWrite (a : Nat) (bs : List Byte) (s : State) : State := setHostMem (writeBytes (hostMem s) a bs) s

/-- A block written into a linear slot: payload, provenance record where there is one, Envelope last (R298). -/
def writeSlot (n : Nat) (b : Blk) (prov : List Byte) (s : State) : State :=
  hostWrite (envAddr s n) (envBytes b.env)
    (hostWrite (provAddr s n) prov (hostWrite (payloadAddr s n) (pageBytes b.payload) s))

/-! ## Provenance -/

/-- Fields of a list entry (Table 14-4). -/
def lTag (e : BitVec 256) : Nat := fld e 0 64
def lBlock (e : BitVec 256) : Nat := fld e 64 25
def lStack (e : BitVec 256) : Nat := fld e 89 3
def lPaired (e : BitVec 256) : Bool := bit e 92
def lFar (e : BitVec 256) : Bool := bit e 93
def lSource (e : BitVec 256) : Nat := fld e 96 24

/-- Fields of a FAR_FILL record (Table 14-4). -/
def fStep (e : BitVec 256) : Nat := fld e 0 32
def fSlot (e : BitVec 256) : Nat := fld e 32 12
def fStack (e : BitVec 256) : Nat := fld e 44 3
def fBlock (e : BitVec 256) : Nat := fld e 48 25
def fHome (e : BitVec 256) : Nat := fld e 80 24

/-- Whether a far-fill record fills the cache block of a far list entry from its home. -/
def fills (l f : BitVec 256) : Bool :=
  lFar l && lStack l == fStack f && lBlock l == fBlock f && lSource l == fHome f

/-- A far-fill slot's place in the job: step, then slot. -/
def fillKey (f : BitVec 256) : Nat := 2 ^ 12 * fStep f + fSlot f

/-- The first far-fill slot of a far list entry, which the records may list in any order (R266, log 56): its place in the job. -/
def firstFill (r : Reel) (l : BitVec 256) : Option Nat := (((pkgRecs r secFarFill).filter (fills l)).map fillKey).min?

/-- INPUT_COUNT of a block of a step (R268): the resident entries and those whose first far-fill slot has come. -/
def inputCount (r : Reel) (step : Nat) : Nat :=
  ((pkgRecs r secInputs).filter (fun l =>
    !lFar l || (firstFill r l).any (fun k => decide (k / 2 ^ 12 ≤ step)))).length

/-- FLAGS of a record (Table 12-4). -/
def provFlags (r : Reel) (count : Nat) : Nat :=
  flag r.strict + 2 * flag r.vari + 4 * flag (reelFar r) + 8 * flag (count == (pkgRecs r secInputs).length) + 2 ^ 6

/-- The provenance record of a block of a step (Table 12-3). -/
def provRecord (s : State) (r : Reel) (start step : Nat) : List Byte :=
  let k := inputCount r step
  let cls := match stepPlan r step with | some x => phaseClass r x.2 | none => 0
  let body := digestBytes r.program ++ digestBytes r.weights ++ digestBytes (inputsDigest (s.det.leaves.take k)) ++
    leBytes 8 start ++ leBytes 8 s.ident.serial.toNat ++ leBytes 4 step ++ leBytes 4 k ++ leBytes 2 (selfId s).toNat ++
    leBytes 1 cls ++ leBytes 1 (provFlags r k)
  body ++ leBytes 4 (crc32c body)

end Sys2Proof.Machine
end

