-- ==== Sys2Proof/Machine/LoadChecks.lean ====
section
/-! DEFINITION. What the loader refuses before it looks at the schedule: the image, its target, relocation, strict alternates, units,
ports, the diameter, capacity and Pocket layout (Table 14-5, statuses REEL_FORMAT to POCKET_LAYOUT). -/

namespace Sys2Proof.Machine

/-- A refusal: its status and DETAIL, and the failing item as LDR_WHERE names it (R311). -/
structure Bad where
  status : Nat
  detail : Nat
  unit : Nat
  dir : Nat
  record : Nat
  slot : Nat
  pattern : Nat
  deriving DecidableEq, Repr

/-- A refusal that names no item. -/
def refusal (status : Nat) : Bad where
  status := status
  detail := 0
  unit := 0xFFFF
  dir := 0xFFFF
  record := 2 ^ 32 - 1
  slot := 0xFFF
  pattern := 0x3F

/-- A refusal when a condition holds. -/
def badIf (c : Bool) (b : Bad) : Option Bad := if c then some b else none

/-- A refusal at a section. -/
def badSection (status owner dir : Nat) : Bad := { refusal status with unit := owner, dir := dir }

/-- A refusal at a record of a section. -/
def badRecord (status : Nat) (x : Section_) (i : Nat) : Bad :=
  { refusal status with unit := x.owner, dir := x.dir, record := i }

/-! ## REEL_FORMAT -/

/-- The first directory entry that is malformed or clashes. -/
def badDirs (bs : List Byte) : Option Bad :=
  (((dirsOf bs).find? (fun d => !dirOk bs d)) <|> firstClash [] (dirsOf bs)).map (fun d => badSection 0x101 d.owner d.index)

/-- The first record of a section that a test rejects. -/
def firstRecord (status : Nat) (x : Section_) (p : BitVec 256 → Bool) : Option Bad :=
  (x.recs.zipIdx.find? (fun e => p e.1)).map (fun e => badRecord status x e.2)

/-- What is wrong within a section. In production the loader ignores the records of a HAZARD section (R318). -/
def badSectionBody (debug : Bool) (bs : List Byte) (ss : List Section_) (x : Section_) : Option Bad :=
  if x.typ = secHazard ∧ !debug then none else
  badIf (!auxOk ss bs (dirAt bs x.dir) x) (badSection 0x101 x.owner x.dir) <|>
  firstRecord 0x101 x (fun e => !recordOk (hRelocs bs) ss x e) <|>
  (firstDisorder x.typ 0 x.recs).map (badRecord 0x101 x)

/-- A section of the package, by type. -/
def pkgSection (ss : List Section_) (typ : Nat) : Section_ :=
  (ss.find? (fun x => x.typ == typ && x.alt.isNone)).getD
    { dir := 0xFFFF, typ := typ, alt := none, owner := ownPackage, aux := [], recs := [] }

/-- JOB_LINKS against JOB_IDS and TOPOLOGY (R146). -/
def badLinks (pkg : Nat) (ss : List Section_) : Option Bad :=
  let links := pkgSection ss secJobLinks
  let ids := (firstRecs ss secJobIds none).map (fun e => fld e 0 11)
  (firstBadLink ids 0 [] links.recs).map (badRecord 0x101 links) <|>
  badIf (!ownLinksAgree pkg links.recs (firstRecs ss secTopology none)) (badSection 0x101 links.owner links.dir)

/-- The directory, the body CRC and the sections of an image whose header is well formed. -/
def badBody (debug : Bool) (bs : List Byte) : Option Bad :=
  badDirs bs <|>
  badIf (crc32c ((blankImage bs).drop 64) != hBodyCrc bs) (refusal 0x101) <|>
  (sectionsOf bs).findSome? (badSectionBody debug bs (sectionsOf bs)) <|>
  badLinks (hPkgId bs) (sectionsOf bs)

/-- REEL_FORMAT, but for the length of the job. -/
def badFormat (debug : Bool) (bs : List Byte) (len : Nat) : Option Bad :=
  if headerOkImg bs len then badBody debug bs else some (refusal 0x101)

/-- A job of no step, or longer than 2^32 - 1 steps. -/
def badLength (r : Reel) : Option Bad :=
  let x := pkgSection r.sections secSequence
  badIf (stepTotal r == 0 || decide (2 ^ 32 - 1 < stepTotal r)) (badSection 0x101 x.owner x.dir)

/-! ## REEL_TARGET -/

/-- Whether the image is compiled for this package. -/
def targetOk (s : State) (bs : List Byte) (r : Reel) : Bool :=
  hPart bs == 0xCA1C && hStep bs == 0x21 && hIsa bs == 0x0100 && hAssembly bs == s.ident.memDies + 16 * s.ident.lineDies &&
  hPkgId bs == s.bridle.committed.id.toNat && s.bridle.committed.idValid && (jobIds r).contains (hPkgId bs)

/-! ## Window addresses -/

/-- A relocated field that leaves its range (R312). -/
def badRange (s : State) (strict : Bool) (image : List Section_) (slots : List Word64) : Option Bad :=
  (firstRange strict s.window.size image slots).map (fun e =>
    { refusal 0x103 with
        unit := ((image[fld e 16 16]?).map (fun x => x.owner)).getD 0xFFFF
        dir := fld e 16 16
        record := fld e 32 24 })

/-- A SOURCE or HOME in a panel that is not DEVICE or not BLOCKS. -/
def badPanels (s : State) (r : Reel) : Option Bad :=
  let out := fun (n : Nat) => !devicePanel s (n / 15)
  firstRecord 0x17 (pkgSection r.sections secWeights) (fun e => out (lSource e)) <|>
  firstRecord 0x17 (pkgSection r.sections secInputs) (fun e => out (lSource e)) <|>
  firstRecord 0x17 (pkgSection r.sections secFarFill) (fun e => out (fHome e))

/-! ## Steps, tiles and words -/

/-- The pattern and phase of every kind of step that the job runs. -/
def variants (r : Reel) : List (Nat × Nat) := ((seqOf r).map (fun x => (x.1, x.2.1))).eraseDups

/-- The tiles with a TILE section in force. -/
def tileOwners (r : Reel) : List Nat := ((liveSections r secTile).map (fun x => x.owner)).eraseDups

/-- The words of a tile in a kind of step, with their places in the run. -/
def runOf (r : Reel) (u : Nat) (v : Nat × Nat) : List (Rec128 × Nat) := (stepWords r u v.2 v.1).zipIdx

/-- A refusal at a word of a tile's list. -/
def badWord (r : Reel) (status u : Nat) (v : Nat × Nat) (x : Rec128 × Nat) : Bad :=
  { refusal status with
      unit := u
      dir := ((secOf r secTile u v.2).map (fun y => y.dir)).getD 0xFFFF
      record := ((secOf r secTile u v.2).map (fun y => y.aux.getD (4 + v.1) 0)).getD 0 + x.2
      slot := wSlot x.1
      pattern := v.1 }

/-- The first word, over tiles and kinds of step, that a test rejects. -/
def firstWord (r : Reel) (status : Nat) (p : Nat → Nat × Nat → Rec128 → Bool) : Option Bad :=
  (tileOwners r).findSome? (fun u => (variants r).findSome? (fun v =>
    ((runOf r u v).find? (fun x => p u v x.1)).map (badWord r status u v)))

/-- The first word of some lists that a test rejects, whether a run reaches it or not; the test is told the list's tile and its phase,
0x100 for a list that is no alternate's. No pattern is named. -/
def firstListed (xs : List Section_) (status : Nat) (p : Nat → Nat → Rec128 → Bool) : Option Bad :=
  xs.findSome? (fun x => (x.recs.zipIdx.find? (fun e => p x.owner (x.alt.getD 0x100) (e.1.extractLsb' 0 128))).map (fun e =>
    { badRecord status x e.2 with slot := wSlot (e.1.extractLsb' 0 128) }))

/-! ## Strict mode (R259, R260) -/

/-- A section that holds a word with V. -/
def holdsV (x : Section_) : Bool := x.typ == secTile && x.recs.any (fun e => wV (e.extractLsb' 0 128))

/-- A phase that holds a V word and has no alternate, or an alternate that holds one: the first such word is named (R311). -/
def badStrict (r : Reel) : Option Bad :=
  if r.strict then
    firstWord { r with strict := false } 0x105 (fun _ v w => wV w && !hasAlternate r v.2) <|>
    firstListed (r.sections.filter (fun x => x.alt.isSome && x.typ == secTile)) 0x105 (fun _ _ w => wV w) <|>
    firstWord r 0x105 (fun _ _ w => wV w)
  else none

/-- Debug mode without a hazard annex for a TILE section (R318). -/
def badAnnex (r : Reel) : Option Bad :=
  if r.debug then
    ((liveSections r secTile).find? (fun x => !(r.sections.any (fun y =>
      y.typ == secHazard && y.owner == x.owner && (y.alt == x.alt || y.alt.isNone))))).map
      (fun x => badSection 0x106 x.owner x.dir)
  else none

/-! ## Units and ports -/

/-- The unit indices that the Reel names: tiles, ports, stacks. -/
def namedUnits (r : Reel) : List Nat := (List.range 1080).filter (fun i => reelNames r i)

/-- A section, a record's place in it, and the record. -/
abbrev Named := Section_ × Nat × BitVec 256

/-- The records of some sections that a test picks, in order. -/
def recordsWhere (xs : List Section_) (p : Section_ → BitVec 256 → Bool) : List Named :=
  xs.flatMap (fun x => (x.recs.zipIdx.filter (fun e => p x e.1)).map (fun e => (x, e.2, e.1)))

/-- A refusal of a unit at the first of the records that name it (R311). -/
def badNamed (status unit : Nat) (l : List Named) : Bad :=
  match l with
  | x :: _ => { badRecord status x.1 x.2.1 with unit := unit }
  | [] => { refusal status with unit := unit }

/-- The records that name a port: of TOPOLOGY, of the crosspoint tables, of the route tables. -/
def portRecords (r : Reel) (p : Nat) : List Named :=
  recordsWhere [pkgSection r.sections secTopology] (fun _ e => fld e 0 6 == p) ++
  recordsWhere (liveSections r secXpoint) (fun x e => 16 * (x.owner - 0x6000) + xPort e == p) ++
  recordsWhere (liveSections r secRoutes) (fun _ e => fld e 40 6 == p)

/-- The records that name a stack. -/
def stackRecords (r : Reel) (k : Nat) : List Named :=
  recordsWhere (liveSections r secBlocks) (fun _ e => fld e 25 3 == k) ++
  recordsWhere [pkgSection r.sections secWeights, pkgSection r.sections secInputs] (fun _ e => fld e 89 3 == k) ++
  recordsWhere [pkgSection r.sections secFarFill] (fun _ e => fld e 44 3 == k)

/-- A unit of the Reel that is FENCED or OFF: a tile is named by its TILE section, another unit by a record. -/
def badUnit (s : State) (r : Reel) : Option Bad :=
  ((namedUnits r).find? (outOfService s)).map (fun i =>
    let unit := (unitField i).toNat
    if i < 1024 then badSection 0x107 unit (((liveSections r secTile).find? (fun x => x.owner == i)).map (fun x => x.dir) |>.getD 0xFFFF)
    else if i < 1072 then { badNamed 0x107 unit (portRecords r (i - 1024)) with detail := i - 1024 }
    else badNamed 0x107 unit (stackRecords r (i - 1072)))

/-- The first port that the Reel's routes touch, in port order, that a test rejects. -/
def firstPort (r : Reel) (status : Nat) (p : Nat → Bool) : Option Bad :=
  (((List.range 63).filter (fun k => (touchedPorts r).contains k)).find? p).map (fun k =>
    { badNamed status (0x4000 + k) (portRecords r k) with detail := k })

/-- Whether a port's far end is the one that the topology map names (R129): a port that the map leaves out has none (log 56). -/
def farAgrees (s : State) (r : Reel) (p : Nat) : Bool :=
  match topoOf r p with
  | some e => (portOf s p).farSerial.toNat == fld e 64 64 && (portOf s p).farPort.toNat == fld e 8 6
  | none => false

/-- The port refusals (R41, R129). -/
def badPorts (s : State) (r : Reel) : Option Bad :=
  firstPort r 0x108 (fun p => (portOf s p).st != .trained) <|>
  firstPort r 0x109 (fun p => !farAgrees s r p) <|>
  firstPort r 0x10A (fun p => (portOf s p).cls == 0 || decide (topoClass r p < (portOf s p).cls))

/-! ## The job diameter (R146) -/

/-- The hops of the job's links: from, to, and the cost in slots. -/
def hopsOf (links : List (BitVec 256)) : List (Nat × Nat × Nat) :=
  (links.flatMap linkEnds).map (fun x => (x.2.2.1, x.1, x.2.2.2.2 + 1))

/-- Distances after a hop is tried. -/
def tryHop (d : Sparse Nat) (h : Nat × Nat × Nat) : Sparse Nat :=
  match find? h.1 d, find? h.2.1 d with
  | some x, some y => if x + h.2.2 < y then put h.2.1 (x + h.2.2) d else d
  | some x, none => put h.2.1 (x + h.2.2) d
  | none, _ => d

/-- Distances from a package after `n` rounds over every hop. -/
def distances (hops : List (Nat × Nat × Nat)) (a : Nat) : Nat → Sparse Nat
  | 0 => [(a, 0)]
  | n + 1 => hops.foldl tryHop (distances hops a n)

/-- The farthest package from one, none when a package has no path or lies beyond 60 slots. -/
def reachOf (hops : List (Nat × Nat × Nat)) (ids : List Nat) (a : Nat) : Option Nat :=
  let d := distances hops a 30
  if ids.all (fun b => (find? b d).any (fun x => decide (x ≤ 60))) then
    some ((ids.map (fun b => look 0 b d)).foldl max 0) else none

/-- The job diameter, none when it exceeds 60 slots: no path of so few slots has more than 30 hops. -/
def diameterOf (r : Reel) : Option Nat :=
  let hops := hopsOf (pkgRecs r secJobLinks)
  let reach := (jobIds r).map (reachOf hops (jobIds r))
  if reach.all Option.isSome then some ((reach.map (fun x => x.getD 0)).foldl max 0) else none

/-! ## Capacity (R107) -/

/-- The stack blocks that an entry names: both of the pair that an odd BLOCK lies in too (log 78). -/
def namedBlocks (stack block : Nat) (paired : Bool) : List (Nat × Nat) :=
  if paired then [(stack, block / 2 * 2), (stack, block / 2 * 2 + 1)] else [(stack, block)]

/-- Every stack block that the Reel occupies apart from its image. -/
def occupied (r : Reel) : List (Nat × Nat) :=
  ((liveSections r secBlocks).flatMap (fun x => x.recs.flatMap (fun e =>
      namedBlocks (fld e 25 3) (fld e 0 25) (bit e 28 && !bit e 29))) ++
    (pkgRecs r secWeights ++ pkgRecs r secInputs).flatMap (fun e => namedBlocks (lStack e) (lBlock e) (lPaired e && !lFar e)) ++
    (pkgRecs r secFarFill).map (fun e => (fStack e, fBlock e))).eraseDups

/-- Every stack block that the Reel names by its own number. -/
def blocksNamed (r : Reel) : List (Nat × Nat) :=
  (liveSections r secBlocks).flatMap (fun x => x.recs.map (fun e => (fld e 25 3, fld e 0 25))) ++
    (pkgRecs r secWeights ++ pkgRecs r secInputs).map (fun e => (lStack e, lBlock e)) ++
    (pkgRecs r secFarFill).map (fun e => (fStack e, fBlock e))

/-- A stack's blocks over its capacity; W0 holds the image. A block whose number no stack has is over it too (log 57). -/
def excess (imageBlocks : Nat) (occ named : List (Nat × Nat)) (k : Nat) : Nat :=
  max ((occ.filter (fun x => x.1 == k)).length + (if k = 0 then imageBlocks else 0) - stackBlocks)
    (named.filter (fun x => x.1 == k && decide (stackBlocks ≤ x.2))).length

/-- The shortfall in bytes. -/
def shortfall (r : Reel) : Nat :=
  4096 * total ((List.range 8).map
    (excess ((r.image.length + 4095) / 4096) (occupied r) ((occupied r ++ blocksNamed r).eraseDups)))

/-- NO_CAPACITY. -/
def badCapacity (r : Reel) : Option Bad :=
  badIf (shortfall r != 0) { refusal 0x10C with detail := shortfall r }

/-- POCKET_LAYOUT (R69). -/
def badLayout (r : Reel) : Option Bad :=
  ((liveSections r secTile).find? (fun x => decide (128 < x.aux.getD 0 0 + 2 * x.aux.getD 1 0 + x.aux.getD 2 0))).map
    (fun x => badSection 0x10D x.owner x.dir)

/-- The refusals from REEL_TARGET to POCKET_LAYOUT, in order. -/
def badSetup (s : State) (bs : List Byte) (image : List Section_) (r : Reel) : Option Bad :=
  badIf (!targetOk s bs r) (refusal 0x102) <|> badRange s r.strict image r.slots <|> badPanels s r <|>
  badIf (decide (2 ^ 31 ≤ r.jobTag.toNat)) (refusal 0x104) <|> badStrict r <|> badAnnex r <|> badUnit s r <|> badPorts s r <|>
  badIf (diameterOf r).isNone (refusal 0x10B) <|> badCapacity r <|> badLayout r

end Sys2Proof.Machine
end

