-- ==== Sys2Proof/Machine/LoadSched.lean ====
section
/-! DEFINITION. What the loader refuses of the schedule (R316; Table 14-5, statuses LIST_INVALID to TEST_WINDOW). A kind of step is a
pattern with a phase. -/

namespace Sys2Proof.Machine

/-- The first refusal over the kinds of step. -/
def overSteps (r : Reel) (f : Nat × Nat → Option Bad) : Option Bad := (variants r).findSome? f

/-- The commit-point slot of a kind of step. -/
def commitOf (r : Reel) (v : Nat × Nat) : Nat := commitSlot r v.2 v.1

/-- The voltage class of a kind of step. -/
def classOfStep (r : Reel) (v : Nat × Nat) : Nat := phaseClass r v.2

/-! ## LIST_INVALID -/

/-- A word that R62 refuses apart from the order of block parcels: its fields, its regions, the entry that it names. -/
def wordBad (r : Reel) (u : Nat) (v : Nat × Nat) (w : Rec128) : Bool :=
  !fieldsOk w || !operandsOk (regions r u v.2) w ||
  (match wOp w with
    | 0x11 =>
      match routeAt r u v.2 (wImm w) with
      | some e => rInbound e || (wE w && rPort e == 63) || !inRegions (regions r u v.2) (sendLines e w)
      | none => true
    | 0x12 => (blockAt r u v.2 (wImm w)).isNone
    | 0x13 =>
      match blockAt r u v.2 (wImm w) with
      | some e => !bPaired e || bFar e
      | none => true
    | 0x14 => (windowAt r u v.2 (wImm w)).isNone
    | 0x15 => (windowAt r u v.2 (wImm w)).isNone
    | 0x16 => (windowAt r u v.2 (wImm w)).isNone
    | _ => false)

/-- The index of the block parcel that a SEND sends, none for another word. -/
def blockParcel (r : Reel) (u : Nat) (v : Nat × Nat) (w : Rec128) : Option Nat :=
  if wOp w = 0x11 then
    match routeAt r u v.2 (wImm w) with
    | some e => if rBlock e then some (sendPidx e w) else none
    | none => none
  else none

/-- Whether a block parcel breaks the order of R95, given the routes that hold an Envelope. -/
def parcelBad (held : List Nat) (route : Nat) (p : Option Nat) : Bool :=
  match p with
  | some k => (k == 8 && held.contains route) || (decide (8 < k) && !held.contains route)
  | none => false

/-- The routes that hold an Envelope after a word. -/
def heldAfter (held : List Nat) (route : Nat) (p : Option Nat) : List Nat :=
  if p = some 8 then route :: held else if p = some 15 then held.filter (fun x => x != route) else held

/-- Whether a word may not follow an EXIT_IF before the C word (R63). -/
def afterExitBad (w : Rec128) : Bool := !wC w && (wOp w == 0x02 || (decide (0x11 ≤ wOp w) && decide (wOp w ≤ 0x16)))

/-- The first word of a run that is bad in itself or in its place: `free` is the first token that R55 allows it. -/
def walkRun (r : Reel) (u : Nat) (v : Nat × Nat) : Nat → List Nat → Bool → List (Rec128 × Nat) → Option (Rec128 × Nat)
  | _, _, _, [] => none
  | free, held, exited, x :: t =>
    let w := x.1
    let p := blockParcel r u v w
    if decide (wStart w < free) || wordBad r u v w || parcelBad held (wImm w) p || (exited && afterExitBad w) then some x
    else walkRun r u v (wStart w + opTokens (classOfStep r v) (wOp w)) (heldAfter held (wImm w) p) (exited || wOp w == 0x04) t

/-- Whether a run has no word, or its last is no C word at slot COMMIT (R60). -/
def endBad (r : Reel) (u : Nat) (v : Nat × Nat) : Bool :=
  match (stepWords r u v.2 v.1).getLast? with
  | some w => !wC w || wSlot w != commitOf r v
  | none => true

/-- LIST_INVALID at a tile in a kind of step. -/
def badRun (r : Reel) (u : Nat) (v : Nat × Nat) : Option Bad :=
  (walkRun r u v 0 [] false (runOf r u v)).map (badWord r 0x10E u v) <|>
  badIf (endBad r u v)
    (match (runOf r u v).getLast? with
      | some x => badWord r 0x10E u v x
      | none => { refusal 0x10E with
          unit := u
          dir := ((secOf r secTile u v.2).map (fun y => y.dir)).getD 0xFFFF
          pattern := v.1 })

/-- The patterns that no SEQUENCE record runs, taken with phase 0 (log 56). -/
def idlePatterns (r : Reel) : List (Nat × Nat) :=
  ((List.range 64).filter (fun k => !(variants r).any (fun v => v.1 == k))).map (fun k => (k, 0))

/-- Those of them that a tile's list holds. -/
def idleKinds (r : Reel) (u : Nat) : List (Nat × Nat) := (idlePatterns r).filter (fun v => !(stepWords r u v.2 v.1).isEmpty)

/-- LIST_INVALID: every run of every tile, then each word of a list by itself (R62), whether a run holds it or not. -/
def badLists (r : Reel) : Option Bad :=
  (tileOwners r).findSome? (fun u => (variants r ++ idleKinds r u).findSome? (badRun r u)) <|>
  firstListed (liveSections r secTile) 0x10E (fun u f w => wordBad r u (0, f) w)

/-! ## The crosspoint -/

/-- The line dies of a Reel. -/
def lineDies : List Nat := [0, 1, 2]

/-- XP_TABLE_FULL (R115). -/
def badXpSize (r : Reel) : Option Bad :=
  (lineDies.find? (fun n => decide (262144 <
    (((liveSections r secXpoint).filter (fun x => x.owner == ownLine n)).map (fun x => x.recs.length)).foldl (· + ·) 0))).map
    (fun n => badSection 0x10F (ownLine n)
      (((liveSections r secXpoint).find? (fun x => x.owner == ownLine n)).map (fun x => x.dir) |>.getD 0xFFFF))

/-- The crosspoint entries of a kind of step, with their ports. -/
def xpOf (r : Reel) (v : Nat × Nat) : List (Nat × BitVec 256) :=
  lineDies.flatMap (fun n => (xpEntries r n v.2 v.1).map (fun e => (16 * n + xPort e, e)))

/-- Its transmit entries. -/
def txOf (r : Reel) (v : Nat × Nat) : List (Nat × BitVec 256) := (xpOf r v).filter (fun x => !xReceive x.2)

/-- Its receive entries. -/
def rxOf (r : Reel) (v : Nat × Nat) : List (Nat × BitVec 256) := (xpOf r v).filter (fun x => xReceive x.2)

/-- Whether a SEND makes the parcel that a transmit entry names. -/
def sendsFor (r : Reel) (v : Nat × Nat) (e : BitVec 256) (w : Rec128) : Bool :=
  wOp w == 0x11 && wImm w == xRoute e &&
  (match routeAt r (xUnit e) v.2 (wImm w) with | some a => sendPidx a w == xPidx e | none => false)

/-- Whether two transmit entries name one parcel of a tile. -/
def sameParcel (a b : BitVec 256) : Bool :=
  xKind b == 0 && xUnit a == xUnit b && xRoute a == xRoute b && xPidx a == xPidx b

/-- The SENDs that the departures of a parcel before a slot leave over: each took the earliest that it could. -/
def leftOver (departures : List Nat) (sends : List Rec128) : List Rec128 :=
  departures.foldl (fun l d =>
    match l with
    | w :: t => if wStart w < 64 * d then t else l
    | [] => []) sends

/-- A number put in its place in a rising list. -/
def insertNat (n : Nat) : List Nat → List Nat
  | [] => [n]
  | a :: t => if n ≤ a then n :: a :: t else a :: insertNat n t

def sortNats (l : List Nat) : List Nat := l.foldr insertNat []

/-- The SEND that feeds a departure: the earliest, issued before its slot, that feeds no earlier departure (R116). -/
def feeder (r : Reel) (v : Nat × Nat) (e : BitVec 256) : Option Rec128 :=
  let earlier := sortNats (((txOf r v).filter (fun x => sameParcel e x.2 && decide (xSlot x.2 < xSlot e))).map (fun x => xSlot x.2))
  match leftOver earlier ((stepWords r (xUnit e) v.2 v.1).filter (sendsFor r v e)) with
  | w :: _ => if wStart w < 64 * xSlot e then some w else none
  | [] => none

/-- Whether a transmit entry's parcel counts as one that leaves provisional: every SEND with E set, since the loader traces no tags
(R82, R316, log 75). -/
def leavesProv (r : Reel) (v : Nat × Nat) (e : BitVec 256) : Bool := xKind e == 0 && (feeder r v e).any wE

/-- Whether a port sends a provisional parcel in a slot. -/
def provAt (r : Reel) (v : Nat × Nat) (p slot : Nat) : Bool :=
  (txOf r v).any (fun x => x.1 == p && xSlot x.2 == slot && leavesProv r v x.2)

/-- The parcels of a port in a slot, the carrier of R13 counted. -/
def parcelsAt (r : Reel) (v : Nat × Nat) (p slot : Nat) : Nat :=
  let own := (txOf r v).filter (fun x => x.1 == p && xSlot x.2 == slot)
  own.length + flag (decide (2 ≤ slot) && !own.any (fun x => xPos x.2 == 0) && provAt r v p (slot - 2))

/-- A refusal at a crosspoint entry of a kind of step: its port, its section, its place there, its slot (R311). -/
def badAt (r : Reel) (status : Nat) (v : Nat × Nat) (x : Nat × BitVec 256) : Bad :=
  let at_ : Bad :=
    match secOf r secXpoint (ownLine (x.1 / 16)) v.2 with
    | some y => badRecord status y
        ((y.aux.take v.1).foldl (· + ·) 0 + ((xpEntries r (x.1 / 16) v.2 v.1).findIdx? (fun e => e == x.2)).getD 0)
    | none => refusal status
  { at_ with unit := 0x4000 + x.1, slot := xSlot x.2, pattern := v.1 }

/-- The entry at which a kind of step's table oversubscribes a port: DETAIL is the port (R284). -/
def crowdIn (r : Reel) (v : Nat × Nat) : Option Bad :=
  ((txOf r v).find? (fun x => decide (10 < parcelsAt r v x.1 (xSlot x.2)))).map (fun x =>
    { badAt r 0x110 v x with detail := x.1 })

/-- PORT_OVERSUBSCRIBED (R13, R117): in the table of any pattern. -/
def badCrowd (r : Reel) : Option Bad := (variants r ++ idlePatterns r).findSome? (crowdIn r)

/-- Whether a SEND misses the gather of the departure that it feeds (R116). -/
def feedsLate (r : Reel) (v : Nat × Nat) (e : BitVec 256) : Bool :=
  xKind e == 0 && (feeder r v e).any (fun w => decide (64 * xSlot e ≤ wLast (classOfStep r v) w + 16))

/-- SEND_LATE, at the SEND. -/
def badFeed (r : Reel) : Option Bad :=
  overSteps r (fun v => (txOf r v).findSome? (fun x =>
    if feedsLate r v x.2 then
      ((runOf r (xUnit x.2) v).find? (fun y => feeder r v x.2 == some y.1)).map (badWord r 0x111 (xUnit x.2) v)
    else none))

/-- Whether a word sends early on a route of more than one hop. -/
def sendsFar (r : Reel) (u phase : Nat) (w : Rec128) : Bool :=
  wOp w == 0x11 && wE w && (routeAt r u phase (wImm w)).any (fun e => rHops e != 1)

/-- PROV_MULTIHOP (R119): any SEND that the Reel holds, whether a run reaches it or not. -/
def badMultihop (r : Reel) : Option Bad :=
  firstWord r 0x112 (fun u v w => sendsFar r u v.2 w) <|> firstListed (liveSections r secTile) 0x112 (sendsFar r)

/-! ## Moves -/

/-- The kind of move that an opcode makes. -/
def moveOf (op : Nat) : Option MoveKind :=
  match op with
  | 0x12 => some .bld
  | 0x13 => some .bst
  | 0x14 => some .bwr
  | 0x15 => some .gacc
  | 0x16 => some .gtree
  | _ => none

/-- The stack that a move names, none for a window move. -/
def moveStack (r : Reel) (u : Nat) (v : Nat × Nat) (w : Rec128) : Option Nat :=
  if wOp w = 0x12 ∨ wOp w = 0x13 then (blockAt r u v.2 (wImm w)).map bStack else none

/-- The slots in which a word's move is served and retires (Table 5-4). -/
def moveSlots (r : Reel) (u : Nat) (v : Nat × Nat) (w : Rec128) : Option (Nat × Nat) :=
  (moveOf (wOp w)).map (fun k =>
    let t := moveTimes k (nearStack u ((moveStack r u v w).getD 0))
    (wSlot w + t.1, wSlot w + t.2))

/-- The transfers of a kind of step: stack and service slot. -/
def transfersOf (r : Reel) (v : Nat × Nat) : List (Nat × Nat) :=
  (tileOwners r).flatMap (fun u => (stepWords r u v.2 v.1).filterMap (fun w =>
    match moveStack r u v w, moveSlots r u v w with
    | some k, some t => some (k, t.1)
    | _, _ => none))

/-- The far fills of the steps of a kind: step, stack and slot. -/
def fillsOf (r : Reel) (v : Nat × Nat) : List (Nat × Nat × Nat) :=
  ((pkgRecs r secFarFill).filter (fun f => stepPlan r (fStep f) == some v)).map (fun f => (fStep f, fStack f, fSlot f))

/-- The most transfers that a stack serves in a slot of a kind of step. -/
def busiest (r : Reel) (v : Nat × Nat) : Nat :=
  let moves := transfersOf r v
  let far := fillsOf r v
  max ((moves.map (fun x => (moves.filter (fun y => y == x)).length)).foldl max 0)
    ((far.map (fun x => (far.filter (fun y => y == x)).length + (moves.filter (fun y => y == x.2)).length)).foldl max 0)

/-- FLOOR_INVALID (R102). -/
def badFloor (r : Reel) : Option Bad :=
  ((List.range (pkgRecs r secPhases).length).find? (fun f =>
    decide (6 < phaseFloor r f) || (variants r).any (fun v => v.2 == f && decide (phaseFloor r f < busiest r v)))).map
    (badRecord 0x113 (pkgSection r.sections secPhases))

/-- MOVE_AFTER_COMMIT (R101). -/
def badRetire (r : Reel) : Option Bad :=
  firstWord r 0x114 (fun u v w => (moveSlots r u v w).any (fun t => decide (commitOf r v < t.2)))

/-- The pairs that the BSTs of a kind of step name. -/
def storesOf (r : Reel) (v : Nat × Nat) : List (Nat × Nat) :=
  (tileOwners r).flatMap (fun u => (stepWords r u v.2 v.1).filterMap (fun w =>
    if wOp w = 0x13 then (blockAt r u v.2 (wImm w)).map (fun e => (bStack e, bBlock e / 2)) else none))

/-- DOUBLE_STORE (R98). -/
def badStores (r : Reel) : Option Bad :=
  firstWord r 0x115 (fun u v w => wOp w == 0x13 && (blockAt r u v.2 (wImm w)).any (fun e =>
    decide (1 < ((storesOf r v).filter (fun x => x == (bStack e, bBlock e / 2))).length)))

/-- The slots of the sequence before a step. -/
def slotsBefore (r : Reel) : List (Nat × Nat × Nat) → Nat → Nat
  | [], _ => 0
  | (p, f, n) :: t, k => min k n * (commitSlot r f p + 1) + (if n < k then slotsBefore r t (k - n) else 0)

/-- The slot of a far fill in the whole sequence. -/
def fillSlot (r : Reel) (f : BitVec 256) : Nat := slotsBefore r (seqOf r) (fStep f - 1) + fSlot f

/-- FAR_RATE (R106, R320): more than 32 fills in 32 consecutive slots. -/
def badRate (r : Reel) : Option Bad :=
  let at_ := (pkgRecs r secFarFill).map (fillSlot r)
  firstRecord 0x116 (pkgSection r.sections secFarFill) (fun f =>
    decide (32 < (at_.filter (fun n => decide (n ≤ fillSlot r f) && decide (fillSlot r f < n + 32))).length))

/-! ## The commit point -/

/-- The class of the frames that a port sends: the one that the far package names (R127, R146). -/
def sendClass (r : Reel) (p : Nat) : Nat :=
  let own := fun (x : LinkEnd) => x.1 == r.pkgId && x.2.1 == p
  let far := fun (x : LinkEnd) => x.2.2.1 == r.pkgId && x.2.2.2.1 == p
  match (pkgRecs r secJobLinks).find? (fun e => (linkEnds e).any own) with
  | some e => (((linkEnds e).find? far).map (fun x => x.2.2.2.2)).getD 0
  | none => 0

/-- The operation of a tile that issues at a slot and token. -/
def wordAt (r : Reel) (u : Nat) (v : Nat × Nat) (slot token : Nat) : Option Rec128 :=
  (stepWords r u v.2 v.1).find? (fun w => wSlot w == slot && wToken w == token)

/-- A shadow section's pairs in a kind of step: entry, primary and partner operation. -/
def pairsOf (r : Reel) (v : Nat × Nat) (x : Section_) : List (BitVec 256 × Option Rec128 × Option Rec128) :=
  x.recs.map (fun e => (e, wordAt r (x.owner + shPPos e) v (shPSlot e) (shPToken e),
    wordAt r (x.owner + shSPos e) v (shSSlot e) (shSToken e)))

/-- The shadow sections in force in a kind of step. -/
def shadowsOf (r : Reel) (v : Nat × Nat) : List Section_ :=
  (List.range 128).filterMap (fun g => secOf r secShadow (groupHead g) v.2)

/-- Whether a pair's comparison lies after a slot. -/
def compareLate (cls commit : Nat) (a b : Option Rec128) : Bool :=
  match a, b with
  | some x, some y => decide (commit < max (wDone cls x) (wDone cls y) + 2)
  | _, _ => false

/-- A shadow entry whose comparison lies after the commit point (R202). -/
def badCompare (r : Reel) (v : Nat × Nat) : Option Bad :=
  (shadowsOf r v).findSome? (fun x =>
    ((pairsOf r v x).findIdx? (fun y => compareLate (classOfStep r v) (commitOf r v) y.2.1 y.2.2)).map
      (fun i => { badRecord 0x117 x i with pattern := v.1 }))

/-- COMMIT_TOO_EARLY (R14, R184, R202). -/
def badCommit (r : Reel) : Option Bad :=
  firstWord r 0x117 (fun _ v w => opChecked (wOp w) && decide (commitOf r v < wDone (classOfStep r v) w + 2)) <|>
  overSteps r (fun v => ((txOf r v).find? (fun x =>
    decide (commitOf r v < xSlot x.2 + 2 + sendClass r x.1) && leavesProv r v x.2)).map (badAt r 0x117 v)) <|>
  overSteps r (badCompare r)

/-- The slot in which a SEND to a tile of the package is delivered (R73), 0 for another word. -/
def localArrival (r : Reel) (u : Nat) (v : Nat × Nat) (w : Rec128) : Nat :=
  if wOp w = 0x11 then
    match routeAt r u v.2 (wImm w) with
    | some e => if rPort e = 63 then wDone (classOfStep r v) w + (if u / 512 = rUnit e / 512 then 1 else 2) else 0
    | none => 0
  else 0

/-- STEP_CROSSING (R184). -/
def badCrossing (r : Reel) : Option Bad :=
  overSteps r (fun v =>
    ((txOf r v).find? (fun x => decide (commitOf r v < xSlot x.2 + sendClass r x.1))).map (badAt r 0x118 v) <|>
    ((rxOf r v).find? (fun x => decide (xSlot x.2 < topoClass r x.1) || decide (commitOf r v < xSlot x.2))).map
      (badAt r 0x118 v)) <|>
  firstWord r 0x118 (fun u v w => decide (commitOf r v < localArrival r u v w))

/-! ## The settling head and the window stage -/

/-- The kinds of step that run after step 1. -/
def laterSteps (r : Reel) : List (Nat × Nat) :=
  match seqOf r with
  | [] => []
  | (p, f, n) :: t => (if 1 < n then [(p, f)] else []) ++ t.map (fun x => (x.1, x.2.1))

/-- SETTLE_HEAD (R185). -/
def badHead (r : Reel) (d : Nat) : Option Bad :=
  firstWord r 0x119 (fun u v w => (laterSteps r).contains v && decide (wSlot w < 2 * d + 7) &&
    (wOp w == 0x13 || (dstLines w).any (isHold (regions r u v.2)))) <|>
  ((laterSteps r).find? (fun v => decide (commitOf r v < 2 * d + 7))).map (fun v => { refusal 0x119 with pattern := v.1 })

/-- The window blocks that a kind of step writes. -/
def windowBlocks (r : Reel) (v : Nat × Nat) : Nat :=
  ((tileOwners r).map (fun u => ((stepWords r u v.2 v.1).filter (fun w =>
    decide (0x14 ≤ wOp w) && decide (wOp w ≤ 0x16))).length)).foldl (· + ·) 0

/-- The first record of the sequence in which two consecutive steps overfill the window stage. -/
def firstFull (r : Reel) : Nat → List (Nat × Nat × Nat) → Option (Nat × Nat)
  | _, [] => none
  | i, (p, f, n) :: t =>
    let own := windowBlocks r (p, f)
    let next := match t with | x :: _ => windowBlocks r (x.1, x.2.1) | [] => 0
    if 2048 < own + next ∨ (1 < n ∧ 2048 < 2 * own) then some (i, p) else firstFull r (i + 1) t

/-- WINDOW_STAGE_FULL (R192). -/
def badStage (r : Reel) : Option Bad :=
  (firstFull r 0 (seqOf r)).map (fun x => { badRecord 0x11A (pkgSection r.sections secSequence) x.1 with pattern := x.2 })

/-! ## Shadows (R201, R203) -/

/-- Whether a pair of a kind of step breaks R201: one operation without the other, or two that differ. -/
def pairBad (y : BitVec 256 × Option Rec128 × Option Rec128) : Bool :=
  match y.2.1, y.2.2 with
  | none, none => false
  | some a, some b => !opChecked (wOp a) || wOp a != wOp b || wFmt a != wFmt b || wRnd a != wRnd b || wSat a != wSat b
  | _, _ => true

/-- Whether an entry pairs operations in some kind of step in which its section is in force. -/
def pairsSomewhere (r : Reel) (x : Section_) (i : Nat) : Bool :=
  (variants r).any (fun v => (shadowsOf r v).contains x && ((pairsOf r v x)[i]?).any (fun y => y.2.1.isSome))

/-- The first entry of a shadow section that R201 refuses. -/
def badShadow (r : Reel) (x : Section_) : Option Bad :=
  (List.range x.recs.length).findSome? (fun i =>
    let e := x.recs.getD i 0
    let v := (variants r).find? (fun v => (shadowsOf r v).contains x && ((pairsOf r v x)[i]?).any pairBad)
    badIf (shPPos e == shSPos e || v.isSome || !pairsSomewhere r x i)
      { badRecord 0x11B x i with pattern := (v.map (fun y => y.1)).getD 0x3F })

/-- SHADOW_PAIR. -/
def badPairs (r : Reel) : Option Bad := (liveSections r secShadow).findSome? (badShadow r)

/-- The declared fraction, in sixteenths. -/
def sixteenths (code : Nat) : Nat := if code = 0 then 0 else 2 ^ (code - 1)

/-- The tokens of checked operations that a tile issues in a kind of step. -/
def checkedTokens (r : Reel) (v : Nat × Nat) (p : Nat → Rec128 → Bool) : Nat :=
  ((tileOwners r).map (fun u => (((stepWords r u v.2 v.1).filter (fun w => opChecked (wOp w) && p u w)).map
    (fun w => opTokens (classOfStep r v) (wOp w))).foldl (· + ·) 0)).foldl (· + ·) 0

/-- Whether an operation is the partner of a pair. -/
def isPartner (r : Reel) (v : Nat × Nat) (u : Nat) (w : Rec128) : Bool :=
  (shadowTable r v.2 (groupOf u)).any (fun e => shSPos e == u % 8 && shSSlot e == wSlot w && shSToken e == wToken w)

/-- SHADOW_FRACTION (R203). -/
def badFraction (r : Reel) : Option Bad :=
  badIf (decide (4 < r.shadow)) (refusal 0x11C) <|>
  overSteps r (fun v => badIf (decide (16 * checkedTokens r v (isPartner r v) <
    sixteenths r.shadow * checkedTokens r v (fun _ _ => true))) { refusal 0x11C with pattern := v.1 })

/-! ## Inputs, accumulation, test windows -/

/-- Where an input stands in the order of R266: resident first, then by first far-fill slot. -/
def inputKey (r : Reel) (l : BitVec 256) : Nat :=
  if lFar l then (match firstFill r l with | some k => 1 + k | none => 2 ^ 64) else 0

/-- The first input whose key lies below the one before it. -/
def firstFall (key : BitVec 256 → Nat) : Nat → List (BitVec 256) → Option Nat
  | i, a :: b :: t => if key b < key a then some (i + 1) else firstFall key (i + 1) (b :: t)
  | _, _ => none

/-- INPUT_ORDER (R266). -/
def badInputs (r : Reel) : Option Bad :=
  (firstFall (inputKey r) 0 (pkgRecs r secInputs)).map (badRecord 0x11D (pkgSection r.sections secInputs))

/-- Whether a word accumulates through a window entry with the provenance flag. -/
def accumulatesProv (r : Reel) (u phase : Nat) (w : Rec128) : Bool :=
  (wOp w == 0x15 || wOp w == 0x16) && (windowAt r u phase (wImm w)).any nProv

/-- PROV_ACCUMULATE (R268): any GACC or GTREE that the Reel holds, whether a run reaches it or not. -/
def badAccumulate (r : Reel) : Option Bad :=
  firstWord r 0x11E (fun u v w => accumulatesProv r u v.2 w) <|> firstListed (liveSections r secTile) 0x11E (accumulatesProv r)

/-- ATOMICS_DISABLED (R300): any instruction list of the Reel that holds a GACC. -/
def badAtomics (s : State) (r : Reel) : Option Bad :=
  if s.rings.link.atomics then none
  else firstListed (r.sections.filter (fun x => x.typ == secTile)) 0x1F (fun _ _ w => wOp w == 0x15)

/-- Whether a tile keeps the conditions of a test window in a kind of step (R216). -/
def tileQuiet (r : Reel) (v : Nat × Nat) (u : Nat) : Bool :=
  decide ((stepWords r u v.2 v.1).length ≤ 1) && (stepWords r u v.2 v.1).all (fun w => (moveOf (wOp w)).isNone && wOp w != 0x11) &&
  !(rxOf r v).any (fun x => xKind x.2 == 0 && xUnit x.2 == u) &&
  (tileOwners r).all (fun a => (stepWords r a v.2 v.1).all (fun w => wOp w != 0x11 ||
    (match routeAt r a v.2 (wImm w) with | some e => rPort e != 63 || rUnit e != u | none => true))) &&
  decide (16 ≤ (regions r u v.2).2.2)

/-- Whether a declared set keeps the conditions of a test window in a kind of step. -/
def windowQuiet (r : Reel) (v : Nat × Nat) (e : BitVec 256) : Bool :=
  match fld e 6 2 with
  | 0 => (List.range 1024).all (fun u => !bit e (128 + u / 512 * 64 + u % 512 / 8) || tileQuiet r v u)
  | 1 => (xpOf r v).all (fun x => !bit e (128 + x.1))
  | _ => true

/-- TEST_WINDOW (R216). -/
def badWindows (r : Reel) : Option Bad :=
  overSteps r (fun v => (firstRecord 0x11F (pkgSection r.sections secTestWin) (fun e =>
    fld e 0 6 == v.1 && !windowQuiet r v e)).map (fun b => { b with pattern := v.1 }))

/-- The refusals of the schedule, in order; `d` is the job diameter. -/
def badSchedule (s : State) (r : Reel) (d : Nat) : Option Bad :=
  badLists r <|> badXpSize r <|> badCrowd r <|> badFeed r <|> badMultihop r <|> badFloor r <|> badRetire r <|> badStores r <|>
  badRate r <|> badCommit r <|> badCrossing r <|> badHead r d <|> badStage r <|> badPairs r <|> badFraction r <|>
  badInputs r <|> badAccumulate r <|> badAtomics s r <|> badWindows r

end Sys2Proof.Machine
end

