-- ==== Sys2Proof/Machine/Memory.lean ====
section
/-! DEFINITION. The memory stacks at work: block moves served and retired (R94, R97, R100, R104), the far tier (R105, R106, R266), and
the release of staged blocks (R192, R268, R298 to R301). -/

namespace Sys2Proof.Machine

/-- A block of a stack; an unlisted one is the scrubbed block. -/
def blkAt (s : State) (k b : Nat) : Blk := look Blk.scrubbed b (memOf s k).blocks

/-- A stack with a block written. -/
def putBlk (k b : Nat) (v : Blk) (s : State) : State :=
  updMem k (fun m => { m with blocks := store Blk.scrubbed b v m.blocks, unfin := erase b m.unfin }) s

/-- A block that a BST writes: no final step wrote it (R196). -/
def putStored (k b : Nat) (v : Blk) (s : State) : State :=
  updMem k (fun m => { m with unfin := put b (cnt s + 1) m.unfin }) (putBlk k b v s)

/-- The block that a pair's side names: the committed side, or the other one (R97); of an odd BLOCK too (log 78). -/
def sideBlock (s : State) (k b : Nat) (other : Bool) : Nat := b + flag (look false b (memOf s k).sel != other)

/-- The block that a BLD of an entry reads, of a far pair as well (log 78). -/
def loadBlock (s : State) (e : Rec128) : Nat :=
  if bPaired e then sideBlock s (bStack e) (bBlock e) false else bBlock e

/-! ## Service -/

/-- What a stack counts of a transfer (R87, R204, Table 10-5). -/
def countTransfer (k : Nat) (r : MoveService) (s : State) : State :=
  let i := 1072 + k
  let s1 := updTotals (fun t => { t with memCorr := t.memCorr + r.corrected, memUncorr := t.memUncorr + r.uncorrectable }) s
  let s2 := updHealth i (fun h =>
    { h with c0 := min (h.c0 + r.corrected) (2 ^ 32 - 1), c1 := min (h.c1 + r.uncorrectable) (2 ^ 32 - 1),
             score := min 255 (h.score + r.uncorrectable) }) s1
  if r.uncorrectable = 0 then s2 else judge 0x0581 i s2

/-- A block as a transfer with an uncorrectable burst delivers it (R104; log 29). -/
def noisy (s : State) (u : Nat) (b : Blk) : Blk :=
  let x := Config.burstNoise (cnt s) u
  { payload := b.payload ^^^ x.extractLsb' 256 32768, env := b.env ^^^ x.extractLsb' 0 256 }

/-- A request after its service. -/
def served (ok : Bool) (bad : Bool) (b : Option Blk) (q : MoveReq) : MoveReq :=
  { q with served := true, complete := ok, uncorr := bad, blk := b }

/-- A request of a mover replaced. -/
def setMove (i : Nat) (q : MoveReq) (t : Tile) : Tile := { t with mover := t.mover.set i q }

/-- The load of a block (R97). -/
def serveLoad (u i : Nat) (q : MoveReq) (ok : Bool) (r : MoveService) (s : State) : State :=
  let b := blkAt s (bStack q.entry) (loadBlock s q.entry)
  let v := if r.uncorrectable = 0 then b else noisy s u b
  updTile u (setMove i (served ok (r.uncorrectable != 0) (some v) q)) s

/-- The uncommitted side of a late store: part of the block may have reached it (R104; log 30). -/
def partBlk (s : State) (u : Nat) (old new : Blk) : Blk :=
  { old with payload := BitVec.ofNat 32768 (withBits old.payload.toNat 0 (8 * Config.partStored (cnt s) u) new.payload.toNat) }

/-- The store of a block to the uncommitted side of its pair (R97, R195). -/
def serveStore (u i : Nat) (q : MoveReq) (ok : Bool) (s : State) : State :=
  let k := bStack q.entry
  let b := bBlock q.entry
  let n := sideBlock s k b true
  let s1 := updTile u (setMove i (served ok false q.blk q)) s
  match q.blk with
  | none => s1
  | some v =>
    if ok then
      let s2 := updMem k (fun m => { m with mark := store false b true m.mark }) (putStored k n v s1)
      { s2 with work := { s2.work with storesProv := s2.work.storesProv + 1 } }
    else putStored k n (partBlk s u (blkAt s k n) v) s1

/-- The table index that a request's word named. -/
def moveIndex (s : State) (u : Nat) (q : MoveReq) : Nat :=
  match s.reel with
  | some r =>
    match (stepWords r u s.job.phase s.job.pattern).find? (fun w => wSlot w == q.slot && wToken w == q.token) with
    | some w => wImm w
    | none => 0
  | none => 0

/-- The hand-over of a block to the window stage (R100, R192, R195). -/
def serveStage (u i : Nat) (q : MoveReq) (s : State) : State :=
  let s1 := updTile u (setMove i (served true false q.blk q)) s
  match q.blk with
  | none => s1
  | some v =>
    let b : StageBlk :=
      { start := s.job.start, step := s.job.step, attempt := s.job.attempt, slot := q.slot, token := q.token, unit := u,
        kind := q.kind, index := moveIndex s u q, entry := q.entry, blk := v, released := false, awaited := [] }
    { s1 with window := { s1.window with stage := s1.window.stage ++ [b] },
              work := { s1.work with windowProv := s1.work.windowProv + 1 } }

/-- The first request of a mover that a test admits, with its place. -/
def findMove (p : MoveReq → Bool) (l : List MoveReq) : Option (Nat × MoveReq) :=
  (l.zipIdx.find? (fun x => p x.1)).map (fun x => (x.2, x.1))

/-- A transfer with a stack: the transfer is served, counted, and reported where a burst is uncorrectable. -/
def serveStack (u i : Nat) (q : MoveReq) (r : MoveService) (s : State) : State :=
  let k := bStack q.entry
  let ok := r.complete && (memOf s k).st == .trained
  let s1 := countTransfer k r s
  let s2 := if q.kind = .bld then serveLoad u i q ok r s1 else serveStore u i q ok s1
  if r.uncorrectable = 0 then s2 else tileDetect 0x0581 u 0xFF 63 s2

/-- The block of a stack that a transfer touches. -/
def moveBlock (s : State) (q : MoveReq) : Nat :=
  if q.kind = .bld then loadBlock s q.entry else sideBlock s (bStack q.entry) (bBlock q.entry) true

/-- BLOCK_MOVE_SERVICE (R100): the oldest request of the tile whose service slot this is. -/
def execBlockMoveService (u : Nat) (r : MoveService) (s : State) : Host.Outcome State Fault Refusal :=
  match decide (u < 1024) && running s, findMove (fun q => !q.served && q.serve == s.job.slot) (tileOf s u).mover with
  | true, some (i, q) =>
    if q.kind = .bld ∨ q.kind = .bst then
      if moveBlock s q < stackBlocks then .next (serveStack u i q r s) else .fault (.absentBlock (bStack q.entry) (moveBlock s q))
    else .next (serveStage u i q s)
  | _, _ => .next s

/-! ## Retirement -/

/-- Whether GENERATION is what a block entry expects in a step (R94, Table 5-3). -/
def genOk (step : Nat) (e : Rec128) (v : EnvBits) : Bool :=
  match bGenMode e with
  | 0 => true
  | 1 => eGen v == 0
  | 2 => eGen v == (if step ≤ bGenLag e then 0 else step - bGenLag e)
  | _ => false

/-- Whether a loaded block passes its checks (R94). -/
def loadOk (s : State) (e : Rec128) (b : Blk) : Bool :=
  envOk b.env (pageBytes b.payload) && eTag b.env == bTag e && genOk s.job.step e b.env

/-- The page that a load writes. -/
def writePage (s : State) (u page : Nat) (p : PageBits) (t : Tile) : Tile :=
  (List.range 16).foldl (fun a j => writeLine (regionsNow s u) (page + j) 
    { cleanLine (pageLine p j) 0 with unfin := cnt s + 1 } a) t

/-- A load at its retirement: late, or checked and written (R94, R104). -/
def retireLoad (u : Nat) (q : MoveReq) (s : State) : State :=
  match q.complete, q.blk with
  | true, some b =>
    if loadOk s q.entry b then updTile u (writePage s u q.page b.payload) s else tileDetect 0x0483 u 0xFF 63 s
  | _, _ => tileDetect 0x0582 u 0xFF 63 s

/-- BLOCK_MOVE_RETIRE (R100): the request leaves the mover at the end of its retire slot; a transfer that has not completed is
late. -/
def execBlockMoveRetire (u : Nat) (s : State) : Host.Outcome State Fault Refusal :=
  .next (
    match decide (u < 1024) && running s, findMove (fun q => q.retire == s.job.slot) (tileOf s u).mover with
    | true, some (i, q) =>
      let s1 := updTile u (fun t => { t with mover := t.mover.eraseIdx i }) s
      match q.kind with
      | .bld => retireLoad u q s1
      | .bst => if q.complete then s1 else tileDetect 0x0582 u 0xFF 63 s1
      | _ => s1
    | _, _ => s)

/-- STACK_LOST (R104): a populated stack leaves its trained state, and the hub raises the fault while a job runs; R104 gives
its location no TOKEN, and the model puts 0 (log 75). -/
def execStackLost (k : Nat) (s : State) : Host.Outcome State Fault Refusal :=
  .next (if stackPop s k && (memOf s k).st == .trained then
    raiseFault 0x0501 (stackUnit k) 0xFF 0 (updMem k (fun m => { m with st := .lost }) s)
  else s)

/-! ## Release (R192) -/

/-- A fault of the host link unit. -/
def hostFault (code : Nat) (s : State) : State := raiseFault code 0xC002 0xFF 0 s

/-- Whether a block waits for the inputs that its record covers (R268). -/
def awaitsInputs (s : State) (r : Reel) (b : StageBlk) : Bool :=
  b.kind == .bwr && nProv b.entry && decide (s.det.leaves.length < inputCount r b.step)

/-- A released block has been written into the window (R195). -/
def countWindow (s : State) : State := { s with work := { s.work with window := s.work.window + 1 } }

/-- A BWR's block in its slot. -/
def releaseBwr (r : Reel) (b : StageBlk) (s : State) : State :=
  countWindow (writeSlot (nTarget b.entry) b.blk (if nProv b.entry then provRecord s r b.start b.step else []) s)

/-- A tree kept by its engine, which holds 64, or waiting in the stage (R301). -/
def keepTree (b : StageBlk) (s : State) : State :=
  let t : Tree :=
    { start := b.start, step := b.step, index := b.index, entry := b.entry, fmt := BitVec.ofNat 4 (eFmt b.blk.env) }
  if s.window.trees.length < 64 then { s with window := { s.window with trees := s.window.trees ++ [t] } }
  else { s with window := { s.window with waiting := s.window.waiting ++ [t] } }

/-- A GTREE's leaf in its slot, and the tree kept by the contributor of RANK 0. -/
def releaseLeaf (b : StageBlk) (s : State) : State :=
  let s1 := countWindow (writeSlot (nLeaf b.entry (nRank b.entry)) b.blk [] s)
  if nRank b.entry = 0 then keepTree b s1 else s1

/-- A staged block at its release. -/
def releaseBlk (r : Reel) (b : StageBlk) (s : State) : State :=
  if !ownsPanels s b then hostFault 0x0D01 s
  else
    match b.kind with
    | .gacc => { s with window := { s.window with gaccs := s.window.gaccs ++ [b] } }
    | .gtree => releaseLeaf b s
    | _ => releaseBwr r b s

/-- The order of a release: step, and in it issue slot, issue token, unit (R192). -/
def beforeBlk (a b : StageBlk) : Bool :=
  if a.step != b.step then decide (a.step < b.step)
  else if a.slot != b.slot then decide (a.slot < b.slot)
  else if a.token != b.token then decide (a.token < b.token) else decide (a.unit < b.unit)

/-- A block put into an ordered list. -/
def insertBlk (b : StageBlk) : List StageBlk → List StageBlk
  | [] => [b]
  | x :: l => if beforeBlk b x then b :: x :: l else x :: insertBlk b l

/-- Blocks in the order of their release. -/
def orderBlks (l : List StageBlk) : List StageBlk := l.foldl (fun a b => insertBlk b a) []

/-- Blocks of final steps are written in order, up to the first that waits for its inputs; it and those after it stay staged. -/
def releaseInOrder (r : Reel) : List StageBlk → State → State
  | [], s => s
  | b :: l, s =>
    if awaitsInputs s r b then { s with window := { s.window with stage := b :: l ++ s.window.stage } }
    else releaseInOrder r l (releaseBlk r b s)

/-- The staged blocks of final steps are written as far as their inputs have been chained (R192, R268). -/
def releaseWaiting (r : Reel) (s : State) : State :=
  releaseInOrder r (orderBlks (s.window.stage.filter (fun b => b.released)))
    { s with window := { s.window with stage := s.window.stage.filter (fun b => !b.released) } }

/-- A staged block, released when its step is among the first `step`. -/
def StageBlk.upTo (step : Nat) (b : StageBlk) : StageBlk := { b with released := b.released || decide (b.step ≤ step) }

/-- The staged blocks of the steps up to a final one are released. -/
def releaseStep (r : Reel) (step : Nat) (s : State) : State :=
  releaseWaiting r { s with window := { s.window with stage := s.window.stage.map (StageBlk.upTo step) } }

/-! ## The far tier -/

/-- The leaf of a block (R265). -/
def leafOf (tag : Nat) (p : PageBits) : BitVec 256 := digestBits (leBytes 8 tag ++ pageBytes p)

/-- The far inputs that a far-fill slot writes first in the job, by their places in the list (R266). -/
def newInputs (r : Reel) (f : BitVec 256) (d : Det) : List Nat :=
  (List.range (pkgRecs r secInputs).length).filter (fun i =>
    decide (d.leaves.length ≤ i) && (find? i d.filled).isNone && fills ((pkgRecs r secInputs).getD i 0) f)

/-- They are hashed as they are written. -/
def hashInputs (r : Reel) (f : BitVec 256) (b : Blk) (d : Det) : Det :=
  let hash (a : Sparse (BitVec 256)) (i : Nat) : Sparse (BitVec 256) :=
    put i (leafOf (lTag ((pkgRecs r secInputs).getD i 0)) b.payload) a
  { d with filled := (newInputs r f d).foldl hash d.filled }

/-- Hashed inputs are chained in list order, as far as they reach. -/
def chainUp : Nat → Det → Det
  | 0, d => d
  | n + 1, d =>
    match find? d.leaves.length d.filled with
    | some h => chainUp n { d with leaves := d.leaves ++ [h], filled := erase d.leaves.length d.filled }
    | none => d

/-- The digest engine at a far-fill that writes a block (R266, R268). -/
def chainInput (r : Reel) (f : BitVec 256) (b : Blk) (s : State) : State :=
  if (newInputs r f s.det).isEmpty then s
  else
    let d := hashInputs r f b s.det
    releaseWaiting r { s with det := chainUp d.filled.length d }

/-- The cache block of a far-fill record, and whether its last slot wrote it. -/
def markFill (f : BitVec 256) (wrote : Bool) (s : State) : State :=
  { s with far := { s.far with written := store false (cacheKey (fStack f) (fBlock f)) wrote s.far.written } }

/-- A far-fill slot (R105): the block that has arrived is written into its cache block; the prefetcher holds it on (log 78). -/
def fillCache (r : Reel) (f : BitVec 256) (s : State) : State :=
  if !devicePanel s (fHome f / 15) then hostFault 0x0D01 (markFill f false s)
  else
    match find? (fHome f) s.far.held with
    | some b => chainInput r f b (markFill f true (putBlk (fStack f) (fBlock f) b s))
    | none => markFill f false s

/-- FAR_FILL (R105): record `i` of the FAR_FILL section, in its slot of its step. -/
def execFarFill (i : Nat) (s : State) : Host.Outcome State Fault Refusal :=
  match running s, s.reel with
  | true, some r =>
    match (pkgRecs r secFarFill)[i]? with
    | some f =>
      if fStep f = s.job.step ∧ fSlot f = s.job.slot then
        if fBlock f < stackBlocks then .next (fillCache r f s) else .fault (.absentBlock (fStack f) (fBlock f))
      else .next s
    | none => .next s
  | _, _ => .next s

/-- FAR_BLOCK_ARRIVAL (R105, R106): a home that a far-fill record names is read from the window and held. -/
def execFarBlockArrival (home : Nat) (host : HostSide) (s : State) : Host.Outcome State Fault Refusal :=
  .next (
    let s1 := hostActs host s
    match s1.reel with
    | some r =>
      if (pkgRecs r secFarFill).any (fun f => fHome f == home) && devicePanel s1 (home / 15) then
        { s1 with far := { s1.far with held := put home (slotBlk s1 home) s1.far.held } }
      else s1
    | none => s1)

end Sys2Proof.Machine
end

