-- ==== Sys2Proof/Machine/Descriptors.lean ====
section
/-! DEFINITION. What every submission descriptor shares: when the part starts one (R277, R279, R280), the header (Table 13-5), the
order of the checks (R351), and its last record. -/

namespace Sys2Proof.Machine

/-- Whether a TEST descriptor runs, which delays the next descriptor (R216). -/
def ringTest (s : State) : Bool :=
  match s.sec.test with
  | some t =>
    match t.by_ with
    | .ring _ _ _ => true
    | _ => false
  | none => false

/-- Whether the part starts the next descriptor: READY with the link trained and the rings enabled, a fetched descriptor, room in the completion
ring, and no TEST in progress. -/
def canStart (s : State) : Bool :=
  barOpen s && s.rings.committed.enable && s.rings.sqDone != s.rings.sqHead && !cqFull s && !ringTest s

/-- The count at which the next descriptor was fetched. -/
def sqNext (s : State) : Nat := s.rings.sqDone.toNat

/-- The descriptor is taken from those fetched. -/
def takeDesc (s : State) : State := { s with rings := { s.rings with sqDone := s.rings.sqDone + 1 } }

/-- What a descriptor of an opcode does, with the count at which it was fetched. -/
def onDesc (op : Nat) (d : BitVec 512) (f : Nat → State → State) (s : State) : State :=
  if dOp d = op ∧ canStart s then f (sqNext s) (takeDesc s) else s

/-- Whether `n` bits from `lo` are 0. -/
def zeros (d : BitVec 512) (lo n : Nat) : Bool := fld d lo n == 0

/-- Whether the header's reserved bits are 0, and STRICT where the opcode has none. -/
def headOk (d : BitVec 512) (strict : Bool) : Bool := zeros d 10 6 && zeros d 16 16 && (strict || !bit d 9)

/-- The last record of a descriptor. -/
def finish (d : BitVec 512) (sq status : Nat) (info : List Byte) (s : State) : State := complete (recOf d sq true status info) s

/-- The first check that fails, in order: its status. -/
def firstFailure : List (Bool × Nat) → Option Nat
  | [] => none
  | (bad, status) :: t => if bad then some status else firstFailure t

/-- A descriptor refused by the first check that fails, with INFO 0; else carried out. -/
def checked (d : BitVec 512) (sq : Nat) (checks : List (Bool × Nat)) (f : State → State) (s : State) : State :=
  match firstFailure checks with
  | some status => finish d sq status [] s
  | none => f s

end Sys2Proof.Machine
end

