-- ==== Sys2Proof/Machine/Power.lean ====
section
/-! DEFINITION. Power, pace and Ballast: samples (R227, R228, R247, R250), the control period (R232, R239 to R243), Vent decisions
(R234), class rails (R238) and Ballast operations (R246, R247). -/

namespace Sys2Proof.Machine

/-! ## Samples -/

/-- The sum of the input products of regulators, in 0.1 mW; over 10 us that is the same number of nJ (R22, R227, R250). -/
def productSum (l : List (Nat × Nat)) : Nat := total (l.map (fun r => r.1 * r.2))

/-- The regulator inputs of a sample: one that is not fitted draws nothing (R22), nor does one that is not on, whose
input voltage reads 0 too (log 78). -/
def regulatorInputs (s : State) (x : Sensors) : List (Nat × Nat) :=
  x.regs.zipIdx.map (fun r => if regulatorOn s r.2 then r.1 else (0, 0))

/-- The three parts of the latest sample, in mW: compute VR0 to VR15, memory VR16 to VR19, line VR20 to VR23 (R227). -/
def computeMw (w : Power) : Nat := productSum (w.regs.take 16) / 10
def memoryMw (w : Power) : Nat := productSum ((w.regs.drop 16).take 4) / 10
def lineMw (w : Power) : Nat := productSum (w.regs.drop 20) / 10

/-- The samples that the part keeps: 30 s of 10 us (R240). -/
def keptSamples : Nat := 3000000

/-- The samples of the last seconds, or those taken so far (R227). -/
def windowSamples (window : Nat) (l : List Nat) : List Nat := l.take (100000 * window)

/-- Their mean, in mW. -/
def windowMean (window : Nat) (l : List Nat) : Nat := total (windowSamples window l) / (windowSamples window l).length

/-- The largest of a list of temperatures. -/
def hottest (l : List Int) : Int := l.foldl max (l.headD 0)

/-- The line-die junctions of the dies that the assembly has (R228). -/
def lineJunctions (s : State) (x : Sensors) : List Int := x.lines.take s.ident.lineDies

/-- T_max: the highest of the tile groups, the hubs and the populated line dies (R228). -/
def maxJunction (s : State) (x : Sensors) : Int := hottest (x.groups ++ x.hubs ++ lineJunctions s x)

/-- A stack's sensor (R228): read while trained or in self-refresh. -/
def readStack (t : Int) (k : Nat) (s : State) : State :=
  if stackPop s k then
    updMem k (fun m =>
      match m.st with
      | .trained => { m with temp := t }
      | .selfRefresh => { m with temp := t }
      | .off => { m with temp := 0 }
      | .lost => m) s
  else s

/-- The sensors as read (R22, R228); VIN48 is what VR23, which is always on, measures. -/
def readSensors (x : Sensors) (s : State) : State :=
  let v := (x.regs[23]?).map (fun r => 10 * r.1)
  x.stackT.zipIdx.foldl (fun a y => readStack y.1 y.2 a)
    { s with tray := { s.tray with vin48 := v.getD s.tray.vin48, tMax := maxJunction s x, groupT := x.groups, hubT := x.hubs,
                                   lineT := lineJunctions s x } }

/-- A sample as the power controller takes it, from the regulators' inputs. -/
def addSample (regs : List (Nat × Nat)) (run : Bool) (w : Power) : Power :=
  let e := productSum regs
  let l := (e / 10 :: w.samples).take keptSamples
  { w with now := e / 10, samples := l, mean := windowMean w.inForce.window.toNat l, regs := regs,
           energy := w.energy + e, jobEnergy := if w.jobSampling then w.jobEnergy + e else w.jobEnergy,
           jobSampling := run }

/-! ## How many tiles run Ballast (R245, R247; log 31) -/

/-- The least power of the next sample: the sample 1 ms before it less PWR_RAMP for 1 ms (R245). -/
def rampFloor (w : Power) : Nat := w.samples.getD 99 0 - 1000 * w.committed.ramp.toNat

/-- What the package draws without Ballast. -/
def baseMw (w : Power) : Nat := w.now - Config.ballastMw w.cls * w.ballastTiles

/-- The tiles that R245 needs: enough that what the package draws without Ballast and what they draw reach the floor. -/
def tilesNeeded (w : Power) : Nat :=
  let one := Config.ballastMw w.cls
  (rampFloor w - baseMw w + one - 1) / one

/-- The most that the next sample may be without raising the window mean above the cap (R247): the mean that follows it is at or below
the cap, or below it no further than the present mean lies above. -/
def sampleRoom (w : Power) : Nat :=
  let n := min (100000 * w.inForce.window.toNat) (w.samples.length + 1)
  max (1000 * w.inForce.cap.toNat) w.mean * n - total (w.samples.take (n - 1))

/-- The tiles that the cap leaves room for. -/
def tilesAllowed (w : Power) : Nat := (sampleRoom w - baseMw w) / Config.ballastMw w.cls

/-- Ballast adjusted: as many tiles as R245 needs, but the cap wins (R247). -/
def adjustBallast (w : Power) : Power :=
  let k := min (tilesNeeded w) (tilesAllowed w)
  { w with ballastTiles := min 1024 k, ballastUnmet := decide (k < tilesNeeded w) }

/-- POWER_SAMPLE (R227): while VR23 is on. -/
def execPowerSample (x : Sensors) (s : State) : Host.Outcome State Fault Refusal :=
  .next (
    if svcOn s then
      let s1 := readSensors x s
      let w := addSample (regulatorInputs s x) (running s) s1.power
      { s1 with sec := { s1.sec with uptime := s1.sec.uptime + 1 },
                power := if isReady s && !s.stop.stopped then adjustBallast w else w }
    else s)

/-! ## The prediction (R241) -/

/-- The line part and the link reserve, which are served first (R241). -/
def lineShare (s : State) : Nat := max (lineMw s.power) (linkReserve s)

/-- Whether the prediction at a level and a spacing fits an allowance in mW, beside what the lines take. -/
def fits (m : PowerModel) (line allow v n : Nat) : Bool :=
  decide ((line + m.memIdleMw + m.staticMw) * (64 * n) + m.dynMw * (64 - v) * n + m.memActiveMw * (8 * 64) ≤ allow * (64 * n))

/-- P_allow in mW (R240). -/
def allowMw (s : State) : Nat := min (1000 * powerLimit s) (2 * (1000 * s.power.inForce.cap.toNat) - s.power.mean)

/-- Whether the cap can be met at all (R242). -/
def capFits (m : PowerModel) (line allow f : Nat) : Bool := fits m line allow 48 (nMax f 48)

/-- The cap request (R241, R242). -/
def capLevel (m : PowerModel) (order : Bool) (line allow f : Nat) : Nat :=
  if capFits m line allow f then
    ((List.range 49).find? (fun v => fits m line allow v (if order then nMax f v else 8))).getD 48
  else 48

/-- The memory spacing at the level in force (R241): the smallest from 8 to N_max that fits, else N_max. -/
def chooseSpacing (s : State) : Nat :=
  let n := nMax (floorNow s) s.pacer.vent
  (((List.range (n + 1)).drop 8).find? (fun k => fits s.power.model (lineShare s) s.power.allow s.pacer.vent k)).getD n

/-- N set for the level in force. -/
def setSpacing (s : State) : State := { s with power := { s.power with spacing := chooseSpacing s } }

/-! ## The control period -/

/-- The preferred level of the running phase (R239). -/
def prefLevel (s : State) (r : Reel) : Nat :=
  let k := s.job.phase
  let b := fld (s.power.inForce.pref.getD (k / 4) 0xFFFFFFFF) (8 * (k % 4)) 8
  if b = 0xFF then phasePref r k else b

/-- The thermal term (R243). -/
def thermLevel (tMax : Int) (level old : Nat) : Nat :=
  if 93 ≤ tMax then min 48 (level + 2 * (tMax - 92).toNat) else if tMax ≤ 90 then old - 1 else old

/-- The largest term, the lowest-numbered of equal ones (Table 11-4). -/
def limiterOf (pref cap therm : Nat) : Nat := if cap ≤ pref ∧ therm ≤ pref then 0 else if therm ≤ cap then 1 else 2

/-- The terms of a period, as the power controller keeps them (R232, R233, R322). -/
def setTerms (pref cap therm : Nat) (debug : Bool) (up : Nat) (w : Power) : Power :=
  let v := max pref (max cap therm)
  let req := if debug then max v 32 else v
  { w with req := req, limiter := limiterOf pref cap therm, vTherm := therm, upMax := up,
           aggLevel := max w.aggLevel req, aggUpMax := min w.aggUpMax up }

/-- CAP_UNMET, posted once per episode (R242). -/
def noteCap (unmet : Bool) (s : State) : State :=
  let s1 := { s with power := { s.power with capUnmet := unmet } }
  if unmet && !s.power.capUnmet then
    post 0x0BA1 (leBytes 4 s.power.allow ++ leBytes 4 s.power.mean)
      { s1 with power := { s1.power with events := s1.power.events ||| 2 } }
  else s1

/-- THERM_LIMIT, posted once per episode (R243). -/
def noteHeat (s : State) : State :=
  let hot := decide (93 ≤ s.tray.tMax)
  let s1 := { s with power := { s.power with thermEpisode := hot } }
  if hot && !s.power.thermEpisode then post 0x0BA3 (leInt 1 s.tray.tMax) s1 else s1

/-- A period begins: the committed cap, window, order and preferences act from it (R239, R240), and the figures, the mean and the
allowance that it works with. -/
def beginPeriod (pm : PowerModel) (s : State) : State :=
  let c := s.power.committed
  let w := { s.power with inForce := c, model := pm, mean := windowMean c.window.toNat s.power.samples }
  { s with power := { w with allow := allowMw { s with power := w } } }

/-- A control period of a job package (R232). -/
def controlPeriod (r : Reel) (pm : PowerModel) (s : State) : State :=
  let s1 := beginPeriod pm s
  let w := s1.power
  let f := floorNow s1
  let cap := capLevel w.model w.inForce.order (lineShare s1) w.allow f
  let therm := thermLevel s1.tray.tMax s1.pacer.vent w.vTherm
  let up := upMaxOf w.committed.ramp.toNat w.model.dynMw
  let s2 := noteHeat (noteCap (!capFits w.model (lineShare s1) w.allow f) s1)
  setSpacing { s2 with power := setTerms (prefLevel s1 r) cap therm r.debug up s2.power }

/-- CONTROL_PERIOD (R232, R240): a job package computes its request; outside a job the settings and the allowance alone change (log
76). -/
def execControlPeriod (pm : PowerModel) (s : State) : Host.Outcome State Fault Refusal :=
  .next (
    match running s, s.reel with
    | true, some r => controlPeriod r pm s
    | _, _ => if svcOn s then beginPeriod pm s else s)

/-! ## Decisions -/

/-- The level that the leader decides (R234). -/
def decideLevel (w : Power) (level : Nat) : Nat :=
  if w.aggLevel ≤ level then w.aggLevel else min w.aggLevel (level + w.aggUpMax)

/-- The leader's decision: the next epoch, to apply 64 slots on. -/
def leaderDecision (s : State) : Decision :=
  { level := decideLevel s.power s.pacer.vent, leader := selfId s, epoch := s.power.epoch + 1, applyAt := cnt s + 64 }

/-- VENT_DECISION (R234): by the leader of a job that runs. -/
def execVentDecision (s : State) : Host.Outcome State Fault Refusal :=
  .next (
    match s.pacer.running && running s, s.reel with
    | true, some r =>
      if leaderOf r = (selfId s).toNat then { s with power := holdDecision (leaderDecision s) s.power } else s
    | _, _ => s)

/-- A level from the present boundary: a change is recorded, and N follows (R103, R148, R241, R251). -/
def applyLevel (level : Nat) (s : State) : State :=
  let s1 := { s with power := { s.power with decision := none } }
  if level = s.pacer.vent then setSpacing s1
  else setSpacing { s1 with pacer := recordVent (cnt s) level (levelFrom (cnt s) level s1.pacer) }

/-- VENT_APPLY (R148): at the apply-at count of the decision that is held. -/
def execVentApply (s : State) : Host.Outcome State Fault Refusal :=
  .next (
    match s.pacer.running, s.power.decision with
    | true, some d => if d.applyAt = cnt s then applyLevel d.level s else s
    | _, _ => s)

/-! ## Class rails (R238) -/

/-- The classes of a step and of the steps after it that begin within some slots of its start, as far as `fuel` steps reach. -/
def classesFrom (r : Reel) : Nat → Nat → Nat → List Nat
  | 0, _, _ => []
  | n + 1, step, slots =>
    match stepPlan r step with
    | some (pattern, phase) =>
      let len := commitSlot r phase pattern + 1
      phaseClass r phase :: (if len ≤ slots then classesFrom r n (step + 1) (slots - len) else [])
    | none => []

/-- The classes that the rails may be called to now (Table 11-2): that of the present step, and of each phase that the Reel schedules
to begin within 1,024 slots, the first one of an armed launch among them. -/
def classesAhead (s : State) (r : Reel) : List Nat :=
  if running s then classesFrom r 1026 s.job.step (s.job.slot + 1024)
  else if armed s && decide (s.job.start ≤ cnt s + 1024) then classesFrom r 1026 1 (cnt s + 1024 - s.job.start)
  else []

/-- Whether the rails may start to rise to a class: 1,024 slots or fewer before a phase that has it. -/
def mayRise (s : State) (r : Reel) (cls : Nat) : Bool := (classesAhead s r).contains cls

/-- Whether the rails may start to fall to a class: the last step of the phase before is final, and no phase that calls for a higher
class begins within 1,024 slots. -/
def mayFall (s : State) (r : Reel) (cls : Nat) : Bool :=
  running s && phaseClass r s.job.phase == cls &&
    (stepPlan r (s.job.final + 1)).any (fun x => x.2 == s.job.phase) && (classesAhead s r).all (fun c => decide (c ≤ cls))

/-- CLASS_RAIL_MOVE (R238). -/
def execClassRailMove (cls : Nat) (s : State) : Host.Outcome State Fault Refusal :=
  .next (
    match s.reel with
    | some r =>
      if (s.power.cls < cls ∧ mayRise s r cls) ∨ (cls < s.power.cls ∧ mayFall s r cls) then
        { s with power := { s.power with cls := cls } }
      else s
    | none => s)

/-! ## Heating (R214) -/

/-- The junctions of the die that a unit lies on: a Spar die with its hub, or a line die. -/
def dieJunctions (s : State) (u : Nat) : List Int :=
  if u < 1024 then (s.tray.groupT.drop (u / 512 * 64)).take 64 ++ (s.tray.hubT.drop (u / 512)).take 1
  else if u < 1072 then (s.tray.lineT.drop ((u - 1024) / 16)).take 1
  else (s.tray.groupT.drop ((u - 1072) / 4 * 64)).take 64 ++ (s.tray.hubT.drop ((u - 1072) / 4)).take 1

/-- The hottest junction of a unit's die. -/
def dieTemp (s : State) (u : Nat) : Int := hottest (dieJunctions s u)

/-- The profile of a stress test that needs a die at 85 C and has not started: S1, S2 or S3, while the die is colder (Table 10-8). -/
def wantsHeat (s : State) (t : TestRun) : Bool :=
  t.stress && t.ran.isEmpty && !t.cold && (t.left.head?).any (fun p => p != 0) && decide (dieTemp s t.unit < 85)

/-- Whether a tile heats the die under test with Ballast, within the committed cap (R214); no tile lies on a line die, and any tile
heats for it (log 53). -/
def heats (s : State) (u : Nat) : Bool :=
  (s.sec.test).any (fun t => wantsHeat s t &&
    (if t.unit < 1024 then u / 512 == t.unit / 512 else if t.unit < 1072 then true else u / 512 == (t.unit - 1072) / 4)) &&
  !outOfService s u && decide (s.power.mean < 1000 * s.power.inForce.cap.toNat)

/-! ## Ballast (R246, R247) -/

/-- The tokens of a Ballast kernel's operation at a class: the longest of its engine. -/
def ballastTokens (cls : Nat) (ka : BitVec 8) : Nat :=
  if ka = 1 then opTokens cls 0x20 else if ka = 2 then max (opTokens cls 0x22) (opTokens cls 0x23) else opTokens cls 0x30

/-- The order in which tiles are chosen: WATCH before ACTIVE, then the oldest LAST_TEST, then the lower unit. -/
def ballastKey (s : State) (u : Nat) : Nat × Nat × Nat :=
  (flag (unitSt s u != .watch), (match (healthOf s u).lastTest with | some t => t + 1 | none => 0), u)

/-- Whether one choice comes before another. -/
def keyBefore (a b : Nat × Nat × Nat) : Bool :=
  if a.1 != b.1 then decide (a.1 < b.1) else if a.2.1 != b.2.1 then decide (a.2.1 < b.2.1) else decide (a.2.2 < b.2.2)

/-- Whether a tile is among those that run Ballast. -/
def ballastChosen (s : State) (u : Nat) : Bool :=
  let earlier := (List.range 1024).filter (fun x => !outOfService s x && keyBefore (ballastKey s x) (ballastKey s u))
  !outOfService s u && decide (earlier.length < s.power.ballastTiles)

/-- Whether the engine that a kernel uses is idle on a tile. -/
def engineIdle (s : State) (u : Nat) (ka : BitVec 8) : Bool :=
  !((tileOf s u).flight.any (fun f => ballastEngine ka (wOp f.word))) && !(s.power.ballast.contains (u, ka))

/-- The place of the first word of a list that uses a kernel's engine, in tokens from its step's start. -/
def firstUse (ka : BitVec 8) (l : List Rec128) : Option Nat := (l.find? (fun w => ballastEngine ka (wOp w))).map wStart

/-- The place of a tile's first word that uses a kernel's engine from a step on, in tokens from that step's start, as far as `fuel`
steps reach; a Ballast operation ends long before. -/
def useFrom (r : Reel) (u : Nat) (ka : BitVec 8) : Nat → Nat → Option Nat
  | 0, _ => none
  | n + 1, step =>
    match stepPlan r step with
    | some (pattern, phase) =>
      firstUse ka (stepWords r u phase pattern) <|>
        (useFrom r u ka n (step + 1)).map (fun k => 64 * (commitSlot r phase pattern + 1) + k)
    | none => none

/-- The words of the present step that a tile will still issue. -/
def wordsLeft (s : State) (u : Nat) : List Rec128 := if (tileOf s u).lateOp || (tileOf s u).halted then [] else (tileOf s u).todo

/-- The next Reel word of a tile that uses a kernel's engine, in tokens from the start of the present step. -/
def nextUse (s : State) (r : Reel) (u : Nat) (ka : BitVec 8) : Option Nat :=
  firstUse ka (wordsLeft s u) <|>
    (useFrom r u ka 64 (s.job.step + 1)).map (fun k => 64 * (commitSlot r s.job.phase s.job.pattern + 1) + k)

/-- The token of the present slot by which a Ballast operation must have ended (R246): the next Reel word that uses the engine, or the
rewind count that a held notice names; none when neither is ahead. -/
def ballastEnd (s : State) (u : Nat) (ka : BitVec 8) : Option Nat :=
  match s.job.st, s.reel with
  | .running, some r =>
    match s.job.notice with
    | some n => some (64 * (n.applyAt - cnt s))
    | none => (nextUse s r u ka).map (fun k => k - 64 * s.job.slot)
  | .armed, some r => (useFrom r u ka 64 1).map (fun k => 64 * (s.job.start - cnt s) + k)
  | _, _ => none

/-- Whether a tile may run Ballast now: its buffer is loaded, and it is among those that hold the ramp, or it heats a die under
test. -/
def runsBallast (s : State) (u : Nat) : Bool :=
  isReady s && groupOn s (u / 8) && decide (u < 1024) && !(bufferOf s u).isEmpty && (ballastChosen s u || heats s u)

/-- BALLAST_ISSUE (R246): at a token of the present slot, when the operation ends before the next Reel word of its engine. -/
def execBallastIssue (u : Nat) (ka : BitVec 8) (token : Nat) (s : State) : Host.Outcome State Fault Refusal :=
  .next (
    if runsBallast s u && (ka == 1 || ka == 2 || ka == 3) && engineIdle s u ka && decide (token < 64) &&
        (ballastEnd s u ka).all (fun k => decide (token + ballastTokens s.power.cls ka ≤ k)) then
      { s with power := { s.power with ballast := s.power.ballast ++ [(u, ka)] } }
    else s)

/-- A Ballast operation of a tile ends: it has written no more than its tile's Ballast buffer (R246), whose bytes are free values. -/
def endBallast (u : Nat) (ka : BitVec 8) (w : Power) : Power :=
  { w with ballast := w.ballast.erase (u, ka),
           buffers := store [] u ((look [] u w.buffers).zipIdx.map (fun x => Config.ballastByte ka x.2 x.1)) w.buffers }

/-- BALLAST_RESULT (R247): the tile's operation of that kernel ends and counts as a known-answer run (R210, R212). -/
def execBallastResult (u : Nat) (x : BallastEnd) (s : State) : Host.Outcome State Fault Refusal :=
  .next (
    if s.power.ballast.contains (u, x.ka) then scoreRun u x.ka.toNat 0 x.result { s with power := endBallast u x.ka s.power }
    else s)

end Sys2Proof.Machine
end

