-- ==== Sys2Proof/Machine/Tests.lean ====
section
/-! DEFINITION. Scores, due times, known-answer runs and stress tests (R207, R210 to R218, R222). -/

namespace Sys2Proof.Machine

/-! ## Scores -/

/-- The greatest whole multiple of SCORE_HALF_H hours that uptime has reached. -/
def halvingPoint (s : State) : Nat :=
  let h := hourUnits * s.sec.committed.scoreHalfH.toNat
  s.sec.uptime / h * h

/-- Every score halved; units that now meet the return to ACTIVE return. -/
def halveScores (s : State) : State :=
  let s1 := { s with sec := { s.sec with health := mapVals Health.zero (fun h => { h with score := h.score / 2 }) s.sec.health,
                                         halvedAt := halvingPoint s } }
  (s1.sec.health.map (fun x => x.1)).foldl (fun a i => settle i a) s1

/-- SCORE_HALVING (R207): once for each multiple. -/
def execScoreHalving (s : State) : Host.Outcome State Fault Refusal :=
  .next (if svcOn s && decide (s.sec.halvedAt < halvingPoint s) then halveScores s else s)

/-! ## Due times -/

/-- Whether a unit's stress test is due (R215); a unit out of service takes no test. -/
def testDue (s : State) (i : Nat) : Bool := unitPop s i && !outOfService s i && decide (dueTime s i ≤ s.sec.uptime)

/-- The uptime at which a unit's next overdue notice is due (R218): the first 12 h, or whole multiple of it, after the due time in
force that lies after its last notice. -/
def noticeTime (s : State) (u : Nat) : Nat :=
  let due := dueTime s u
  let h := 12 * hourUnits
  due + h * (1 + ((healthOf s u).overdueAt - due) / h)

/-- TEST_OVERDUE (R218): 12 h after the due time, and after every further 12 h until the unit is tested. -/
def execTestOverdue (u : Nat) (s : State) : Host.Outcome State Fault Refusal :=
  .next (
    if svcOn s && decide (u < 1080) && unitPop s u && decide (noticeTime s u ≤ s.sec.uptime) then
      let at_ := noticeTime s u
      let s1 := updHealth u (fun h => { h with overdueAt := at_ })
        { s with sec := { s.sec with overdue := satInc 32 s.sec.overdue } }
      post 0x0AA5 (unitInfo s1 u) s1
    else s)

/-! ## Profiles and kernels (Tables 10-7, 10-8) -/

/-- Whether a kernel fits the kind of a unit; host kernels are for tiles (log 32). -/
def kernelFits (ka : Nat) (u : Nat) : Bool :=
  if u < 1024 then (decide (1 ≤ ka) && decide (ka ≤ 6)) || decide (0x80 ≤ ka)
  else if u < 1072 then ka == 0x10 else ka == 6

/-- The kernels of a unit that every profile of its stress test runs. -/
def kernelsOf (u : Nat) : List Nat := if u < 1024 then [1, 2, 3, 4, 5, 6] else if u < 1072 then [0x10] else [6]

/-- Whether the windows of a pattern cover all 64 groups of a tile's die. -/
def dieCovered (r : Reel) (u pattern : Nat) : Bool :=
  (List.range 64).all (fun g => windowCovers r (u / 512 * 512 + 8 * g) pattern)

/-- The slots of a step whose windows cover a tile's die, 0 of any other. -/
def coveredSlots (r : Reel) (u step : Nat) : Nat :=
  match stepPlan r step with
  | some (pattern, phase) => if dieCovered r u pattern then commitSlot r phase pattern + 1 else 0
  | none => 0

/-- The slots of the covering steps that end at a step without a break, as far as `fuel` steps reach. -/
def coveredBack (r : Reel) (u : Nat) : Nat → Nat → Nat
  | 0, _ => 0
  | n + 1, step => if coveredSlots r u step = 0 then 0 else coveredSlots r u step + coveredBack r u n (step - 1)

/-- The slots of the covering steps that begin at a step without a break, as far as `fuel` steps reach. -/
def coveredOn (r : Reel) (u : Nat) : Nat → Nat → Nat
  | 0, _ => 0
  | n + 1, step => if coveredSlots r u step = 0 then 0 else coveredSlots r u step + coveredOn r u n (step + 1)

/-- Whether the test window of the present step, one or more whole steps, covers a tile's die for at least 16,384 slots (R216). -/
def dieWide (s : State) (u : Nat) : Bool :=
  match s.reel with
  | some r =>
    decide (0 < coveredSlots r u s.job.step) &&
      decide (16384 ≤ coveredBack r u 16384 s.job.step + coveredOn r u 16384 (s.job.step + 1))
  | none => false

/-- The profiles that a test runs, in order (Table 10-8, R213, R216): one kernel runs under S0. -/
def planOf (s : State) (u : Nat) (stress : Bool) (by_ : TestBy) : List Nat :=
  if !stress then [0] else if 1024 ≤ u then [0, 3]
  else if by_ = .window then (if dieWide s u then [0, 2] else [0]) else [0, 1, 2]

/-! ## Starting tests -/

/-- A test begins on a unit: between jobs at the class of the last loaded Reel, in a window at the job's (R213). -/
def startTest (u : Nat) (stress : Bool) (ka : BitVec 8) (by_ : TestBy) (s : State) : State :=
  { s with
      sec := { s.sec with test := some { unit := u, stress := stress, ka := ka, by_ := by_, failing := none, partialHeat := false,
                                         left := planOf s u stress by_, ran := [], cold := false, held := [] } },
      power := { s.power with cls := if by_ = .window then s.power.cls else s.sec.lastClass } }

/-- The unit with the earliest due time among those due, the lowest of equal ones. -/
def mostOverdue (s : State) : Option Nat :=
  (List.range 1080).foldl (fun best u =>
    if testDue s u then
      match best with
      | some v => if dueTime s u < dueTime s v then some u else best
      | none => some u
    else best) none

/-- AUTO_STRESS_TEST (R216): with no Reel loaded and TEST_AUTO set. -/
def execAutoStressTest (s : State) : Host.Outcome State Fault Refusal :=
  .next (
    match isReady s && !s.stop.stopped && s.reel.isNone && s.sec.testAuto && s.sec.test.isNone, mostOverdue s with
    | true, some u => startTest u true 0 .auto s
    | _, _ => s)

/-- Whether a due unit in WATCH is under a window of the running pattern: such units are tested first (Table 10-6). -/
def watchFirst (s : State) (r : Reel) : Bool :=
  (List.range 1080).any (fun v => unitSt s v == .watch && testDue s v && windowCovers r v s.job.pattern)

/-- WINDOW_TEST (R216): in a step whose pattern declares a window that covers the unit. -/
def execWindowTest (u : Nat) (s : State) : Host.Outcome State Fault Refusal :=
  .next (
    match running s && s.job.notice.isNone && s.sec.test.isNone && testDue s u, s.reel with
    | true, some r =>
      if windowCovers r u s.job.pattern && (unitSt s u == .watch || !watchFirst s r) then startTest u true 0 .window s else s
    | _, _ => s)

/-! ## The course of a test -/

/-- Whether a test may run a kernel under a profile now: the present profile, a kernel of the unit that it has not run, and a die at
85 C or the 200 ms past for every profile but S0 (R213, R214). -/
def kernelMayRun (s : State) (t : TestRun) (ka prof : Nat) : Bool :=
  t.left.head? == some prof &&
  (if t.stress then (kernelsOf t.unit).contains ka && !t.ran.contains ka && !wantsHeat s t
   else kernelFits ka t.unit && ka == t.ka.toNat)

/-- A test after a kernel of its profile: the next profile follows the last kernel. -/
def advanceTest (ka : Nat) (t : TestRun) : TestRun :=
  if (kernelsOf t.unit).all (fun k => k == ka || t.ran.contains k) then { t with left := t.left.drop 1, ran := [], cold := false }
  else { t with ran := ka :: t.ran }

/-- STRESS_HEAT_TIMEOUT (R214): the die of the unit under test is below 85 C after 200 ms, and the profile runs as it is. -/
def execStressHeatTimeout (s : State) : Host.Outcome State Fault Refusal :=
  .next (
    match s.sec.test with
    | some t =>
      if wantsHeat s t then { s with sec := { s.sec with test := some { t with cold := true, partialHeat := true } } } else s
    | none => s)

/-! ## Results -/

/-- A test that keeps its first failing profile. -/
def noteFailure (t : TestRun) (prof : Nat) (r : KaOutcome) : TestRun :=
  match r, t.failing with
  | .pass, _ => t
  | _, some _ => t
  | r, none => { t with failing := some (prof, r) }

/-- The failing profile as a record gives it: 0xFF when none failed. -/
def failByte (f : Option (Nat × KaOutcome)) : Byte :=
  match f with
  | some x => BitVec.ofNat 8 x.1
  | none => 0xFF

/-- The record of a TEST descriptor (Table 13-4). -/
def testRecord (t : TestRun) (result : Nat) (s : State) : State :=
  match t.by_ with
  | .ring tag irq sq =>
    complete { tag := tag, opcode := 0x09, final := true, status := 0, sq := sq,
               info := [BitVec.ofNat 8 result, failByte t.failing], irq := irq, countInfo := false } s
  | _ => s

/-- A TEST of one kernel ends. -/
def endKernel (t : TestRun) (r : KaOutcome) (s : State) : State :=
  testRecord t (kaResult r) { s with sec := { s.sec with test := none } }

/-- A kernel of a stress test ends: its result counts at once, but that of a window's test at the test's end (R217). -/
def stressKernel (t : TestRun) (ka prof : Nat) (r : KaOutcome) (s : State) : State :=
  let t1 := advanceTest ka (noteFailure t prof r)
  if t.by_ = .window then { s with sec := { s.sec with test := some { t1 with held := t.held ++ [(ka, prof, r)] } } }
  else scoreRun t.unit ka prof r { s with sec := { s.sec with test := some t1 } }

/-- KNOWN_ANSWER_DONE (R210): a kernel of the test in progress ends. -/
def execKnownAnswerDone (u : Nat) (ka : BitVec 8) (prof : Nat) (r : KaOutcome) (s : State) :
    Host.Outcome State Fault Refusal :=
  .next (
    match s.sec.test with
    | some t =>
      if t.unit = u ∧ kernelMayRun s t ka.toNat prof then
        if t.stress then stressKernel t ka.toNat prof r s
        else endKernel (noteFailure t prof r) r (scoreRun u ka.toNat prof r s)
      else s
    | none => s)

/-- RESULT of a stress test: STRESS_PARTIAL where a profile ran cold (R214), else the first failure, else PASS. -/
def stressResult (t : TestRun) : Nat :=
  if t.partialHeat then 3
  else
    match t.failing with
    | some x => kaResult x.2
    | none => 0

/-- Whether a test counts as the stress test of R215: every profile ran hot; in a window a tile never runs S1. -/
def countsAsStress (t : TestRun) : Bool := !t.partialHeat && (t.by_ != .window || decide (1024 ≤ t.unit))

/-- LAST_TEST set at the end of a test that counts (R215). -/
def setLastTest (t : TestRun) (s : State) : State :=
  if countsAsStress t then
    updHealth t.unit (fun h => { h with lastTest := some s.sec.uptime, watchDue := none, overdueAt := 0 }) s
  else s

/-- A stress test ends: LAST_TEST, history, TEST_DONE, and the record of a descriptor (R213, R215, R222). -/
def endStress (t : TestRun) (s : State) : State :=
  let s1 := setLastTest t { s with sec := { s.sec with test := none } }
  let prof := match t.failing with | some x => x.1 | none => 0
  let s2 := appendHistory (historyEntry s1 (unitField t.unit) 0xFF prof (stressResult t) 0 []) s1
  let info := leBytes 2 (unitField t.unit).toNat ++ leBytes 1 (stressResult t) ++ [failByte t.failing]
  testRecord t (stressResult t) (post 0x0AA6 info s2)

/-- A window's tests on a tile are no stress test (R213, R216): they end without a result of their own. -/
def endsQuietly (t : TestRun) : Bool := t.by_ == .window && decide (t.unit < 1024)

/-- STRESS_TEST_DONE (R213): every profile of the test has run. -/
def execStressTestDone (s : State) : Host.Outcome State Fault Refusal :=
  .next (
    match s.sec.test with
    | some t =>
      if !t.stress || !t.left.isEmpty then s
      else
        let s1 := scoreHeld t s
        if endsQuietly t then { s1 with sec := { s1.sec with test := none } } else endStress t s1
    | none => s)

/-! ## The TEST descriptor (R211, R216, Tables 13-4, 16-7) -/

def dKa (d : BitVec 512) : Nat := fld d 64 8
def dStress (d : BitVec 512) : Bool := bit d 72
def dTestUnit (d : BitVec 512) : UnitField := d.extractLsb' 80 16
def dImageAt (d : BitVec 512) : Nat := fld d 128 64
def dImageLen (d : BitVec 512) : Nat := fld d 192 32
def dDigest (d : BitVec 512) : BitVec 256 := d.extractLsb' 256 256

/-- Whether a TEST names a host kernel. -/
def hostKernel (d : BitVec 512) : Bool := !dStress d && decide (0x80 ≤ dKa d)

/-- Whether the image lies within BAR2. -/
def inWindow (s : State) (off len : Nat) : Bool := decide (off + len ≤ 65536 * s.window.size)

/-- Whether TEST's arguments are in range. -/
def testArgsOk (s : State) (d : BitVec 512) : Bool :=
  headOk d false && zeros d 73 7 && zeros d 96 32 && zeros d 224 32 &&
  (match unitIndex (dTestUnit d) with
    | some u => if dStress d then dKa d == 0 else kernelFits (dKa d) u
    | none => false) &&
  (if hostKernel d then inWindow s (dImageAt d) (dImageLen d) else zeros d 128 96 && dDigest d == 0)

/-- The panels that a range of window bytes covers. -/
def panelsOf (off len : Nat) : List Nat :=
  if len = 0 then [] else (List.range ((off + len - 1) / 65536 + 1 - off / 65536)).map (fun k => off / 65536 + k)

/-- Whether bytes of the window lie in DEVICE panels of the BYTES format. -/
def deviceBytes (s : State) (off len : Nat) : Bool :=
  (panelsOf off len).all (fun p => (panelOf s p).st == .device && !(panelOf s p).blocks)

/-- The bytes of a range of the window, as the part reads them. -/
def windowBytes (s : State) (off len : Nat) : List Byte :=
  (List.range len).map (fun k => readByte (hostMem s) ((panelOf s ((off + k) / 65536)).backing + (off + k) % 65536))

/-- The image that a TEST names. -/
def testImage (s : State) (d : BitVec 512) : List Byte := windowBytes s (dImageAt d) (dImageLen d)

/-- The unit index that a TEST names. -/
def testUnit (d : BitVec 512) : Nat := (unitIndex (dTestUnit d)).getD 0

/-- The checks of a TEST, in order. -/
def testChecks (s : State) (d : BitVec 512) : List (Bool × Nat) :=
  [(!testArgsOk s d, 0x10), (s.stop.stopped, 0x1E), (outOfService s (testUnit d), 0x16), (jobBusy s, 0x15),
   (hostKernel d && !deviceBytes s (dImageAt d) (dImageLen d), 0x17),
   (hostKernel d && digestBits (testImage s d) != dDigest d, 0x19), (hostKernel d && Config.kernelHoldsV (testImage s d), 0x1A)]

/-- TEST (R216): the test runs to completion before the next descriptor. -/
def execTest (d : BitVec 512) (s : State) : Host.Outcome State Fault Refusal :=
  .next (onDesc 0x09 d (fun sq s1 =>
    checked d sq (testChecks s1 d)
      (startTest (testUnit d) (dStress d) (BitVec.ofNat 8 (dKa d)) (.ring (dTag d) (bit d 8) sq)) s1) s)

end Sys2Proof.Machine
end

