-- ==== Sys2Proof/Machine/Loader.lean ====
section
/-! DEFINITION. LOAD and PATCH (R256, R258, R264, R265, R310 to R313). -/

namespace Sys2Proof.Machine

/-! ## The descriptor -/

def dReelOffset (d : BitVec 512) : Nat := fld d 64 64
def dReelLength (d : BitVec 512) : Nat := fld d 128 32

/-- Whether a LOAD is well formed, its range within the window. -/
def loadArgsOk (s : State) (d : BitVec 512) : Bool :=
  headOk d true && zeros d 160 352 && dReelOffset d % 65536 == 0 &&
  decide (dReelOffset d + dReelLength d ≤ 65536 * s.window.size)

/-- The checks before the image is read, in order. -/
def loadChecks (s : State) (d : BitVec 512) : List (Bool × Nat) :=
  [(!loadArgsOk s d, 0x10), (s.stop.stopped, 0x1E), (s.reel.isSome, 0x12),
   (!deviceBytes s (dReelOffset d) (dReelLength d), 0x17)]

/-- The image that a LOAD names. -/
def loadImage (s : State) (d : BitVec 512) : List Byte := windowBytes s (dReelOffset d) (dReelLength d)

/-! ## The Reel that a LOAD would install -/

/-- Whether a word that the package will issue varies (R257), for a Reel that does not run strict. -/
def variesIn (ss : List Section_) : Bool := ss.any (fun x => x.alt.isNone && holdsV x)

/-- The Reel of an image, its fixups applied. Its weights digest is computed with the writes. -/
def reelOf (bs : List Byte) (strict debug : Bool) : Reel :=
  let image := sectionsOf bs
  let r : Reel :=
    { image := bs, pkgId := hPkgId bs, jobTag := BitVec.ofNat 32 (hJobTag bs), shadow := hShadow bs, strict := strict,
      debug := debug, patched := false, vari := !strict && variesIn image, sections := installed image (slotsOf bs),
      slots := slotsOf bs, diameter := 0, program := digestBits (blankImage bs), weights := 0 }
  { r with diameter := (diameterOf r).getD 0 }

/-- Whether a LOAD runs strict (R258). -/
def loadStrict (s : State) (d : BitVec 512) : Bool := s.det.strict || bit d 9

/-- The refusal of an image, in the order of Table 14-5. -/
def badReel (s : State) (bs : List Byte) (len : Nat) (r : Reel) : Option Bad :=
  badFormat r.debug bs len <|> badLength r <|> badSetup s bs (sectionsOf bs) r <|> badSchedule s r r.diameter

/-! ## Writes (R256) -/

/-- A block that the loader places: stack, block, TAG, format, FAR, and the content. -/
structure Placed where
  stack : Nat
  block : Nat
  tag : Nat
  fmt : Nat
  far : Bool
  payload : PageBits
  deriving DecidableEq, Repr

/-- A placed block written, with an Envelope that has LOADED set (Tables 5-1, 5-2). -/
def placeBlock (p : Placed) (s : State) : State :=
  let bs := pageBytes p.payload
  putBlk p.stack p.block
    { payload := p.payload, env := mkEnv bs (residues bs) p.tag 0 (p.fmt + 16 + 32 * flag p.far) } s

/-- A named block without content. -/
def emptyBlock (stack block tag : Nat) (far : Bool) : Placed :=
  { stack := stack, block := block, tag := tag, fmt := 0, far := far, payload := 0 }

/-- The blocks that the block tables and the far fills name. -/
def namedPlaces (r : Reel) : List Placed :=
  (pkgRecs r secFarFill).map (fun f => emptyBlock (fStack f) (fBlock f)
    (((pkgRecs r secInputs ++ pkgRecs r secWeights).find? (fun l => fills l f)).map lTag |>.getD 0) true) ++
  (liveSections r secBlocks).flatMap (fun x => x.recs.map (fun e =>
    emptyBlock (fld e 25 3) (fld e 0 25) (fld e 64 64) (bit e 29)))

/-- A list entry's block as the window holds it. -/
def listBlock (s : State) (l : BitVec 256) : Blk := slotBlk s (lSource l)

/-- Whether a list entry's block fails OWN or CRC, or its TAG differs (BLOCK_ENVELOPE). -/
def listBad (s : State) (l : BitVec 256) : Bool :=
  !envSound (listBlock s l).env (pageBytes (listBlock s l).payload) || eTag (listBlock s l).env != lTag l

/-- A resident list entry's block in its stack. -/
def listPlace (s : State) (l : BitVec 256) : Placed :=
  { stack := lStack l, block := lBlock l, tag := lTag l, fmt := eFmt (listBlock s l).env, far := false,
    payload := (listBlock s l).payload }

/-- The list entries that LOAD reads: every weight, and the resident inputs (R265, R266), with their sections and places. -/
def readEntries (r : Reel) : List (Section_ × BitVec 256 × Nat) :=
  let w := pkgSection r.sections secWeights
  let i := pkgSection r.sections secInputs
  w.recs.zipIdx.map (fun e => (w, e.1, e.2)) ++ (i.recs.zipIdx.filter (fun e => !lFar e.1)).map (fun e => (i, e.1, e.2))

/-- The entries before the first that is bad, and that one. -/
def soundEntries (s : State) : List (Section_ × BitVec 256 × Nat) → List (BitVec 256) × Option Bad
  | [] => ([], none)
  | e :: t =>
    if listBad s e.2.1 then ([], some (badRecord 0x120 e.1 e.2.2))
    else
      let rest := soundEntries s t
      (e.2.1 :: rest.1, rest.2)

/-- The blocks that LOAD writes: every named block, then the content of the resident entries read. -/
def allPlaces (s : State) (r : Reel) : List Placed :=
  namedPlaces r ++ (((soundEntries s (readEntries r)).1.filter (fun l => !lFar l)).map (listPlace s))

/-- Every selector at side 0, no mark (R99). -/
def clearSelectors (s : State) : State := { s with mems := mapVals Stack.off (fun m => { m with sel := [], mark := [] }) s.mems }

/-- The blocks written. -/
def writePlaces (ps : List Placed) (s : State) : State := ps.foldl (fun a p => placeBlock p a) (clearSelectors s)

/-- The leaf of a list entry's block in the window (R265). -/
def entryLeaf (s : State) (l : BitVec 256) : BitVec 256 := leafOf (lTag l) (listBlock s l).payload

/-! ## Completion -/

/-- LDR_WHERE after a refusal from REEL_FORMAT onward (R311). -/
def ldrRefused (b : Bad) (l : Ldr) : Ldr :=
  { l with status := BitVec.ofNat 16 b.status, whereUnit := BitVec.ofNat 16 b.unit, whereSection := BitVec.ofNat 16 b.dir,
           whereRec := BitVec.ofNat 32 b.record, whereSlot := BitVec.ofNat 12 b.slot, wherePattern := BitVec.ofNat 6 b.pattern,
           short := if b.status = 0x10C then b.detail else l.short }

/-- A LOAD refused: no Reel is loaded. -/
def refuseLoad (d : BitVec 512) (sq : Nat) (b : Bad) (s : State) : State :=
  finish d sq b.status (leBytes 8 b.detail) { s with ldr := ldrRefused b s.ldr }

/-- The Reel installed: digests, inputs chained, tiles with a cleared Pocket (R255, R256; log 33), quads that nothing keeps on off (R26),
the link reserve fixed (R241), and its first phase's class kept as that of the last loaded Reel (R213, log 76). -/
def installReel (r : Reel) (s : State) : State :=
  let r1 := { r with weights := inputsDigest ((pkgRecs r secWeights).map (entryLeaf s)) }
  let leaves := ((pkgRecs r secInputs).filter (fun l => !lFar l)).map (entryLeaf s)
  gateQuads
    { s with reel := some r1, tiles := [], far := { held := [], written := [] },
             det := { s.det with leaves := leaves, filled := [], latched := 0 },
             ldr := ldrRefused (refusal 0) s.ldr, power := { s.power with linkRes := measuredReserve s },
             sec := { s.sec with lastClass := phaseClass r 0 } }

/-- The writes and the completion of a Reel that passed its checks (R310). -/
def loadWrites (d : BitVec 512) (sq : Nat) (r : Reel) (s : State) : State :=
  let s1 := writePlaces (allPlaces s r) s
  match (soundEntries s (readEntries r)).2 with
  | some b => refuseLoad d sq b s1
  | none => finish d sq 0 (leBytes 8 0 ++ leBytes 4 (loadedTag r)) (installReel r s1)

/-- An automatic test ends when a LOAD arrives, with no record (R216). -/
def endAutoTest (s : State) : State :=
  match s.sec.test with
  | some t => if t.by_ = .auto then { s with sec := { s.sec with test := none } } else s
  | none => s

/-- A LOAD that reads its image. -/
def loadReel (d : BitVec 512) (sq : Nat) (s : State) : State :=
  let bs := loadImage s d
  let r := reelOf bs (loadStrict s d) s.ldr.debug
  match badReel s bs (dReelLength d) r with
  | some b => refuseLoad d sq b s
  | none => loadWrites d sq r s

/-- LOAD (R310). -/
def execLoad (d : BitVec 512) (s : State) : Host.Outcome State Fault Refusal :=
  .next (onDesc 0x01 d (fun sq s0 =>
    let s1 := endAutoTest s0
    match firstFailure (loadChecks s1 d) with
    | some status => finish d sq status [] { s1 with ldr := { s1.ldr with status := BitVec.ofNat 16 status } }
    | none => loadReel d sq s1) s)

/-! ## PATCH (R313) -/

def dPatchFirst (d : BitVec 512) : Nat := fld d 64 32
def dPatchCount (d : BitVec 512) : Nat := fld d 96 8

/-- The values of a PATCH. -/
def dPatchValues (d : BitVec 512) : List Word64 :=
  (List.range (dPatchCount d)).map (fun i => d.extractLsb' (128 + 64 * i) 64)

/-- Whether a PATCH is well formed; values past COUNT are arguments too. -/
def patchArgsOk (d : BitVec 512) : Bool :=
  headOk d false && zeros d 104 24 && zeros d 448 64 && decide (1 ≤ dPatchCount d) && decide (dPatchCount d ≤ 5)

/-- The slots after a PATCH. -/
def patchSlots (d : BitVec 512) (slots : List Word64) : List Word64 :=
  slots.take (dPatchFirst d) ++ dPatchValues d ++ slots.drop (dPatchFirst d + dPatchCount d)

/-- The Reel after a PATCH. -/
def patchReel (d : BitVec 512) (r : Reel) : Reel :=
  let slots := patchSlots d r.slots
  { r with slots := slots, sections := installed (sectionsOf r.image) slots, patched := true }

/-- Whether a PATCH recomputes a fixup. -/
def patches (d : BitVec 512) (e : BitVec 256) : Bool :=
  decide (dPatchFirst d ≤ fld e 0 16) && decide (fld e 0 16 < dPatchFirst d + dPatchCount d)

/-- Whether a recomputed field leaves its range. -/
def patchOut (s : State) (d : BitVec 512) (r : Reel) : Bool :=
  (fixupsOf (sectionsOf r.image)).any (fun e =>
    patches d e && rangeBad r.strict s.window.size (sectionsOf r.image) (patchSlots d r.slots) e)

/-- The checks of a PATCH, in order (R351). -/
def patchChecks (s : State) (d : BitVec 512) (r : Reel) : List (Bool × Nat) :=
  [(jobBusy s, 0x12), (decide (r.slots.length < dPatchFirst d + dPatchCount d), 0x10),
   (patchOut s d r, 0x103)]

/-- A PATCH of a package with a Reel, or none. -/
def patchLoaded (d : BitVec 512) (sq : Nat) (s : State) : State :=
  match s.reel with
  | none => finish d sq 0x11 [] s
  | some r =>
    checked d sq (patchChecks s d r)
      (fun s1 => finish d sq 0 (leBytes 4 (dPatchCount d)) { s1 with reel := some (patchReel d r) }) s

/-- PATCH. -/
def execPatch (d : BitVec 512) (s : State) : Host.Outcome State Fault Refusal :=
  .next (onDesc 0x02 d (fun sq s1 =>
    checked d sq [(!patchArgsOk d, 0x10), (s1.stop.stopped, 0x1E)] (patchLoaded d sq) s1) s)

end Sys2Proof.Machine
end

