-- ==== Sys2Proof/Machine/Supply.lean ====
section
/-! DEFINITION. The supply, the references and the tray's signals (chapter 2); CLEAR (R29, R249) stands with them. -/

namespace Sys2Proof.Machine

/-- SUPPLY_STOP (R21): VIN48 outside the supply-stop thresholds for 50 us. -/
def execSupplyStop (mv : Nat) (s : State) : Host.Outcome State Fault Refusal :=
  .next (if svcOn s && (decide (mv < 38000) || decide (60500 < mv)) && decide (30000 ≤ mv) then
    stopPackage .supply { s with tray := { s.tray with vin48 := mv } }
  else s)

/-- The target bank of a store that a power loss cuts short is invalid (R51). The model leaves its header fields as they were before
the store, so that the next start finds no higher generation there and BANK_FALLBACK stays 0 (log 74). -/
def spoilBank (t : Store) : Store :=
  match t.run with
  | some r =>
    if r.toB then { t with bankB := { t.bankB with intact := false } }
    else { t with bankA := { t.bankA with intact := false } }
  | none => t

/-- The part after a power loss: OFF, with the settings banks (R21, R51). -/
def powerLost (mv : Nat) (s : State) : State := unpowered mv { s with store := spoilBank s.store }

/-- POWER_LOSS (R21): VIN48 below the power-loss threshold of 30.0 V. -/
def execPowerLoss (mv : Nat) (s : State) : Host.Outcome State Fault Refusal :=
  .next (if svcOn s && decide (mv < 30000) then powerLost mv s else s)

/-- REGULATOR_FAULT (R23): a record names the regulator, and the package stops with SUPPLY_STOP. -/
def execRegulatorFault (r : Nat) (s : State) : Host.Outcome State Fault Refusal :=
  .next (if regulatorOn s r then stopPackage .supply (writeFsr 0x0A85 [4, r] none none none s) else s)

/-- COOL_STOP (R27): COOL_FLOW_N has been low for 2 ms without a break. -/
def execCoolStop (s : State) : Host.Outcome State Fault Refusal :=
  .next (if svcOn s && !s.tray.coolFlowN && s.boot.coolCount then
    stopPackage .cool { s with boot := { s.boot with coolCount := false } }
  else s)

/-- THERM_STOP (R28): a junction sensor reads 105 C. -/
def execThermStop (t : Int) (s : State) : Host.Outcome State Fault Refusal :=
  .next (if svcOn s && decide (105 ≤ t) then
    stopPackage .therm { s with tray := { s.tray with tMax := max s.tray.tMax t } }
  else s)

/-- CLOCK_STOP (R24): LREF0 has been absent for 1 us. -/
def execClockStop (s : State) : Host.Outcome State Fault Refusal :=
  .next (let s1 := { s with tray := { s.tray with lref0 := false } }
    if svcOn s then stopPackage .clock s1 else s1)

/-- A port that loses its reference: LINK_LOST when a running job uses it, and it leaves the trained state (R24, R130). -/
def losePort (p : Nat) (s : State) : State :=
  let up := portUp (portOf s p) || (portOf s p).st == .relock
  let s1 := if up && running s && reelPort s p then raiseFault 0x0601 (portUnit p) 0xFF 0 s else s
  dropPort p s1

/-- LREF_LINE_LOSS (R24): LREF1 or LREF2 has been absent for 1 us. -/
def execLrefLineLoss (n : Nat) (s : State) : Host.Outcome State Fault Refusal :=
  .next (
    let s1 := if n = 1 then { s with tray := { s.tray with lref1 := false } }
      else if n = 2 then { s with tray := { s.tray with lref2 := false } } else s
    if (n = 1 ∨ n = 2) ∧ n < s.ident.lineDies ∧ mgmtUp s then
      (List.range 16).foldl (fun a i => losePort (16 * n + i) a) s1
    else s1)

/-- LREF_RETURN (R29): a reference is present again; the ports of a returned line die send WAKE (R24). -/
def execLrefReturn (n : Nat) (s : State) : Host.Outcome State Fault Refusal :=
  .next (
    if n = 0 then { s with tray := { s.tray with lref0 := true } }
    else
      let s1 := if n = 1 then { s with tray := { s.tray with lref1 := true } }
        else if n = 2 then { s with tray := { s.tray with lref2 := true } } else s
      if (n = 1 ∨ n = 2) ∧ n < s.ident.lineDies ∧ mgmtUp s ∧ !lrefOn s n then
        (List.range 16).foldl (fun a i => dropPort (16 * n + i) a) s1
      else s1)

/-- COOL_FLOW_N_CHANGE (R27): a fall starts the 2 ms count, a rise ends it. -/
def execCoolFlowNChange (high : Bool) (s : State) : Host.Outcome State Fault Refusal :=
  .next (if s.tray.coolFlowN = high then s
    else { s with tray := { s.tray with coolFlowN := high }, boot := { s.boot with coolCount := !high } })

/-! ## CLEAR -/

/-- Whether a stop cause or its condition is still present (R29). -/
def causePresent (s : State) : Bool :=
  !s.tray.coolFlowN || decide (95 ≤ s.tray.tMax) || decide (s.tray.vin48 < 40000) || decide (59500 < s.tray.vin48) ||
  !s.tray.lref0

/-- A stack after an accepted CLEAR: out of self-refresh unless it is FENCED (Table 15-1). -/
def wakeStack (k : Nat) (s : State) : State :=
  if unitSt s (1072 + k) = .active ∨ unitSt s (1072 + k) = .watch then
    updMem k (fun m => if m.st = .selfRefresh then { m with st := .trained } else m) s
  else s

/-- The end of a stop (R249): panels FREE, rails at V3, SELF_TEST in progress, the count to be adopted again. -/
def clearStop (s : State) : State :=
  let causes := causeFlags s.stop
  let s1 := (List.range 8).foldl (fun a k => wakeStack k a)
    { s with stop := { stopped := false, first := none, cool := false, therm := false, supply := false, clock := false },
             tray := { s.tray with thermTripN := true },
             window := { Window.reset with size := s.window.size, hostMem := s.window.hostMem },
             power := { s.power with cls := 3 },
             pacer := { s.pacer with running := true },
             boot := { s.boot with stage := .selfTest, overrunHold := false } }
  appendLog 3 0 causes (post 0x0BA5 [] (dropPorts s1))

end Sys2Proof.Machine
end

