-- ==== Sys2Proof/Machine/Window.lean ====
section
/-! DEFINITION. The window's pending work and its panels: additions under a lock (R300), trees (R301), abandoned writes (R302), panels that
move (R293), and BAR2 (R272, R295). -/

namespace Sys2Proof.Machine

/-! ## Abandoned writes (R302) -/

/-- INFO of WINDOW_ABANDONED (Table 13-9). -/
def abandonInfo (index step cause : Nat) : List Byte := leBytes 2 index ++ leBytes 4 step ++ leBytes 1 cause

/-- A window write is abandoned: the job that released it completes as WINDOW_INCOMPLETE (R303). -/
def abandon (start index step cause : Nat) (s : State) : State :=
  post 0x0DA2 (abandonInfo index step cause)
    { s with job := { s.job with abandoned := s.job.abandoned || (running s && s.job.start == start) } }

/-- A pending addition leaves its engine. -/
def dropGacc (i : Nat) (s : State) : State := { s with window := { s.window with gaccs := s.window.gaccs.eraseIdx i } }

/-! ## Arrival-order accumulation (R300) -/

/-- An element of a sum in the window: roundTiesToEven, and INT32 saturates. -/
def windowAdd (f : Fmt) (a b : Nat) : Nat := (addE f 0 a b).1

/-- The payload of a target with a contribution added element by element. -/
def addPage (f : Fmt) (a b : PageBits) : PageBits :=
  let n := 4096 / elemBytes f
  BitVec.ofNat 32768 (packElems f (List.zipWith (windowAdd f) (elems f n a.toNat) (elems f n b.toNat)))

/-- The format of a contribution. -/
def blkFmt (v : Nat) : Fmt := (fmtOf v).getD .fp64

/-- A payload with its Envelope, as the adder builds it (R298). -/
def sumBlk (payload : PageBits) (tag step fmt : Nat) : Blk :=
  { payload := payload, env := mkEnv (pageBytes payload) (residues (pageBytes payload)) tag step fmt }

/-- The target of an addition after it. -/
def gaccSum (s : State) (b : StageBlk) : Blk :=
  let t := slotBlk s (nTarget b.entry)
  let k := eFmt b.blk.env
  sumBlk (addPage (blkFmt k) t.payload b.blk.payload) (nTag b.entry) b.step k

/-- The lock word that the part swaps in: PKG_ID + 1 and the step number. -/
def lockWord (s : State) (b : StageBlk) : Nat := (selfId s).toNat + 1 + 2 ^ 32 * b.step

/-- An addition whose lock is won: the target is checked, added into and written, or the write is abandoned; the lock word
ends 0. -/
def gaccAdd (i : Nat) (adderBad : Bool) (b : StageBlk) (s : State) : State :=
  let n := nTarget b.entry
  let t := slotBlk s n
  let s1 := dropGacc i s
  if !envSound t.env (pageBytes t.payload) then abandon b.start b.index b.step 2 s1
  else if adderBad then
    abandon b.start b.index b.step 3 (updTotals (fun t => { t with res := t.res + 1 }) s1)
  else
    let x := gaccSum s b
    countWindow (hostWrite (lockAddr s n) (leBytes 8 0)
      (hostWrite (envAddr s n) (envBytes x.env)
        (hostWrite (payloadAddr s n) (pageBytes x.payload) (hostWrite (lockAddr s n) (leBytes 8 (lockWord s b)) s1))))

/-- GACC_LOCK_ATTEMPT (R300): the swap fails while the lock word is not 0. -/
def execGaccLockAttempt (i : Nat) (adderBad : Bool) (host : HostSide) (s : State) :
    Host.Outcome State Fault Refusal :=
  .next (
    let s1 := hostActs host s
    match !s1.stop.stopped, s1.window.gaccs[i]? with
    | true, some b =>
      if ofLe (readBytes (hostMem s1) (lockAddr s1 (nTarget b.entry)) 8) = 0 then gaccAdd i adderBad b s1 else s1
    | _, _ => s1)

/-- GACC_LOCK_TIMEOUT (R302): the write is abandoned with cause 0. -/
def execGaccLockTimeout (i : Nat) (s : State) : Host.Outcome State Fault Refusal :=
  .next (
    match s.window.gaccs[i]? with
    | some b => abandon b.start b.index b.step 0 (dropGacc i s)
    | none => s)

/-! ## Fixed-tree accumulation (R301) -/

/-- The leaves of a tree, in order. -/
def treeLeaves (s : State) (t : Tree) : List Blk := (List.range (nLeaves t.entry)).map (fun r => slotBlk s (nLeaf t.entry r))

/-- Whether a leaf is present: its Envelope checks and carries the step number. -/
def leafReady (step : Nat) (b : Blk) : Bool := envSound b.env (pageBytes b.payload) && eGen b.env == step

/-- The sum of the leaves' values at an element, as VRED sums elements (R301, R353): at most 16 leaves make four levels. -/
def leafSum (f : Fmt) (xs : List Nat) : Nat :=
  if isInt f then (satInt f flSat ((xs.map (decodeInt f)).foldl (· + ·) 0)).1 else (treeUp (windowAdd f) 4 xs).headD 0

/-- The payload of a tree's sum. -/
def treePage (f : Fmt) (leaves : List Blk) : PageBits :=
  let n := 4096 / elemBytes f
  let rows := leaves.map (fun b => elems f n b.payload.toNat)
  BitVec.ofNat 32768 (packElems f ((List.range n).map (fun i => leafSum f (rows.map (fun r => r.getD i 0)))))

/-- A tree leaves its engine, and the longest waiting tree takes its place. -/
def dropTree (i : Nat) (s : State) : State :=
  let w := s.window
  { s with window := { w with trees := w.trees.eraseIdx i ++ w.waiting.take 1, waiting := w.waiting.drop 1 } }

/-- A complete tree: its sum is written to the target. -/
def finishTree (i : Nat) (t : Tree) (s : State) : State :=
  let sum := sumBlk (treePage (blkFmt t.fmt.toNat) (treeLeaves s t)) (nTag t.entry) t.step t.fmt.toNat
  dropTree i (writeSlot (nTarget t.entry) sum [] s)

/-- GTREE_POLL (R301): the leaf Envelopes are read, and the sum is written when every leaf is present. -/
def execGtreePoll (i : Nat) (host : HostSide) (s : State) : Host.Outcome State Fault Refusal :=
  .next (
    let s1 := hostActs host s
    match !s1.stop.stopped, s1.window.trees[i]? with
    | true, some t => if (treeLeaves s1 t).all (leafReady t.step) then finishTree i t s1 else s1
    | _, _ => s1)

/-- GTREE_TIMEOUT (R302): a tree of the engine, or one that waits for it, is abandoned with cause 1. -/
def execGtreeTimeout (i : Nat) (s : State) : Host.Outcome State Fault Refusal :=
  .next (
    let n := s.window.trees.length
    match s.window.trees[i]?, s.window.waiting[i - n]? with
    | some t, _ => abandon t.start t.index t.step 1 (dropTree i s)
    | none, some t =>
      abandon t.start t.index t.step 1 { s with window := { s.window with waiting := s.window.waiting.eraseIdx (i - n) } }
    | none, none => s)

/-! ## Panels that move (R293) -/

/-- Whether a released write still targets a panel. -/
def panelPending (s : State) (p : Nat) : Bool :=
  let w := s.window
  w.stage.any (fun b => b.released && (writtenPanels b).contains p) || w.gaccs.any (fun b => nTarget b.entry / 15 == p) ||
  w.trees.any (fun t => nTarget t.entry / 15 == p) || w.waiting.any (fun t => nTarget t.entry / 15 == p)

/-- A panel of a take becomes HOST once nothing is pending for it. -/
def settlePanel (p : Nat) (s : State) : State :=
  if (panelOf s p).st = .moving ∧ !panelPending s p then setPanel p { panelOf s p with st := .host } s else s

/-- The record of a PANEL_TAKE (Table 13-4). -/
def takeRec (t : TakeRef) (us : Nat) : Rec :=
  { tag := t.tag, opcode := 0x06, final := true, status := 0, sq := t.sq, info := leBytes 4 (min us (2 ^ 32 - 1)),
    irq := t.irq, countInfo := false }

/-- The panels of a range. -/
def panelRange (first count : Nat) : List Nat := (List.range count).map (fun k => first + k)

/-- PANEL_MOVE_DONE (R279, R292): panels without pending writes become HOST; the record follows the last of them. -/
def execPanelMoveDone (i : Nat) (us : Nat) (s : State) : Host.Outcome State Fault Refusal :=
  .next (
    match s.window.takes[i]? with
    | some t =>
      let ps := panelRange t.first t.count
      let s1 := ps.foldl (fun a p => settlePanel p a) s
      if ps.any (fun p => (panelOf s1 p).st == .moving) then s1
      else complete (takeRec t us) { s1 with window := { s1.window with takes := s1.window.takes.eraseIdx i } }
    | none => s)

/-! ## BAR2 (R272, R295) -/

/-- Where a BAR2 offset lies in host memory. -/
def backingAddr (s : State) (off : Nat) : Nat := (panelOf s (off / 65536)).backing + off % 65536

/-- A byte that BAR2 shows. -/
def barByte (s : State) (off : Nat) : Byte :=
  if s.window.size ≤ off / 65536 then 0
  else if (panelOf s (off / 65536)).st = .free then 0
  else readByte (hostMem s) (backingAddr s off)

/-- Whether a write of a BAR2 byte is carried out. -/
def barWritable (s : State) (off : Nat) : Bool :=
  decide (off / 65536 < s.window.size) && (panelOf s (off / 65536)).st == .host

/-- The bytes of a write that HOST panels take. -/
def barCells (s : State) (off : Nat) (bs : List Byte) : List (Nat × Byte) :=
  (bs.zipIdx.filter (fun x => barWritable s (off + x.2))).map (fun x => (backingAddr s (off + x.2), x.1))

/-- A BAR2 write; one with a dropped byte counts once. -/
def barWrite (off : Nat) (bs : List Byte) (s : State) : State :=
  let s1 := hostWrote (barCells s off bs) s
  if bs.zipIdx.all (fun x => barWritable s (off + x.2)) then s1
  else { s1 with rings := { s1.rings with dropped := satInc 16 s1.rings.dropped } }

/-- BAR2_ACCESS (R295). -/
def execBar2Access (a : Bar2Access) (s : State) : Host.Outcome State Fault Refusal :=
  .next (
    if linkUp s then
      match a with
      | .read off len => { s with out := { s.out with bytes := (List.range len).map (fun k => barByte s (off + k)) } }
      | .write off bytes => barWrite off bytes s
    else s)

/-- BAR2_RESIZE (R272): only while every panel is FREE; otherwise the control register keeps the old size. -/
def execBar2Resize (panels : Nat) (s : State) : Host.Outcome State Fault Refusal :=
  .next (
    if linkUp s && barSizes.contains panels && s.window.panels.all (fun x => x.2.st == .free) then
      { s with window := { s.window with size := panels } }
    else s)

end Sys2Proof.Machine
end

