-- ==== Sys2Proof/Machine/Rings.lean ====
section
/-! DEFINITION. The doorbell poll (R277, R278, R280) and the descriptors other than LOAD, PATCH and TEST (R279, R283 to R287, R292, R294,
R352), with the store engine (R49 to R52). -/

namespace Sys2Proof.Machine

/-! ## The doorbell poll -/

/-- A 32-bit number in host memory. -/
def ramWord (s : State) (a : Nat) : BitVec 32 := BitVec.ofNat 32 (ofLe (readBytes (hostMem s) a 4))

/-- The interval after a poll (R277), within the bounds of HOST_POLL. -/
def nextPoll (r : Rings) (changed : Bool) : Nat :=
  let lo := r.committed.minUs.toNat
  if changed || r.wrote then lo else max lo (min (2 * r.pollUs) r.committed.maxUs.toNat)

/-- A poll counted. -/
def countPoll (changed : Bool) (r : Rings) : Rings :=
  { r with heartbeat := r.heartbeat + 1, pollUs := nextPoll r changed, wrote := false }

/-- A poll begins: at least 1 us has passed since the last, so that no message shares one from before it (R282, log 21). -/
def forgetMessages (s : State) : State := { s with rings := { s.rings with msix := [] } }

/-- A read at an address of host memory that ended in an error (R280): it is repeated at the next poll. -/
def dmaFailed (a : Nat) (s : State) : State :=
  let r := s.rings
  post 0x0DA4 (leBytes 8 a) (syncDoorbell { s with rings := { r with dma := satInc 16 r.dma, events := r.events ||| 4 } })

/-- A poll whose read of the doorbell line failed. -/
def pollFailed (s : State) : State := dmaFailed s.rings.committed.db.toNat { s with rings := countPoll false s.rings }

/-- SQ_TAIL lies more than a ring ahead (R278). -/
def ringOverrun (tail : BitVec 32) (s : State) : State :=
  let s1 := post 0x0DA3 (leBytes 4 tail.toNat) { s with rings := { s.rings with events := s.rings.events ||| 2 } }
  { s1 with rings := { s1.rings with committed := { s1.rings.committed with enable := false } } }

/-- Descriptors fetched up to a tail; a full completion ring makes the fetch wait (Table 13-2, R280). A fetch that fails takes nothing,
and the next poll fetches again. -/
def fetchUpTo (bad : Bool) (tail : BitVec 32) (s : State) : State :=
  let r := s.rings
  if cqFull s || tail == r.sqHead then s
  else if bad then dmaFailed (ringAt r.committed.sq r.sqHead r.committed.szSq 64) s
  else syncDoorbell { s with rings := { r with sqHead := tail } }

/-- The host's line as read: heads, records that now have room, and fetched descriptors. -/
def pollRead (bad : Bool) (s : State) : State :=
  let db := s.rings.committed.db.toNat
  let tail := ramWord s db
  let r := countPoll (tail != s.rings.lastTail) s.rings
  let s1 := { s with rings := { r with lastTail := tail, cqHead := ramWord s (db + 4), eqHead := ramWord s (db + 8) } }
  let ahead := decide (ringSize r.committed.szSq < (tail - r.sqHead).toNat)
  if ahead then ringOverrun tail (syncDoorbell s1) else fetchUpTo bad tail (flushDue (syncDoorbell s1))

/-- A poll, with how its reads of host memory end (R280). -/
def pollBy (read : PollRead) (s : State) : State :=
  match read with
  | .whole => pollRead false s
  | .badBlock => pollFailed s
  | .badRing => pollRead true s

/-- DOORBELL_POLL (R277): while the rings are enabled and the package is READY, over a link that has trained. -/
def execDoorbellPoll (host : HostSide) (read : PollRead) (s : State) : Host.Outcome State Fault Refusal :=
  .next (
    if barOpen s && s.rings.committed.enable then pollBy read (hostActs host (forgetMessages s)) else hostActs host s)

/-! ## Descriptors without arguments -/

/-- Whether a descriptor without arguments is well formed. -/
def bareOk (d : BitVec 512) : Bool := headOk d false && zeros d 64 448

/-- NOP_DESCRIPTOR (R284). -/
def execNopDescriptor (d : BitVec 512) (s : State) : Host.Outcome State Fault Refusal :=
  .next (onDesc 0x00 d (fun sq s1 => checked d sq [(!bareOk d, 0x10)] (finish d sq 0 []) s1) s)

/-- RESERVED_OPCODE (R283). -/
def execReservedOpcode (d : BitVec 512) (s : State) : Host.Outcome State Fault Refusal :=
  .next (if 0x0C ≤ dOp d then onDesc (dOp d) d (fun sq s1 => finish d sq 0x10 [] s1) s else s)

/-- UNLOAD (R284). -/
def execUnload (d : BitVec 512) (s : State) : Host.Outcome State Fault Refusal :=
  .next (onDesc 0x03 d (fun sq s1 =>
    checked d sq [(!bareOk d, 0x10), (s1.reel.isNone, 0x11), (jobBusy s1, 0x12)]
      (fun s2 => finish d sq 0 [] (unloadReel s2)) s1) s)

/-- CLEAR (R29, R249, R352). -/
def execClear (d : BitVec 512) (s : State) : Host.Outcome State Fault Refusal :=
  .next (onDesc 0x0B d (fun sq s1 =>
    checked d sq [(!bareOk d, 0x10), (s1.stop.stopped && causePresent s1, 0x1D)]
      (fun s2 => if s2.stop.stopped then finish d sq 0 (leBytes 1 (causeFlags s2.stop)) (clearStop s2)
        else finish d sq 0 [] s2) s1) s)

/-! ## Launch and cancel -/

/-- LAUNCH_AT's count (Table 13-4). -/
def dStart (d : BitVec 512) : Nat := fld d 64 64

/-- A record of a LAUNCH_AT, with the count at which it is written (R287). -/
def launchRec (d : BitVec 512) (sq : Nat) (final : Bool) (status : Nat) : Rec :=
  { recOf d sq final status [] with countInfo := true }

/-- The checks of a LAUNCH_AT (R149, R351). -/
def launchChecks (s : State) (d : BitVec 512) : List (Bool × Nat) :=
  [(!(headOk d false && zeros d 128 384), 0x10), (s.stop.stopped, 0x1E), (s.reel.isNone, 0x11), (jobBusy s, 0x12),
   (s.bridle.st != .synced, 0x13), (decide (dStart d ≤ cnt s + 16), 0x14)]

/-- A launch armed. -/
def arm (d : BitVec 512) (sq : Nat) (s : State) : State :=
  { s with job := { s.job with st := .armed, start := dStart d, launch := { tag := dTag d, sq := sq }, fenceNow := none,
                               abandoned := false } }

/-- LAUNCH_AT (R149). -/
def execLaunchAt (d : BitVec 512) (s : State) : Host.Outcome State Fault Refusal :=
  .next (onDesc 0x07 d (fun sq s1 =>
    match firstFailure (launchChecks s1 d) with
    | some status => complete (launchRec d sq true status) s1
    | none => complete (launchRec d sq false 1) (arm d sq s1)) s)

/-- What a CANCEL does, and its INFO: bit 0 a launch disarmed, bit 1 a job ended. -/
def cancelJob (s : State) : State × Nat :=
  match s.job.st with
  | .armed => (disarm s, 1)
  | .running => (finishJob 3 false s, 2)
  | .idle => (s, 0)

/-- CANCEL (R150): the job-end record comes before its own (R287). -/
def execCancel (d : BitVec 512) (s : State) : Host.Outcome State Fault Refusal :=
  .next (onDesc 0x08 d (fun sq s1 =>
    checked d sq [(!bareOk d, 0x10)] (fun s2 => finish d sq 0 (leBytes 1 (cancelJob s2).2) (cancelJob s2).1) s1) s)

/-! ## Panels (R292 to R294) -/

def dFirst (d : BitVec 512) : Nat := fld d 64 32
def dCount (d : BitVec 512) : Nat := fld d 96 32
def dHostAddr (d : BitVec 512) : Nat := fld d 128 64
def dBlocks (d : BitVec 512) : Bool := bit d 192
def dUnmap (d : BitVec 512) : Bool := bit d 193

/-- The panels that a descriptor names. -/
def dPanels (d : BitVec 512) : List Nat := panelRange (dFirst d) (dCount d)

/-- Whether a range of panels is in range. -/
def rangeOk (s : State) (d : BitVec 512) : Bool :=
  decide (1 ≤ dCount d) && decide (dCount d ≤ 65536) && decide (dFirst d + dCount d ≤ s.window.size)

/-- Whether every panel of a descriptor is in a state. -/
def allPanels (s : State) (d : BitVec 512) (st : PanelSt) : Bool := (dPanels d).all (fun p => (panelOf s p).st == st)

/-- Every panel of a descriptor changed. -/
def eachPanel (d : BitVec 512) (f : Nat → Panel → Panel) (s : State) : State :=
  (dPanels d).foldl (fun a p => setPanel p (f p (panelOf a p)) a) s

/-- A panel tied to its host page, or untied. -/
def mapPanel (d : BitVec 512) (p : Nat) (_ : Panel) : Panel :=
  if dUnmap d then { st := .free, blocks := false, backing := 0 }
  else { st := .host, blocks := dBlocks d, backing := dHostAddr d + 65536 * (p - dFirst d) }

/-- WINDOW_MAP (R292). -/
def execWindowMap (d : BitVec 512) (s : State) : Host.Outcome State Fault Refusal :=
  .next (onDesc 0x04 d (fun sq s1 =>
    let ok := headOk d false && zeros d 194 318 && zeros d 128 16 && rangeOk s1 d
    checked d sq [(!ok, 0x10), (!allPanels s1 d (if dUnmap d then .host else .free), 0x17)]
      (fun s2 => finish d sq 0 [] (eachPanel d (mapPanel d) s2)) s1) s)

/-- Whether PANEL_GIVE or PANEL_TAKE is well formed. -/
def giveOk (s : State) (d : BitVec 512) : Bool := headOk d false && zeros d 128 384 && rangeOk s d

/-- PANEL_GIVE (R292). -/
def execPanelGive (d : BitVec 512) (s : State) : Host.Outcome State Fault Refusal :=
  .next (onDesc 0x05 d (fun sq s1 =>
    checked d sq [(!giveOk s1 d, 0x10), (!allPanels s1 d .host, 0x17)]
      (fun s2 => finish d sq 0 [] (eachPanel d (fun _ v => { v with st := .device }) s2)) s1) s)

/-- Whether a panel holds far-tier blocks of the loaded Reel. -/
def farPanel (s : State) (p : Nat) : Bool :=
  match s.reel with
  | some r =>
    (pkgRecs r secFarFill).any (fun f => fHome f / 15 == p) ||
    ((pkgRecs r secInputs) ++ (pkgRecs r secWeights)).any (fun l => lFar l && lSource l / 15 == p)
  | none => false

/-- Whether a panel holds leaf slots of a pending tree. -/
def leafPanel (s : State) (p : Nat) : Bool :=
  (s.window.trees ++ s.window.waiting).any (fun t => (List.range (nLeaves t.entry)).any (fun r => nLeaf t.entry r / 15 == p))

/-- A panel taken: MOVING while released writes to it remain (R293). -/
def takePanel (s : State) (p : Nat) (v : Panel) : Panel := { v with st := if panelPending s p then .moving else .host }

/-- A staged block of a final step, which the panels taken among those it writes wait for (R293). -/
def StageBlk.awaitedBy (ps : List Nat) (b : StageBlk) : StageBlk :=
  if b.released then { b with awaited := b.awaited ++ (writtenPanels b).filter (fun p => ps.contains p) } else b

/-- The panels of a PANEL_TAKE taken; its record waits for those that move (R279). -/
def takePanels (d : BitVec 512) (sq : Nat) (s : State) : State :=
  let s0 := eachPanel d (takePanel s) s
  let s1 := { s0 with window := { s0.window with stage := s0.window.stage.map (StageBlk.awaitedBy (dPanels d)) } }
  let t : TakeRef := { tag := dTag d, irq := bit d 8, sq := sq, first := dFirst d, count := dCount d }
  if (dPanels d).any (panelPending s) then { s1 with window := { s1.window with takes := s1.window.takes ++ [t] } }
  else complete (takeRec t 0) s1

/-- PANEL_TAKE (R292, R294). -/
def execPanelTake (d : BitVec 512) (s : State) : Host.Outcome State Fault Refusal :=
  .next (onDesc 0x06 d (fun sq s1 =>
    checked d sq [(!giveOk s1 d, 0x10), (!allPanels s1 d .device, 0x17),
        (jobBusy s1 && (dPanels d).any (fun p => farPanel s1 p || leafPanel s1 p), 0x18)]
      (takePanels d sq) s1) s)

/-! ## The settings store (R49 to R52) -/

/-- GENERATION and STORE_COUNT of the active bank, 0 without one (Table 3-8). -/
def activeGen (t : Store) : Nat := match activeSet t with | some b => b.generation | none => 0
def activeCount (t : Store) : Nat := match activeSet t with | some b => b.storeCount | none => 0

/-- Whether the store limit has been reached (R52). -/
def wornOut (s : State) : Bool := decide (100000 ≤ activeCount s.store)

/-- A management response's UNIT_GEN and data after COMMAND, INSTANCE and COMPLETION (R335). -/
def mgmtResponse (s : State) (cmd : Nat) (ins : BitVec 8) (code : Nat) (data : List Byte) : List Byte :=
  leBytes 1 cmd ++ [ins] ++ leBytes 1 code ++ leBytes 4 s.unitGen ++ data

/-- A management request answered (Table 15-9). -/
def answer (cmd : Nat) (ins : BitVec 8) (code : Nat) (data : List Byte) (s : State) : State :=
  { s with out := { s.out with resp := mgmtResponse s cmd ins code data },
           mgmt := { s.mgmt with requests := satInc 16 s.mgmt.requests, lastCommand := BitVec.ofNat 8 cmd,
                                 lastCompletion := BitVec.ofNat 8 code } }

/-- The completion of a store request (R49): descriptor status, or management completion with RESULT and GENERATION. -/
def storeAnswer (q : StoreReq) (result : Nat) (s : State) : State :=
  let s1 := { s with store := { s.store with lastResult := result } }
  match q with
  | .ring tag irq sq =>
    let status := if result = 1 then 0 else if result = 2 then 0x1B else 0x1C
    complete { tag := tag, opcode := 0x0A, final := true, status := BitVec.ofNat 16 status, sq := sq,
               info := leBytes 4 (activeGen s1.store), irq := irq, countInfo := false } s1
  | .mgmt ins =>
    let code := if result = 1 then 0 else if result = 2 then 0x84 else 0x85
    answer 0x08 ins code (leBytes 1 result ++ leBytes 4 (activeGen s1.store)) s1
  | .lost => s1

/-- A store that starts: its log entry, then the copy (R44, R49). STORE_COUNT is the active bank's plus 1, so that a store that failed
is not counted (log 74). -/
def startStore (q : StoreReq) (s : State) : State :=
  let gen := activeGen s.store + 1
  let s1 := appendLog 4 0 gen s
  let run : StoreRun :=
    { req := q, set := s1.store.set, toB := s1.store.active != some true, generation := gen,
      storeCount := activeCount s1.store + 1, tbSeconds := validSec s1.tb }
  { s1 with store := { s1.store with run := some run } }

/-- A worn store refuses (R52). -/
def refuseStore (q : StoreReq) (s : State) : State := storeAnswer q 3 { s with store := { s.store with worn := true } }

/-- A request at the store engine: refused when worn, started when the engine is free, else waiting (R50). -/
def requestStore (q : StoreReq) (s : State) : State :=
  if wornOut s then refuseStore q s
  else if s.store.run.isSome || !s.store.waiting.isEmpty then
    { s with store := { s.store with waiting := s.store.waiting ++ [q] } }
  else startStore q s

/-- STORE_SETTINGS (R49). -/
def execStoreSettings (d : BitVec 512) (s : State) : Host.Outcome State Fault Refusal :=
  .next (onDesc 0x0A d (fun sq s1 =>
    checked d sq [(!bareOk d, 0x10)] (requestStore (.ring (dTag d) (bit d 8) sq)) s1) s)

/-- STORE_START (R50): the longest waiting request starts once no store runs. -/
def execStoreStart (s : State) : Host.Outcome State Fault Refusal :=
  .next (
    match svcOn s && s.store.run.isNone, s.store.waiting with
    | true, q :: l =>
      let s1 := { s with store := { s.store with waiting := l } }
      if wornOut s1 then refuseStore q s1 else startStore q s1
    | _, _ => s)

/-- The bank that a store writes. -/
def writtenBank (x : StoreRun) (good : Bool) : Bank :=
  { intact := good, generation := x.generation, storeCount := x.storeCount, tbSeconds := x.tbSeconds, set := x.set }

/-- The banks after a store. -/
def finishStore (x : StoreRun) (good : Bool) (t : Store) : Store :=
  let b := writtenBank x good
  let t1 := if x.toB then { t with bankB := b } else { t with bankA := b }
  let t2 := { t1 with run := none, active := if good then some x.toB else t.active }
  { t2 with worn := t2.worn || decide (100000 ≤ activeCount t2) }

/-- STORE_COMPLETE (R49): the bank becomes active when its read-back checks. -/
def execStoreComplete (good : Bool) (s : State) : Host.Outcome State Fault Refusal :=
  .next (
    match svcOn s, s.store.run with
    | true, some x => storeAnswer x.req (if good then 1 else 2) { s with store := finishStore x good s.store }
    | _, _ => s)

end Sys2Proof.Machine
end

