-- ==== Sys2Proof/Machine/Mgmt.lean ====
section
/-! DEFINITION. The management path (R324 to R336, R339 to R341): MCTP control, and the vendor-defined commands of Table 15-3. -/

namespace Sys2Proof.Machine

/-! ## Packets and MCTP control (R333, R334; formats of DSP0236, log 12) -/

/-- BAD_PEC_PACKET (R333): dropped and counted. -/
def execBadPecPacket (s : State) : Host.Outcome State Fault Refusal :=
  .next (if mgmtUp s then { s with mgmt := { s.mgmt with dropped := satInc 16 s.mgmt.dropped } } else s)

/-- A request answered with bytes. -/
def respond (bytes : List Byte) (s : State) : State :=
  { s with out := { s.out with resp := bytes }, mgmt := { s.mgmt with requests := satInc 16 s.mgmt.requests } }

/-- A control request: answered from the end of SERVICE_BOOT on. -/
def onControl (f : State → State) (s : State) : State := if mgmtUp s then f s else s

/-- SET_ENDPOINT_ID: 0x00 and 0xFF name no endpoint. -/
def execSetEndpointId (eid : BitVec 8) (s : State) : Host.Outcome State Fault Refusal :=
  .next (onControl (fun s =>
    if eid = 0 ∨ eid = 0xFF then respond [0x02] s
    else respond [0, 0, eid, 0] { s with mgmt := { s.mgmt with eid := eid, eidValid := true } }) s)

/-- GET_ENDPOINT_ID: 0 before one is assigned. -/
def execGetEndpointId (s : State) : Host.Outcome State Fault Refusal :=
  .next (onControl (fun s => respond [0, if s.mgmt.eidValid then s.mgmt.eid else 0, 0, 0] s) s)

/-- The message types that have a version: the base, control, PLDM, vendor defined. -/
def versionTypes : List Nat := [0xFF, 0x00, 0x01, 0x7E]

/-- GET_MCTP_VERSION_SUPPORT. -/
def execGetMctpVersionSupport (t : BitVec 8) (s : State) : Host.Outcome State Fault Refusal :=
  .next (onControl (fun s =>
    if versionTypes.contains t.toNat then respond ([0, 1] ++ beBytes 4 (Config.mctpVersion t).toNat) s else respond [0x80] s) s)

/-- GET_MESSAGE_TYPE_SUPPORT: PLDM and vendor defined. -/
def execGetMessageTypeSupport (s : State) : Host.Outcome State Fault Refusal :=
  .next (onControl (respond [0, 2, 0x01, 0x7E]) s)

/-- GET_VENDOR_DEFINED_MESSAGE_SUPPORT: one set, by PCI vendor identifier. -/
def execGetVendorDefinedMessageSupport (s : State) : Host.Outcome State Fault Refusal :=
  .next (onControl (respond ([0, 0xFF, 0] ++ beBytes 2 Config.vendorId.toNat ++ beBytes 2 Config.vendorSet.toNat)) s)

/-! ## Vendor-defined commands (R335, R336) -/

/-- Whether the part answers more than control messages (R334). -/
def vendorUp (s : State) : Bool := mgmtUp s && s.mgmt.eidValid

/-- A vendor-defined or PLDM request. -/
def onVendor (f : State → State) (s : State) : State := if vendorUp s then f s else s

/-- RESERVED_COMMAND: ERROR. -/
def execReservedCommand (cmd ins : BitVec 8) (s : State) : Host.Outcome State Fault Refusal :=
  .next (onVendor (answer cmd.toNat ins 0x01 []) s)

/-- A command that answers data, or INVALID_DATA when an argument lies outside its range. -/
def query (cmd : Nat) (ins : BitVec 8) (ok : Bool) (data : State → List Byte) (s : State) : State :=
  onVendor (fun s => if ok then answer cmd ins 0 (data s) s else answer cmd ins 0x02 [] s) s

/-- Whether COUNT lies in its range. -/
def countOk (most n : Nat) : Bool := decide (1 ≤ n) && decide (n ≤ most)

/-- The entry of a unit index as the table shows it (R325). -/
def shownEntry (s : State) (i : Nat) : Byte := entryByte (unitEntry s i)

/-- GET_UNITS. -/
def execGetUnits (ins : BitVec 8) (first count : BitVec 16) (s : State) : Host.Outcome State Fault Refusal :=
  .next (query 0x01 ins (countOk 512 count.toNat && decide (first.toNat + count.toNat ≤ 1080))
    (fun s => (List.range count.toNat).map (fun k => shownEntry s (first.toNat + k))) s)

/-! ## Fencing and restoring (R328 to R332) -/

/-- A quarantine entry's 32 bytes (R332). -/
def qBytes (q : QEntry) : List Byte :=
  leBytes 2 q.unit.toNat ++ leBytes 1 (unitCode q.st) ++ leBytes 1 q.reason.toNat ++ leBytes 8 q.seconds ++ leBytes 4 q.uptimeH ++
  leBytes 4 q.gen ++ leBytes 4 q.fsrSeq ++ List.replicate 8 0

/-- The quarantine list with an entry; one per unit. -/
def putQ (q : QEntry) (l : List QEntry) : List QEntry :=
  if l.any (fun x => x.unit == q.unit) then l.map (fun x => if x.unit = q.unit then q else x) else l ++ [q]

/-- A unit's quarantine entry of the present moment. -/
def qOf (s : State) (i : Nat) (reason : BitVec 8) : QEntry :=
  { unit := unitField i, st := unitSt s i, reason := reason, seconds := s.tb.sec, uptimeH := uptimeH s, gen := s.unitGen,
    fsrSeq := (healthOf s i).fsrSeq }

/-- Whether a fence of a unit needs an entry that the list has no room for (R332). -/
def listFull (s : State) (i : Nat) : Bool :=
  decide (448 ≤ s.store.set.qlist.length) && !s.store.set.qlist.any (fun q => q.unit == unitField i)

/-- INFO of FENCE_APPLIED and UNIT_RESTORED (Table 15-8). -/
def fenceInfo (s : State) (i : Nat) : List Byte :=
  leBytes 2 (unitField i).toNat ++ leBytes 1 (unitCode (unitSt s i)) ++ leBytes 1 (flag (unitEntry s i).held) ++ leBytes 4 s.unitGen

/-- The entry that a fence gives a unit: held while a job or an armed launch uses it (R328, R331). -/
def fencedEntry (s : State) (i : Nat) (off : Bool) : UnitEntry :=
  { st := if off then .off else .fenced, held := jobBusy s && usesUnit s i }

/-- A unit fenced or set off: its entry, its service, its quarantine entry, the log and the event. -/
def fenceUnit (i : Nat) (off : Bool) (reason : BitVec 8) (s : State) : State :=
  let e := fencedEntry s i off
  let changed := decide (entryByte (unitEntry s i) ≠ entryByte e)
  let s1 := setUnit i e s
  let s2 := if changed && !e.held then leaveService i s1 else s1
  let s3 := updSet (fun t => { t with qlist := putQ (qOf s2 i reason) t.qlist }) s2
  let s4 := if changed then logUnit i reason.toNat s3 else s3
  post 0x0FA1 (fenceInfo s4 i) s4

/-- What FENCE_NOW does besides: the job that uses the unit faults at once, an armed one at its launch count (R329). -/
def faultNow (i : Nat) (used : Bool) (s : State) : State :=
  if !used then s
  else if running s then raiseFault 0x0F01 (unitField i) 0xFF 0 s
  else if armed s then { s with job := { s.job with fenceNow := some (s.job.fenceNow.getD (unitField i)) } }
  else s

/-- With no job and no armed launch, every moment is a job boundary (R328). -/
def idleBoundary (s : State) : State := if jobBusy s then s else jobBoundary s

/-- A command that names a populated unit (R331, R336). -/
def onUnit (cmd : Nat) (ins : BitVec 8) (unit : UnitField) (f : Nat → State → State) (s : State) : State :=
  onVendor (fun s =>
    match unitIndex unit with
    | none => answer cmd ins 0x02 [] s
    | some i => if unitPop s i then f i s else answer cmd ins 0x80 [] s) s

/-- FENCE, FENCE_NOW and SET_OFF, and their answer. -/
def fenceCommand (cmd : Nat) (ins : BitVec 8) (off now : Bool) (reason : BitVec 8) (i : Nat) (s : State) : State :=
  if listFull s i then answer cmd ins 0x82 [] s
  else
    let used := usesUnit s i
    let s1 := fenceUnit i off reason s
    let s2 := idleBoundary (if now then faultNow i used s1 else s1)
    answer cmd ins 0 [shownEntry s2 i] s2

/-- FENCE. -/
def execFence (ins : BitVec 8) (unit : UnitField) (reason : BitVec 8) (s : State) : Host.Outcome State Fault Refusal :=
  .next (onUnit 0x02 ins unit (fenceCommand 0x02 ins false false reason) s)

/-- FENCE_NOW. -/
def execFenceNow (ins : BitVec 8) (unit : UnitField) (reason : BitVec 8) (s : State) : Host.Outcome State Fault Refusal :=
  .next (onUnit 0x03 ins unit (fenceCommand 0x03 ins false true reason) s)

/-- SET_OFF. -/
def execSetOff (ins : BitVec 8) (unit : UnitField) (reason : BitVec 8) (s : State) : Host.Outcome State Fault Refusal :=
  .next (onUnit 0x04 ins unit (fenceCommand 0x04 ins true false reason) s)

/-- A stack powered, and scrubbed where it was off (R331); at a stop it rests. -/
def restoreStack (s : State) (m : Stack) : Stack :=
  let st := if s.stop.stopped then StackSt.selfRefresh else StackSt.trained
  if !memoryUp s then m
  else if m.st = .off then { Stack.off with st := st, temp := m.temp }
  else if m.st = .selfRefresh then { m with st := st } else m

/-- A unit back in service. -/
def enterService (i : Nat) (s : State) : State :=
  if i < 1024 then wakeBuffers (i / 8) s
  else if i < 1072 then gateQuads (dropPort (i - 1024) s)
  else updMem (i - 1072) (restoreStack s) s

/-- A unit restored (R331): WATCH at once, due for a test no later than now (R215, Table 10-6). -/
def restoreUnit (i : Nat) (s : State) : State :=
  let due := min (dueTime s i) s.sec.uptime
  let held := (unitEntry s i).held
  let s1 := setUnit i { st := .watch, held := false } s
  let s2 := if held then s1 else enterService i s1
  let s3 := updHealth i (fun h => { h with passes := 0, advised := false, watchDue := some due }) s2
  let s4 := logUnit i 0 (updSet (fun t => { t with qlist := t.qlist.filter (fun q => q.unit != unitField i) }) s3)
  post 0x0FA2 (fenceInfo s4 i) s4

/-- RESTORE. -/
def execRestore (ins : BitVec 8) (unit : UnitField) (s : State) : Host.Outcome State Fault Refusal :=
  .next (onUnit 0x05 ins unit (fun i s =>
    if outOfService s i then
      let s1 := restoreUnit i s
      answer 0x05 ins 0 [shownEntry s1 i] s1
    else answer 0x05 ins 0x81 [] s) s)

/-- GET_QLIST. -/
def execGetQlist (ins : BitVec 8) (first count : BitVec 16) (s : State) : Host.Outcome State Fault Refusal :=
  .next (query 0x06 ins (countOk 16 count.toNat)
    (fun s => ((s.store.set.qlist.drop first.toNat).take count.toNat).flatMap qBytes) s)

/-! ## Cap limits and the settings store (R47 to R49) -/

/-- The committed cap moves to the nearest limit when the limits exclude it (R48). -/
def clampCap (lo hi : Nat) (s : State) : State :=
  let c := s.power.committed.cap.toNat
  let n := max lo (min hi c)
  if n = c then s
  else post 0x0BA2 (leBytes 2 n)
    { s with power := { s.power with committed := { s.power.committed with cap := BitVec.ofNat 16 n },
                                     events := s.power.events ||| 4 } }

/-- The limits set together. -/
def setLimits (lo hi : Nat) (s : State) : State :=
  let s1 := updSet (fun t => { t with capMin := lo, capMax := hi }) s
  clampCap lo hi (post 0x0FA4 (leBytes 2 lo ++ leBytes 2 hi) (appendLog 5 0 (lo + 2 ^ 16 * hi) s1))

/-- Whether limits are refused (R47). -/
def limitsBad (s : State) (lo hi : Nat) : Bool := decide (lo < 500) || decide (powerLimit s < hi) || decide (hi < lo)

/-- SET_CAP_LIMITS. -/
def execSetCapLimits (ins : BitVec 8) (lo hi : BitVec 16) (s : State) : Host.Outcome State Fault Refusal :=
  .next (onVendor (fun s =>
    if limitsBad s lo.toNat hi.toNat then answer 0x07 ins 0x83 [] s
    else answer 0x07 ins 0 (leBytes 2 lo.toNat ++ leBytes 2 hi.toNat) (setLimits lo.toNat hi.toNat s)) s)

/-- STORE_SETTINGS by the management path: answered when the store completes. -/
def execMgmtStoreSettings (ins : BitVec 8) (s : State) : Host.Outcome State Fault Refusal :=
  .next (onVendor (requestStore (.mgmt ins)) s)

/-! ## Readings (R339, R221, R222) -/

/-- Words as bytes. -/
def wordBytes (l : List Nat) : List Byte := l.flatMap (leBytes 4)

/-- READ_UNIT: the SEC entry (R16, R225). -/
def execReadUnit (ins : BitVec 8) (unit : UnitField) (s : State) : Host.Outcome State Fault Refusal :=
  .next (query 0x09 ins (unitIndex unit).isSome (fun s => wordBytes (secEntry s ((unitIndex unit).getD 0))) s)

/-- READ_TOTALS. -/
def execReadTotals (ins : BitVec 8) (s : State) : Host.Outcome State Fault Refusal :=
  .next (query 0x0A ins true (fun s => (totalsList s.sec.totals ++ [s.work.replays]).flatMap (leBytes 8)) s)

/-- READ_FSR: up to 256 bytes from OFFSET, and the length. -/
def execReadFsr (ins : BitVec 8) (seq : Word32) (off : BitVec 16) (s : State) : Host.Outcome State Fault Refusal :=
  .next (onVendor (fun s =>
    match heldFsr s seq.toNat with
    | some bs => answer 0x0B ins 0 ((bs.drop off.toNat).take 256 ++ leBytes 2 bs.length) s
    | none => answer 0x0B ins 0x86 [] s) s)

/-- READ_HISTORY: test history or settings log, oldest first. -/
def execReadHistory (ins kind : BitVec 8) (first : BitVec 16) (count : BitVec 8) (s : State) :
    Host.Outcome State Fault Refusal :=
  .next (query 0x0C ins (decide (kind.toNat ≤ 1) && countOk 8 count.toNat)
    (fun s => (((if kind = 0 then s.store.set.history else s.store.set.log).drop first.toNat).take count.toNat).flatten) s)

/-! ## Debug reads (R196, R341) -/

/-- The tag byte. -/
def tagByte (prov unchecked unfinal : Bool) : Nat := flag prov + 2 * flag unchecked + 4 * flag unfinal

/-- A value with its tag byte. -/
abbrev DebugValue := Nat × List Byte

/-- A Pocket line: what a read of the line returns. -/
def lineReading (s : State) (u l : Nat) : DebugValue :=
  let v := readLine (tileOf s u) l
  (tagByte (pdueUp s v.pdue) (tagUp s.job.slot v.cdue) (v.unfin != 0), lineBytes v.data)

/-- An inbox entry; an empty one reads 0. -/
def inboxReading (s : State) (u k : Nat) : DebugValue :=
  match find? k (tileOf s u).inbox with
  | some e => (tagByte (pdueUp s e.pdue) false true, lineBytes e.data)
  | none => (0, List.replicate 256 0)

/-- An outbox entry; an empty one reads 0. -/
def outboxReading (s : State) (u k : Nat) : DebugValue :=
  match find? k (tileOf s u).outbox with
  | some e => (tagByte false (tagUp s.job.slot e.cdue) true, lineBytes e.payload)
  | none => (0, List.replicate 256 0)

/-- 256 bytes of a block: payload by chunk, then the Envelope and zeros. -/
def blockChunk (b : Blk) (chunk : Nat) : List Byte :=
  if chunk < 16 then ((pageBytes b.payload).drop (256 * chunk)).take 256 else padTo 256 (envBytes b.env)

/-- A side of a pair. -/
def pairReading (s : State) (k b chunk : Nat) (other : Bool) : DebugValue :=
  let n := sideBlock s k b other
  (tagByte false false (look 0 n (memOf s k).unfin != 0), blockChunk (blkAt s k n) chunk)

/-- A block of the window stage, in the order in which blocks entered it; an empty place reads 0. -/
def stageReading (s : State) (i chunk : Nat) : DebugValue :=
  match s.window.stage[i]? with
  | some b => (tagByte false false (!b.released), blockChunk b.blk chunk)
  | none => (0, List.replicate 256 0)

/-- A debug read, none when an argument lies outside its range (Table 15-7). -/
def debugReading (s : State) (kind : Nat) (unit : UnitField) (idx chunk : Nat) : Option DebugValue :=
  let u := unit.toNat
  let k := idx / 2 ^ 25
  let b := idx % 2 ^ 25
  let pairOk := u == 0 && decide (chunk ≤ 16) && decide (k < 8) && stackPop s k && b % 2 == 0 && decide (b < stackBlocks)
  match kind with
  | 0 => if u < 1024 ∧ idx < 2048 ∧ chunk = 0 then some (lineReading s u idx) else none
  | 1 => if u < 1024 ∧ idx < 16 ∧ chunk = 0 then some (inboxReading s u idx) else none
  | 2 => if u < 1024 ∧ idx < 8 ∧ chunk = 0 then some (outboxReading s u idx) else none
  | 3 => if pairOk then some (pairReading s k b chunk false) else none
  | 4 => if pairOk then some (pairReading s k b chunk true) else none
  | 5 => if u = 0 ∧ idx < 2048 ∧ chunk ≤ 16 then some (stageReading s idx chunk) else none
  | _ => none

/-- DEBUG_READ: tag byte, count, and 256 bytes of the value. -/
def execDebugRead (ins kind : BitVec 8) (unit : UnitField) (idx : Word32) (chunk : BitVec 8) (s : State) :
    Host.Outcome State Fault Refusal :=
  .next (onVendor (fun s =>
    match debugReading s kind.toNat unit idx.toNat chunk.toNat with
    | some r => answer 0x0D ins 0 (leBytes 1 r.1 ++ leBytes 8 (cnt s) ++ r.2) s
    | none => answer 0x0D ins 0x02 [] s) s)

/-! ## Alerts and status (R340, R335) -/

/-- An alert as the record of Table 13-8; LOST in the first returned after an overflow. -/
def alertBytes (lost : Bool) (a : Alert) : List Byte :=
  eventBytes a.code (2 * flag a.loc + 4 * flag lost) a.seq a.count a.info

/-- The bytes of alerts in order. -/
def alertsBytes (lost : Bool) : List Alert → List Byte
  | [] => []
  | a :: t => alertBytes lost a ++ alertsBytes false t

/-- GET_ALERTS: the oldest entries, returned and removed. -/
def execGetAlerts (ins count : BitVec 8) (s : State) : Host.Outcome State Fault Refusal :=
  .next (onVendor (fun s =>
    if countOk 16 count.toNat then
      let m := s.mgmt
      let left := m.alerts.drop count.toNat
      answer 0x0E ins 0 (alertsBytes m.alertLost (m.alerts.take count.toNat))
        { s with mgmt := { m with alerts := left, alertLost := m.alertLost && m.alerts.isEmpty, lostSince := false } }
    else answer 0x0E ins 0x02 [] s) s)

/-- The time base latched in one moment, as its registers give it (R159). -/
def timeBytes (t : TimeBase) : List Byte :=
  let x := latchTb t
  leBytes 8 x.latchSec ++ leBytes 4 x.latchNs ++ leBytes 4 x.latchFrac ++ leBytes 4 x.latchDate.toNat ++ leBytes 4 x.latchTime.toNat

/-- GET_STATUS. -/
def execGetStatus (ins : BitVec 8) (s : State) : Host.Outcome State Fault Refusal :=
  .next (query 0x0F ins true (fun s =>
    wordBytes [bootStage s, ssStatus s, ssCapLimits s, pwrStatus s, replayStatus s, tbStatus s.tb] ++ timeBytes s.tb) s)

end Sys2Proof.Machine
end

