-- ==== Sys2Proof/Machine/Pldm.lean ====
section
/-! DEFINITION. PLDM (R337, R338; message formats of DSP0240 and DSP0248, log 12). -/

namespace Sys2Proof.Machine

/-! ## Base commands -/

/-- GET_TID. -/
def execGetTid (s : State) : Host.Outcome State Fault Refusal :=
  .next (onVendor (fun s => respond [0, s.mgmt.tid] s) s)

/-- SET_TID: 0x00 and 0xFF name no terminus. -/
def execSetTid (tid : BitVec 8) (s : State) : Host.Outcome State Fault Refusal :=
  .next (onVendor (fun s =>
    if tid = 0 ∨ tid = 0xFF then respond [0x02] s else respond [0] { s with mgmt := { s.mgmt with tid := tid } }) s)

/-- Whether a PLDM type is supported: base, and platform monitoring and control. -/
def pldmType (t : BitVec 8) : Bool := t == 0 || t == 2

/-- GET_PLDM_VERSION: one version in one part. -/
def execGetPldmVersion (t : BitVec 8) (s : State) : Host.Outcome State Fault Refusal :=
  .next (onVendor (fun s =>
    if pldmType t then respond ([0] ++ leBytes 4 0 ++ [5] ++ leBytes 4 (Config.pldmVersion t).toNat) s else respond [0x83] s) s)

/-- GET_PLDM_TYPES: a bit for each type. -/
def execGetPldmTypes (s : State) : Host.Outcome State Fault Refusal :=
  .next (onVendor (respond ([0] ++ leBytes 8 5)) s)

/-- The commands of a type, as bits of a 256-bit field. -/
def pldmCommands (t : BitVec 8) : Nat :=
  if t = 0 then 0x3E else 2 ^ 0x11 + 2 ^ 0x21 + 2 ^ 0x50 + 2 ^ 0x51

/-- GET_PLDM_COMMANDS. -/
def execGetPldmCommands (t : BitVec 8) (s : State) : Host.Outcome State Fault Refusal :=
  .next (onVendor (fun s => if pldmType t then respond ([0] ++ leBytes 32 (pldmCommands t)) s else respond [0x83] s) s)

/-! ## Sensors (Table 15-6) -/

/-- The sensors of the repository, those of unpopulated stacks left out. -/
def sensorIds (s : State) : List Nat :=
  (List.range 5).map (· + 1) ++ ((List.range 8).filter (stackPop s)).map (· + 6) ++ [14, 15] ++ (List.range 14).map (· + 20) ++
  [40, 41, 42]

/-- Whether a sensor is a state sensor. -/
def stateSensor (id : Nat) : Bool := decide (40 ≤ id)

/-- The lowest input voltage among the regulators that run, in mV. -/
def lowestInput (s : State) : Nat :=
  let l := ((List.range 24).filter (regulatorOn s)).map (fun k => 10 * (s.power.regs.getD k (0, 0)).1)
  match l with
  | a :: t => t.foldl min a
  | [] => 0

/-- The package state: HELD, starting, READY or stopped. -/
def packageState (s : State) : Nat :=
  if s.stop.stopped then 4 else if s.boot.stage = .held then 1 else if s.boot.stage = .ready then 3 else 2

/-- The settings state: clean, DIRTY or WORN. -/
def settingsState (s : State) : Nat := if s.store.worn then 3 else if dirty s.store then 2 else 1

/-- What a sensor measures now. -/
def sensorNow (s : State) (id : Nat) : Int :=
  if id = 1 then (s.power.now / 1000 : Nat)
  else if id = 2 then (s.power.mean / 1000 : Nat)
  else if id = 3 then (s.power.committed.cap.toNat : Nat)
  else if id = 4 then (lowestInput s : Nat)
  else if id = 5 then s.tray.tMax
  else if id < 14 then (memOf s (id - 6)).temp
  else if id = 14 then (s.pacer.vent : Nat)
  else if id = 15 then (s.power.energy / 10 ^ 9 % 2 ^ 32 : Nat)
  else if id < 32 then ((totalsList s.sec.totals).getD (id - 20) 0 % 2 ^ 32 : Nat)
  else if id = 32 then (s.work.replays % 2 ^ 32 : Nat)
  else if id = 33 then (s.sec.overdue : Nat)
  else if id = 40 then (packageState s : Nat)
  else if id = 41 then (if s.tray.coolFlowN then 1 else 2 : Nat)
  else (settingsState s : Nat)

/-- PDR_SENSOR_REFRESH (R338): every reading is taken anew. -/
def execPdrSensorRefresh (s : State) : Host.Outcome State Fault Refusal :=
  .next (if mgmtUp s then
    { s with mgmt := { s.mgmt with sensors := (sensorIds s).map (fun id => (id, sensorNow s id)) } } else s)

/-- A sensor's reading as last refreshed. -/
def sensorReading (s : State) (id : Nat) : Int := ((s.mgmt.sensors.find? (fun x => x.1 == id)).map (fun x => x.2)).getD 0

/-- GET_SENSOR_READING: 32 bits, signed for temperatures. -/
def execGetSensorReading (id : BitVec 16) (s : State) : Host.Outcome State Fault Refusal :=
  .next (onVendor (fun s =>
    let n := id.toNat
    if (sensorIds s).contains n && !stateSensor n then
      respond ([0, if 5 ≤ n ∧ n < 14 then 5 else 4, 0, 0, 0, 0, 0] ++ leInt 4 (sensorReading s n)) s
    else respond [0x80] s) s)

/-- GET_STATE_SENSOR_READINGS: one state. -/
def execGetStateSensorReadings (id : BitVec 16) (s : State) : Host.Outcome State Fault Refusal :=
  .next (onVendor (fun s =>
    let n := id.toNat
    if (sensorIds s).contains n && stateSensor n then respond ([0, 1, 0] ++ leInt 1 (sensorReading s n) ++ [0, 0]) s
    else respond [0x80] s) s)

/-! ## The PDR repository: one record per sensor, its handle the sensor's number -/

/-- The unit of a sensor's reading, and its power of ten (Table 15-6). -/
def sensorUnit (id : Nat) : Config.SensorUnit × Int :=
  if id ≤ 3 then (.watt, 0) else if id = 4 then (.volt, -3) else if id ≤ 13 then (.celsius, 0) else if id = 15 then (.joule, 0)
  else if id < 40 then (.count, 0) else (.state, 0)

/-- A record: the sensor, whether it is a state sensor, its unit and the power of ten of the reading (log 12). -/
def pdrBytes (id : Nat) : List Byte :=
  leBytes 2 id ++ leBytes 1 (flag (stateSensor id)) ++ [Config.pldmUnit (sensorUnit id).1] ++ leInt 1 (sensorUnit id).2

/-- GET_PDR_REPOSITORY_INFO: available, never updated, the records and their size. -/
def execGetPdrRepositoryInfo (s : State) : Host.Outcome State Fault Refusal :=
  .next (onVendor (fun s =>
    let n := (sensorIds s).length
    respond ([0, 0] ++ List.replicate 26 0 ++ leBytes 4 n ++ leBytes 4 (5 * n) ++ leBytes 4 5 ++ [0]) s) s)

/-- The record handle after one, 0 after the last. -/
def nextHandle (h : Nat) (l : List Nat) : Nat := ((l.find? (fun x => decide (h < x)))).getD 0

/-- GET_PDR: handle 0 names the first record. -/
def execGetPdr (handle : Word32) (s : State) : Host.Outcome State Fault Refusal :=
  .next (onVendor (fun s =>
    let h := if handle = 0 then 1 else handle.toNat
    if (sensorIds s).contains h then respond ([0] ++ leBytes 4 (nextHandle h (sensorIds s)) ++ pdrBytes h) s
    else respond [0x82] s) s)

end Sys2Proof.Machine
end

