-- ==== Sys2Proof/Machine/RegWrite.lean ====
section
/-! DEFINITION. Writes of BAR0 registers (R4, R345, chapter 16): read-write fields, W1C status, staged fields, commits and
triggers. -/

namespace Sys2Proof.Machine

/-- A field of a word written. -/
def wf (v : Word32) (lo w : Nat) : BitVec w := v.extractLsb' lo w

/-- Bits that a write-one-to-clear write leaves. -/
def w1c {n : Nat} (old : BitVec n) (v : Word32) : BitVec n := old &&& ~~~(wf v 0 n)

/-- BOOT_FLAGS after a write (Table 3-4). -/
def clearBootFlags (v : Word32) (b : Boot) : Boot :=
  { b with noValidBank := b.noValidBank && !bit v 0, bankFallback := b.bankFallback && !bit v 1,
           potFail := b.potFail && !bit v 2, stageOverrun := b.stageOverrun && !bit v 3 }

/-- The staged BRIDLE fields after a write (Table 7-2). -/
def stageBridle (o : Nat) (v : Word32) (c : BridleCfg) : BridleCfg :=
  if o = 0x10 then { c with id := wf v 0 11, idValid := bit v 15, root := bit v 16 }
  else if o = 0x14 then { c with seed := withLo c.seed v } else if o = 0x18 then { c with seed := withHi c.seed v }
  else if o = 0x1C then { c with mark := withLo c.mark v } else if o = 0x20 then { c with mark := withHi c.mark v } else c

/-- A write in the BRIDLE block. -/
def writeBridle (o : Nat) (v : Word32) (s : State) : State :=
  if o = 0x24 then bridleGo v s
  else if o = 0x0C then { s with bridle := { s.bridle with events := w1c s.bridle.events v } }
  else { s with bridle := { s.bridle with staged := stageBridle o v s.bridle.staged } }

/-- The staged TB fields after a write (Table 8-3). DOW, RANGE, TB_VALID and the other reserved bits of a civil set read 0 (R7,
Table 8-2). -/
def stageTb (o : Nat) (v : Word32) (c : TbCfg) : TbCfg :=
  if o = 0x40 then { c with mode := bit v 0, slewBound := wf v 16 9 }
  else if o = 0x60 then { c with stepSec := withLo c.stepSec v }
  else if o = 0x64 then { c with stepSec := withHi c.stepSec v }
  else if o = 0x68 then { c with stepNs := wf v 0 30 } else if o = 0x6C then { c with stepFrac := v }
  else if o = 0xA0 then { c with rate := withLo c.rate v } else if o = 0xA4 then { c with rate := withHi c.rate v }
  else if o = 0xC0 then { c with slew := withLo c.slew v } else if o = 0xC4 then { c with slew := withHi c.slew v }
  else if o = 0xE0 then { c with civil := v }
  else if o = 0x100 then { c with setDate := (wf v 0 23).setWidth 32 }
  else if o = 0x104 then { c with setTime := (wf v 0 17).setWidth 32 } else c

/-- The staged fields of a time output after a write (Table 8-3). -/
def stageTout (o : Nat) (v : Word32) (c : ToutCfg) : ToutCfg :=
  if o = 0x00 then { c with mode := wf v 0 2, pol := bit v 2 }
  else if o = 0x04 then { c with startSec := withLo48 c.startSec v }
  else if o = 0x08 then { c with startSec := withHi48 c.startSec v }
  else if o = 0x0C then { c with startNs := wf v 0 30 }
  else if o = 0x10 then { c with period := withLo c.period v } else if o = 0x14 then { c with period := withHi c.period v }
  else if o = 0x18 then { c with width := v } else c

/-- A write in a time output's sub-block. -/
def writeTout (n o : Nat) (v : Word32) (s : State) : State :=
  let t := outOf s.tb n
  if o = 0x1C then toutGo n v s
  else if o = 0x3C then
    updTb (setOut n { t with missed := t.missed && !bit v 2, skipped := t.skipped && !bit v 3 }) s
  else updTb (setOut n { t with staged := stageTout o v t.staged }) s

/-- A write in a capture channel's sub-block. -/
def writeCap (c o : Nat) (v : Word32) (s : State) : State :=
  let k := capOf s.tb c
  if o = 0x00 then updTb (setCap c { k with edge := wf v 0 2, event := bit v 2 }) s
  else if o = 0x18 then capPopGo c v s
  else if o = 0x1C then updTb (setCap c { k with overflow := k.overflow && !bit v 8 }) s else s

/-- A write in the TB block. -/
def writeTb (o : Nat) (v : Word32) (s : State) : State :=
  if o = 0x18 then updTb (fun t => { t with events := w1c t.events v }) s
  else if o = 0x44 then tbModeGo v s else if o = 0x70 then tbStepGo v s else if o = 0xA8 then tbRateGo v s
  else if o = 0xC8 then tbSlewGo v s else if o = 0xE4 then tbCivilGo v s else if o = 0x108 then tbCivilSetGo v s
  else if 0x200 ≤ o ∧ o < 0x300 then writeTout ((o - 0x200) / 0x40) ((o - 0x200) % 0x40) v s
  else if 0x300 ≤ o ∧ o < 0x360 then writeCap ((o - 0x300) / 0x20) ((o - 0x300) % 0x20) v s
  else updTb (fun t => { t with staged := stageTb o v t.staged }) s

/-- The staged SEC fields after a write (Table 10-12). -/
def stageSec (o : Nat) (v : Word32) (c : SecCfg) : SecCfg :=
  if o = 0x10 then { c with tileWatch := wf v 0 8, tileAdvise := wf v 8 8 }
  else if o = 0x14 then { c with portWatch := wf v 0 8, portAdvise := wf v 8 8 }
  else if o = 0x18 then { c with stackWatch := wf v 0 8, stackAdvise := wf v 8 8 }
  else if o = 0x1C then { c with watchPasses := wf v 0 8, scoreHalfH := wf v 8 8 }
  else if o = 0x20 then { c with stressActive := wf v 0 16, stressWatch := wf v 16 16 } else c

/-- A write in the SEC block. -/
def writeSec (o : Nat) (v : Word32) (s : State) : State :=
  if o = 0x24 then secGo v s
  else if o = 0x04 then { s with sec := { s.sec with testAuto := bit v 0 } }
  else if o = 0x0C then { s with sec := { s.sec with commitRefused := s.sec.commitRefused && !bit v 0 } }
  else if o = 0x44 then { s with sec := { s.sec with fsrSel := v } }
  else { s with sec := { s.sec with staged := stageSec o v s.sec.staged } }

/-- The staged PWR fields after a write (Table 11-4). -/
def stagePwr (o : Nat) (v : Word32) (c : PwrCfg) : PwrCfg :=
  if o = 0x20 then { c with cap := wf v 0 16 } else if o = 0x24 then { c with window := wf v 0 5 }
  else if o = 0x28 then { c with ramp := wf v 0 11 } else if o = 0x2C then { c with order := bit v 0 }
  else if 0x40 ≤ o ∧ o < 0x80 then { c with pref := c.pref.set ((o - 0x40) / 4) v } else c

/-- A write in the PWR block. -/
def writePwr (o : Nat) (v : Word32) (s : State) : State :=
  if o = 0x80 then pwrGo v s
  else if o = 0x18 then { s with power := { s.power with events := w1c s.power.events v } }
  else { s with power := { s.power with staged := stagePwr o v s.power.staged } }

/-- The staged HOST fields after a write (Table 13-2). -/
def stageHost (o : Nat) (v : Word32) (c : HostCfg) : HostCfg :=
  if o = 0x10 then { c with sq := withLo c.sq v } else if o = 0x14 then { c with sq := withHi c.sq v }
  else if o = 0x18 then { c with cq := withLo c.cq v } else if o = 0x1C then { c with cq := withHi c.cq v }
  else if o = 0x20 then { c with eq := withLo c.eq v } else if o = 0x24 then { c with eq := withHi c.eq v }
  else if o = 0x28 then { c with db := withLo c.db v } else if o = 0x2C then { c with db := withHi c.db v }
  else if o = 0x30 then { c with szSq := wf v 0 5, szCq := wf v 8 5, szEq := wf v 16 5 }
  else if o = 0x34 then { c with minUs := wf v 0 7, maxUs := wf v 8 7 }
  else if o = 0x38 then { c with enable := bit v 0 } else c

/-- A write in the HOST block. -/
def writeHost (o : Nat) (v : Word32) (s : State) : State :=
  if o = 0x3C then hostGo v s
  else if o = 0x70 then { s with rings := { s.rings with events := w1c s.rings.events v } }
  else if o = 0x80 then { s with rings := { s.rings with vecCq := wf v 0 5 } }
  else if 0x84 ≤ o ∧ o < 0x94 then { s with rings := { s.rings with evvec := s.rings.evvec.set ((o - 0x84) / 4) v } }
  else { s with rings := { s.rings with staged := stageHost o v s.rings.staged } }

/-- A 32-bit write at an aligned offset; an offset that no writable field has changes nothing (Table 0-1). -/
def writeWord (off : Nat) (v : Word32) (s : State) : State :=
  if !barAnswers s off then s
  else if off = 0x804 then { s with boot := clearBootFlags v s.boot }
  else if off = 0x4008 then retrainGo false v s
  else if off = 0x400C then retrainGo true v s
  else if 0x5000 ≤ off ∧ off < 0x6000 then writeBridle (off - 0x5000) v s
  else if 0x6000 ≤ off ∧ off < 0x7000 then writeTb (off - 0x6000) v s
  else if 0x8000 ≤ off ∧ off < 0x9000 then writeSec (off - 0x8000) v s
  else if 0x9000 ≤ off ∧ off < 0xA000 then writePwr (off - 0x9000) v s
  else if off = 0xA000 then { s with det := { s.det with strict := bit v 0 } }
  else if off = 0xF000 then { s with ldr := { s.ldr with debug := bit v 0 } }
  else if 0x10000 ≤ off ∧ off < 0x20000 then writeHost (off - 0x10000) v s
  else s

/-- REGISTER_WRITE (R4, R345): 32 bits aligned to 4 bytes, or 64 bits aligned to 8 bytes as two writes, the lower first; any
other write is dropped. -/
def execRegisterWrite (off width : Nat) (v : Word64) (s : State) : Host.Outcome State Fault Refusal :=
  .next (
    if width = 32 ∧ off % 4 = 0 then writeWord off (BitVec.ofNat 32 (lo32 v.toNat)) s
    else if width = 64 ∧ off % 8 = 0 then
      writeWord (off + 4) (BitVec.ofNat 32 (hi32 v.toNat)) (writeWord off (BitVec.ofNat 32 (lo32 v.toNat)) s)
    else s)

end Sys2Proof.Machine
end

