-- ==== Sys2Proof/Machine/Replay.lean ====
section
/-! DEFINITION. The commit, finality, rewind and end of a job (R70, R78, R97, R189 to R195, R303, R355). -/

namespace Sys2Proof.Machine

/-! ## The commit point -/

/-- Whether a tile holds something at the commit (R78). -/
def hasResidue (slot : Nat) (t : Tile) : Bool :=
  !t.inbox.isEmpty || outboxCount slot t != 0 || !t.events.isEmpty || !t.mover.isEmpty

/-- INDEX of STEP_RESIDUE: the first non-empty entry. -/
def residueIndex (t : Tile) : Nat :=
  match t.inbox, t.outbox with
  | x :: _, _ => x.1
  | [], y :: _ => y.1
  | [], [] => 0xFF

/-- The tiles that raise STEP_RESIDUE. -/
def residueTiles (s : State) : Sparse Tile := s.tiles.filter (fun x => hasResidue s.job.slot x.2)

/-- The hold lines that a tile has written (R70). -/
def writtenHolds (rg : Nat × Nat × Nat) (t : Tile) : List Nat :=
  (t.lines.filter (fun x => x.2.mark && isHold rg x.1)).map (fun x => x.1)

/-- The hold lines that flip at the seal. -/
def flipLines (s : State) : List (Nat × Nat) :=
  s.tiles.flatMap (fun x => (writtenHolds (regionsNow s x.1) x.2).map (fun l => (x.1, l)))

/-- The pairs whose selectors flip at the seal (R97). -/
def flipPairs (s : State) : List (Nat × Nat) :=
  s.mems.flatMap (fun x => (x.2.mark.filter (fun y => y.2)).map (fun y => (x.1, y.1)))

/-- What a seal records (R190). -/
def sealOf (s : State) : Sealed :=
  { step := s.job.step, at_ := cnt s, attempt := s.job.attempt, lines := flipLines s, pairs := flipPairs s,
    flags := s.tiles.map (fun x => (x.1, x.2.savedFlags)), parcels := s.work.parcelsProv, stores := s.work.storesProv,
    window := s.work.windowProv }

/-- The step is sealed: hold lines and selectors flip, and written marks clear (R70, R97, R190). -/
def sealStep (s : State) : State :=
  let x := sealOf s
  let s1 := x.lines.foldl (fun a p => updTile p.1 (flipLine p.2) a) s
  let s2 := x.pairs.foldl (fun a p => flipPair p.1 p.2 a) s1
  { s2 with mems := mapVals Stack.off Stack.unmarked s2.mems, job := { s2.job with sealed_ := some x } }

/-- Whether the slot is the commit point of a step that has not been sealed. -/
def atCommit (s : State) : Bool := running s && s.job.slot == curCommit s && s.job.sealed_.isNone

/-- STEP_SEAL (R190): at the end of the commit-point slot, a package without a notice checks its tiles (R78) and seals. -/
def execStepSeal (s : State) : Host.Outcome State Fault Refusal :=
  .next (if s.pacer.running && atCommit s && s.job.notice.isNone && !s.job.faulted then
    (if (residueTiles s).isEmpty then sealStep s
    else (residueTiles s).foldl (fun a x => tileFault 0x0408 x.1 (residueIndex x.2) 63 a) s)
  else s)

/-! ## Finality -/

/-- The work counters when a sealed step becomes final (R195); WINDOW's confirmed field counts each block as its release writes it
(log 44). -/
def confirmWork (x : Sealed) (w : Work) : Work :=
  { w with parcelsProv := w.parcelsProv - x.parcels, storesProv := w.storesProv - x.stores,
           windowProv := w.windowProv - x.window, parcels := w.parcels + x.parcels, stores := w.stores + x.stores,
           steps := w.steps + 1 }

/-- Whether a value was written in the sealed attempt, from the count at which it is kept. -/
def sealedAt (r : Reel) (x : Sealed) (n : Nat) : Bool :=
  let c := match stepPlan r x.step with | some p => commitSlot r p.2 p.1 | none => 0
  decide (x.at_ - c < n) && decide (n ≤ x.at_ + 1)

/-- A line whose values of the sealed attempt are final (R196). -/
def finalLine (r : Reel) (x : Sealed) (l : LineSt) : LineSt :=
  let fix (v : LineVal) : LineVal := if sealedAt r x v.unfin then { v with unfin := 0 } else v
  { l with cur := fix l.cur, nxt := fix l.nxt }

/-- The values that the sealed attempt wrote become final, on whichever side they lie. -/
def finalValues (r : Reel) (x : Sealed) (s : State) : State :=
  { s with tiles := mapVals Tile.clear (fun t => { t with lines := mapVals LineSt.zero (finalLine r x) t.lines }) s.tiles,
           mems := mapVals Stack.off (fun m => { m with unfin := m.unfin.filter (fun y => !sealedAt r x y.2) }) s.mems }

/-- The held notice once a step is final: one that names a step that is final is dropped (R187). -/
def dropStale (s : State) : State :=
  { s with job := { s.job with notice := s.job.notice.filter (fun n => n.fault || decide (s.job.final < n.step)) } }

/-- A sealed step becomes final (R190): its blocks are released and its counts confirmed. -/
def finalise (r : Reel) (x : Sealed) (s : State) : State :=
  releaseStep r x.step (finalValues r x
    (dropStale { s with job := { s.job with sealed_ := none, final := x.step }, work := confirmWork x s.work }))

/-- Whether the notice that is held applies at the present boundary. -/
def noticeDue (s : State) : Bool := s.job.notice.any (fun n => n.applyAt == cnt s)

/-- STEP_FINAL (R190): at the count of the commit-point slot plus 2D + 8, unless a notice applies there. -/
def execStepFinal (s : State) : Host.Outcome State Fault Refusal :=
  .next (
    match s.pacer.running && running s && !noticeDue s, s.reel, s.job.sealed_ with
    | true, some r, some x => if cnt s = x.at_ + 2 * diam s + 8 then finalise r x s else s
    | _, _, _ => s)

/-! ## The rewind -/

/-- A port at a rewind: nothing staged, and the records of the attempt dropped (R189). -/
def portRewound (v : Port) : Port := { v with staged := [], provSent := [], provRcvd := [] }

/-- The provisional counts that a rewind leaves: those of a step that stays sealed (R189, R195). -/
def rewoundWork (x : Option Sealed) (w : Work) : Work :=
  match x with
  | some y => { w with parcelsProv := y.parcels, storesProv := y.stores, windowProv := y.window, replays := w.replays + 1 }
  | none => { w with parcelsProv := 0, storesProv := 0, windowProv := 0, replays := w.replays + 1 }

/-- The sealed step is unsealed when the notice names it (R189, R190). -/
def unsealFor (n : Notice) (s : State) : State :=
  if s.job.sealed_.any (fun x => x.step == n.step) then unsealStep s else s

/-- What a rewind clears in every tile, stack and port, and in the stage (R79, R97, R189). -/
def clearAttempt (n : Notice) (s : State) : State :=
  { s with tiles := mapVals Tile.clear Tile.rewound s.tiles, mems := mapVals Stack.off Stack.unmarked s.mems,
           ports := mapVals Port.off portRewound s.ports, localq := [], transits := [], shadowed := [],
           window := { s.window with stage := s.window.stage.filter (fun b => b.released || decide (b.step < n.step)) },
           work := rewoundWork s.job.sealed_ s.work,
           job := { s.job with notice := none, ownFault := none, rewound := cnt s, lastCode := n.code, lastOrigin := n.origin } }

/-- The rewind (R189): the next attempt of the notice's step begins. -/
def rewindTo (r : Reel) (n : Notice) (s : State) : State :=
  capSpacing (closeWindow (beginStep r n.step (n.attempt + 1) (clearAttempt n (unsealFor n s))))

/-- REWIND (R189): at the count at which the notice applies. -/
def execRewind (s : State) : Host.Outcome State Fault Refusal :=
  .next (
    match s.pacer.running && running s && !s.job.faulted, s.reel, s.job.notice with
    | true, some r, some n => if n.applyAt = cnt s ∧ !n.fault ∧ !n.final then rewindTo r n s else s
    | _, _, _ => s)

/-! ## The end of a job -/

/-- JOB_FAULT_APPLY (R193, R355): at the count at which a fault notice or a final notice applies, the job ends. -/
def execJobFaultApply (s : State) : Host.Outcome State Fault Refusal :=
  .next (
    match s.pacer.running && running s, s.job.notice with
    | true, some n =>
      if n.applyAt = cnt s ∧ (n.fault ∨ n.final) then
        endByFault (noticeLoc n) { s with job := { s.job with lastCode := n.code, lastOrigin := n.origin } }
      else s
    | _, _ => s)

/-- Whether every block that the package released for the job has been written or abandoned (R303). -/
def windowDrained (s : State) : Bool :=
  let w := s.window
  let st := s.job.start
  !(w.stage.any (fun b => b.start == st)) && !(w.gaccs.any (fun b => b.start == st)) &&
  !(w.trees.any (fun t => t.start == st)) && !(w.waiting.any (fun t => t.start == st))

/-- JOB_COMPLETE (R303): the last step is final and the window work of the job is done. -/
def execJobComplete (s : State) : Host.Outcome State Fault Refusal :=
  .next (
    match running s && s.job.notice.isNone && !s.job.faulted && s.job.sealed_.isNone && windowDrained s, s.reel with
    | true, some r => if s.job.final = stepTotal r then finishJob (if s.job.abandoned then 5 else 0) false s else s
    | _, _ => s)

end Sys2Proof.Machine
end

