-- ==== Sys2Proof/Machine/Tap.lean ====
section
/-! DEFINITION. The TAP (R342). -/

namespace Sys2Proof.Machine

/-- A number as bits, lowest first. -/
def bitList : Nat → Nat → List Bool
  | 0, _ => []
  | n + 1, v => (v % 2 == 1) :: bitList n (v / 2)

/-- The IDCODE register. -/
def idcodeWord : Nat := 2 ^ 28 + 0xCA1C * 2 ^ 12 + Config.jedecId.toNat * 2 + 1

/-- An instruction in force, the data register that it selects, and what drives the lands. An instruction is loaded with TRST_N
high: while it is low the TAP stays in Test-Logic-Reset (log 61). -/
def tapSet (ir : BitVec 8) (tdo : List Bool) (drive : LandDrive) (s : State) : State :=
  { s with tap := { s.tap with ir := ir, trstN := true, drive := drive }, out := { s.out with tdo := tdo } }

/-- BYPASS: one bit, 0 when captured. -/
def execBypass (s : State) : Host.Outcome State Fault Refusal := .next (tapSet 0xFF [false] .functional s)

/-- IDCODE. -/
def execIdcode (s : State) : Host.Outcome State Fault Refusal :=
  .next (tapSet 0x01 (bitList 32 idcodeWord) .functional s)

/-- SAMPLE/PRELOAD: the lands are sampled, and the preload replaces the boundary register. -/
def execSamplePreload (lands preload : List Bool) (s : State) : Host.Outcome State Fault Refusal :=
  .next (tapSet 0x02 lands .functional { s with tap := { s.tap with boundary := preload } })

/-- Whether the boundary cells may drive the lands. -/
def mayDrive (s : State) : Bool := s.boot.stage == .off || s.boot.stage == .held

/-- What drives the lands now: the boundary cells only while the stage lets them. -/
def landDriver (s : State) : LandDrive := if mayDrive s then s.tap.drive else .functional

/-- Bit 2 of the instruction register as it is captured now: 1 while EXTEST, CLAMP or HIGHZ is in force in a stage in which it
acts as BYPASS, also when the stage has changed since it was loaded. -/
def capBit2 (s : State) : Bool := (s.tap.ir == 0x03 || s.tap.ir == 0x04 || s.tap.ir == 0x05) && !mayDrive s

/-- The data register that an instruction in force selects now: EXTEST, CLAMP and HIGHZ select the bypass register where they may
not drive. -/
def tapRegister (s : State) : List Bool :=
  if s.tap.ir = 0x01 then bitList 32 idcodeWord
  else if s.tap.ir = 0x02 ∨ (s.tap.ir = 0x03 ∧ mayDrive s = true) then s.tap.boundary else [false]

/-- An instruction that drives the lands in stages OFF and HELD and acts as BYPASS elsewhere. -/
def tapDrive (ir : BitVec 8) (tdo : List Bool) (drive : LandDrive) (s : State) : State :=
  tapSet ir (if mayDrive s then tdo else [false]) drive s

/-- EXTEST: the boundary register is selected and drives the lands. -/
def execExtest (s : State) : Host.Outcome State Fault Refusal := .next (tapDrive 0x03 s.tap.boundary .extest s)

/-- CLAMP: the bypass register is selected while the boundary register holds the lands. -/
def execClamp (s : State) : Host.Outcome State Fault Refusal := .next (tapDrive 0x04 [false] .clamp s)

/-- HIGHZ. -/
def execHighz (s : State) : Host.Outcome State Fault Refusal := .next (tapDrive 0x05 [false] .highz s)

/-- TRST (R342): TRST_N is low and holds the TAP in Test-Logic-Reset, with IDCODE in force, until the next instruction is loaded. -/
def execTrst (s : State) : Host.Outcome State Fault Refusal :=
  let s1 := tapSet 0x01 (bitList 32 idcodeWord) .functional s
  .next { s1 with tap := { s1.tap with trstN := false } }

end Sys2Proof.Machine
end

