-- ==== Sys2Proof/Machine/Dispatch.lean ====
section
/-! DEFINITION. One arm per command: a direct call of its meaning. -/

namespace Sys2Proof.Machine

def exec (i : Instr) (s : State) : Host.Outcome State Fault Refusal :=
  match i with
  | .vin48Rise mv straps bankA bankB => Sys2Proof.Machine.execVin48Rise mv straps bankA bankB s
  | .serviceBootEnd => Sys2Proof.Machine.execServiceBootEnd s
  | .perstNRise => Sys2Proof.Machine.execPerstNRise s
  | .perstNFall => Sys2Proof.Machine.execPerstNFall s
  | .railsEnd link => Sys2Proof.Machine.execRailsEnd link s
  | .memoryInitEnd => Sys2Proof.Machine.execMemoryInitEnd s
  | .selfTestEnd fails => Sys2Proof.Machine.execSelfTestEnd fails s
  | .stageOverrun => Sys2Proof.Machine.execStageOverrun s
  | .hotReset => Sys2Proof.Machine.execHotReset s
  | .supplyStop mv => Sys2Proof.Machine.execSupplyStop mv s
  | .powerLoss mv => Sys2Proof.Machine.execPowerLoss mv s
  | .regulatorFault r => Sys2Proof.Machine.execRegulatorFault r s
  | .coolStop => Sys2Proof.Machine.execCoolStop s
  | .thermStop t => Sys2Proof.Machine.execThermStop t s
  | .clockStop => Sys2Proof.Machine.execClockStop s
  | .lrefLineLoss n => Sys2Proof.Machine.execLrefLineLoss n s
  | .ref10mLoss => Sys2Proof.Machine.execRef10mLoss s
  | .ref10mReturn => Sys2Proof.Machine.execRef10mReturn s
  | .timeCycle => Sys2Proof.Machine.execTimeCycle s
  | .tbWrap => Sys2Proof.Machine.execTbWrap s
  | .toutLeadingEdge n => Sys2Proof.Machine.execToutLeadingEdge n s
  | .toutTrailingEdge n => Sys2Proof.Machine.execToutTrailingEdge n s
  | .captureEdge c rising => Sys2Proof.Machine.execCaptureEdge c rising s
  | .tbModeCommit v => Sys2Proof.Machine.execTbModeCommit v s
  | .tbStepCommit v => Sys2Proof.Machine.execTbStepCommit v s
  | .tbRateCommit v => Sys2Proof.Machine.execTbRateCommit v s
  | .tbSlewCommit v => Sys2Proof.Machine.execTbSlewCommit v s
  | .tbCivilCommit v => Sys2Proof.Machine.execTbCivilCommit v s
  | .tbCivilSetCommit v => Sys2Proof.Machine.execTbCivilSetCommit v s
  | .toutCommit n v => Sys2Proof.Machine.execToutCommit n v s
  | .capPop c v => Sys2Proof.Machine.execCapPop c v s
  | .tbNowSecLoRead => Sys2Proof.Machine.execTbNowSecLoRead s
  | .bridleCommit v => Sys2Proof.Machine.execBridleCommit v s
  | .bridleCountLoRead => Sys2Proof.Machine.execBridleCountLoRead s
  | .detInputsHashedRead => Sys2Proof.Machine.execDetInputsHashedRead s
  | .latchingLoRead r => Sys2Proof.Machine.execLatchingLoRead r s
  | .secCommit v => Sys2Proof.Machine.execSecCommit v s
  | .pwrCommit v => Sys2Proof.Machine.execPwrCommit v s
  | .hostCommit v => Sys2Proof.Machine.execHostCommit v s
  | .fabRetrain hi v => Sys2Proof.Machine.execFabRetrain hi v s
  | .registerWrite off width v => Sys2Proof.Machine.execRegisterWrite off width v s
  | .bar2Access a => Sys2Proof.Machine.execBar2Access a s
  | .bar2Resize panels => Sys2Proof.Machine.execBar2Resize panels s
  | .slotBoundary => Sys2Proof.Machine.execSlotBoundary s
  | .syncedEntry => Sys2Proof.Machine.execSyncedEntry s
  | .nop u => Sys2Proof.Machine.execNop u s
  | .ewait u => Sys2Proof.Machine.execEwait u s
  | .esig u => Sys2Proof.Machine.execEsig u s
  | .rdflg u => Sys2Proof.Machine.execRdflg u s
  | .exitIf u => Sys2Proof.Machine.execExitIf u s
  | .recv u => Sys2Proof.Machine.execRecv u s
  | .send u => Sys2Proof.Machine.execSend u s
  | .bld u => Sys2Proof.Machine.execBld u s
  | .bst u => Sys2Proof.Machine.execBst u s
  | .bwr u => Sys2Proof.Machine.execBwr u s
  | .gacc u => Sys2Proof.Machine.execGacc u s
  | .gtree u => Sys2Proof.Machine.execGtree u s
  | .mvd u => Sys2Proof.Machine.execMvd u s
  | .mvs u => Sys2Proof.Machine.execMvs u s
  | .mmh u => Sys2Proof.Machine.execMmh u s
  | .mmq u => Sys2Proof.Machine.execMmq u s
  | .mmi u => Sys2Proof.Machine.execMmi u s
  | .vfma u => Sys2Proof.Machine.execVfma u s
  | .vadd u => Sys2Proof.Machine.execVadd u s
  | .vmul u => Sys2Proof.Machine.execVmul u s
  | .vmax u => Sys2Proof.Machine.execVmax u s
  | .vmin u => Sys2Proof.Machine.execVmin u s
  | .vcvt u => Sys2Proof.Machine.execVcvt u s
  | .vred u => Sys2Proof.Machine.execVred u s
  | .vcpy u => Sys2Proof.Machine.execVcpy u s
  | .opDeadline u res => Sys2Proof.Machine.execOpDeadline u res s
  | .residueCheckComplete u parityBad => Sys2Proof.Machine.execResidueCheckComplete u parityBad s
  | .shadowCompare g k => Sys2Proof.Machine.execShadowCompare g k s
  | .crosspointGather n => Sys2Proof.Machine.execCrosspointGather n s
  | .frameDelivery p f => Sys2Proof.Machine.execFrameDelivery p f s
  | .hazardCheck => Sys2Proof.Machine.execHazardCheck s
  | .stepSeal => Sys2Proof.Machine.execStepSeal s
  | .stepFinal => Sys2Proof.Machine.execStepFinal s
  | .rewind => Sys2Proof.Machine.execRewind s
  | .jobFaultApply => Sys2Proof.Machine.execJobFaultApply s
  | .launchFire => Sys2Proof.Machine.execLaunchFire s
  | .blockMoveService u r => Sys2Proof.Machine.execBlockMoveService u r s
  | .blockMoveRetire u => Sys2Proof.Machine.execBlockMoveRetire u s
  | .stackLost k => Sys2Proof.Machine.execStackLost k s
  | .farFill k => Sys2Proof.Machine.execFarFill k s
  | .farBlockArrival home host => Sys2Proof.Machine.execFarBlockArrival home host s
  | .gaccLockAttempt k adderBad host => Sys2Proof.Machine.execGaccLockAttempt k adderBad host s
  | .gaccLockTimeout k => Sys2Proof.Machine.execGaccLockTimeout k s
  | .gtreePoll k host => Sys2Proof.Machine.execGtreePoll k host s
  | .gtreeTimeout k => Sys2Proof.Machine.execGtreeTimeout k s
  | .panelMoveDone k us => Sys2Proof.Machine.execPanelMoveDone k us s
  | .jobComplete => Sys2Proof.Machine.execJobComplete s
  | .countAdopt c => Sys2Proof.Machine.execCountAdopt c s
  | .rootSeedLoad => Sys2Proof.Machine.execRootSeedLoad s
  | .parentLost => Sys2Proof.Machine.execParentLost s
  | .holdoverTimeout => Sys2Proof.Machine.execHoldoverTimeout s
  | .bridleMarkFire => Sys2Proof.Machine.execBridleMarkFire s
  | .trainingStart p => Sys2Proof.Machine.execTrainingStart p s
  | .trainingDone p info => Sys2Proof.Machine.execTrainingDone p info s
  | .trainingTimeout p => Sys2Proof.Machine.execTrainingTimeout p s
  | .trainingRetry p => Sys2Proof.Machine.execTrainingRetry p s
  | .measuringDone p x => Sys2Proof.Machine.execMeasuringDone p x s
  | .laneLockLoss p => Sys2Proof.Machine.execLaneLockLoss p s
  | .relockTimeout p => Sys2Proof.Machine.execRelockTimeout p s
  | .relockDone p => Sys2Proof.Machine.execRelockDone p s
  | .relockMeasureDone p ps => Sys2Proof.Machine.execRelockMeasureDone p ps s
  | .farNotReady p => Sys2Proof.Machine.execFarNotReady p s
  | .farStopped p => Sys2Proof.Machine.execFarStopped p s
  | .signalLoss p => Sys2Proof.Machine.execSignalLoss p s
  | .powerSample x => Sys2Proof.Machine.execPowerSample x s
  | .controlPeriod pm => Sys2Proof.Machine.execControlPeriod pm s
  | .ventDecision => Sys2Proof.Machine.execVentDecision s
  | .ventApply => Sys2Proof.Machine.execVentApply s
  | .classRailMove cls => Sys2Proof.Machine.execClassRailMove cls s
  | .ballastIssue u ka token => Sys2Proof.Machine.execBallastIssue u ka token s
  | .ballastResult u r => Sys2Proof.Machine.execBallastResult u r s
  | .scoreHalving => Sys2Proof.Machine.execScoreHalving s
  | .testOverdue u => Sys2Proof.Machine.execTestOverdue u s
  | .autoStressTest => Sys2Proof.Machine.execAutoStressTest s
  | .windowTest u => Sys2Proof.Machine.execWindowTest u s
  | .stressHeatTimeout => Sys2Proof.Machine.execStressHeatTimeout s
  | .knownAnswerDone u ka prof r => Sys2Proof.Machine.execKnownAnswerDone u ka prof r s
  | .stressTestDone => Sys2Proof.Machine.execStressTestDone s
  | .doorbellPoll host read => Sys2Proof.Machine.execDoorbellPoll host read s
  | .nopDescriptor d => Sys2Proof.Machine.execNopDescriptor d s
  | .load d => Sys2Proof.Machine.execLoad d s
  | .patch d => Sys2Proof.Machine.execPatch d s
  | .unload d => Sys2Proof.Machine.execUnload d s
  | .windowMap d => Sys2Proof.Machine.execWindowMap d s
  | .panelGive d => Sys2Proof.Machine.execPanelGive d s
  | .panelTake d => Sys2Proof.Machine.execPanelTake d s
  | .launchAt d => Sys2Proof.Machine.execLaunchAt d s
  | .cancel d => Sys2Proof.Machine.execCancel d s
  | .test d => Sys2Proof.Machine.execTest d s
  | .storeSettings d => Sys2Proof.Machine.execStoreSettings d s
  | .storeStart => Sys2Proof.Machine.execStoreStart s
  | .storeComplete good => Sys2Proof.Machine.execStoreComplete good s
  | .clear d => Sys2Proof.Machine.execClear d s
  | .setEndpointId eid => Sys2Proof.Machine.execSetEndpointId eid s
  | .getEndpointId => Sys2Proof.Machine.execGetEndpointId s
  | .getMctpVersionSupport t => Sys2Proof.Machine.execGetMctpVersionSupport t s
  | .getMessageTypeSupport => Sys2Proof.Machine.execGetMessageTypeSupport s
  | .getVendorDefinedMessageSupport => Sys2Proof.Machine.execGetVendorDefinedMessageSupport s
  | .getUnits ins first count => Sys2Proof.Machine.execGetUnits ins first count s
  | .fence ins unit reason => Sys2Proof.Machine.execFence ins unit reason s
  | .fenceNow ins unit reason => Sys2Proof.Machine.execFenceNow ins unit reason s
  | .setOff ins unit reason => Sys2Proof.Machine.execSetOff ins unit reason s
  | .restore ins unit => Sys2Proof.Machine.execRestore ins unit s
  | .getQlist ins first count => Sys2Proof.Machine.execGetQlist ins first count s
  | .setCapLimits ins lo hi => Sys2Proof.Machine.execSetCapLimits ins lo hi s
  | .mgmtStoreSettings ins => Sys2Proof.Machine.execMgmtStoreSettings ins s
  | .readUnit ins unit => Sys2Proof.Machine.execReadUnit ins unit s
  | .readTotals ins => Sys2Proof.Machine.execReadTotals ins s
  | .readFsr ins seq off => Sys2Proof.Machine.execReadFsr ins seq off s
  | .readHistory ins kind first count => Sys2Proof.Machine.execReadHistory ins kind first count s
  | .debugRead ins kind unit idx chunk => Sys2Proof.Machine.execDebugRead ins kind unit idx chunk s
  | .getAlerts ins count => Sys2Proof.Machine.execGetAlerts ins count s
  | .getStatus ins => Sys2Proof.Machine.execGetStatus ins s
  | .getTid => Sys2Proof.Machine.execGetTid s
  | .setTid tid => Sys2Proof.Machine.execSetTid tid s
  | .getPldmVersion t => Sys2Proof.Machine.execGetPldmVersion t s
  | .getPldmTypes => Sys2Proof.Machine.execGetPldmTypes s
  | .getPldmCommands t => Sys2Proof.Machine.execGetPldmCommands t s
  | .getPdrRepositoryInfo => Sys2Proof.Machine.execGetPdrRepositoryInfo s
  | .getPdr handle => Sys2Proof.Machine.execGetPdr handle s
  | .getSensorReading id => Sys2Proof.Machine.execGetSensorReading id s
  | .getStateSensorReadings id => Sys2Proof.Machine.execGetStateSensorReadings id s
  | .pdrSensorRefresh => Sys2Proof.Machine.execPdrSensorRefresh s
  | .bypass => Sys2Proof.Machine.execBypass s
  | .idcode => Sys2Proof.Machine.execIdcode s
  | .samplePreload lands preload => Sys2Proof.Machine.execSamplePreload lands preload s
  | .extest => Sys2Proof.Machine.execExtest s
  | .clamp => Sys2Proof.Machine.execClamp s
  | .highz => Sys2Proof.Machine.execHighz s
  | .trst => Sys2Proof.Machine.execTrst s
  | .coolFlowNChange high => Sys2Proof.Machine.execCoolFlowNChange high s
  | .lrefReturn n => Sys2Proof.Machine.execLrefReturn n s
  | .reservedOpcode d => Sys2Proof.Machine.execReservedOpcode d s
  | .reservedCommand cmd ins => Sys2Proof.Machine.execReservedCommand cmd ins s
  | .badPecPacket => Sys2Proof.Machine.execBadPecPacket s

end Sys2Proof.Machine
end

