-- ==== Sys2Proof/Machine/Blocks.lean ====
section
/-! DEFINITION. How a slot is coded on the wire: the 257-bit blocks of a frame (R111, Table 6-3), codewords, lanes and PAM4 levels
(R110), the patterns of an untrained port (R112), and the identity exchange (R125). -/

namespace Sys2Proof.Machine

/-! ## Blocks -/

/-- A block: bit 0 is its flag, then 32 bytes. -/
abbrev Block := BitVec 257

def dataBlock (x : EnvBits) : Block := BitVec.ofNat 257 (1 + 2 * x.toNat)
def controlBlock (x : EnvBits) : Block := BitVec.ofNat 257 (2 * x.toNat)

/-- Whether a block is a data block, and its 32 bytes. -/
def isData (b : Block) : Bool := b.getLsbD 0
def blockBytes (b : Block) : EnvBits := b.extractLsb' 1 256

/-- A control block of a type, with bytes 1 to 31 as a number (Table 6-3). -/
def typedBlock (typ : Nat) (rest : Nat) : Block := controlBlock (BitVec.ofNat 256 (typ + 2 ^ 8 * rest))

def idleBlock : Block := typedBlock 0x1E 0
def laneMark : Block := typedBlock 0x2D (ofLe (List.replicate 31 0xA5))
def stoppedBlock : Block := typedBlock 0x55 0

/-- TAIL0 to TAIL3 of a tail, 31 bytes each. -/
def tailBlocks (t : BitVec 992) : List Block := (List.range 4).map (fun i => typedBlock (0x4B + i) (fld t (248 * i) 248))

/-- The 9 data blocks of a parcel, its header first. -/
def parcelBlocks (x : BitVec 2304) : List Block := (List.range 9).map (fun i => dataBlock (x.extractLsb' (256 * i) 256))

/-- The parcels of a frame in ascending positions. -/
def inOrder (f : TxFrame) : List (BitVec 2304) :=
  (List.range 10).filterMap (fun k => (f.parcels.find? (fun x => x.1 == k)).map (fun x => x.2))

/-- The blocks of a frame: SLOT_START, the occupied positions, the tail. -/
def frameBlocks (f : TxFrame) : List Block :=
  controlBlock f.slotStart :: (inOrder f).flatMap parcelBlocks ++ tailBlocks f.tail

/-! ## A slot (R111) -/

/-- The blocks of a slot on a port: 100 at Vent level 0, more under Vent (R9), and up to one more or fewer by the LREF difference. -/
def slotBlocks (s : State) (p : Nat) : Nat := 6400 / (64 - s.pacer.vent) + Config.fillDrift (cnt s) p % 3 - 1

/-- `n` IDLE blocks of the slot, one of them replaced by LANE_MARK when the count is a multiple of 64. -/
def fillWith (s : State) (p n : Nat) : List Block :=
  let l := List.replicate n idleBlock
  if cnt s % 64 = 0 then l.set (Config.markPlace (cnt s) p % n) laneMark else l

/-- A frame and the IDLE blocks that fill the rest of its slot. -/
def frameSlot (s : State) (p : Nat) (f : TxFrame) : List Block :=
  frameBlocks f ++ fillWith s p (slotBlocks s p - (frameBlocks f).length)

/-! ## The identity exchange (R125) -/

/-- The identity that a port sends: package serial, port, SLOT_ID straps, and the Bridle identity, 0x7FF before one is assigned. -/
def identitySent (s : State) (p : Nat) : Word64 × BitVec 6 × BitVec 6 × BitVec 11 :=
  (s.ident.serial, BitVec.ofNat 6 p, s.ident.slotId, if s.bridle.committed.idValid then s.bridle.committed.id else 0x7FF)

/-- The IDLE blocks that carry it. -/
def identityBlocks (s : State) (p : Nat) : List Block :=
  let x := identitySent s p
  (Config.identityBytes x.1 x.2.1 x.2.2.1 x.2.2.2).map (fun l => typedBlock 0x1E (ofLe (l.take 31)))

/-! ## Codewords, lanes and levels (R110) -/

/-- The message of a codeword: 20 blocks, bit 0 of the first first. -/
def message (bs : List Block) : BitVec 5140 :=
  BitVec.ofNat 5140 ((bs.take 20).foldr (fun b a => b.toNat + 2 ^ 257 * a) 0)

/-- A codeword of 544 symbols of 10 bits: the message symbols, then the parity (log 77). -/
def codeword (bs : List Block) : BitVec 5440 :=
  BitVec.ofNat 5440 ((message bs).toNat + 2 ^ 5140 * (Config.rsParity (message bs)).toNat)

/-- Symbol `k` of a codeword. -/
def symbol (c : BitVec 5440) (k : Nat) : BitVec 10 := c.extractLsb' (10 * k) 10

/-- The symbols of a lane: symbol `k` goes to lane `k` mod 4. -/
def laneSymbols (c : BitVec 5440) (lane : Nat) : List (BitVec 10) := (List.range 136).map (fun i => symbol c (4 * i + lane))

/-- The five PAM4 values of a symbol, least significant bit first: each pair gives 2 * second + first. -/
def pamValues (x : BitVec 10) : List Nat := (List.range 5).map (fun i => fld x (2 * i) 2)

/-- Where a value stands among the levels: 0, 1, 3 and 2 are the levels from the lowest up. -/
def grayPlace (v : Nat) : Nat := if v = 3 then 2 else if v = 2 then 3 else v

/-- The level of a place: -3, -1, +1, +3. -/
def levelAt (n : Nat) : Int := 2 * (n : Int) - 3

/-- 1/(1+D) precoding of places, after the place `last` (Table 6-1, log 77). -/
def precoded : Nat → List Nat → List Nat
  | _, [] => []
  | last, g :: t =>
    let n := (g + 4 - last) % 4
    n :: precoded n t

/-- The levels of a codeword on a lane of a port, precoded when its training asked for it. -/
def laneLevels (v : Port) (last : Nat) (c : BitVec 5440) (lane : Nat) : List Int :=
  let places := ((laneSymbols c lane).flatMap pamValues).map grayPlace
  (if v.precode.getLsbD lane then precoded last places else places).map levelAt

/-! ## Test patterns (Table 6-1) -/

/-- The patterns that a port sends itself in internal loopback, at SELF_TEST and when a known-answer kernel asks for one. -/
inductive TestPattern where
  | prbs13q
  | prbs31q
  deriving DecidableEq, Repr

/-- How many bits back the bits stand whose sum is the next bit: x^13 + x^12 + x^2 + x + 1 and x^31 + x^28 + 1, as IEEE 802.3 has the
two generators (log 77). -/
def TestPattern.taps : TestPattern → List Nat
  | .prbs13q => [1, 2, 12, 13]
  | .prbs31q => [28, 31]

/-- The next bit after a history, newest bit first. -/
def TestPattern.next (t : TestPattern) (hist : List Bool) : Bool := (t.taps.filter (fun k => hist.getD (k - 1) false)).length % 2 == 1

/-- The next `n` bits after a history, oldest first. -/
def TestPattern.bits (t : TestPattern) : Nat → List Bool → List Bool
  | 0, _ => []
  | n + 1, hist =>
    let b := t.next hist
    b :: t.bits n ((b :: hist).take 31)

/-- The levels of bits taken in pairs, mapped as R110 maps a pair. -/
def pairLevels : List Bool → List Int
  | a :: b :: t => levelAt (grayPlace (2 * flag b + flag a)) :: pairLevels t
  | _ => []

/-- `n` symbols of a test pattern on a lane, after a history that the lane starts from. -/
def TestPattern.levels (t : TestPattern) (n : Nat) (hist : List Bool) : List Int := pairLevels (t.bits (2 * n) hist)

/-! ## Outside the trained state (R112) -/

/-- The words that the two patterns repeat. -/
def notReadyWord : BitVec 32 := 0x5A3CC3A5
def wakeWord : BitVec 32 := 0x66CC3399

/-- The level of symbol `n` of a pattern, the same on all four lanes: one bit a symbol, least significant first. -/
def patternLevel (w : BitVec 32) (n : Nat) : Int := if w.getLsbD (n % 32) then 3 else -3

/-! ## What a port sends -/

/-- What is on a port's wire in a slot. -/
inductive OnWire where
  /-- No signal. -/
  | dark
  /-- A pattern of two levels (R112). -/
  | pattern (word : BitVec 32)
  /-- Training: equalization and lock by IEEE 802.3, then the identity in IDLE blocks (R125). -/
  | training (identity : List Block)
  /-- A stream of blocks. -/
  | blocks (l : List Block)
  deriving DecidableEq, Repr

/-- What a port sends in the present slot. -/
def onWire (s : State) (p : Nat) : OnWire :=
  let v := portOf s p
  match v.sends with
  | .none => .dark
  | .notReady => .pattern notReadyWord
  | .wake => .pattern wakeWord
  | .train => .training (identityBlocks s p)
  | .frames => .blocks (match v.sent with | some f => frameSlot s p f | none => List.replicate (slotBlocks s p) idleBlock)
  | .idle => .blocks (List.replicate (slotBlocks s p) idleBlock)
  | .stopped => .blocks (List.replicate (slotBlocks s p) stoppedBlock)

end Sys2Proof.Machine
end

