-- ==== Sys2Proof/Safety.lean ====
section
/-! DEFINITION. The words that statements use: a safe run, what a step may change, and the invariants of the block. -/

namespace Sys2Proof.Safety

/-- The step from this state answers a next state. -/
def StepsOn (s : Machine.State) : Prop := ∃ t, Machine.step s = .next t

/-- A run of `k` steps that stops nowhere. -/
def RunsOn (k : Nat) (s : Machine.State) : Prop := ∃ t, Host.Core.run Sys2Proof.core k s = .next t

end Sys2Proof.Safety

namespace Sys2Proof.Machine

/-- The parts of the state that a frame names. `settings` is the volatile settings set (unit states, quarantine list, history
and log among it), `ringOut` what the part writes to its rings, `host` the bytes of host memory. -/
inductive Part where
  | ident | tray | boot | stop | settings | banks | unitGen | secRegs | test | totals | health | fsrs | tiles | localq | shadowed
  | mems | far | ports | transits | bridle | pacer | job | work | windowSize | panels | stage | gaccs | trees | waiting
  | takes | host | reel | det | ldr | power | tb | ringRegs | ringOut | alerts | mgmtRegs | tap | out | latches | entropy
  | pending
  deriving DecidableEq, Repr

/-- That a part is the same in two states. -/
def Part.same (p : Part) (s t : State) : Prop :=
  match p with
  | .ident => t.ident = s.ident
  | .tray => t.tray = s.tray
  | .boot => t.boot = s.boot
  | .stop => t.stop = s.stop
  | .settings => t.store.set = s.store.set
  | .banks => { t.store with set := s.store.set } = s.store
  | .unitGen => t.unitGen = s.unitGen
  | .secRegs =>
    { t.sec with totals := s.sec.totals, health := s.sec.health, fsrs := s.sec.fsrs, fsrSeq := s.sec.fsrSeq,
                 test := s.sec.test } = s.sec
  | .test => t.sec.test = s.sec.test
  | .totals => t.sec.totals = s.sec.totals
  | .health => t.sec.health = s.sec.health
  | .fsrs => (t.sec.fsrs, t.sec.fsrSeq) = (s.sec.fsrs, s.sec.fsrSeq)
  | .tiles => t.tiles = s.tiles
  | .localq => t.localq = s.localq
  | .shadowed => t.shadowed = s.shadowed
  | .mems => t.mems = s.mems
  | .far => t.far = s.far
  | .ports => t.ports = s.ports
  | .transits => t.transits = s.transits
  | .bridle => t.bridle = s.bridle
  | .pacer => t.pacer = s.pacer
  | .job => t.job = s.job
  | .work => t.work = s.work
  | .windowSize => t.window.size = s.window.size
  | .panels => t.window.panels = s.window.panels
  | .stage => t.window.stage = s.window.stage
  | .gaccs => t.window.gaccs = s.window.gaccs
  | .trees => t.window.trees = s.window.trees
  | .waiting => t.window.waiting = s.window.waiting
  | .takes => t.window.takes = s.window.takes
  | .host => t.window.hostMem = s.window.hostMem
  | .reel => t.reel = s.reel
  | .det => t.det = s.det
  | .ldr => t.ldr = s.ldr
  | .power => t.power = s.power
  | .tb => t.tb = s.tb
  | .ringRegs =>
    { t.rings with eqTail := s.rings.eqTail, eqLost := s.rings.eqLost, seq := s.rings.seq, lost := s.rings.lost,
                   cqTail := s.rings.cqTail, wrote := s.rings.wrote, due := s.rings.due, stall := s.rings.stall,
                   msix := s.rings.msix, vecPend := s.rings.vecPend } = s.rings
  | .ringOut =>
    (t.rings.eqTail, t.rings.eqLost, t.rings.seq, t.rings.lost, t.rings.cqTail, t.rings.wrote, t.rings.due, t.rings.stall,
      t.rings.msix, t.rings.vecPend) =
    (s.rings.eqTail, s.rings.eqLost, s.rings.seq, s.rings.lost, s.rings.cqTail, s.rings.wrote, s.rings.due, s.rings.stall,
      s.rings.msix, s.rings.vecPend)
  | .alerts =>
    (t.mgmt.alerts, t.mgmt.alertSeq, t.mgmt.alertLost, t.mgmt.lostSince) =
    (s.mgmt.alerts, s.mgmt.alertSeq, s.mgmt.alertLost, s.mgmt.lostSince)
  | .mgmtRegs =>
    { t.mgmt with alerts := s.mgmt.alerts, alertSeq := s.mgmt.alertSeq, alertLost := s.mgmt.alertLost,
                  lostSince := s.mgmt.lostSince } = s.mgmt
  | .tap => t.tap = s.tap
  | .out => t.out = s.out
  | .latches => t.latches = s.latches
  | .entropy => t.entropy = s.entropy
  | .pending => t.pending = s.pending

/-- Every part outside the list is the same. -/
def changesOnly (ps : List Part) (s t : State) : Prop := ∀ p, p ∉ ps → p.same s t

/-- Every tile but `u` is the same. -/
def tilesBut (u : Nat) (s t : State) : Prop := ∀ v, v ≠ u → tileOf t v = tileOf s v

/-- Every port but `p` is the same. -/
def portsBut (p : Nat) (s t : State) : Prop := ∀ q, q ≠ p → portOf t q = portOf s q

/-- Every stack but `k` is the same. -/
def memsBut (k : Nat) (s t : State) : Prop := ∀ j, j ≠ k → memOf t j = memOf s j

/-- Every byte of host memory outside the given ranges (address, length) reads as before. -/
def hostBut (rs : List (Nat × Nat)) (s t : State) : Prop :=
  ∀ a, (∀ r ∈ rs, a < r.1 ∨ r.1 + r.2 ≤ a) → readByte (hostMem t) a = readByte (hostMem s) a

/-- What an event may change: the event ring and the part's line of the doorbell, and the alert queue. -/
def posts : List Part := [.ringOut, .host, .alerts]

/-- What a Failure Signature Record may change: its store, its unit's last record, and the event that goes with it. -/
def records : List Part := [.ringOut, .host, .alerts, .fsrs, .health]

/-- What a scoring event or a unit's move may change. -/
def moves : List Part := [.ringOut, .host, .alerts, .fsrs, .health, .settings, .unitGen]

/-- What a detection of the running job may change outside its tile. -/
def detects : List Part :=
  [.ringOut, .host, .alerts, .fsrs, .health, .settings, .unitGen, .totals, .job, .test]

/-- What the end of a job and the job boundary may change. -/
def jobEnds : List Part :=
  [.ringOut, .host, .alerts, .fsrs, .health, .settings, .unitGen, .totals, .job, .tiles, .mems, .ports, .localq, .transits,
   .shadowed, .stage, .far, .work, .reel, .det, .ldr, .power, .test]

/-- Host memory keeps its canonical form. -/
def keepsHost (s t : State) : Prop := Memory.wf (hostMem s) = true → Memory.wf (hostMem t) = true

/-- What manufacture fixed: SERIAL, the ROM revision and the assembly (R1, R15, R43). -/
def sameMake (s t : State) : Prop :=
  t.ident.serial = s.ident.serial ∧ t.ident.rom = s.ident.rom ∧ t.ident.memDies = s.ident.memDies ∧
  t.ident.lineDies = s.ident.lineDies

/-- No test in a window holds back a result: the end of its window counts nothing (R216, R217). -/
def noHeld (s : State) : Prop := ∀ w, s.sec.test = some w → w.by_ = .window → w.held = []

/-- The package stands stopped by a cause that was not there before, as Table 11-3 and R249 say: nothing runs, no Reel is loaded, no
port is trained, each port in service that was sends STOPPED, THERM_TRIP_N is low for a thermal cause, and the newest log entry is of kind 2. The flags of the causes are those
of `s` and this one. -/
def stoppedBy (c : StopCause) (s t : State) : Prop :=
  t.stop = { stopped := true, first := some c, cool := s.stop.cool || c == .cool, therm := s.stop.therm || c == .therm,
             supply := s.stop.supply || c == .supply, clock := s.stop.clock || c == .clock } ∧
  t.pacer.running = false ∧ t.bridle.st = .unsynced ∧ t.bridle.parent = none ∧ t.bridle.count = s.bridle.count ∧
  t.job.st = .idle ∧ t.reel = none ∧ t.tiles = [] ∧ t.localq = [] ∧ t.transits = [] ∧ t.sec.test = none ∧
  t.power.ballast = [] ∧
  t.tray.thermTripN = (s.tray.thermTripN && !(c == .cool || c == .therm)) ∧
  (∀ p, portPop s p = true → (portOf t p).st ≠ .trained ∧ (portOf t p).st ≠ .measuring ∧ (portOf t p).st ≠ .relock) ∧
  (∀ p, portPop s p = true → unitSt s (1024 + p) = .active ∨ unitSt s (1024 + p) = .watch →
    (portOf s p).st = .trained ∨ (portOf s p).st = .measuring ∨ (portOf s p).st = .relock → (portOf t p).sends = .stopped) ∧
  (t.store.set.log.getLast?.map (fun e => e.getD 24 0)) = some 2 ∧
  t.boot.stage = s.boot.stage ∧ t.store.bankA = s.store.bankA ∧ t.store.bankB = s.store.bankB ∧ t.tb = s.tb ∧
  (running s = true → t.job.faulted = true ∧
    (noHeld s → t.sec.totals = { s.sec.totals with faults := s.sec.totals.faults + 1 })) ∧
  (running s = false → noHeld s → t.sec.totals = s.sec.totals) ∧
  (jobBusy s = false → risingKeys s.mems = true → ∀ k, (memOf s k).st = .trained →
    (memOf t k).st = .selfRefresh ∧ (memOf t k).blocks = (memOf s k).blocks ∧ (memOf t k).sel = (memOf s k).sel ∧
    (memOf t k).mark = [])

/-- A further cause while the package is stopped: the first cause stays and this one is flagged as well (R29). -/
def causeAdded (c : StopCause) (s t : State) : Prop :=
  t.stop = { s.stop with cool := s.stop.cool || c == .cool, therm := s.stop.therm || c == .therm,
                         supply := s.stop.supply || c == .supply, clock := s.stop.clock || c == .clock } ∧
  t.tray.thermTripN = (s.tray.thermTripN && !(c == .cool || c == .therm))

/-- Tile `u` of a running job is about to issue word `w` with opcode `op`: nothing holds it, the word's slot has come, its fields and
operands are legal (R61, R62, R69), it does not carry V = 1 in strict mode, and it reads no working line that this attempt has
not written (R71). -/
def readyToIssue (s : State) (u : Nat) (r : Reel) (w : Rec128) (rest : List Rec128) (op : Nat) : Prop :=
  mayIssue s u = true ∧ s.reel = some r ∧ (tileOf s u).todo = w :: rest ∧ wSlot w = s.job.slot ∧ wOp w = op ∧
  fieldsOk w = true ∧ operandsOk (jobRegions s r u) w = true ∧ (wV w = true → r.strict = false) ∧
  ∀ l ∈ srcLines w, staleLine (jobRegions s r u) (tileOf s u) l = false

/-- The word is in flight as `f` and nothing else has happened to the tile's queues and Pocket, to any other tile or to the rest of
the package but the parts `ps`: its last token is its issue token plus its duration at the phase's class less 1 (R54). -/
def inFlight (ps : List Part) (s t : State) (u : Nat) (r : Reel) (w : Rec128) (op : Nat) (f : Flight) : Prop :=
  changesOnly ps s t ∧ tilesBut u s t ∧ (tileOf t u).flight = some f ∧ f.word = w ∧
  f.last = 64 * wSlot w + wToken w + opTokens (jobClass s r) op - 1 ∧
  (tileOf t u).lines = (tileOf s u).lines ∧ (tileOf t u).inbox = (tileOf s u).inbox ∧
  (tileOf t u).outbox = (tileOf s u).outbox ∧ (tileOf t u).flags = (tileOf s u).flags ∧
  (tileOf t u).halted = (tileOf s u).halted ∧ (tileOf t u).checks = (tileOf s u).checks

/-- Command `c` issues the word: `f` writes exactly the lines of the destination at its deadline. -/
def issues (c : Instr) (ps : List Part) (s : State) (u : Nat) (r : Reel) (w : Rec128) (rest : List Rec128) (op : Nat) : Prop :=
  ∃ t f, exec c s = .next t ∧ inFlight ps s t u r w op f ∧ (tileOf t u).todo = rest ∧
    (tileOf t u).mover = (tileOf s u).mover ∧ (tileOf t u).events = (tileOf s u).events ∧
    f.results.map (fun x => x.1) = dstLines w

/-- Command `c` takes the word from the sequencer of tile `u` and raises the fault `code`: nothing goes into flight, the tile's Pocket
and queues stay, no other tile changes, and the job has faulted. -/
def faultsWith (code : BitVec 16) (c : Instr) (s : State) (u : Nat) (rest : List Rec128) : Prop :=
  ∃ t : State, exec c s = .next t ∧ t.job.faulted = true ∧ (tileOf t u).todo = rest ∧ (tileOf t u).flight = none ∧
    (tileOf t u).lines = (tileOf s u).lines ∧ (tileOf t u).outbox = (tileOf s u).outbox ∧
    (tileOf t u).mover = (tileOf s u).mover ∧ tilesBut u s t ∧ changesOnly [.tiles, .job, .settings, .test] s t ∧
    (s.job.ownFault = none → t.job.ownFault.map (fun l => (l.code, l.unit)) = some (code, BitVec.ofNat 16 u))

/-- The bytes of an operation's result lines as one number. -/
def resultNat (f : Flight) : Nat := f.results.foldr (fun x acc => x.2.data.toNat + 2 ^ 2048 * acc) 0

/-- Element `k` of `n` as a two's complement integer of `b` bits. -/
def intAt (b n k : Nat) : Int := (BitVec.ofNat b (n / 2 ^ (b * k))).toInt

/-- An integer saturated to the range of `b` bits. -/
def saturated (b : Nat) (v : Int) : Int := max (-(2 ^ (b - 1) : Int)) (min ((2 ^ (b - 1) : Int) - 1) v)

/-- Element `k` of the format `f` in an operand's bytes. -/
def elemAt (f : Fmt) (n k : Nat) : Nat := n / 2 ^ (8 * elemBytes f * k) % 2 ^ (8 * elemBytes f)

/-- Node `k` of level `l` of the fixed tree over the elements `v`, with the flags of the additions below it (R353). -/
def treeNode (f : Fmt) (rnd : Nat) (v : Nat → Nat) : Nat → Nat → Nat × BitVec 8
  | 0, k => (v k, 0)
  | l + 1, k =>
    let a := treeNode f rnd v l (2 * k)
    let b := treeNode f rnd v l (2 * k + 1)
    ((addF f rnd a.1 b.1).1, a.2 ||| b.2 ||| (addF f rnd a.1 b.1).2)

/-- Command `c` puts its word in flight with `n` result elements of the format `f` that are those of `g` and every flag that one of
them raises; the check will fail when a line it reads disagrees with its residues (R200), and result lines made of lines that all
agree agree as well (R92). -/
def computes (c : Instr) (s : State) (u : Nat) (w : Rec128) (f : Fmt) (n : Nat) (g : Nat → Nat × BitVec 8) : Prop :=
  ∃ t x, exec c s = .next t ∧ (tileOf t u).flight = some x ∧ (∀ k, k < n → elemAt f (resultNat x) k = (g k).1) ∧
    x.flags = (List.range n).foldl (fun a k => a ||| (g k).2) 0 ∧
    x.srcBad = (srcLines w).any (fun l => sideBad (readLine (tileOf s u) l)) ∧
    (x.srcBad = false → ∀ y ∈ x.results, y.2.side = sideOf y.2.data)


/-- The input products of the regulators that are on, summed over a sample: 0.1 mW, the same number of nJ (R22, R227, R250). -/
def inputSum (s : State) (x : Sensors) : Nat :=
  ((x.regs.zipIdx.filter (fun r => regulatorOn s r.2)).map (fun r => r.1.1 * r.1.2)).foldl (· + ·) 0

/-- The sparse data of the tiles, the stacks and the ports keep their one canonical form: keys strictly rising, no default listed. -/
def sparseOk (s : State) : Prop :=
  canonical Tile.clear s.tiles = true ∧ canonical Stack.off s.mems = true ∧ canonical Port.off s.ports = true ∧
  (∀ u, canonical LineSt.zero (tileOf s u).lines = true) ∧
  ∀ k, canonical false (memOf s k).mark = true ∧ canonical false (memOf s k).sel = true

/-- The descriptor at the front is taken and `c` is the one record that it leaves: the rings and host memory are those after it. -/
def recordedAs (c : Rec) (s t : State) : Prop :=
  t.rings = (complete c (takeDesc s)).rings ∧ hostMem t = hostMem (complete c (takeDesc s))

/-- What a descriptor and its record may change. -/
def recordParts : List Part := [.ringRegs, .ringOut, .host]

/-- A management request is answered with a completion code and data (Table 15-9), and counted. -/
def answered (cmd : Nat) (ins : BitVec 8) (code : Nat) (data : List Byte) (s t : State) : Prop :=
  t.out.resp = leBytes 1 cmd ++ [ins] ++ leBytes 1 code ++ leBytes 4 t.unitGen ++ data ∧
  t.mgmt.requests = min (s.mgmt.requests + 1) 65535 ∧ t.mgmt.lastCommand = BitVec.ofNat 8 cmd ∧
  t.mgmt.lastCompletion = BitVec.ofNat 8 code

/-- An MCTP control or PLDM request is answered with bytes and counted, and nothing else changes but the registers `m` gives. -/
def replied (bytes : List Byte) (m : Mgmt) (s t : State) : Prop :=
  changesOnly [.out, .mgmtRegs] s t ∧ t.out = { s.out with resp := bytes } ∧
  t.mgmt = { m with requests := min (s.mgmt.requests + 1) 65535 }

end Sys2Proof.Machine
end

