-- ==== Sys2Proof/Certificates/Slice0/Obligations.lean ====
section
/-! DEFINITION. The statements for the provers, family by family. `changesOnly ps s t` is the frame: every part of the state
outside `ps` is the same. -/

open Sys2Proof Sys2Proof.Machine

/-- For every command c and state whose queue holds c at the front, a step is exec of c on the state that holds the rest
of the queue. On an empty queue the block idles; that clause is the model's choice (log 6). -/
def Obligations.StepTakesTheFrontCommand : Prop :=
  (∀ (s : State) (c : Instr) (rest : List Instr),
    s.pending = c :: rest → step s = exec c { s with pending := rest }) ∧
  (∀ s : State, s.pending = [] → step s = .next s)

/-- The state after reset is a package in stage OFF (that it stands unpowered is the model's choice, log 2) whose
registers hold the reset values of the spec's tables: count 0, UNSYNCED, no parent, hops 0xFF, no job, every counter
0, WATCH_AT and ADVISE_AT of tiles, ports and stacks 3 and 12, 8 and 32, 4 and 16, WATCH_PASSES 16, SCORE_HALF_H 24,
stress intervals 168 and 24, TEST_AUTO 1, Vent level 0, time base at second 0 and invalid, rings disabled, BAR2 of 1
GiB with every panel FREE, no host memory written by the part. The tables of the state after reset are in canonical
form, and so is its host memory. The form is the model's (log 7). -/
def Obligations.ResetIsUnpowered : Prop :=
  (State.reset.boot.stage = .off ∧ State.reset.bridle.count = 0 ∧ State.reset.bridle.st = .unsynced ∧
  State.reset.bridle.parent = none ∧ State.reset.bridle.hops = 0xFF ∧ State.reset.job = Job.none ∧
  State.reset.reel = none ∧ State.reset.work = Work.zero ∧ State.reset.sec.totals = Totals.zero ∧
  (∀ i, healthOf State.reset i = Health.zero) ∧
  State.reset.sec.committed =
    { tileWatch := 3, tileAdvise := 12, portWatch := 8, portAdvise := 32, stackWatch := 4, stackAdvise := 16,
      watchPasses := 16, scoreHalfH := 24, stressActive := 168, stressWatch := 24 } ∧
  State.reset.sec.staged = State.reset.sec.committed ∧ State.reset.sec.testAuto = true ∧
  State.reset.pacer.running = false ∧ State.reset.pacer.vent = 0 ∧
  State.reset.tb.sec = 0 ∧ State.reset.tb.ns = 0 ∧ State.reset.tb.valid = false ∧
  State.reset.rings.committed.enable = false ∧ State.reset.window.size * 65536 = 2 ^ 30 ∧
  (∀ p, (panelOf State.reset p).st = .free) ∧ (∀ u, tileOf State.reset u = Tile.clear) ∧
  Memory.wf (hostMem State.reset) = true ∧ State.reset.pending = []) ∧
  (sparseOk State.reset ∧ Memory.wf (hostMem State.reset) = true)

/-- For every state and every command: a step that answers a next state leaves SERIAL, the ROM revision and the assembly
as they are, and it leaves SLOT_ID as it is unless it runs VIN48_RISE in stage OFF at or above 39.0 V, where SLOT_ID
becomes that command's straps. -/
def Obligations.StepKeepsMakeAndStraps : Prop :=
  ∀ s t : State, step s = .next t →
    sameMake s t ∧
    (t.ident.slotId = s.ident.slotId ∨
      ∃ mv straps a b rest, s.pending = .vin48Rise mv straps a b :: rest ∧ s.boot.stage = .off ∧ 39000 ≤ mv ∧
        t.ident.slotId = straps)

/-- For every state whose host memory is in canonical form (addresses strictly rising, no byte equal to what an unlisted
address reads as), every step that answers a next state leaves host memory in that form. The form is the model's (log
7). -/
def Obligations.StepKeepsHostMemoryForm : Prop :=
  ∀ s t : State, Memory.wf (hostMem s) = true → step s = .next t → Memory.wf (hostMem t) = true

/-- Whatever the command and the state, a next state holds the same queue: what waits is served first in, first out, and
no command adds, drops or reorders one. Whatever the command and the state, exec answers no refusal. It answers a
fault only for BLOCK_MOVE_SERVICE and FAR_FILL, and then the fault names a stack block number at or beyond
25,165,824, the number of blocks of a stack. That an absent block stops the command, and that nothing
else does, is the model's choice (log 57), and so is the queue itself, which the table's rows reach as events and accesses and not as words (log 2). -/
def Obligations.CommandsNeitherQueueNorStop : Prop :=
  (∀ (c : Instr) (s t : State), exec c s = .next t → t.pending = s.pending) ∧
  (∀ (c : Instr) (s : State),
    (∀ r, exec c s ≠ .refused r) ∧
    (∀ f, exec c s = .fault f →
      ((∃ u r, c = .blockMoveService u r) ∨ (∃ i, c = .farFill i)) ∧
      ∃ k b, f = .absentBlock k b ∧ 25165824 ≤ b))

/-- In stage OFF, VIN48_RISE at or above 39.0 V completes: SERVICE_BOOT starts, LAST_RESET is cold, SLOT_ID takes the
straps, the time base counts from 0 and is invalid, every counter is 0, no Reel is loaded, the rings are disabled,
tiles and stacks are cleared and both banks are kept. The valid bank (its check holds now and its last store was
whole) with the higher GENERATION becomes active, and its caps, units, quarantine list and history become the volatile
set, every HELD bit clear since no Reel is loaded (R325); with no valid bank none is active, NO_VALID_BANK is set, CAP_MIN is 500, CAP_MAX is the package power limit and
no unit is listed. -/
def Obligations.ColdStartLoadsABank : Prop :=
  ∀ (s : State) (mv : Nat) (straps : BitVec 6) (a b : Bool), s.boot.stage = .off → 39000 ≤ mv →
    ∃ t : State, exec (.vin48Rise mv straps a b) s = .next t ∧
      t.boot.stage = .serviceBoot ∧ t.boot.lastReset = .cold ∧ t.ident = { s.ident with slotId := straps } ∧
      t.tray.vin48 = mv ∧ t.tb.sec = 0 ∧ t.tb.ns = 0 ∧ t.tb.valid = false ∧ t.reel = none ∧ t.job = Job.none ∧
      t.tiles = [] ∧ t.mems = [] ∧ t.ports = [] ∧ t.bridle = Bridle.reset ∧ t.sec.totals = Totals.zero ∧ t.sec.health = [] ∧
      t.work = Work.zero ∧ t.rings.committed.enable = false ∧ t.stop.stopped = false ∧
      t.store.bankA = s.store.bankA ∧ t.store.bankB = s.store.bankB ∧ t.store.run = none ∧
      (a = true ∧ s.store.bankA.intact = true →
        (b = true ∧ s.store.bankB.intact = true → s.store.bankB.generation < s.store.bankA.generation) →
        t.store.active = some false ∧ t.store.set.capMin = s.store.bankA.set.capMin ∧
        t.store.set.capMax = s.store.bankA.set.capMax ∧ t.store.set.units = s.store.bankA.set.unheld.units ∧
        t.store.set.qlist = s.store.bankA.set.qlist ∧ t.store.set.history = s.store.bankA.set.history ∧
        t.boot.noValidBank = false) ∧
      (b = true ∧ s.store.bankB.intact = true →
        (a = true ∧ s.store.bankA.intact = true → s.store.bankA.generation < s.store.bankB.generation) →
        t.store.active = some true ∧ t.store.set.capMin = s.store.bankB.set.capMin ∧
        t.store.set.capMax = s.store.bankB.set.capMax ∧ t.store.set.units = s.store.bankB.set.unheld.units ∧
        t.store.set.qlist = s.store.bankB.set.qlist ∧ t.store.set.history = s.store.bankB.set.history ∧
        t.boot.noValidBank = false) ∧
      (¬ (a = true ∧ s.store.bankA.intact = true) → ¬ (b = true ∧ s.store.bankB.intact = true) →
        t.store.active = none ∧ t.boot.noValidBank = true ∧ t.store.set.capMin = 500 ∧
        t.store.set.capMax = powerLimit s ∧ t.store.set.units = [] ∧ t.store.set.qlist = [])

/-- A stage that has not overrun ends in the next one. SERVICE_BOOT ends in RAILS with PERST_N high and in HELD with it
low, and every populated port whose unit is not OFF and whose reference is present sends NOT_READY. PERST_N rising
ends HELD in RAILS. RAILS ends in MEMORY_INIT with the host link that trained (64 GT/s in FLIT mode, 32 or 16 GT/s without it, x16,
x8 or x4; any other stays down), the pacer running unless a stop holds it
(log 25). MEMORY_INIT ends in SELF_TEST with every populated stack that is in service trained, or in self-refresh where the package
is stopped, its blocks scrubbed (none listed), selectors at side 0 and no written mark, and with a FENCED or OFF stack unpowered.
SELF_TEST ends in READY, where the ports in service send WAKE unless the package is stopped; the Ballast buffer of each ACTIVE tile
of a package that is not stopped is loaded, a FENCED stack without power goes to self-refresh (log 78), and with no failing unit
every unit, counter and record is left as it was but for the tiles and ports in WATCH, whose passes rise by 1 (a unit whose score is 0
may settle). -/
def Obligations.StagesEndInOrder : Prop :=
  (∀ s : State, s.boot.stage = .serviceBoot → s.boot.overrunHold = false →
    ∃ t : State, exec .serviceBootEnd s = .next t ∧ changesOnly [.boot, .ports] s t ∧
      t.boot = { s.boot with stage := if s.tray.perstN then .rails else .held } ∧
      ∀ p, portPop s p = true → unitSt s (1024 + p) ≠ .off → lrefOn s (p / 16) = true →
        (portOf t p).sends = .notReady) ∧
  (∀ s : State, s.boot.stage = .held →
    ∃ t : State, exec .perstNRise s = .next t ∧ changesOnly [.boot, .tray] s t ∧ t.tray = { s.tray with perstN := true } ∧
      t.boot = { s.boot with stage := .rails }) ∧
  (∀ (s : State) (l : LinkInfo), s.boot.stage = .rails → s.boot.overrunHold = false →
    ∃ t : State, exec (.railsEnd l) s = .next t ∧ changesOnly [.boot, .ringRegs, .pacer] s t ∧
      t.boot = { s.boot with stage := .memoryInit } ∧
      (((l.flit = true ∧ l.speed = 6) ∨ (l.flit = false ∧ (l.speed = 4 ∨ l.speed = 5))) ∧
          (l.width = 4 ∨ l.width = 8 ∨ l.width = 16) → t.rings = { s.rings with link := l }) ∧
      (¬ (((l.flit = true ∧ l.speed = 6) ∨ (l.flit = false ∧ (l.speed = 4 ∨ l.speed = 5))) ∧
          (l.width = 4 ∨ l.width = 8 ∨ l.width = 16)) → t.rings = { s.rings with link := LinkInfo.down }) ∧
      t.pacer = { s.pacer with running := !s.stop.stopped }) ∧
  (∀ s : State, s.boot.stage = .memoryInit → s.boot.overrunHold = false →
    ∃ t : State, exec .memoryInitEnd s = .next t ∧ changesOnly [.boot, .mems] s t ∧
      t.boot = { s.boot with stage := .selfTest } ∧
      (∀ k, stackPop s k = true → unitSt s (1072 + k) = .active ∨ unitSt s (1072 + k) = .watch →
        (memOf t k).st = (if s.stop.stopped then .selfRefresh else .trained) ∧ (memOf t k).blocks = [] ∧
        (memOf t k).sel = [] ∧ (memOf t k).mark = []) ∧
      (∀ k, k < 8 → unitSt s (1072 + k) = .fenced ∨ unitSt s (1072 + k) = .off → memOf t k = Stack.off)) ∧
  (∀ s : State, s.boot.stage = .selfTest → s.boot.overrunHold = false →
    ∃ t : State, exec (.selfTestEnd []) s = .next t ∧ changesOnly (([.boot, .ports, .mems, .power] : List Part) ++ moves) s t ∧
      ((∀ i, i < 1072 → unitSt s i ≠ .watch) → changesOnly [.boot, .ports, .mems, .power] s t ∧
        (∀ k, k < 8 → unitSt s (1072 + k) ≠ .fenced → memOf t k = memOf s k) ∧
        (∀ k, k < 8 → unitSt s (1072 + k) = .fenced →
          memOf t k = { memOf s k with st := if (memOf s k).st = .off then .selfRefresh else (memOf s k).st })) ∧
      t.power = { s.power with buffers := t.power.buffers } ∧
      (s.stop.stopped = false → ∀ u, u < 1024 → unitSt s u = .active → (bufferOf t u).length = 16384) ∧
      (s.stop.stopped = true → t.power.buffers = []) ∧
      (risingKeys s.store.set.units = true → risingKeys s.sec.health = true → ∀ i, i < 1072 → unitSt s i = .watch →
        (healthOf s i).score ≠ 0 → healthOf t i = { healthOf s i with passes := (healthOf s i).passes + 1 }) ∧
      t.boot = { s.boot with stage := .ready } ∧
      (s.stop.stopped = false → ∀ p, portPop s p = true → unitSt s (1024 + p) = .active ∨ unitSt s (1024 + p) = .watch →
        lrefOn s (p / 16) = true → (portOf t p).sends = .wake))

/-- At the end of SELF_TEST a populated ACTIVE tile or port whose kernel failed adds 1 to its known-answer counter
(saturating) and to the package total KAT, is in WATCH, has a new Failure Signature Record and sets POT_FAIL; the part
reaches READY all the same, and every other unit that is not in WATCH keeps its state. In a timed stage that has not overrun before,
STAGE_OVERRUN keeps the stage, sets STAGE_OVERRUN and writes one Failure Signature Record. From then on the ends of
the timed stages change nothing at all, until a reset. -/
def Obligations.StartUpFailuresAreKept : Prop :=
  (∀ (s : State) (i : Nat) (ka : BitVec 8) (r : KaOutcome), s.boot.stage = .selfTest → s.boot.overrunHold = false →
    i < 1072 → unitPop s i = true → unitSt s i = .active → r ≠ .pass →
    ∃ t : State, exec (.selfTestEnd [(i, ka, r)]) s = .next t ∧ t.boot.stage = .ready ∧ t.boot.potFail = true ∧
      unitSt t i = .watch ∧ (∀ j, j ≠ i → unitSt s j ≠ .watch → unitEntry t j = unitEntry s j) ∧
      t.sec.totals = { s.sec.totals with kat := s.sec.totals.kat + 1 } ∧
      (if i < 1024 then (healthOf t i).c3 = satInc 16 (healthOf s i).c3
        else (healthOf t i).c4 = satInc 32 (healthOf s i).c4) ∧
      (healthOf t i).fsrSeq = t.sec.fsrSeq ∧ t.sec.fsrSeq ≠ s.sec.fsrSeq ∧
      changesOnly (([.boot, .ports, .totals, .mems, .power] : List Part) ++ moves) s t) ∧
  ((∀ s : State, s.boot.stage = .serviceBoot ∨ s.boot.stage = .rails ∨ s.boot.stage = .memoryInit ∨ s.boot.stage = .selfTest →
    s.boot.overrunHold = false →
    ∃ t : State, exec .stageOverrun s = .next t ∧ changesOnly (.boot :: records) s t ∧
      t.boot = { s.boot with stageOverrun := true, overrunHold := true } ∧
      t.sec.fsrSeq = nextSeq s.sec.fsrSeq ∧ (t.sec.fsrs.getLast?.map (fun f => f.seq)) = some (nextSeq s.sec.fsrSeq)) ∧
  (∀ (s : State) (l : LinkInfo) (fs : List (Nat × BitVec 8 × KaOutcome)), s.boot.overrunHold = true →
    exec .serviceBootEnd s = .next s ∧ exec (.railsEnd l) s = .next s ∧ exec .memoryInitEnd s = .next s ∧
    exec (.selfTestEnd fs) s = .next s))

/-- From RAILS to READY the fall of PERST_N is a fundamental reset: HELD, LAST_RESET fundamental, the pacer halted, the
Bridle unit, the job, the Reel, the rings, the tiles and the stacks at their reset values, every tile, port, stack and
package counter 0, every score and test time kept, the banks and the time base untouched. The test history gains the snapshot of the
counters as they were, a running job's fault counted (R38, R348), and keeps its newest 2,048 entries. Every populated port that is
not OFF and has its reference sends NOT_READY. Where no unit is HELD the unit state table and the quarantine list stay and the
settings log gains one entry; a unit that was HELD is HELD no more (R328). A latched stop is kept, which is the model's choice (log
23), as are the reset of the Vent history with the pacer (log 74) and of PWR_ALLOW and MEM_PACE with the other registers (log 52). In
SERVICE_BOOT and HELD only the signal changes. -/
def Obligations.FundamentalResetReturnsToHeld : Prop :=
  (∀ s : State, s.boot.stage = .rails ∨ s.boot.stage = .memoryInit ∨ s.boot.stage = .selfTest ∨ s.boot.stage = .ready →
    ∃ t : State, exec .perstNFall s = .next t ∧ t.tray.perstN = false ∧
      t.boot.stage = .held ∧ t.boot.lastReset = .fundamental ∧ t.pacer = Pacer.reset ∧
      t.bridle = Bridle.reset ∧ t.job = Job.none ∧ t.reel = none ∧ t.tiles = [] ∧ t.mems = [] ∧ t.localq = [] ∧
      t.rings.committed.enable = false ∧ t.rings.link = LinkInfo.down ∧
      t.work = Work.zero ∧ t.sec.totals = Totals.zero ∧
      (risingKeys s.sec.health = true → ∀ i, healthOf t i =
        { healthOf s i with c0 := 0, c1 := 0, c2 := 0, c3 := 0, c4 := 0, c5 := 0 }) ∧
      t.sec.committed = SecCfg.reset ∧ t.power.energy = s.power.energy ∧ t.power.allow = 0 ∧ t.power.spacing = 8 ∧
      ((∀ x ∈ s.store.set.units, x.2.held = false) →
        t.store.set.units = s.store.set.units ∧ t.store.set.qlist = s.store.set.qlist ∧
        t.store.set.log.length = min 1536 (s.store.set.log.length + 1)) ∧
      (risingKeys s.store.set.units = true → ∀ i, (unitEntry t i).held = false) ∧
      t.store.bankA = s.store.bankA ∧ t.store.bankB = s.store.bankB ∧ t.store.active = s.store.active ∧
      t.ident = s.ident ∧ t.tb = s.tb ∧ t.stop = s.stop ∧
      (∀ x, x = { s.sec.totals with faults := s.sec.totals.faults + flag (running s) } →
        t.store.set.history =
          keepLast 2048 (s.store.set.history ++ snapshot { s with sec := { s.sec with totals := x } })) ∧
      (∀ p, portPop s p = true → unitSt s (1024 + p) ≠ .off → lrefOn s (p / 16) = true → (portOf t p).sends = .notReady)) ∧
  (∀ s : State, s.boot.stage = .serviceBoot ∨ s.boot.stage = .held ∨ s.boot.stage = .off →
    exec .perstNFall s = .next { s with tray := { s.tray with perstN := false } })

/-- Over a host link that is up a hot reset leaves the stage, the count, the pacer's level and phase, the host link, every stack's
blocks and selectors, every trained port's training and every unit counter as they were; where no unit is HELD it leaves every stack's
state and every port's state in whose quad nothing is off, but for a trained port whose wire latency moved in the job, which the
reset ends: that port is measured again (R130). A latched stop (log 23), BOOT_FLAGS and an overrun hold (log 74) are kept, and the
rings return to reset values around the kept link (log 51), which are the model's choices, as is the emptied Vent history (log 74). It
leaves no unit HELD (R328), clears the Reel, the job, the rings and the tiles, clears every written mark, and names itself in
LAST_RESET. A job that runs adds one to FAULTS and makes a Failure Signature Record; with no job both stay. Over a link that is not up
none comes. -/
def Obligations.HotResetKeepsMemoryAndTraining : Prop :=
  (∀ s : State, linkUp s = false → exec .hotReset s = .next s) ∧
  ∀ s : State, linkUp s = true →
    ∃ t : State, exec .hotReset s = .next t ∧ t.boot = { s.boot with lastReset := .hot } ∧
      t.bridle = { Bridle.reset with count := s.bridle.count } ∧ t.pacer = { s.pacer with hist := [], head := 0 } ∧ t.rings = Rings.reset s.rings.link ∧
      t.job = Job.none ∧ t.reel = none ∧ t.tiles = [] ∧ t.window = { Window.reset with hostMem := s.window.hostMem } ∧
      (running s = false → t.sec.totals = s.sec.totals ∧ t.sec.fsrs = s.sec.fsrs) ∧
      (running s = true → t.sec.totals = { s.sec.totals with faults := s.sec.totals.faults + 1 } ∧
        t.sec.fsrSeq = nextSeq s.sec.fsrSeq) ∧
      ((∀ x ∈ s.store.set.units, x.2.held = false) →
        (running s = false → risingKeys s.mems = true → ∀ k, (memOf t k).st = (memOf s k).st ∧
          (memOf t k).blocks = (memOf s k).blocks ∧ (memOf t k).sel = (memOf s k).sel ∧ (memOf t k).mark = []) ∧
        (risingKeys s.ports = true → ∀ p, (portOf s p).st ≠ .off →
          (portOf t p).sends = (portOf s p).sends ∧ (portOf t p).retrain = false ∧
          (¬ ((portOf s p).remeasure = true ∧ (portOf s p).st = .trained) →
            (portOf t p).st = (portOf s p).st ∧ (portOf t p).cls = (portOf s p).cls) ∧
          ((portOf s p).remeasure = true → (portOf s p).st = .trained →
            (portOf t p).st = .measuring ∧ (portOf t p).cls = 0))) ∧
      (risingKeys s.store.set.units = true → ∀ i, (unitEntry t i).held = false) ∧
      t.sec.health = s.sec.health ∧ t.tb = s.tb ∧ t.ident = s.ident ∧ t.stop = s.stop ∧
      t.store.bankA = s.store.bankA ∧ t.store.bankB = s.store.bankB

/-- In a package whose VR23 is on, in whatever stage, and that is not stopped, each stop condition completes in the stopped package of its
cause: VIN48 below 38 V or above 60.5 V (and not below 30 V) and a regulator fault stop it with SUPPLY, COOL_FLOW_N
low through its 2 ms count with COOL, a junction at 105 C or more with THERM, the loss of LREF0 with CLOCK. A running
job faults and counts; every port in service that was trained sends STOPPED (R112); stacks rest with their contents; no other counter
total moves. -/
def Obligations.StopConditionsStopThePackage : Prop :=
  (∀ (s : State) (mv : Nat), svcOn s = true → s.stop.stopped = false → mv < 38000 ∨ 60500 < mv → 30000 ≤ mv →
    ∃ t : State, exec (.supplyStop mv) s = .next t ∧ stoppedBy .supply s t ∧ t.tray.vin48 = mv) ∧
  (∀ (s : State) (r : Nat), s.stop.stopped = false → regulatorOn s r = true →
    ∃ t : State, exec (.regulatorFault r) s = .next t ∧ stoppedBy .supply s t ∧ t.sec.fsrSeq ≠ s.sec.fsrSeq) ∧
  (∀ s : State, svcOn s = true → s.stop.stopped = false → s.tray.coolFlowN = false → s.boot.coolCount = true →
    ∃ t : State, exec .coolStop s = .next t ∧ stoppedBy .cool s t ∧ t.boot = { s.boot with coolCount := false }) ∧
  (∀ (s : State) (c : Int), svcOn s = true → s.stop.stopped = false → 105 ≤ c →
    ∃ t : State, exec (.thermStop c) s = .next t ∧ stoppedBy .therm s t ∧ t.tray.tMax = max s.tray.tMax c) ∧
  (∀ s : State, svcOn s = true → s.stop.stopped = false →
    ∃ t : State, exec .clockStop s = .next t ∧ stoppedBy .clock s t ∧ t.tray.lref0 = false)

/-- In a stopped package each of the five stop conditions flags its cause and changes nothing else but the tray's signals
(and, for a regulator, the record that names it). That a further COOL or THERM cause lowers THERM_TRIP_N is the model's reading (log
69). -/
def Obligations.FurtherCausesAreRecorded : Prop :=
  (∀ (s : State) (mv : Nat), svcOn s = true → s.stop.stopped = true → mv < 38000 ∨ 60500 < mv → 30000 ≤ mv →
    ∃ t : State, exec (.supplyStop mv) s = .next t ∧ causeAdded .supply s t ∧ changesOnly [.stop, .tray] s t) ∧
  (∀ (s : State) (r : Nat), s.stop.stopped = true → regulatorOn s r = true →
    ∃ t : State, exec (.regulatorFault r) s = .next t ∧ causeAdded .supply s t ∧ changesOnly (.stop :: records) s t) ∧
  (∀ s : State, svcOn s = true → s.stop.stopped = true → s.tray.coolFlowN = false → s.boot.coolCount = true →
    ∃ t : State, exec .coolStop s = .next t ∧ causeAdded .cool s t ∧ changesOnly [.stop, .tray, .boot] s t) ∧
  (∀ (s : State) (c : Int), svcOn s = true → s.stop.stopped = true → 105 ≤ c →
    ∃ t : State, exec (.thermStop c) s = .next t ∧ causeAdded .therm s t ∧ changesOnly [.stop, .tray] s t) ∧
  (∀ s : State, svcOn s = true → s.stop.stopped = true →
    ∃ t : State, exec .clockStop s = .next t ∧ causeAdded .clock s t ∧ changesOnly [.stop, .tray] s t)

/-- Below 30.0 V a powered part goes to stage OFF: no job, Reel, ring, tile, stack or port state survives, identity does,
and of the two banks only the target of a running store loses its validity. -/
def Obligations.PowerLossKeepsOnlyTheBanks : Prop :=
  ∀ (s : State) (mv : Nat), s.boot.stage ≠ .off → mv < 30000 →
    ∃ t : State, exec (.powerLoss mv) s = .next t ∧ t.boot.stage = .off ∧ t.ident = s.ident ∧ t.tray.vin48 = mv ∧
      t.stop.stopped = false ∧ t.job = Job.none ∧ t.reel = none ∧ t.tiles = [] ∧ t.mems = [] ∧ t.ports = [] ∧
      t.rings.committed.enable = false ∧ t.bridle = Bridle.reset ∧ t.store.run = none ∧ t.store.active = none ∧
      hostMem t = hostMem s ∧
      (s.store.run = none → t.store.bankA = s.store.bankA ∧ t.store.bankB = s.store.bankB) ∧
      (∀ r, s.store.run = some r → r.toB = true →
        t.store.bankA = s.store.bankA ∧ t.store.bankB = { s.store.bankB with intact := false }) ∧
      (∀ r, s.store.run = some r → r.toB = false →
        t.store.bankB = s.store.bankB ∧ t.store.bankA = { s.store.bankA with intact := false })

/-- The loss of the reference of a populated line die takes each of its ports out of the trained state, silent (log 35), and leaves
every other port alone; a running job faults exactly when the Reel uses a port of the die that was up. Its return
makes the ports in service of a ready package that is not stopped send WAKE. LREF0 returning changes only its signal.
A fall of COOL_FLOW_N starts the 2 ms count and a rise ends it. The loss of REF10M keeps seconds, nanoseconds and
fraction, sets the reference-lost flag and its event bit, makes the time base invalid, clears STEP_USED and the remaining slew, ends every output pulse and
posts an event; links, the count and the job do not change. Its return clears the flag. While it is lost a TIME cycle
changes nothing. -/
def Obligations.ReferencesComeAndGo : Prop :=
  ((∀ (s : State) (n : Nat), n = 1 ∨ n = 2 → n < s.ident.lineDies → mgmtUp s = true →
    ∃ t : State, exec (.lrefLineLoss n) s = .next t ∧ lrefOn t n = false ∧
      changesOnly [.tray, .ports, .job, .settings, .test] s t ∧
      (∀ p, p / 16 = n → (portOf t p).st ≠ .trained ∧ (portOf t p).st ≠ .measuring ∧ (portOf t p).st ≠ .relock ∧
        (portOf t p).sends = .none) ∧
      (∀ p, p / 16 ≠ n → portOf t p = portOf s p) ∧
      (running s = true → s.job.faulted = false →
        (t.job.faulted = true ↔ ∃ p, p / 16 = n ∧ reelPort s p = true ∧
          ((portOf s p).st = .trained ∨ (portOf s p).st = .measuring ∨ (portOf s p).st = .relock)))) ∧
  (∀ (s : State) (n : Nat), n = 1 ∨ n = 2 → n < s.ident.lineDies → mgmtUp s = true → lrefOn s n = false →
    ∃ t : State, exec (.lrefReturn n) s = .next t ∧ lrefOn t n = true ∧ changesOnly [.tray, .ports] s t ∧
      (∀ p, p / 16 ≠ n → portOf t p = portOf s p) ∧
      (s.boot.stage = .ready → s.stop.stopped = false → ∀ p, p / 16 = n →
        unitSt s (1024 + p) = .active ∨ unitSt s (1024 + p) = .watch → (portOf t p).sends = .wake)) ∧
  (∀ s : State, exec (.lrefReturn 0) s = .next { s with tray := { s.tray with lref0 := true } }) ∧
  (∀ (s : State) (high : Bool), s.tray.coolFlowN ≠ high →
    exec (.coolFlowNChange high) s =
      .next { s with tray := { s.tray with coolFlowN := high }, boot := { s.boot with coolCount := !high } })) ∧
  ((∀ s : State, svcOn s = true → s.tb.refLost = false →
    ∃ t : State, exec .ref10mLoss s = .next t ∧ t.tray = { s.tray with ref10m := false } ∧ t.tb.refLost = true ∧
      t.tb.sec = s.tb.sec ∧ t.tb.ns = s.tb.ns ∧ t.tb.frac = s.tb.frac ∧ t.tb.valid = false ∧ t.tb.stepUsed = false ∧
      t.tb.slewRem = 0 ∧
      t.tb.events = s.tb.events ||| 2 ∧ (∀ n, n < 4 → (outOf t.tb n).pulse = false) ∧
      changesOnly (([.tray, .tb] : List Part) ++ posts) s t ∧ t.rings.seq = nextSeq s.rings.seq) ∧
  (∀ s : State, svcOn s = true → s.tb.refLost = true →
    ∃ t : State, exec .ref10mReturn s = .next t ∧ t.tray = { s.tray with ref10m := true } ∧
      t.tb = { s.tb with refLost := false, events := s.tb.events ||| 4 } ∧ changesOnly (([.tray, .tb] : List Part) ++ posts) s t) ∧
  (∀ s : State, s.tb.refLost = true → exec .timeCycle s = .next s ∧ exec .tbWrap s = .next s))

/-- With its reference and no step waiting, a TIME cycle adds (2^48 + rate word + slew term) units of 2^-48 ns to seconds,
nanoseconds and fraction together, modulo 2^48 seconds, and takes the slew term from the remaining slew, which is 0 in mode 0;
the term is the remainder where that is no larger than floor(SLEW_BOUND x 2^48 / 10^6), else that magnitude with the
remainder's sign. The committed mode, civil offset and POL of each output act from the cycle on (log 50 names which settings act so).
Nanoseconds stay below 10^9. A cycle that passes the last second clears VALID and sets WRAPPED; no other does. TB_WRAP
is such a cycle. Nothing else changes. With an accepted step waiting, the same cycle first moves the visible time by
exactly its offset and keeps the hidden fraction, and no step waits after it. -/
def Obligations.TimeBaseCounts : Prop :=
  (∀ (s : State) (d q : Int) (m : Nat), svcOn s = true → s.tb.refLost = false → s.tb.stepDue = none →
    m = s.tb.committed.slewBound.toNat * 2 ^ 48 / 10 ^ 6 →
    q = (if s.tb.committed.mode then s.tb.slewRem else 0) →
    d = (if q.natAbs ≤ m then q else if 0 < q then (m : Int) else -(m : Int)) →
    ∃ t : State, exec .timeCycle s = .next t ∧ changesOnly [.tb] s t ∧
      ((t.tb.sec * 10 ^ 9 + t.tb.ns) * 2 ^ 48 + t.tb.frac =
        ((s.tb.sec * 10 ^ 9 + s.tb.ns) * 2 ^ 48 + s.tb.frac + (2 ^ 48 + s.tb.committed.rate.toInt + d).toNat) %
          (2 ^ 48 * 10 ^ 9 * 2 ^ 48)) ∧
      t.tb.sec < 2 ^ 48 ∧ t.tb.ns < 10 ^ 9 ∧ t.tb.frac < 2 ^ 48 ∧ t.tb.slewRem = q - d ∧
      (2 ^ 48 * 10 ^ 9 * 2 ^ 48 ≤
          (s.tb.sec * 10 ^ 9 + s.tb.ns) * 2 ^ 48 + s.tb.frac + (2 ^ 48 + s.tb.committed.rate.toInt + d).toNat →
        t.tb.valid = false ∧ t.tb.events = s.tb.events ||| 8 ∧ exec .tbWrap s = .next t) ∧
      ((s.tb.sec * 10 ^ 9 + s.tb.ns) * 2 ^ 48 + s.tb.frac + (2 ^ 48 + s.tb.committed.rate.toInt + d).toNat <
          2 ^ 48 * 10 ^ 9 * 2 ^ 48 →
        t.tb.valid = s.tb.valid ∧ t.tb.events = s.tb.events ∧ exec .tbWrap s = .next s) ∧
      t.tb.committed = s.tb.committed ∧ t.tb.staged = s.tb.staged ∧ t.tb.caps = s.tb.caps ∧
      (∀ n, n < 4 → outOf t.tb n = { outOf s.tb n with polNow := (outOf s.tb n).committed.pol }) ∧
      t.tb.modeNow = s.tb.committed.mode ∧ t.tb.civilNow = s.tb.committed.civil ∧ t.tb.stepDue = none) ∧
  (∀ (s : State) (d q o x : Int) (m : Nat), svcOn s = true → s.tb.refLost = false → s.tb.stepDue = some o →
    m = s.tb.committed.slewBound.toNat * 2 ^ 48 / 10 ^ 6 →
    q = (if s.tb.committed.mode then s.tb.slewRem else 0) →
    d = (if q.natAbs ≤ m then q else if 0 < q then (m : Int) else -(m : Int)) →
    x = (((s.tb.sec * 10 ^ 9 + s.tb.ns) * 2 ^ 48 + s.tb.frac) / 2 ^ 16 : Nat) + o → 0 ≤ x → x < 2 ^ 48 * 10 ^ 9 * 2 ^ 32 →
    ∃ t : State, exec .timeCycle s = .next t ∧ changesOnly (.tb :: posts) s t ∧
      ((t.tb.sec * 10 ^ 9 + t.tb.ns) * 2 ^ 48 + t.tb.frac =
        (x.toNat * 2 ^ 16 + s.tb.frac % 2 ^ 16 + (2 ^ 48 + s.tb.committed.rate.toInt + d).toNat) %
          (2 ^ 48 * 10 ^ 9 * 2 ^ 48)) ∧
      t.tb.sec < 2 ^ 48 ∧ t.tb.ns < 10 ^ 9 ∧ t.tb.frac < 2 ^ 48 ∧ t.tb.slewRem = q - d ∧ t.tb.stepDue = none ∧
      t.tb.committed = s.tb.committed ∧ t.tb.staged = s.tb.staged ∧ t.tb.caps = s.tb.caps ∧
      t.tb.modeNow = s.tb.committed.mode ∧ t.tb.civilNow = s.tb.committed.civil)

/-- A commit of output n that is in range completes with RESULT 1 and SUB 8 + n and copies the staged settings: a one-shot
whose start lies more than 64 ns ahead is armed for it, one whose start has passed is unarmed and MISSED, a periodic
output is armed for the earliest grid point more than 64 ns ahead, MODE 0 unarms an output that is not in a pulse; a
pulse keeps its trailing edge and its POL. Out of range it answers RESULT 2 and the output keeps everything. An armed
output whose leading edge has come starts a pulse at its POL that ends the pulse width later (WIDTH 0: 2^32 ns); a
periodic one moves on by PERIOD; a pulse that still runs keeps its trailing edge (log 50). At the trailing edge the
pulse ends, and a one-shot that fired is unarmed. The other outputs never change. In the TIME cycle that takes a step
from one whole nanosecond to another, every pulse ends; an armed one-shot outside a pulse whose edge lies after the old
time and not after the new one is unarmed and MISSED, and keeps everything otherwise; an armed periodic output takes
the earliest grid point after the new time, and is SKIPPED where a grid point was jumped over. An edge that EDGE selects on channel
c with fewer than 16 entries queued appends one entry: the time base's seconds and nanoseconds, the Bridle count,
RISING, HELD and INVALID; with EVENT it posts TB_CAPTURE. With 16 entries queued it drops: OVERFLOW sets, DROPPED
rises (up to 65,535), and an event is posted for the first of its episode only. An edge that EDGE does not select
changes nothing. CAP_POP removes the head entry and nothing else of the queue. Other channels never change. -/
def Obligations.TimeOutputsAndCaptures : Prop :=
  ((∀ (s : State) (n : Nat) (v : Word32) (c : ToutCfg), n < 4 → barOpen s = true → bit v 0 = true →
    c = (outOf s.tb n).staged → c.mode ≠ 3 → c.startNs.toNat ≤ 999999999 →
    c.width ≠ 1 ∧ c.width ≠ 2 ∧ c.width ≠ 3 → (c.mode = 2 → pulseNs c + 4 ≤ c.period.toNat) →
    ∃ t : State, exec (.toutCommit n v) s = .next t ∧ changesOnly (.tb :: posts) s t ∧ t.tb.result = 1 ∧ t.tb.sub = 8 + n ∧
      (outOf t.tb n).committed = c ∧ (outOf t.tb n).pulse = (outOf s.tb n).pulse ∧
      (outOf t.tb n).polNow = (outOf s.tb n).polNow ∧
      (outOf t.tb n).trail = (outOf s.tb n).trail ∧ (outOf t.tb n).pulsePol = (outOf s.tb n).pulsePol ∧
      (∀ k, k ≠ n → outOf t.tb k = outOf s.tb k) ∧
      (c.mode = 1 → tbNs s.tb + 64 < startNs c →
        (outOf t.tb n).armed = true ∧ (outOf t.tb n).nextLead = startNs c ∧ (outOf t.tb n).missed = (outOf s.tb n).missed) ∧
      (c.mode = 1 → startNs c ≤ tbNs s.tb + 64 → (outOf t.tb n).armed = false ∧ (outOf t.tb n).missed = true) ∧
      (c.mode = 2 → (outOf t.tb n).armed = true ∧ tbNs s.tb + 64 < (outOf t.tb n).nextLead ∧
        (∃ k, (outOf t.tb n).nextLead = startNs c + k * c.period.toNat) ∧
        ∀ k, tbNs s.tb + 64 < startNs c + k * c.period.toNat → (outOf t.tb n).nextLead ≤ startNs c + k * c.period.toNat) ∧
      (c.mode = 0 → (outOf s.tb n).pulse = false → (outOf t.tb n).armed = false)) ∧
  (∀ (s : State) (n : Nat) (v : Word32) (c : ToutCfg), n < 4 → barOpen s = true → bit v 0 = true →
    c = (outOf s.tb n).staged →
    c.mode = 3 ∨ 999999999 < c.startNs.toNat ∨ c.width = 1 ∨ c.width = 2 ∨ c.width = 3 ∨
      (c.mode = 2 ∧ c.period.toNat < pulseNs c + 4) →
    exec (.toutCommit n v) s = .next { s with tb := { s.tb with result := 2, sub := 8 + n } }) ∧
  (∀ (s : State) (n : Nat) (o : Tout), n < 4 → svcOn s = true → s.tb.refLost = false → o = outOf s.tb n →
    o.armed = true → o.nextLead ≠ 0 → o.nextLead ≤ tbNs s.tb →
    ∃ t : State, exec (.toutLeadingEdge n) s = .next t ∧ changesOnly [.tb] s t ∧
      (outOf t.tb n).pulse = true ∧
      (o.pulse = false → (outOf t.tb n).pulsePol = o.committed.pol ∧
        (outOf t.tb n).trail = o.nextLead + (if o.committed.width = 0 then 2 ^ 32 else o.committed.width.toNat)) ∧
      (o.pulse = true → (outOf t.tb n).pulsePol = o.pulsePol ∧ (outOf t.tb n).trail = o.trail) ∧
      (o.committed.mode = 2 → (outOf t.tb n).nextLead = o.nextLead + o.committed.period.toNat) ∧
      (∀ k, k ≠ n → outOf t.tb k = outOf s.tb k)) ∧
  (∀ (s : State) (n : Nat) (o : Tout), n < 4 → svcOn s = true → s.tb.refLost = false → o = outOf s.tb n →
    o.pulse = true → o.trail ≤ tbNs s.tb →
    ∃ t : State, exec (.toutTrailingEdge n) s = .next t ∧ changesOnly [.tb] s t ∧
      (outOf t.tb n).pulse = false ∧ (outOf t.tb n).nextLead = o.nextLead ∧
      (o.committed.mode = 1 → o.nextLead = 0 → (outOf t.tb n).armed = false) ∧
      (∀ k, k ≠ n → outOf t.tb k = outOf s.tb k)) ∧
  (∀ (s : State) (off x : Int) (old new n : Nat) (o : Tout), svcOn s = true → s.tb.refLost = false →
    s.tb.stepDue = some off → x = (((s.tb.sec * 10 ^ 9 + s.tb.ns) * 2 ^ 48 + s.tb.frac) / 2 ^ 16 : Nat) + off → 0 ≤ x →
    x < 2 ^ 48 * 10 ^ 9 * 2 ^ 32 → old = s.tb.sec * 10 ^ 9 + s.tb.ns → new = x.toNat / 2 ^ 32 → n < 4 → o = outOf s.tb n →
    ∃ t : State, exec .timeCycle s = .next t ∧ (outOf t.tb n).pulse = false ∧ (outOf t.tb n).committed = o.committed ∧
      (outOf t.tb n).polNow = o.committed.pol ∧
      (o.pulse = false → o.armed = false → outOf t.tb n = { o with polNow := o.committed.pol }) ∧
      (o.pulse = false → o.armed = true → o.committed.mode = 1 →
        (old < o.nextLead → o.nextLead ≤ new → (outOf t.tb n).armed = false ∧ (outOf t.tb n).missed = true) ∧
        (¬ (old < o.nextLead ∧ o.nextLead ≤ new) → outOf t.tb n = { o with polNow := o.committed.pol })) ∧
      (o.armed = true → o.committed.mode = 2 → 0 < o.committed.period.toNat →
        (outOf t.tb n).armed = true ∧ new < (outOf t.tb n).nextLead ∧
        (∃ k, (outOf t.tb n).nextLead = startNs o.committed + k * o.committed.period.toNat) ∧
        (∀ k, new < startNs o.committed + k * o.committed.period.toNat →
          (outOf t.tb n).nextLead ≤ startNs o.committed + k * o.committed.period.toNat) ∧
        ((∃ k, old < startNs o.committed + k * o.committed.period.toNat ∧
            startNs o.committed + k * o.committed.period.toNat ≤ new) → (outOf t.tb n).skipped = true) ∧
        ((∀ k, startNs o.committed + k * o.committed.period.toNat ≤ old ∨
            new < startNs o.committed + k * o.committed.period.toNat) → (outOf t.tb n).skipped = o.skipped)))) ∧
  ((∀ (s : State) (c : Nat) (rising : Bool) (k : Capture), c < 3 → svcOn s = true → k = capOf s.tb c →
    bit k.edge (if rising then 0 else 1) = true → k.queue.length < 16 →
    ∃ t : State, exec (.captureEdge c rising) s = .next t ∧ changesOnly (.tb :: posts) s t ∧
      capOf t.tb c = { k with queue := k.queue ++ [{ sec := s.tb.sec, ns := s.tb.ns, bridle := s.bridle.count,
                                                     rising := rising, held := s.tb.refLost, invalid := !s.tb.valid }] } ∧
      (k.event = true → t.rings.seq = nextSeq s.rings.seq) ∧ (k.event = false → changesOnly [.tb] s t) ∧
      (∀ j, j ≠ c → capOf t.tb j = capOf s.tb j)) ∧
  (∀ (s : State) (c : Nat) (rising : Bool) (k : Capture), c < 3 → svcOn s = true → k = capOf s.tb c →
    bit k.edge (if rising then 0 else 1) = true → 16 ≤ k.queue.length →
    ∃ t : State, exec (.captureEdge c rising) s = .next t ∧ changesOnly (.tb :: posts) s t ∧
      capOf t.tb c = { k with overflow := true, dropped := min 65535 (k.dropped + 1), episode := true } ∧
      (k.episode = true → changesOnly [.tb] s t) ∧ (k.episode = false → t.rings.seq = nextSeq s.rings.seq) ∧
      (∀ j, j ≠ c → capOf t.tb j = capOf s.tb j)) ∧
  (∀ (s : State) (c : Nat) (rising : Bool), bit (capOf s.tb c).edge (if rising then 0 else 1) = false →
    exec (.captureEdge c rising) s = .next s) ∧
  (∀ (s : State) (c : Nat) (v : Word32), c < 3 → barOpen s = true → bit v 0 = true →
    ∃ t : State, exec (.capPop c v) s = .next t ∧ changesOnly [.tb] s t ∧
      (capOf t.tb c).queue = (capOf s.tb c).queue.drop 1 ∧ (capOf t.tb c).dropped = (capOf s.tb c).dropped ∧
      (∀ j, j ≠ c → capOf t.tb j = capOf s.tb j)))

/-- Each TB commit writes RESULT and its SUB. TB_MODE in range commits MODE and SLEW_BOUND, MODE 0 dropping any remaining
slew and clearing STEP_USED. TB_RATE with a magnitude up to 562,949,953,421 commits the rate word. TB_SLEW with a
magnitude up to 10^9 ns, a valid time base and bounded-slew mode sets the remaining slew. TB_STEP with nanoseconds in
range, a result within 0 to 2^48 - 1 seconds, and the mode allowing it, commits its fields, sets VALID and STEPPED and,
in step-then-rate mode, STEP_USED, and its offset waits for the next TIME cycle beside any that waits already (log 50).
TB_CIVIL commits its word. TB_CIVIL_SET with a date and time that name a second n, and the mode allowing it, is the
step to that second with nanoseconds and visible fraction 0. A step is refused out of range (2) before the mode is
asked, with MODE_MISMATCH (5) in bounded-slew mode while VALID is 1, and with STEP_REFUSED (6) in step-then-rate mode
once STEP_USED is set; a civil set is refused first with INVALID_DATE (3), then OUT_OF_RANGE (2), then by the mode. A
refusal changes RESULT and SUB alone. -/
def Obligations.TimeBaseCommits : Prop :=
  (∀ (s : State) (v : Word32), barOpen s = true → bit v 0 = true →
    (s.tb.staged.mode = true → 1 ≤ s.tb.staged.slewBound.toNat ∧ s.tb.staged.slewBound.toNat ≤ 500) →
    ∃ t : State, exec (.tbModeCommit v) s = .next t ∧ changesOnly [.tb] s t ∧ t.tb = { s.tb with
      result := 1, sub := 0,
      committed := { s.tb.committed with mode := s.tb.staged.mode, slewBound := s.tb.staged.slewBound },
      stepUsed := s.tb.stepUsed && s.tb.staged.mode, slewRem := if s.tb.staged.mode then s.tb.slewRem else 0 }) ∧
  (∀ (s : State) (v : Word32), barOpen s = true → bit v 0 = true → s.tb.staged.mode = true →
    s.tb.staged.slewBound = 0 ∨ 500 < s.tb.staged.slewBound.toNat →
    exec (.tbModeCommit v) s = .next { s with tb := { s.tb with result := 2, sub := 0 } }) ∧
  (∀ (s : State) (v : Word32), barOpen s = true → bit v 0 = true →
    exec (.tbRateCommit v) s = .next { s with tb :=
      if s.tb.staged.rate.toInt.natAbs ≤ 562949953421 then
        { s.tb with result := 1, sub := 2, committed := { s.tb.committed with rate := s.tb.staged.rate } }
      else { s.tb with result := 2, sub := 2 } }) ∧
  (∀ (s : State) (v : Word32), barOpen s = true → bit v 0 = true →
    exec (.tbSlewCommit v) s = .next { s with tb :=
      if 1000000000 < s.tb.staged.slew.toInt.natAbs then { s.tb with result := 2, sub := 3 }
      else if s.tb.valid = false then { s.tb with result := 4, sub := 3 }
      else if s.tb.modeNow = false then { s.tb with result := 5, sub := 3 }
      else { s.tb with result := 1, sub := 3, committed := { s.tb.committed with slew := s.tb.staged.slew },
                       slewRem := s.tb.staged.slew.toInt * 2 ^ 48 } }) ∧
  (∀ (s : State) (v : Word32) (o x : Int), barOpen s = true → bit v 0 = true →
    o = (s.tb.staged.stepSec.toInt * 10 ^ 9 + s.tb.staged.stepNs.toNat) * 2 ^ 32 + s.tb.staged.stepFrac.toNat →
    x = (((s.tb.sec * 10 ^ 9 + s.tb.ns) * 2 ^ 48 + s.tb.frac) / 2 ^ 16 : Nat) + s.tb.stepDue.getD 0 + o →
    (s.tb.staged.stepNs.toNat ≤ 999999999 → 0 ≤ x → x < 2 ^ 48 * 10 ^ 9 * 2 ^ 32 →
      (s.tb.modeNow = true → s.tb.valid = false) → (s.tb.modeNow = false → s.tb.stepUsed = false) →
      ∃ t : State, exec (.tbStepCommit v) s = .next t ∧ changesOnly (.tb :: posts) s t ∧
        t.rings.seq = nextSeq s.rings.seq ∧ t.tb = { s.tb with
          result := 1, sub := 1, stepDue := some (s.tb.stepDue.getD 0 + o), valid := true, events := s.tb.events ||| 1,
          stepUsed := s.tb.stepUsed || !s.tb.modeNow,
          committed := { s.tb.committed with stepSec := s.tb.staged.stepSec, stepNs := s.tb.staged.stepNs,
                                             stepFrac := s.tb.staged.stepFrac } }) ∧
    (999999999 < s.tb.staged.stepNs.toNat ∨ x < 0 ∨ 2 ^ 48 * 10 ^ 9 * 2 ^ 32 ≤ x →
      exec (.tbStepCommit v) s = .next { s with tb := { s.tb with result := 2, sub := 1 } }) ∧
    (s.tb.staged.stepNs.toNat ≤ 999999999 → 0 ≤ x → x < 2 ^ 48 * 10 ^ 9 * 2 ^ 32 → s.tb.modeNow = true →
      s.tb.valid = true → exec (.tbStepCommit v) s = .next { s with tb := { s.tb with result := 5, sub := 1 } }) ∧
    (s.tb.staged.stepNs.toNat ≤ 999999999 → 0 ≤ x → x < 2 ^ 48 * 10 ^ 9 * 2 ^ 32 → s.tb.modeNow = false →
      s.tb.stepUsed = true → exec (.tbStepCommit v) s = .next { s with tb := { s.tb with result := 6, sub := 1 } })) ∧
  (∀ (s : State) (v : Word32), barOpen s = true → bit v 0 = true →
    exec (.tbCivilCommit v) s = .next { s with tb :=
      { s.tb with result := 1, sub := 4, committed := { s.tb.committed with civil := s.tb.staged.civil } } }) ∧
  (∀ (s : State) (v : Word32) (c : CivilSet), barOpen s = true → bit v 0 = true →
    c = civilSeconds s.tb.staged.setDate s.tb.staged.setTime s.tb.committed.civil.toInt →
    (∀ n : Nat, c = .secs n → (s.tb.modeNow = true → s.tb.valid = false) →
      (s.tb.modeNow = false → s.tb.stepUsed = false) →
      ∃ t : State, exec (.tbCivilSetCommit v) s = .next t ∧ changesOnly (.tb :: posts) s t ∧
        t.rings.seq = nextSeq s.rings.seq ∧ t.tb = { s.tb with
          result := 1, sub := 5, valid := true, events := s.tb.events ||| 1,
          stepDue := some ((n * 10 ^ 9 * 2 ^ 32 : Nat) - (((s.tb.sec * 10 ^ 9 + s.tb.ns) * 2 ^ 48 + s.tb.frac) / 2 ^ 16 : Nat)),
          stepUsed := s.tb.stepUsed || !s.tb.modeNow,
          committed := { s.tb.committed with setDate := s.tb.staged.setDate, setTime := s.tb.staged.setTime } }) ∧
    (c = .invalid → exec (.tbCivilSetCommit v) s = .next { s with tb := { s.tb with result := 3, sub := 5 } }) ∧
    (c = .outOfRange → exec (.tbCivilSetCommit v) s = .next { s with tb := { s.tb with result := 2, sub := 5 } }) ∧
    (∀ n : Nat, c = .secs n → s.tb.modeNow = true → s.tb.valid = true →
      exec (.tbCivilSetCommit v) s = .next { s with tb := { s.tb with result := 5, sub := 5 } }) ∧
    (∀ n : Nat, c = .secs n → s.tb.modeNow = false → s.tb.stepUsed = true →
      exec (.tbCivilSetCommit v) s = .next { s with tb := { s.tb with result := 6, sub := 5 } }))

/-- While the part answers the block, a 32-bit read of the LO half of a 64-bit field answers its low 32 bits and latches its
high 32 bits at the offset above, and a 64-bit read answers the whole field as one value; the read of TB_NOW_SEC_LO
latches seconds, nanoseconds, visible fraction and the civil view of one moment, and a 64-bit one answers the whole
seconds; the read of DET_INPUTS_HASHED answers how many inputs are chained and latches their digest, 0 with no Reel
loaded. A read at TB_NOW_SEC_LO's or DET_INPUTS_HASHED's offset does the same as its own command. A read changes no
counter and nothing else. The 64-bit fields are the count, the notice's apply-at count, the replay and confirmed counters,
the twelve totals, both energies, the Vent history's counts, the shortfall and the step total. A narrower or unaligned
read, and one before READY outside the blocks that answer there, answers 0 and latches nothing. -/
def Obligations.LatchingReads : Prop :=
  (∀ s : State, barOpen s = true →
    (∃ t : State, exec .bridleCountLoRead s = .next t ∧ changesOnly [.latches, .out] s t ∧
      t.out.readData.toNat = s.bridle.count % 2 ^ 32 ∧
      (look (0 : Word32) 0x5004 t.latches).toNat = s.bridle.count / 2 ^ 32 % 2 ^ 32 ∧
      (∀ o, o ≠ 0x5004 → look (0 : Word32) o t.latches = look 0 o s.latches)) ∧
    (∃ t : State, exec (.latchingLoRead ⟨0x5000, 64⟩) s = .next t ∧ changesOnly [.latches, .out] s t ∧
      t.out.readData.toNat = s.bridle.count % 2 ^ 64)) ∧
  (∀ (s : State) (o v : Nat), barOpen s = true → wideAt s o = some v →
    (∃ t : State, exec (.latchingLoRead ⟨o, 32⟩) s = .next t ∧ changesOnly [.latches, .out] s t ∧
      t.out.readData.toNat = v % 2 ^ 32 ∧ (look (0 : Word32) (o + 4) t.latches).toNat = v / 2 ^ 32 % 2 ^ 32 ∧
      (∀ q, q ≠ o + 4 → look (0 : Word32) q t.latches = look 0 q s.latches)) ∧
    (∃ t : State, exec (.latchingLoRead ⟨o, 64⟩) s = .next t ∧ changesOnly [.latches, .out] s t ∧
      t.out.readData.toNat = v % 2 ^ 64)) ∧
  (∀ s : State,
    (wideAt s 0x5000 = some s.bridle.count ∧
      wideAt s 0x7008 = some (match s.job.notice with | some n => n.applyAt | none => 0) ∧
      wideAt s 0x7018 = some s.work.replays ∧ wideAt s 0x7030 = some s.work.parcels ∧
      wideAt s 0x7038 = some s.work.stores ∧ wideAt s 0x7040 = some s.work.window ∧
      wideAt s 0x7048 = some s.work.steps) ∧
    (wideAt s 0x8400 = some s.sec.totals.detect ∧ wideAt s 0x8408 = some s.sec.totals.res ∧
      wideAt s 0x8410 = some s.sec.totals.shd ∧ wideAt s 0x8418 = some s.sec.totals.env ∧
      wideAt s 0x8420 = some s.sec.totals.kat ∧ wideAt s 0x8428 = some s.sec.totals.late ∧
      wideAt s 0x8430 = some s.sec.totals.link ∧ wideAt s 0x8438 = some s.sec.totals.veto ∧
      wideAt s 0x8440 = some s.sec.totals.memCorr ∧ wideAt s 0x8448 = some s.sec.totals.memUncorr ∧
      wideAt s 0x8450 = some s.sec.totals.fecCorr ∧ wideAt s 0x8458 = some s.sec.totals.faults) ∧
    (wideAt s 0x9100 = some (s.power.energy / 1000) ∧ wideAt s 0x9108 = some (s.power.jobEnergy / 1000) ∧
      (∀ k, k < 32 → wideAt s (0x9200 + 16 * k) = some (s.pacer.hist.getD k (0, 0)).1) ∧
      wideAt s 0xF018 = some s.ldr.short ∧
      wideAt s 0xF020 = some (match s.reel with | some r => stepTotal r | none => 0))) ∧
  (∀ s : State, barOpen s = true →
    (∃ t : State, exec .tbNowSecLoRead s = .next t ∧ exec (.latchingLoRead ⟨0x6000, 32⟩) s = .next t ∧
      changesOnly [.tb, .out] s t ∧ t.out.readData.toNat = s.tb.sec % 2 ^ 32 ∧
      t.tb = { s.tb with latchSec := s.tb.sec, latchNs := s.tb.ns, latchFrac := s.tb.frac / 2 ^ 16,
                         latchDate := civilDate s.tb, latchTime := civilTime s.tb }) ∧
    (∃ t : State, exec (.latchingLoRead ⟨0x6000, 64⟩) s = .next t ∧ changesOnly [.tb, .out] s t ∧
      t.out.readData.toNat = s.tb.sec % 2 ^ 64 ∧ t.tb.latchNs = s.tb.ns)) ∧
  (∀ s : State, barOpen s = true →
    ∃ t : State, exec .detInputsHashedRead s = .next t ∧ exec (.latchingLoRead ⟨0xA008, 32⟩) s = .next t ∧
      changesOnly [.det, .out] s t ∧
      t.out.readData.toNat = s.det.leaves.length % 2 ^ 32 ∧ t.det.leaves = s.det.leaves ∧ t.det.strict = s.det.strict ∧
      (s.reel.isSome = true → t.det.latched = inputsDigest s.det.leaves) ∧
      (s.reel = none → t.det.latched = 0)) ∧
  (∀ (s : State) (o w : Nat),
    (barOpen s = false →
      exec .bridleCountLoRead s = .next { s with out := { s.out with readData := 0 } } ∧
      exec .tbNowSecLoRead s = .next { s with out := { s.out with readData := 0 } } ∧
      exec .detInputsHashedRead s = .next { s with out := { s.out with readData := 0 } }) ∧
    ((barOpen s = false ∧ 0x2000 ≤ o) ∨ (w ≠ 32 ∧ w ≠ 64) ∨ (w = 32 ∧ o % 4 ≠ 0) ∨ (w = 64 ∧ o % 8 ≠ 0) →
      exec (.latchingLoRead ⟨o, w⟩) s = .next { s with out := { s.out with readData := 0 } }))

/-- A 64-bit aligned write acts as two 32-bit writes, the lower address first; a narrower or unaligned write changes
nothing; before READY a write outside the ID, BOOT and SS blocks changes nothing, and the ID block never changes. A
32-bit write to each staged word of the BRIDLE, TB, TOUT, SEC, PWR and HOST blocks changes exactly the staged fields that
the word holds, reserved bits dropped, and nothing else; no write but a commit's changes a committed copy. A write of
SEC_CTRL, SEC_FSR_SEL, CAPc_CTRL, HOST_VEC, HOST_EVVEC, DET_CTRL or LDR_CTRL acts at once. A write to BOOT_FLAGS, which
answers as soon as the host link is up, or to the BRIDLE, TB, SEC, PWR and HOST events, TOUTn_STATUS or CAPc_STATUS clears
exactly the flags written as 1 (BOOT_FLAGS taken before READY is log 74). -/
def Obligations.RegisterWritesStageAndClear : Prop :=
  (∀ (s : State) (off : Nat) (v : Word64), off % 8 = 0 → ∃ a t,
    exec (.registerWrite off 32 (v.setWidth 32 |>.setWidth 64)) s = .next a ∧
    exec (.registerWrite (off + 4) 32 (v >>> 32)) a = .next t ∧ exec (.registerWrite off 64 v) s = .next t) ∧
  (∀ (s : State) (off w : Nat) (v : Word64), ¬ (w = 32 ∧ off % 4 = 0) → ¬ (w = 64 ∧ off % 8 = 0) →
    exec (.registerWrite off w v) s = .next s) ∧
  (∀ (s : State) (off : Nat) (v : Word64), barOpen s = false → 0x2000 ≤ off → exec (.registerWrite off 32 v) s = .next s) ∧
  (∀ (s : State) (off : Nat) (v : Word64), off < 0x800 → exec (.registerWrite off 32 v) s = .next s) ∧
  (∀ (s : State) (v : Word64) (x : BitVec 32), barOpen s = true → x = v.extractLsb' 0 32 →
    exec (.registerWrite 0x5010 32 v) s =
      .next { s with bridle := { s.bridle with staged := { s.bridle.staged with id := x.extractLsb' 0 11, idValid := x.getLsbD 15, root := x.getLsbD 16 } } } ∧
    exec (.registerWrite 0x5014 32 v) s =
      .next { s with bridle := { s.bridle with staged := { s.bridle.staged with seed := s.bridle.staged.seed.extractLsb' 32 32 ++ x } } } ∧
    exec (.registerWrite 0x5018 32 v) s =
      .next { s with bridle := { s.bridle with staged := { s.bridle.staged with seed := x ++ s.bridle.staged.seed.extractLsb' 0 32 } } } ∧
    exec (.registerWrite 0x501C 32 v) s =
      .next { s with bridle := { s.bridle with staged := { s.bridle.staged with mark := s.bridle.staged.mark.extractLsb' 32 32 ++ x } } } ∧
    exec (.registerWrite 0x5020 32 v) s =
      .next { s with bridle := { s.bridle with staged := { s.bridle.staged with mark := x ++ s.bridle.staged.mark.extractLsb' 0 32 } } } ∧
    exec (.registerWrite 0x8010 32 v) s =
      .next { s with sec := { s.sec with staged := { s.sec.staged with tileWatch := x.extractLsb' 0 8, tileAdvise := x.extractLsb' 8 8 } } } ∧
    exec (.registerWrite 0x8014 32 v) s =
      .next { s with sec := { s.sec with staged := { s.sec.staged with portWatch := x.extractLsb' 0 8, portAdvise := x.extractLsb' 8 8 } } } ∧
    exec (.registerWrite 0x8018 32 v) s =
      .next { s with sec := { s.sec with staged := { s.sec.staged with stackWatch := x.extractLsb' 0 8, stackAdvise := x.extractLsb' 8 8 } } } ∧
    exec (.registerWrite 0x801C 32 v) s =
      .next { s with sec := { s.sec with staged := { s.sec.staged with watchPasses := x.extractLsb' 0 8, scoreHalfH := x.extractLsb' 8 8 } } } ∧
    exec (.registerWrite 0x8020 32 v) s =
      .next { s with sec := { s.sec with staged := { s.sec.staged with stressActive := x.extractLsb' 0 16, stressWatch := x.extractLsb' 16 16 } } } ∧
    exec (.registerWrite 0x9020 32 v) s =
      .next { s with power := { s.power with staged := { s.power.staged with cap := x.extractLsb' 0 16 } } } ∧
    exec (.registerWrite 0x9024 32 v) s =
      .next { s with power := { s.power with staged := { s.power.staged with window := x.extractLsb' 0 5 } } } ∧
    exec (.registerWrite 0x9028 32 v) s =
      .next { s with power := { s.power with staged := { s.power.staged with ramp := x.extractLsb' 0 11 } } } ∧
    exec (.registerWrite 0x902C 32 v) s =
      .next { s with power := { s.power with staged := { s.power.staged with order := x.getLsbD 0 } } } ∧
    (∀ k, k < 16 → exec (.registerWrite (0x9040 + 4 * k) 32 v) s =
      .next { s with power := { s.power with staged := { s.power.staged with pref := s.power.staged.pref.set k x } } }) ∧
    exec (.registerWrite 0x10010 32 v) s =
      .next { s with rings := { s.rings with staged := { s.rings.staged with sq := s.rings.staged.sq.extractLsb' 32 32 ++ x } } } ∧
    exec (.registerWrite 0x10014 32 v) s =
      .next { s with rings := { s.rings with staged := { s.rings.staged with sq := x ++ s.rings.staged.sq.extractLsb' 0 32 } } } ∧
    exec (.registerWrite 0x10018 32 v) s =
      .next { s with rings := { s.rings with staged := { s.rings.staged with cq := s.rings.staged.cq.extractLsb' 32 32 ++ x } } } ∧
    exec (.registerWrite 0x1001C 32 v) s =
      .next { s with rings := { s.rings with staged := { s.rings.staged with cq := x ++ s.rings.staged.cq.extractLsb' 0 32 } } } ∧
    exec (.registerWrite 0x10020 32 v) s =
      .next { s with rings := { s.rings with staged := { s.rings.staged with eq := s.rings.staged.eq.extractLsb' 32 32 ++ x } } } ∧
    exec (.registerWrite 0x10024 32 v) s =
      .next { s with rings := { s.rings with staged := { s.rings.staged with eq := x ++ s.rings.staged.eq.extractLsb' 0 32 } } } ∧
    exec (.registerWrite 0x10028 32 v) s =
      .next { s with rings := { s.rings with staged := { s.rings.staged with db := s.rings.staged.db.extractLsb' 32 32 ++ x } } } ∧
    exec (.registerWrite 0x1002C 32 v) s =
      .next { s with rings := { s.rings with staged := { s.rings.staged with db := x ++ s.rings.staged.db.extractLsb' 0 32 } } } ∧
    exec (.registerWrite 0x10030 32 v) s =
      .next { s with rings := { s.rings with staged := { s.rings.staged with szSq := x.extractLsb' 0 5, szCq := x.extractLsb' 8 5, szEq := x.extractLsb' 16 5 } } } ∧
    exec (.registerWrite 0x10034 32 v) s =
      .next { s with rings := { s.rings with staged := { s.rings.staged with minUs := x.extractLsb' 0 7, maxUs := x.extractLsb' 8 7 } } } ∧
    exec (.registerWrite 0x10038 32 v) s =
      .next { s with rings := { s.rings with staged := { s.rings.staged with enable := x.getLsbD 0 } } }) ∧
  (∀ (s : State) (v : Word64) (x : BitVec 32), barOpen s = true → x = v.extractLsb' 0 32 →
    exec (.registerWrite 0x6040 32 v) s =
      .next { s with tb := { s.tb with staged := { s.tb.staged with mode := x.getLsbD 0, slewBound := x.extractLsb' 16 9 } } } ∧
    exec (.registerWrite 0x6060 32 v) s =
      .next { s with tb := { s.tb with staged := { s.tb.staged with stepSec := s.tb.staged.stepSec.extractLsb' 32 32 ++ x } } } ∧
    exec (.registerWrite 0x6064 32 v) s =
      .next { s with tb := { s.tb with staged := { s.tb.staged with stepSec := x ++ s.tb.staged.stepSec.extractLsb' 0 32 } } } ∧
    exec (.registerWrite 0x6068 32 v) s =
      .next { s with tb := { s.tb with staged := { s.tb.staged with stepNs := x.extractLsb' 0 30 } } } ∧
    exec (.registerWrite 0x606C 32 v) s =
      .next { s with tb := { s.tb with staged := { s.tb.staged with stepFrac := x } } } ∧
    exec (.registerWrite 0x60A0 32 v) s =
      .next { s with tb := { s.tb with staged := { s.tb.staged with rate := s.tb.staged.rate.extractLsb' 32 32 ++ x } } } ∧
    exec (.registerWrite 0x60A4 32 v) s =
      .next { s with tb := { s.tb with staged := { s.tb.staged with rate := x ++ s.tb.staged.rate.extractLsb' 0 32 } } } ∧
    exec (.registerWrite 0x60C0 32 v) s =
      .next { s with tb := { s.tb with staged := { s.tb.staged with slew := s.tb.staged.slew.extractLsb' 32 32 ++ x } } } ∧
    exec (.registerWrite 0x60C4 32 v) s =
      .next { s with tb := { s.tb with staged := { s.tb.staged with slew := x ++ s.tb.staged.slew.extractLsb' 0 32 } } } ∧
    exec (.registerWrite 0x60E0 32 v) s =
      .next { s with tb := { s.tb with staged := { s.tb.staged with civil := x } } } ∧
    exec (.registerWrite 0x6100 32 v) s =
      .next { s with tb := { s.tb with staged := { s.tb.staged with setDate := (x.extractLsb' 0 23).setWidth 32 } } } ∧
    exec (.registerWrite 0x6104 32 v) s =
      .next { s with tb := { s.tb with staged := { s.tb.staged with setTime := (x.extractLsb' 0 17).setWidth 32 } } } ∧
    (∀ (n : Nat) (o : Tout) (f : ToutCfg → State), n < 4 → o = outOf s.tb n →
      f = (fun c => { s with tb := setOut n { o with staged := c } s.tb }) →
      exec (.registerWrite (0x6200 + 0x40 * n) 32 v) s =
        .next (f { o.staged with mode := x.extractLsb' 0 2, pol := x.getLsbD 2 }) ∧
      exec (.registerWrite (0x6204 + 0x40 * n) 32 v) s =
        .next (f { o.staged with startSec := o.staged.startSec.extractLsb' 32 16 ++ x }) ∧
      exec (.registerWrite (0x6208 + 0x40 * n) 32 v) s =
        .next (f { o.staged with startSec := x.extractLsb' 0 16 ++ o.staged.startSec.extractLsb' 0 32 }) ∧
      exec (.registerWrite (0x620C + 0x40 * n) 32 v) s = .next (f { o.staged with startNs := x.extractLsb' 0 30 }) ∧
      exec (.registerWrite (0x6210 + 0x40 * n) 32 v) s =
        .next (f { o.staged with period := o.staged.period.extractLsb' 32 32 ++ x }) ∧
      exec (.registerWrite (0x6214 + 0x40 * n) 32 v) s =
        .next (f { o.staged with period := x ++ o.staged.period.extractLsb' 0 32 }) ∧
      exec (.registerWrite (0x6218 + 0x40 * n) 32 v) s = .next (f { o.staged with width := x }))) ∧
  (∀ (s : State) (v : Word64), barOpen s = true →
    exec (.registerWrite 0x500C 32 v) s =
      .next { s with bridle := { s.bridle with events := s.bridle.events &&& ~~~(v.extractLsb' 0 8) } } ∧
    exec (.registerWrite 0x6018 32 v) s =
      .next { s with tb := { s.tb with events := s.tb.events &&& ~~~(v.extractLsb' 0 4) } } ∧
    exec (.registerWrite 0x800C 32 v) s =
      .next { s with sec := { s.sec with commitRefused := s.sec.commitRefused && !v.getLsbD 0 } } ∧
    exec (.registerWrite 0x9018 32 v) s =
      .next { s with power := { s.power with events := s.power.events &&& ~~~(v.extractLsb' 0 4) } } ∧
    exec (.registerWrite 0x10070 32 v) s =
      .next { s with rings := { s.rings with events := s.rings.events &&& ~~~(v.extractLsb' 0 3) } } ∧
    (∀ (n : Nat) (o : Tout), n < 4 → o = outOf s.tb n → exec (.registerWrite (0x623C + 0x40 * n) 32 v) s =
      .next { s with tb := setOut n { o with missed := o.missed && !v.getLsbD 2, skipped := o.skipped && !v.getLsbD 3 } s.tb }) ∧
    (∀ (c : Nat) (k : Capture), c < 3 → k = capOf s.tb c → exec (.registerWrite (0x631C + 0x20 * c) 32 v) s =
      .next { s with tb := setCap c { k with overflow := k.overflow && !v.getLsbD 8 } s.tb })) ∧
  (∀ (s : State) (v : Word64), linkUp s = true → exec (.registerWrite 0x804 32 v) s =
    .next { s with boot := { s.boot with
      noValidBank := s.boot.noValidBank && !v.getLsbD 0, bankFallback := s.boot.bankFallback && !v.getLsbD 1,
      potFail := s.boot.potFail && !v.getLsbD 2, stageOverrun := s.boot.stageOverrun && !v.getLsbD 3 } }) ∧
  (∀ (s : State) (v : Word64) (x : BitVec 32), barOpen s = true → x = v.extractLsb' 0 32 →
    exec (.registerWrite 0x8004 32 v) s = .next { s with sec := { s.sec with testAuto := x.getLsbD 0 } } ∧
    exec (.registerWrite 0x8044 32 v) s = .next { s with sec := { s.sec with fsrSel := x } } ∧
    (∀ (c : Nat) (k : Capture), c < 3 → k = capOf s.tb c → exec (.registerWrite (0x6300 + 0x20 * c) 32 v) s =
      .next { s with tb := setCap c { k with edge := x.extractLsb' 0 2, event := x.getLsbD 2 } s.tb }) ∧
    exec (.registerWrite 0x10080 32 v) s = .next { s with rings := { s.rings with vecCq := x.extractLsb' 0 5 } } ∧
    (∀ k, k < 4 → exec (.registerWrite (0x10084 + 4 * k) 32 v) s =
      .next { s with rings := { s.rings with evvec := s.rings.evvec.set k x } }) ∧
    exec (.registerWrite 0xA000 32 v) s = .next { s with det := { s.det with strict := x.getLsbD 0 } } ∧
    exec (.registerWrite 0xF000 32 v) s = .next { s with ldr := { s.ldr with debug := x.getLsbD 0 } }) ∧
  (∀ (s : State) (off : Nat) (v : Word64),
    off ≠ 0x5024 → off ≠ 0x6044 → off ≠ 0x6070 → off ≠ 0x60A8 → off ≠ 0x60C8 → off ≠ 0x60E4 → off ≠ 0x6108 →
    off ≠ 0x621C → off ≠ 0x625C → off ≠ 0x629C → off ≠ 0x62DC → off ≠ 0x8024 → off ≠ 0x9080 → off ≠ 0x1003C →
    ∃ t : State, exec (.registerWrite off 32 v) s = .next t ∧
      t.bridle.committed = s.bridle.committed ∧ t.tb.committed = s.tb.committed ∧
      (∀ n, (outOf t.tb n).committed = (outOf s.tb n).committed) ∧ t.sec.committed = s.sec.committed ∧
      t.power.committed = s.power.committed ∧ t.rings.committed = s.rings.committed ∧ t.job = s.job ∧ t.tiles = s.tiles)

/-- A commit takes the whole staged set or, out of range, leaves the committed set whole and sets its COMMIT_REFUSED.
BRIDLE_COMMIT with a Reel loaded refuses a change of identity or root. SEC_COMMIT wants WATCH_AT from 1 and no larger
than ADVISE_AT, and passes, half-life and intervals from 1. PWR_COMMIT wants the cap within the cap limits, a window
of 1 to 30, a ramp of 20 to 2,000 and preferences of 0 to 48 or 0xFF. HOST_COMMIT wants 4 KiB aligned bases, sizes of
6 to 16 and 1 <= MIN_US <= MAX_US <= 64, no change of a base or size while the rings stay enabled, and no disable while
a job is armed or runs or a store runs; one that enables the rings starts every count at 0. -/
def Obligations.BlockCommitsAreAtomic : Prop :=
  (∀ (s : State) (v : Word32), barOpen s = true → bit v 0 = true →
    (s.bridle.staged.id = s.bridle.committed.id ∧ s.bridle.staged.idValid = s.bridle.committed.idValid ∧
      s.bridle.staged.root = s.bridle.committed.root) →
    ∃ t : State, exec (.bridleCommit v) s = .next t ∧ changesOnly [.bridle] s t ∧ t.bridle.committed = s.bridle.staged ∧
      t.bridle.st = s.bridle.st ∧ t.bridle.count = s.bridle.count) ∧
  (∀ (s : State) (v : Word32), barOpen s = true → bit v 0 = true → s.reel = none →
    (s.bridle.staged.id ≠ s.bridle.committed.id ∨ s.bridle.staged.idValid ≠ s.bridle.committed.idValid ∨
      s.bridle.staged.root ≠ s.bridle.committed.root) →
    ∃ t : State, exec (.bridleCommit v) s = .next t ∧ changesOnly [.bridle, .ports] s t ∧
      t.bridle.committed = s.bridle.staged ∧ t.bridle.count = s.bridle.count) ∧
  (∀ (s : State) (v : Word32), barOpen s = true → bit v 0 = true → s.reel.isSome = true →
    (s.bridle.staged.id ≠ s.bridle.committed.id ∨ s.bridle.staged.idValid ≠ s.bridle.committed.idValid ∨
      s.bridle.staged.root ≠ s.bridle.committed.root) →
    exec (.bridleCommit v) s = .next { s with bridle := { s.bridle with events := s.bridle.events ||| 16 } }) ∧
  (∀ (s : State) (v : Word32) (c : SecCfg), barOpen s = true → bit v 0 = true → c = s.sec.staged →
    exec (.secCommit v) s = .next { s with sec :=
      if 1 ≤ c.tileWatch.toNat ∧ c.tileWatch.toNat ≤ c.tileAdvise.toNat ∧ 1 ≤ c.portWatch.toNat ∧
          c.portWatch.toNat ≤ c.portAdvise.toNat ∧ 1 ≤ c.stackWatch.toNat ∧ c.stackWatch.toNat ≤ c.stackAdvise.toNat ∧
          1 ≤ c.watchPasses.toNat ∧ 1 ≤ c.scoreHalfH.toNat ∧ 1 ≤ c.stressActive.toNat ∧ 1 ≤ c.stressWatch.toNat then
        { s.sec with committed := c }
      else { s.sec with commitRefused := true } }) ∧
  (∀ (s : State) (v : Word32) (c : PwrCfg), barOpen s = true → bit v 0 = true → c = s.power.staged →
    ((s.store.set.capMin ≤ c.cap.toNat ∧ c.cap.toNat ≤ s.store.set.capMax ∧ 1 ≤ c.window.toNat ∧ c.window.toNat ≤ 30 ∧
      20 ≤ c.ramp.toNat ∧ c.ramp.toNat ≤ 2000 ∧
      (∀ w ∈ c.pref, ∀ k < 4, (w.extractLsb' (8 * k) 8).toNat ≤ 48 ∨ w.extractLsb' (8 * k) 8 = 0xFF#8)) →
      exec (.pwrCommit v) s = .next { s with power := { s.power with committed := c } }) ∧
    (¬ (s.store.set.capMin ≤ c.cap.toNat ∧ c.cap.toNat ≤ s.store.set.capMax ∧ 1 ≤ c.window.toNat ∧ c.window.toNat ≤ 30 ∧
      20 ≤ c.ramp.toNat ∧ c.ramp.toNat ≤ 2000 ∧
      (∀ w ∈ c.pref, ∀ k < 4, (w.extractLsb' (8 * k) 8).toNat ≤ 48 ∨ w.extractLsb' (8 * k) 8 = 0xFF#8)) →
      exec (.pwrCommit v) s = .next { s with power := { s.power with events := s.power.events ||| 1 } })) ∧
  (∀ (s : State) (v : Word32) (c o : HostCfg) (ok : Prop), barOpen s = true → bit v 0 = true → c = s.rings.staged →
    o = s.rings.committed →
    (ok ↔ (c.sq.toNat % 4096 = 0 ∧ c.cq.toNat % 4096 = 0 ∧ c.eq.toNat % 4096 = 0 ∧ c.db.toNat % 4096 = 0 ∧
      6 ≤ c.szSq.toNat ∧ c.szSq.toNat ≤ 16 ∧ 6 ≤ c.szCq.toNat ∧ c.szCq.toNat ≤ 16 ∧ 6 ≤ c.szEq.toNat ∧ c.szEq.toNat ≤ 16 ∧
      1 ≤ c.minUs.toNat ∧ c.minUs.toNat ≤ c.maxUs.toNat ∧ c.maxUs.toNat ≤ 64 ∧
      (o.enable = true → c.enable = true → c.sq = o.sq ∧ c.cq = o.cq ∧ c.eq = o.eq ∧ c.db = o.db ∧ c.szSq = o.szSq ∧
        c.szCq = o.szCq ∧ c.szEq = o.szEq) ∧
      (c.enable = false → jobBusy s = false ∧ s.store.run = none))) →
    (ok → c.enable = true → o.enable = false →
      ∃ t : State, exec (.hostCommit v) s = .next t ∧ changesOnly [.ringRegs, .ringOut, .host] s t ∧ t.rings.committed = c ∧
        t.rings.sqHead = 0 ∧ t.rings.cqHead = 0 ∧ t.rings.eqTail = 0 ∧ t.rings.eqHead = 0 ∧ t.rings.eqLost = 0 ∧
        t.rings.heartbeat = 0 ∧ t.rings.seq = 0 ∧ t.rings.pollUs = c.minUs.toNat ∧
        (s.rings.due = [] → t.rings.cqTail = 0 ∧ hostBut [(c.db.toNat + 0x40, 24)] s t)) ∧
    (ok → ¬ (c.enable = true ∧ o.enable = false) →
      exec (.hostCommit v) s = .next { s with rings := { s.rings with committed := c } }) ∧
    (¬ ok → exec (.hostCommit v) s = .next { s with rings := { s.rings with events := s.rings.events ||| 1 } }))

/-- A write of FAB_RETRAIN marks each populated port whose bit is 1 for full training and leaves every other port as it
was. In a ready package that is not stopped, a port in service that no loaded Reel uses leaves the trained state at
once and sends WAKE; one that the Reel uses keeps its state until the unload. A populated port that sends WAKE and
that no loaded Reel uses begins TRAINING; a port that the Reel uses does not. Training ends, with no Reel loaded, in
MEASURING with the identities and the round trip exchanged and frames on the wire, or after its time in FAILED, which
counts and scores one training failure and from which the port sends WAKE again. In MEASURING of a SYNCED package the
measured latency gives the smallest class from 1 to 4 that holds it (0 above 128 ns), and the port is TRAINED. No
other port and no other part changes. On the wire NOT_READY repeats 0x5A3CC3A5 and WAKE 0x66CC3399, at the outer levels; a
port in TRAINING sends the package's identity, 0x7FF for a Bridle identity not assigned; a FAILED port is dark; a stopped
package's trained port sends STOPPED blocks. -/
def Obligations.LinksTrain : Prop :=
  (∀ (s : State) (p : Nat),
    ((portOf s p).sends = .notReady → onWire s p = .pattern 0x5A3CC3A5) ∧
    ((portOf s p).sends = .wake → onWire s p = .pattern 0x66CC3399) ∧
    ((portOf s p).sends = .stopped → ∃ n, onWire s p = .blocks (List.replicate n (controlBlock 0x55)))) ∧
  (∀ (w : BitVec 32) (n : Nat), patternLevel w n = if w.getLsbD (n % 32) then 3 else -3) ∧
  (∀ (s : State) (hi : Bool) (v : Word32), barOpen s = true →
    ∃ t : State, exec (.fabRetrain hi v) s = .next t ∧ changesOnly [.ports] s t ∧
      (∀ p, p / 32 ≠ (if hi then 1 else 0) → portOf t p = portOf s p) ∧
      ∀ k p, k < 32 → p = (if hi then 32 else 0) + k →
        (v.getLsbD k = false ∨ portPop s p = false → portOf t p = portOf s p) ∧
        (v.getLsbD k = true → portPop s p = true → (portOf t p).retrain = true) ∧
        (v.getLsbD k = true → portPop s p = true → reelPort s p = true →
          portOf t p = { portOf s p with retrain := true }) ∧
        (v.getLsbD k = true → portPop s p = true → reelPort s p = false → s.boot.stage = .ready → s.stop.stopped = false →
          lrefOn s (p / 16) = true → unitSt s (1024 + p) = .active ∨ unitSt s (1024 + p) = .watch →
          (portOf t p).st = .absent ∧ (portOf t p).sends = .wake)) ∧
  ((∀ (s : State) (p : Nat), portPop s p = true → isReady s = true → (portOf s p).sends = .wake →
    (reelPort s p = true → exec (.trainingStart p) s = .next s) ∧
    (reelPort s p = false → (portOf s p).trainDue = false →
      ∃ t : State, exec (.trainingStart p) s = .next t ∧ changesOnly [.ports] s t ∧ portsBut p s t ∧
        (portOf t p).st = .training ∧ (portOf t p).sends = .train ∧ (portOf t p).staged = [] ∧
        (portOf t p).retrain = false ∧ onWire t p = .training (identityBlocks s p) ∧
        identitySent s p = (s.ident.serial, BitVec.ofNat 6 p, s.ident.slotId,
          if s.bridle.committed.idValid then s.bridle.committed.id else 0x7FF))) ∧
  (∀ (s : State) (p : Nat) (x : TrainInfo), portPop s p = true → (portOf s p).st = .training → s.reel = none →
    ∃ t : State, exec (.trainingDone p x) s = .next t ∧ changesOnly [.ports] s t ∧ portsBut p s t ∧
      (portOf t p).st = .measuring ∧ (portOf t p).sends = .frames ∧ (portOf t p).cls = 0 ∧
      (portOf t p).farSerial = x.serial ∧ (portOf t p).farPort = x.port ∧ (portOf t p).farSlot = x.slotId ∧
      (portOf t p).farBridle = x.bridle ∧ (portOf t p).rttPs = x.rttPs ∧ (portOf t p).relocks = (portOf s p).relocks) ∧
  (∀ (s : State) (p : Nat), portPop s p = true → (portOf s p).st = .training →
    ∃ t : State, exec (.trainingTimeout p) s = .next t ∧ changesOnly (.ports :: moves) s t ∧
      (healthOf t (1024 + p)).c5 = min ((healthOf s (1024 + p)).c5 + 1) (2 ^ 32 - 1) ∧
      (healthOf t (1024 + p)).score = min 255 ((healthOf s (1024 + p)).score + 1) ∧
      (s.reel = none → portsBut p s t ∧ (portOf t p).st = .failed ∧ (portOf t p).sends = .none ∧ onWire t p = .dark)) ∧
  (∀ (s : State) (p : Nat), portPop s p = true → (portOf s p).st = .failed →
    ∃ t : State, exec (.trainingRetry p) s = .next t ∧ changesOnly [.ports] s t ∧ portsBut p s t ∧
      (isReady s = true → s.stop.stopped = false → lrefOn s (p / 16) = true →
        unitSt s (1024 + p) = .active ∨ unitSt s (1024 + p) = .watch →
        (portOf t p).st = .absent ∧ (portOf t p).sends = .wake ∧ onWire t p = .pattern 0x66CC3399)) ∧
  (∀ (s : State) (p : Nat) (x : MeasureInfo), portPop s p = true → (portOf s p).st = .measuring →
    (s.bridle.st ≠ .synced → exec (.measuringDone p x) s = .next s) ∧
    (s.bridle.st = .synced →
      ∃ t k, exec (.measuringDone p x) s = .next t ∧ changesOnly [.ports] s t ∧ portsBut p s t ∧
        portOf t p = { portOf s p with st := .trained, wirePs := x.ps, cls := k, quadMw := x.quadMw, xpMw := x.xpMw } ∧
        (128000 < x.ps → k = 0) ∧
        (x.ps ≤ 128000 → 1 ≤ k ∧ k ≤ 4 ∧ x.ps ≤ 32000 * k ∧ (1 < k → 32000 * (k - 1) < x.ps)))))

/-- BAR2 resets to 1 GiB (16,384 panels of 64 KiB), size code 10. With the host link up and every panel FREE, a resize to
2^k times 64 MiB, k from 0 to 10, sets the size, and the Resizable BAR control register then reads size code 6 + k. With
any panel not FREE, with the link down, or at another size, everything stays. Which sizes there are and that the link must
be up are log 48, the size code (the logarithm of the size in MiB) log 77. -/
def Obligations.BarTwoResizesWhileFree : Prop :=
  (State.reset.window.size * 65536 = 2 ^ 30 ∧ rebarCode State.reset = 10) ∧
  (∀ (s : State) (k : Nat), linkUp s = true → (∀ x ∈ s.window.panels, x.2.st = .free) → k ≤ 10 →
    ∃ t : State, exec (.bar2Resize (1024 * 2 ^ k)) s = .next t ∧
      t = { s with window := { s.window with size := 1024 * 2 ^ k } } ∧ rebarCode t = 6 + k) ∧
  (∀ (s : State) (n : Nat), linkUp s = false ∨ (∀ k, k ≤ 10 → n ≠ 1024 * 2 ^ k) → exec (.bar2Resize n) s = .next s) ∧
  (∀ (s : State) (n p : Nat), (panelOf s p).st ≠ .free → exec (.bar2Resize n) s = .next s)

/-- With the host link up, an access within one panel inside BAR2: a read of a HOST, DEVICE or MOVING panel returns the
bytes of its backing, a read of a FREE panel returns zeros, and a read changes nothing else. A write to a HOST panel
puts its bytes on the backing and changes no other byte of host memory; a write to a FREE, DEVICE or MOVING panel
writes nothing and adds 1 to BAR2_DROPPED (while below 65,535). -/
def Obligations.BarTwoAccessesFollowThePanel : Prop :=
  (∀ (s : State) (p o n : Nat), linkUp s = true → p < s.window.size → o + n ≤ 65536 →
    ∃ t : State, exec (.bar2Access (.read (65536 * p + o) n)) s = .next t ∧ changesOnly [.out] s t ∧
      ((panelOf s p).st ≠ .free → t.out.bytes = readBytes (hostMem s) ((panelOf s p).backing + o) n) ∧
      ((panelOf s p).st = .free → t.out.bytes = List.replicate n 0)) ∧
  (∀ (s : State) (p o : Nat) (bs : List Byte), linkUp s = true → p < s.window.size → o + bs.length ≤ 65536 →
    (panelOf s p).st = .host →
    ∃ t : State, exec (.bar2Access (.write (65536 * p + o) bs)) s = .next t ∧ changesOnly [.host] s t ∧
      readBytes (hostMem t) ((panelOf s p).backing + o) bs.length = bs ∧
      hostBut [((panelOf s p).backing + o, bs.length)] s t) ∧
  (∀ (s : State) (p o : Nat) (bs : List Byte), linkUp s = true → p < s.window.size → o + bs.length ≤ 65536 →
    bs ≠ [] → (panelOf s p).st ≠ .host →
    ∃ t : State, exec (.bar2Access (.write (65536 * p + o) bs)) s = .next t ∧ changesOnly [.ringRegs] s t ∧
      (s.rings.dropped < 65535 → t.rings.dropped = s.rings.dropped + 1))

/-- While the pacer runs, a slot boundary raises the count by exactly 1, keeps the Vent level, and moves the pacer phase
by at most 4 steps. A running job whose step is not sealed goes on to the next slot of the same step and attempt; a
job sealed in the slot that ended, not held by a notice, with a step to come and theta within 1 ns of its parent,
begins slot 0 of the next step's first attempt with the pattern and phase the Reel gives it, and a window's test whose
pattern does not cover its unit ends, the held kernels of an ACTIVE unit that passed changing nothing (log 43). A unit whose
score has reached WATCH_AT by a detection of the slot enters WATCH with the slot's end (log 75). While the pacer is halted
nothing changes. A port's frame is on the wire as SLOT_START, nine data blocks for each occupied position in ascending order,
the four TAIL blocks, then IDLE blocks, one of them a LANE_MARK exactly when the count is a multiple of 64. A block's flag and bytes
read back, block k of a codeword fills its message bits from 257k, symbol k goes to lane k mod 4, and the values 0, 1, 3, 2 are the
levels -3, -1, +1, +3. -/
def Obligations.CountRisesAtEachBoundary : Prop :=
  (∀ s : State, s.pacer.running = true →
    ∃ t : State, exec .slotBoundary s = .next t ∧ t.bridle.count = s.bridle.count + 1 ∧ t.pacer.running = true ∧
      t.pacer.vent = s.pacer.vent ∧ (t.pacer.trims - s.pacer.trims).natAbs ≤ 4 ∧ t.reel = s.reel ∧ t.mems = s.mems ∧
      t.tb = s.tb ∧ t.window.panels = s.window.panels ∧
      (running s = false → movers s = [] → changesOnly [.bridle, .pacer, .ports, .power, .transits, .localq] s t) ∧
      (running s = false →
        changesOnly (([.bridle, .pacer, .ports, .power, .transits, .localq, .tiles] : List Part) ++ moves) s t)) ∧
  (∀ (s : State) (u c : Nat), s.pacer.running = true → running s = false ∨ s.job.sealed_ = none → movers s = [u] →
    (tileOf s u).moves = [c] → unitSt s u = .active → watchAt s u ≤ (healthOf s u).score →
    ∃ t : State, exec .slotBoundary s = .next t ∧ unitSt t u = .watch ∧
      (∀ v, v ≠ u → unitEntry t v = unitEntry s v)) ∧
  (∀ (s : State) (r : Reel), s.pacer.running = true → running s = true → s.reel = some r → s.job.sealed_ = none →
    ∃ t : State, exec .slotBoundary s = .next t ∧
      t.job.slot = s.job.slot + 1 ∧ t.job.step = s.job.step ∧ t.job.attempt = s.job.attempt ∧ t.job.pattern = s.job.pattern) ∧
  (∀ (s : State) (r : Reel) (x : Sealed) (pat ph : Nat), s.pacer.running = true → running s = true → s.reel = some r →
    s.job.sealed_ = some x → x.step = s.job.step → x.at_ = s.bridle.count → x.step < stepTotal r →
    s.job.faulted = false → s.job.notice = none → stepPlan r (s.job.step + 1) = some (pat, ph) →
    (∀ p d, s.bridle.parent = some p → theta2Of s p = some d → d.natAbs ≤ 2000) →
    ∃ t : State, exec .slotBoundary s = .next t ∧
      t.job.step = s.job.step + 1 ∧ t.job.attempt = 1 ∧ t.job.slot = 0 ∧ t.job.pattern = pat ∧ t.job.phase = ph ∧
      (∀ w, s.sec.test = some w → w.by_ = .window → windowCovers r w.unit pat = false → t.sec.test = none ∧
        (movers s = [] → unitSt s w.unit = .active → (∀ y ∈ w.held, y.2.2 = .pass) →
          t.store.set.units = s.store.set.units ∧ (healthOf t w.unit).lastTest = (healthOf s w.unit).lastTest))) ∧
  ((∀ s : State, s.pacer.running = false → exec .slotBoundary s = .next s) ∧
  (∀ (s : State) (p : Nat) (f : TxFrame), (portOf s p).sends = .frames → (portOf s p).sent = some f →
    ∃ l : List Block, onWire s p = .blocks (controlBlock f.slotStart :: (inOrder f).flatMap parcelBlocks ++ tailBlocks f.tail ++ l) ∧
      (∀ b ∈ l, b = idleBlock ∨ b = laneMark) ∧ (l ≠ [] → (laneMark ∈ l ↔ s.bridle.count % 64 = 0))) ∧
  (∀ x : EnvBits, isData (dataBlock x) = true ∧ isData (controlBlock x) = false ∧ blockBytes (dataBlock x) = x ∧
    blockBytes (controlBlock x) = x) ∧
  (∀ (x : BitVec 2304) (k : Nat), k < 9 → ((parcelBlocks x)[k]?).map blockBytes = some (x.extractLsb' (256 * k) 256)) ∧
  (∀ (bs : List Block) (k : Nat) (b : Block), k < 20 → bs[k]? = some b → (message bs).extractLsb' (257 * k) 257 = b) ∧
  (∀ (c : BitVec 5440) (k : Nat), k < 544 → (laneSymbols c (k % 4))[k / 4]? = some (c.extractLsb' (10 * k) 10)) ∧
  ([0, 1, 3, 2].map (fun v => levelAt (grayPlace v)) = [-3, -1, 1, 3]))

/-- A package that aligns to an adopted count enters SYNCED after 1,024 quiet slots with its count kept; a root that
aligned to its own count keeps no parent. In ACQUIRING and with no job running, COUNT_ADOPT sets the count to the
parent's plus half the round trip in slots of the parent's level, takes and records that level, drops a notice and a
decision and disarms an armed launch; while a job runs it changes no count and the job faults. A root whose ports have
all been heard and that finds no neighbour with its count loads BRIDLE_SEED as its count and is SYNCED with no parent
and 0 hops, the apply-at counts it heard before forgotten (the model's choice, log 36, as is which neighbour's count a root
looks for). -/
def Obligations.SynchronisationIsTakenAndKept : Prop :=
  (∀ (s : State) (p : Nat), s.pacer.running = true → s.bridle.st = .acquiring → s.bridle.parent = some p →
    s.bridle.adopted = true → 1024 ≤ s.bridle.quiet →
    ∃ t : State, exec .syncedEntry s = .next t ∧ changesOnly [.bridle] s t ∧ t.bridle.st = .synced ∧
      t.bridle.count = s.bridle.count ∧
      (s.bridle.committed.root = true ∧ s.bridle.rootId = s.bridle.committed.id →
        t.bridle.parent = none ∧ t.bridle.hops = 0) ∧
      (¬ (s.bridle.committed.root = true ∧ s.bridle.rootId = s.bridle.committed.id) →
        t.bridle.parent = some p ∧ t.bridle.hops = s.bridle.hops)) ∧
  (∀ (s : State) (c p l n : Nat), s.pacer.running = true → s.bridle.st = .acquiring → s.bridle.adopted = false →
    s.bridle.parent = some p → running s = false → l = parentLevel s p →
    n = c + (portOf s p).rttPs * (64 - l) / (2 * 64 * 32000) →
    ∃ t : State, exec (.countAdopt c) s = .next t ∧ t.bridle.count = n ∧ t.bridle.adopted = true ∧ t.bridle.st = .acquiring ∧
      t.bridle.parent = some p ∧ t.pacer.vent = l ∧ (n, l) ∈ t.pacer.hist ∧ t.job.st = .idle ∧ t.job.notice = none ∧
      t.power.decision = none ∧ changesOnly (([.bridle, .pacer] : List Part) ++ jobEnds) s t ∧
      (armed s = false → changesOnly [.bridle, .pacer, .ports, .job, .power] s t)) ∧
  (∀ (s : State) (c p : Nat), s.pacer.running = true → s.bridle.st = .acquiring → s.bridle.adopted = false →
    s.bridle.parent = some p → running s = true →
    ∃ t : State, exec (.countAdopt c) s = .next t ∧ t.job.faulted = true ∧ changesOnly [.job, .settings, .test] s t) ∧
  (∀ s : State, s.pacer.running = true → s.bridle.st = .unsynced → s.bridle.committed.root = true →
    s.bridle.committed.idValid = true → idClash s = false → rootClash s = false → ownCandidate s = none →
    (∀ p, p < portCount s → (portOf s p).st ≠ .training ∧ (portUp (portOf s p) = true → (portOf s p).tailSeen = true)) →
    ∃ t : State, exec .rootSeedLoad s = .next t ∧ changesOnly [.bridle, .pacer, .power] s t ∧
      t.power = { s.power with heard := [] } ∧
      t.bridle.count = s.bridle.committed.seed.toNat ∧ t.bridle.st = .synced ∧ t.bridle.parent = none ∧
      t.bridle.hops = 0 ∧ t.pacer.vent = s.pacer.vent) ∧
  (∀ (s : State) (p : Nat), p < portCount s → (portOf s p).st = .training → exec .rootSeedLoad s = .next s)

/-- A follower whose parent port has left MEASURING and TRAINED takes the first candidate: SYNCED, it keeps its count when
theta to it is at most 1 ns and goes to ACQUIRING otherwise (outside a job); with no candidate a SYNCED follower
enters HOLDOVER with its count, or is UNSYNCED where every neighbour it may follow would put its hops past 15, a running job
then faulting with BRIDLE_SYNC_LOST. In
HOLDOVER each boundary counts and trims by the average of the last trims (a free value, log 36). HOLDOVER that lasts 1 ms in a job raises BRIDLE_SYNC_LOST. At the count of an armed
mark the part captures the time base, disarms the mark, sets MARK_FIRED and posts an event. -/
def Obligations.ParentLossAndHoldover : Prop :=
  (∀ (s : State) (p : Nat), s.pacer.running = true → s.bridle.parent = some p → portUp (portOf s p) = false →
    s.bridle.committed.idValid = true → s.bridle.committed.root = false → idClash s = false →
    (allTooFar s = true → s.bridle.st = .synced →
      ∃ t : State, exec .parentLost s = .next t ∧ changesOnly [.bridle, .ports, .job, .settings, .test] s t ∧
        t.bridle.st = .unsynced ∧ t.bridle.parent = none ∧ t.bridle.count = s.bridle.count ∧
        (running s = false → changesOnly [.bridle, .ports] s t) ∧
        (running s = true → s.job.ownFault = none → t.job.faulted = true ∧
          (t.job.ownFault.map (fun l => (l.code, l.unit))) = some (0x0701#16, 0xC000#16))) ∧
    (firstParent (candidates s) = none → allTooFar s = false → s.bridle.st = .synced →
      ∃ t : State, exec .parentLost s = .next t ∧ changesOnly [.bridle] s t ∧ t.bridle.st = .holdover ∧ t.bridle.parent = none ∧
        t.bridle.count = s.bridle.count ∧ t.bridle.events = s.bridle.events ||| 1) ∧
    (∀ x, firstParent (candidates s) = some x → x.1 ≠ p → s.bridle.st = .synced → closeTo s x.1 = true →
      ∃ t : State, exec .parentLost s = .next t ∧ changesOnly [.bridle] s t ∧ t.bridle.st = .synced ∧
        t.bridle.parent = some x.1 ∧ t.bridle.hops = tHops x.2 + 1 ∧ t.bridle.rootId = tRoot x.2 ∧
        t.bridle.count = s.bridle.count) ∧
    (∀ x, firstParent (candidates s) = some x → x.1 ≠ p → s.bridle.st = .synced → closeTo s x.1 = false →
      running s = false →
      ∃ t : State, exec .parentLost s = .next t ∧ changesOnly [.bridle] s t ∧ t.bridle.st = .acquiring ∧
        t.bridle.parent = some x.1 ∧ t.bridle.count = s.bridle.count)) ∧
  (∀ s : State, s.pacer.running = true → s.bridle.st = .holdover → s.bridle.parent = none →
    ∃ t : State, exec .slotBoundary s = .next t ∧ t.bridle.count = s.bridle.count + 1 ∧
      t.pacer.trims = s.pacer.trims + max (-4) (min 4 (Config.averagedTrim s.bridle.trimmed))) ∧
  (∀ s : State, s.bridle.st = .holdover → running s = true → s.job.ownFault = none →
    ∃ t : State, exec .holdoverTimeout s = .next t ∧ t.job.faulted = true ∧
      (t.job.ownFault.map (fun l => (l.code, l.unit))) = some (0x0701#16, 0xC000#16) ∧
      changesOnly [.job, .settings, .test] s t) ∧
  (∀ s : State, s.pacer.running = true → s.bridle.markArmed = true → s.bridle.committed.mark.toNat = s.bridle.count →
    ∃ t : State, exec .bridleMarkFire s = .next t ∧ changesOnly (.bridle :: posts) s t ∧
      t.bridle = { s.bridle with markArmed := false, markSec := s.tb.sec, markNs := s.tb.ns,
                                 events := s.bridle.events ||| 4 } ∧
      t.rings.seq = nextSeq s.rings.seq)

/-- For the one transmit entry of a line die's next slot, the gather moves the parcel from its outbox to the port's
staging, or stages a LATE marker where the tile has not made it (outside debug mode). A frame with one DATA parcel
that matches the one receive entry of the slot, on a trained job port of a synchronised root, places the payload in
the empty inbox entry, adds 1 to the event input and to the provisional count of delivered parcels, and touches no
other tile. A frame outside a job touches no tile and counts its corrected codewords. A frame whose tail was not
decoded in time faults a running job on any port with a class, the Reel's or a measured one; on another port it is dropped. -/
def Obligations.ParcelsAreGatheredAndDelivered : Prop :=
  (∀ (s : State) (n p k : Nat) (r : Reel) (ph pat sl : Nat) (e : BitVec 256) (q : Rec128),
    s.pacer.running = true → n < s.ident.lineDies → gatherPlan s = some (r, ph, pat, sl) → r.debug = false → p / 16 = n →
    txEntries r p ph pat sl = [e] → (∀ j, j / 16 = n → j ≠ p → txEntries r j ph pat sl = []) → xKind e = 0 →
    routeAt r (xUnit e) ph (xRoute e) = some q →
    (∀ x, outboxPlace (tileOf s (xUnit e)) (xRoute e) (xPidx e) = some k →
      find? k (tileOf s (xUnit e)).outbox = some x →
      ∃ t : State, exec (.crosspointGather n) s = .next t ∧ changesOnly [.tiles, .ports] s t ∧ tilesBut (xUnit e) s t ∧
        portsBut p s t ∧ (portOf t p).staged = (portOf s p).staged ++
          [{ pos := xPos e, parcel := parcelOf s q x, prov := x.prov,
             src := if x.prov then some (xUnit e, x.line) else none }] ∧
        (tileOf t (xUnit e)).outbox = erase k (tileOf s (xUnit e)).outbox) ∧
    (outboxPlace (tileOf s (xUnit e)) (xRoute e) (xPidx e) = none →
      ∃ t : State, exec (.crosspointGather n) s = .next t ∧ changesOnly [.ports] s t ∧ portsBut p s t ∧
        (portOf t p).staged = (portOf s p).staged ++
          [{ pos := xPos e, parcel := neverMade s q (xPidx e), prov := false, src := none }])) ∧
  (∀ (s : State) (p k : Nat) (f : Frame) (r : Reel) (tl : BitVec 992) (x : EnvBits) (y : BitVec 2304) (e : BitVec 256),
    s.pacer.running = true → portPop s p = true → (portOf s p).st = .trained → running s = true → s.reel = some r →
    reelPort s p = true → haltedJob s = false → s.job.notice = none → s.job.rewound + padClass s p ≤ cnt s →
    s.bridle.st = .synced → s.bridle.parent = none → s.bridle.committed.root = true → s.bridle.committed.idValid = true →
    (∀ j l, (j = p ∧ l = tl) ∨ (j ≠ p ∧ portUp (portOf s j) = true ∧ (portOf s j).tail = some l) →
      (tIdValid l = true → tOwn l ≠ selfId s) ∧ (advertises l = true → (selfId s).toNat ≤ (tRoot l).toNat)) →
    f.late = false → f.tail = some tl → tailOk tl = true → tCount tl + padClass s p = cnt s → tNotice tl = none →
    tDecision tl = none → f.slotStart = some x → slotStartOk x = true → ssJobTag x = tagNow s → marked x = [k] →
    parcelAt f k = some y → parcelOk y = true → pType y = 1 → pConfValid y = false → pBlock y = false →
    expected s p = [e] → xPos e = k → xKind e = 0 → xUnit e < 1024 → misrouted s p e y = false →
    confirmDue s (portOf s p) = none → find? (xEntry e) (tileOf s (xUnit e)).inbox = none →
    eventOf (tileOf s (xUnit e)) (xEvent e) < 255 →
    ∃ t : State, exec (.frameDelivery p f) s = .next t ∧ tilesBut (xUnit e) s t ∧ t.job = s.job ∧
      find? (xEntry e) (tileOf t (xUnit e)).inbox = some
        { late := false, at_ := cnt s, data := pPayload y, side := sideOf (pPayload y),
          pdue := if pProv y then s.job.slot + 2 else 0 } ∧
      eventOf (tileOf t (xUnit e)) (xEvent e) = eventOf (tileOf s (xUnit e)) (xEvent e) + 1 ∧
      t.work = { s.work with parcelsProv := s.work.parcelsProv + 1 }) ∧
  (∀ (s : State) (p : Nat) (f : Frame), s.pacer.running = true → portPop s p = true → framing (portOf s p) = true →
    running s = false → f.late = false →
    ∃ t : State, exec (.frameDelivery p f) s = .next t ∧ t.tiles = s.tiles ∧ t.job = s.job ∧ t.work = s.work ∧
      t.sec.totals.fecCorr = s.sec.totals.fecCorr + f.corrected) ∧
  (∀ (s : State) (p : Nat) (f : Frame), s.pacer.running = true → portPop s p = true → framing (portOf s p) = true →
    running s = true → f.late = true →
    ∃ t : State, exec (.frameDelivery p f) s = .next t ∧ t.tiles = s.tiles ∧
      (reelPort s p = true ∨ (portOf s p).cls ≠ 0 → t.job.faulted = true) ∧
      (reelPort s p = false → (portOf s p).cls = 0 → t.job = s.job))

/-- A legal word of a tile that may issue, in its slot, is taken from the sequencer and is in flight up to its issue token
plus its duration less 1. It will write exactly the lines of its destination; at the issue the Pocket, the queues, the
flags and every other tile stay as they were, and so does the rest of the package, but that a VCVT draws from the
entropy source. ESIG names its destination and input; RDFLG carries the flag word in byte 0 with zeros behind it and
will clear the flags; EXIT_IF whose test is true leaves only the C word to issue. The results of the engines, element by
element with the flags of every element: MVD and MVS chain fused multiply-adds over the row from the old y; MMH and MMQ add
groups of 8 and 16 products to the old C, rounding once a group; MMI saturates the old C and 128 products once; VFMA, VADD,
VMUL, VMAX and VMIN work element by element; VCVT converts as many elements as the narrower page holds and leaves zeros
behind them; VRED sums by the binary tree, in an integer format exactly with one saturation, and leaves zeros behind. -/
def Obligations.PlainWordsIssue : Prop :=
  ∀ (s : State) (u : Nat) (r : Reel) (w : Rec128) (rest : List Rec128),
    (readyToIssue s u r w rest 0x00 → issues (.nop u) [.tiles] s u r w rest 0x00) ∧
    (readyToIssue s u r w rest 0x02 → issues (.esig u) [.tiles] s u r w rest 0x02 ∧
      ∃ t f, exec (.esig u) s = .next t ∧ (tileOf t u).flight = some f ∧ f.effect = .signal (wDst w) (wAux w)) ∧
    (readyToIssue s u r w rest 0x03 → issues (.rdflg u) [.tiles] s u r w rest 0x03 ∧
      ∃ t f, exec (.rdflg u) s = .next t ∧ (tileOf t u).flight = some f ∧ f.effect = .clearFlags ∧
        resultNat f = (tileOf s u).flags.toNat) ∧
    (readyToIssue s u r w rest 0x04 → exitTaken (tileOf s u) w = false →
      issues (.exitIf u) [.tiles] s u r w rest 0x04) ∧
    (readyToIssue s u r w rest 0x04 → exitTaken (tileOf s u) w = true →
      issues (.exitIf u) [.tiles] s u r w (rest.filter wC) 0x04 ∧
      ∃ t : State, exec (.exitIf u) s = .next t ∧ (tileOf t u).exited = true) ∧
    (readyToIssue s u r w rest 0x20 → issues (.mvd u) [.tiles] s u r w rest 0x20) ∧
    (readyToIssue s u r w rest 0x21 → issues (.mvs u) [.tiles] s u r w rest 0x21) ∧
    (readyToIssue s u r w rest 0x22 → issues (.mmh u) [.tiles] s u r w rest 0x22) ∧
    (readyToIssue s u r w rest 0x23 → issues (.mmq u) [.tiles] s u r w rest 0x23) ∧
    (readyToIssue s u r w rest 0x24 → issues (.mmi u) [.tiles] s u r w rest 0x24) ∧
    (readyToIssue s u r w rest 0x30 → issues (.vfma u) [.tiles] s u r w rest 0x30) ∧
    (readyToIssue s u r w rest 0x31 → issues (.vadd u) [.tiles] s u r w rest 0x31) ∧
    (readyToIssue s u r w rest 0x32 → issues (.vmul u) [.tiles] s u r w rest 0x32) ∧
    (readyToIssue s u r w rest 0x33 → issues (.vmax u) [.tiles] s u r w rest 0x33) ∧
    (readyToIssue s u r w rest 0x34 → issues (.vmin u) [.tiles] s u r w rest 0x34) ∧
    (readyToIssue s u r w rest 0x35 → issues (.vcvt u) [.tiles, .entropy] s u r w rest 0x35 ∧
      (wRnd w ≠ 4 → issues (.vcvt u) [.tiles] s u r w rest 0x35)) ∧
    (readyToIssue s u r w rest 0x36 → issues (.vred u) [.tiles] s u r w rest 0x36) ∧
    (readyToIssue s u r w rest 0x37 → issues (.vcpy u) [.tiles] s u r w rest 0x37) ∧
    (∀ (m : Nat) (rd : Nat), m = 64 → rd = wRnd w →
      (∀ A x y, A = operand (tileOf s u) (.page 8) (wSrcA w) → x = operand (tileOf s u) (.line 2) (wSrcB w) →
        y = operand (tileOf s u) (.line 2) (wDst w) → readyToIssue s u r w rest 0x20 →
        computes (.mvd u) s u w .fp64 m (fun i => fmaChain .fp64 rd (elemAt .fp64 y i)
          ((List.range m).map (fun j => (elemAt .fp64 A (64 * i + j), elemAt .fp64 x j))))) ∧
      (∀ A x y, A = operand (tileOf s u) (.page 4) (wSrcA w) → x = operand (tileOf s u) (.line 1) (wSrcB w) →
        y = operand (tileOf s u) (.line 1) (wDst w) → readyToIssue s u r w rest 0x21 →
        computes (.mvs u) s u w .fp32 m (fun i => fmaChain .fp32 rd (elemAt .fp32 y i)
          ((List.range m).map (fun j => (elemAt .fp32 A (64 * i + j), elemAt .fp32 x j))))) ∧
      (∀ A B C, A = operand (tileOf s u) (.page 2) (wSrcA w) → B = operand (tileOf s u) (.page 2) (wSrcB w) →
        C = operand (tileOf s u) (.page 4) (wDst w) →
        (readyToIssue s u r w rest 0x22 →
          computes (.mmh u) s u w .fp32 4096 (fun e => groupChain .bf16 .bf16 rd 8 8 (elemAt .fp32 C e)
            ((List.range 64).map (fun k => (elemAt .bf16 A (64 * (e / 64) + k), elemAt .bf16 B (64 * k + e % 64)))))) ∧
        (∀ fa fb, (wFmt w = 3 → fa = Fmt.e4m3 ∧ fb = Fmt.e4m3) → (wFmt w = 4 → fa = Fmt.e5m2 ∧ fb = Fmt.e5m2) →
          (wFmt w = 7 → fa = Fmt.e4m3 ∧ fb = Fmt.e5m2) → (wFmt w = 8 → fa = Fmt.e5m2 ∧ fb = Fmt.e4m3) →
          readyToIssue s u r w rest 0x23 →
          computes (.mmq u) s u w .fp32 4096 (fun e => groupChain fa fb rd 16 8 (elemAt .fp32 C e)
            ((List.range 128).map (fun k => (elemAt fa A (128 * (e / 64) + k), elemAt fb B (64 * k + e % 64)))))) ∧
        (readyToIssue s u r w rest 0x24 →
          ∃ t x, exec (.mmi u) s = .next t ∧ (tileOf t u).flight = some x ∧ ∀ v : Nat → Int,
            (∀ e, v e = ((List.range 128).map (fun k =>
              intAt 8 A (128 * (e / 64) + k) * intAt 8 B (64 * k + e % 64))).sum + intAt 32 C e) →
            (∀ e, e < 4096 → intAt 32 (resultNat x) e = saturated 32 (v e)) ∧
            ((∀ e, e < 4096 → saturated 32 (v e) = v e) → x.flags = 0) ∧
            ((∃ e, e < 4096 ∧ saturated 32 (v e) ≠ v e) → x.flags = 32)))) ∧
    (∀ (f : Fmt) (n : Nat), fmtOf (wFmt w) = some f → n = 4096 / elemBytes f →
      ∀ a b c, a = operand (tileOf s u) (.page 1) (wSrcA w) → b = operand (tileOf s u) (.page 1) (wSrcB w) →
        c = operand (tileOf s u) (.page 1) (wSrcC w) →
      (readyToIssue s u r w rest 0x30 →
        computes (.vfma u) s u w f n (fun k => fmaE f (wRnd w) (elemAt f a k) (elemAt f b k) (elemAt f c k))) ∧
      (readyToIssue s u r w rest 0x31 →
        computes (.vadd u) s u w f n (fun k => addE f (wRnd w) (elemAt f a k) (elemAt f b k))) ∧
      (readyToIssue s u r w rest 0x32 →
        computes (.vmul u) s u w f n (fun k => mulE f (wRnd w) (elemAt f a k) (elemAt f b k))) ∧
      (readyToIssue s u r w rest 0x33 → computes (.vmax u) s u w f n (fun k => extremeE f true (elemAt f a k) (elemAt f b k))) ∧
      (readyToIssue s u r w rest 0x34 → computes (.vmin u) s u w f n (fun k => extremeE f false (elemAt f a k) (elemAt f b k))) ∧
      (readyToIssue s u r w rest 0x35 → ∀ (g : Fmt) (m : Nat), fmtOf (wAux w) = some g → m = min n (4096 / elemBytes g) →
        computes (.vcvt u) s u w f n (fun k => if k < m then
            convertE f g (wRnd w) (if wRnd w = 4 then (Config.entropy (s.entropy + k)).toNat else 0) (wSat w) (elemAt g a k)
          else (0, 0)) ∧
        ∃ t : State, exec (.vcvt u) s = .next t ∧ t.entropy = (if wRnd w = 4 then s.entropy + m else s.entropy)) ∧
      (readyToIssue s u r w rest 0x36 → ∃ t x, exec (.vred u) s = .next t ∧ (tileOf t u).flight = some x ∧
        (wFmt w ≤ 4 → ∀ l, 2 ^ l = n → (resultNat x, x.flags) = treeNode f (wRnd w) (elemAt f a) l 0) ∧
        (4 < wFmt w → ∀ v : Int, v = ((List.range n).map (intAt (8 * elemBytes f) a)).sum →
          intAt (8 * elemBytes f) (resultNat x) 0 = saturated (8 * elemBytes f) v ∧ resultNat x < 2 ^ (8 * elemBytes f) ∧
          x.flags = (if saturated (8 * elemBytes f) v = v then 0 else 32))))

/-- In INT8 and INT32 (FMT 5 and 6) each element of a VADD, VMUL or VFMA is the exact sum, product or a x b + c saturated
once to the format's range, and the only flag is saturation, set exactly when an element saturates; VMAX and VMIN
compare as two's complement and raise no flag. VCPY carries its source page's bytes. -/
def Obligations.IntegerVectorResultsSaturateOnce : Prop :=
  ∀ (s : State) (u : Nat) (r : Reel) (w : Rec128) (rest : List Rec128) (b n : Nat),
    b = (if wFmt w = 5 then 8 else 32) → n = 32768 / b → wFmt w = 5 ∨ wFmt w = 6 →
    (∀ k, k < n → ∀ (a1 a2 a3 : Int), a1 = intAt b (operand (tileOf s u) (.page 1) (wSrcA w)) k →
      a2 = intAt b (operand (tileOf s u) (.page 1) (wSrcB w)) k →
      a3 = intAt b (operand (tileOf s u) (.page 1) (wSrcC w)) k →
      (readyToIssue s u r w rest 0x31 → ∃ t f, exec (.vadd u) s = .next t ∧ (tileOf t u).flight = some f ∧
        intAt b (resultNat f) k = saturated b (a1 + a2) ∧
        (saturated b (a1 + a2) ≠ a1 + a2 → f.flags = 32)) ∧
      (readyToIssue s u r w rest 0x32 → ∃ t f, exec (.vmul u) s = .next t ∧ (tileOf t u).flight = some f ∧
        intAt b (resultNat f) k = saturated b (a1 * a2) ∧
        (saturated b (a1 * a2) ≠ a1 * a2 → f.flags = 32)) ∧
      (readyToIssue s u r w rest 0x30 → ∃ t f, exec (.vfma u) s = .next t ∧ (tileOf t u).flight = some f ∧
        intAt b (resultNat f) k = saturated b (a1 * a2 + a3) ∧
        (saturated b (a1 * a2 + a3) ≠ a1 * a2 + a3 → f.flags = 32)) ∧
      (readyToIssue s u r w rest 0x33 → ∃ t f, exec (.vmax u) s = .next t ∧ (tileOf t u).flight = some f ∧
        intAt b (resultNat f) k = max a1 a2 ∧ f.flags = 0) ∧
      (readyToIssue s u r w rest 0x34 → ∃ t f, exec (.vmin u) s = .next t ∧ (tileOf t u).flight = some f ∧
        intAt b (resultNat f) k = min a1 a2 ∧ f.flags = 0)) ∧
    (∀ x y z : Nat → Int, (∀ k, x k = intAt b (operand (tileOf s u) (.page 1) (wSrcA w)) k) →
      (∀ k, y k = intAt b (operand (tileOf s u) (.page 1) (wSrcB w)) k) →
      (∀ k, z k = intAt b (operand (tileOf s u) (.page 1) (wSrcC w)) k) →
      (readyToIssue s u r w rest 0x31 → (∀ k, k < n → saturated b (x k + y k) = x k + y k) →
        ∃ t f, exec (.vadd u) s = .next t ∧ (tileOf t u).flight = some f ∧ f.flags = 0) ∧
      (readyToIssue s u r w rest 0x32 → (∀ k, k < n → saturated b (x k * y k) = x k * y k) →
        ∃ t f, exec (.vmul u) s = .next t ∧ (tileOf t u).flight = some f ∧ f.flags = 0) ∧
      (readyToIssue s u r w rest 0x30 → (∀ k, k < n → saturated b (x k * y k + z k) = x k * y k + z k) →
        ∃ t f, exec (.vfma u) s = .next t ∧ (tileOf t u).flight = some f ∧ f.flags = 0)) ∧
    (readyToIssue s u r w rest 0x37 → ∃ t f, exec (.vcpy u) s = .next t ∧ (tileOf t u).flight = some f ∧
      resultNat f = operand (tileOf s u) (.page 1) (wSrcA w) ∧ f.flags = 0)

/-- An EWAIT whose input holds at least its count subtracts the count and goes into flight; a RECV whose entry holds a
parcel goes into flight with the entry's bytes, their residues on arrival and the provisional tag, and frees the entry at its
deadline. With a short input or an empty or LATE entry the word goes into flight as well, the input is left unchanged, a RECV
will write one line of zeros at its destination and free the entry, and STARVED is detected: the tile makes no hazard comparison, and the package counts one detection more. -/
def Obligations.WaitAndReceiveTakeTheirInput : Prop :=
  ∀ (s : State) (u : Nat) (r : Reel) (w : Rec128) (rest : List Rec128),
    (readyToIssue s u r w rest 0x01 → wImm w ≤ eventOf (tileOf s u) (wAux w) →
      ∃ t f, exec (.ewait u) s = .next t ∧ inFlight [.tiles] s t u r w 0x01 f ∧ (tileOf t u).todo = rest ∧
        eventOf (tileOf t u) (wAux w) = eventOf (tileOf s u) (wAux w) - wImm w ∧
        (∀ k, k ≠ wAux w → eventOf (tileOf t u) k = eventOf (tileOf s u) k)) ∧
    (readyToIssue s u r w rest 0x01 → eventOf (tileOf s u) (wAux w) < wImm w →
      toldIn s (tileOf s u) (wToken w) = none →
      ∃ t f, exec (.ewait u) s = .next t ∧ (tileOf t u).flight = some f ∧ f.word = w ∧
        (tileOf t u).events = (tileOf s u).events ∧ (tileOf t u).detected = true ∧ tilesBut u s t ∧
        t.sec.totals = { s.sec.totals with detect := s.sec.totals.detect + 1, late := s.sec.totals.late + 1 } ∧
        changesOnly (.tiles :: detects) s t) ∧
    (readyToIssue s u r w rest 0x10 → ∀ e, find? (wSrcA w) (tileOf s u).inbox = some e → e.late = false →
      ∃ t f, exec (.recv u) s = .next t ∧ inFlight [.tiles] s t u r w 0x10 f ∧ (tileOf t u).todo = rest ∧
        f.results.map (fun x => (x.1, x.2.data, x.2.side, x.2.pdue)) = [(wDst w, e.data, e.side, e.pdue)] ∧
        f.effect = .freeEntry (wSrcA w)) ∧
    (readyToIssue s u r w rest 0x10 →
      find? (wSrcA w) (tileOf s u).inbox = none ∨ (∃ e, find? (wSrcA w) (tileOf s u).inbox = some e ∧ e.late = true) →
      toldIn s (tileOf s u) (wToken w) = none →
      ∃ t f, exec (.recv u) s = .next t ∧ (tileOf t u).flight = some f ∧ f.word = w ∧
        f.results = [(wDst w, LineVal.zero)] ∧ f.effect = .freeEntry (wSrcA w) ∧ (tileOf t u).todo = rest ∧
        (tileOf t u).inbox = (tileOf s u).inbox ∧ (tileOf t u).detected = true ∧ tilesBut u s t ∧
        t.sec.totals = { s.sec.totals with detect := s.sec.totals.detect + 1, late := s.sec.totals.late + 1 } ∧
        changesOnly (.tiles :: detects) s t)

/-- A SEND on an outbound route (not a provisional one within the package), with room in the outbox, no tag that R82
forbids and, for a block route, the order of R95 kept and residues that agree, goes into flight with an outbox entry
of its route, index and source line: the entry's payload is the source line, provisional exactly when E is set and the
line's check is not complete. Nothing but the tile changes. With 8 entries in the outbox the word raises OUTBOX_FULL; with
room, PROV_ESCAPE for a line whose PDUE is up, or whose CDUE is up without E; with neither, ILLEGAL_OP on an inbound
route, for a provisional send within the package, or out of the order of R95: each stops the job. The SEND of parcel 8 of a
block whose page's residues disagree raises ENVELOPE_BAD, which counts, and goes into flight. -/
def Obligations.SendPlacesAParcel : Prop :=
  ∀ (s : State) (u : Nat) (r : Reel) (w : Rec128) (rest : List Rec128) (e : Rec128),
    readyToIssue s u r w rest 0x11 → routeAt r u s.job.phase (wImm w) = some e →
    (sendEvsOn s r u (tileOf s u) e w = [] →
      ∃ t f x, exec (.send u) s = .next t ∧ inFlight [.tiles] s t u r w 0x11 f ∧ (tileOf t u).todo = rest ∧
        f.effect = .send x ∧ f.results = [] ∧ x.route = wImm w ∧ x.payload = (readLine (tileOf s u) (wSrcA w)).data ∧
        x.line = wSrcA w ∧ x.cdue = (readLine (tileOf s u) (wSrcA w)).cdue ∧ (rBlock e = false → x.env = 0) ∧
        x.pidx = (if rBlock e then wSrcA w % 16 else 0) ∧
        x.prov = (wE w && tagUp s.job.slot (readLine (tileOf s u) (wSrcA w)).cdue) ∧
        x.leaves = (if rPort e = 63 then some (f.last / 64) else none)) ∧
    (∀ (full escaped illegal : Prop), toldIn s (tileOf s u) (wToken w) = none →
      (full ↔ 8 ≤ (tileOf s u).outbox.length) →
      (escaped ↔ ∃ l ∈ sendLines e w, pdueUp s (readLine (tileOf s u) l).pdue = true ∨
        (wE w = false ∧ tagUp s.job.slot (readLine (tileOf s u) l).cdue = true)) →
      (illegal ↔ rInbound e = true ∨ (wE w = true ∧ rPort e = 63) ∨ orderBroken (tileOf s u) e w = true) →
      (full → faultsWith 0x0403 (.send u) s u rest) ∧
      (¬ full → escaped → faultsWith 0x0406 (.send u) s u rest) ∧
      (¬ full → ¬ escaped → illegal → (∀ l ∈ sendLines e w, staleLine (jobRegions s r u) (tileOf s u) l = false) →
        faultsWith 0x0409 (.send u) s u rest) ∧
      (¬ full → ¬ escaped → ¬ illegal → (∀ l ∈ sendLines e w, staleLine (jobRegions s r u) (tileOf s u) l = false) →
        inRegions (jobRegions s r u) (sendLines e w) = true →
        rBlock e = true → wSrcA w % 16 = 8 → pageBad (tileOf s u) (wSrcA w / 16 * 16) = true →
        ∃ t f x, exec (.send u) s = .next t ∧ (tileOf t u).flight = some f ∧ f.effect = .send x ∧ (tileOf t u).todo = rest ∧
          x.payload = (readLine (tileOf s u) (wSrcA w)).data ∧ (tileOf t u).lines = (tileOf s u).lines ∧
          (tileOf t u).detected = true ∧ tilesBut u s t ∧
          t.sec.totals = { s.sec.totals with detect := s.sec.totals.detect + 1, env := s.sec.totals.env + 1 } ∧
          (healthOf t u).c2 = min ((healthOf s u).c2 + 1) 65535 ∧ changesOnly (.tiles :: detects) s t))

/-- With room in the mover a BLD of a block entry (near, or far with its cache block written in its far-fill slot), a BST
to a paired block that is not far, and a BWR, GACC or GTREE of a window entry add one request at the end of the mover:
its service and retire slots are those of Table 5-4, it carries the page and the entry, and a move off the tile
carries the page's block with the Envelope built there. The Pocket, the other queues, the other tiles and the package
stay as they were. With two requests in the mover the word raises MOVER_FULL, 0x0404, the lowest code that a block move can
raise, and the job faults; with room, a move off the tile of a page with a tag up raises PROV_ESCAPE and the job faults. A
move off the tile of a page whose residues disagree raises ENVELOPE_BAD, which counts, and its request carries no block (that it
keeps its place in the mover is the model's choice, log 78). -/
def Obligations.BlockMovesEnterTheMover : Prop :=
  ∀ (s : State) (u : Nat) (r : Reel) (w : Rec128) (rest : List Rec128) (e : Rec128) (q0 : List MoveReq),
    q0 = (tileOf s u).mover →
    (readyToIssue s u r w rest 0x12 → blockAt r u s.job.phase (wImm w) = some e → q0.length < 2 →
      (bFar e = true → look false (cacheKey (bStack e) (bBlock e)) s.far.written = true) →
      ∃ (t : State) (f : Flight) (q : MoveReq), exec (.bld u) s = .next t ∧ inFlight [.tiles] s t u r w 0x12 f ∧ (tileOf t u).todo = rest ∧
        (tileOf t u).mover = q0 ++ [q] ∧ q.kind = .bld ∧ q.entry = e ∧ q.page = wDst w ∧ q.serve = s.job.slot + 1 ∧
        q.retire = s.job.slot + (if u / 512 = bStack e / 4 then 2 else 3) ∧ q.served = false) ∧
    (readyToIssue s u r w rest 0x13 → blockAt r u s.job.phase (wImm w) = some e → q0.length < 2 →
      bPaired e = true → bFar e = false → escapes s false (tileOf s u) (srcLines w) = false →
      pageBad (tileOf s u) (wSrcA w) = false →
      ∃ (t : State) (f : Flight) (q : MoveReq), exec (.bst u) s = .next t ∧ inFlight [.tiles] s t u r w 0x13 f ∧ (tileOf t u).mover = q0 ++ [q] ∧
        q.kind = .bst ∧ q.entry = e ∧ q.serve = s.job.slot + (if u / 512 = bStack e / 4 then 1 else 2) ∧
        q.retire = q.serve ∧
        q.blk = some { payload := pageData (tileOf s u) (wSrcA w),
                       env := buildEnv (tileOf s u) (wSrcA w) (bTag e) s.job.step (wFmt w) }) ∧
    (∀ (c : Instr) (op : Nat) (k : MoveKind), (c = .bwr u ∧ op = 0x14 ∧ k = MoveKind.bwr) ∨ (c = .gacc u ∧ op = 0x15 ∧ k = .gacc) ∨
        (c = .gtree u ∧ op = 0x16 ∧ k = .gtree) →
      readyToIssue s u r w rest op → windowAt r u s.job.phase (wImm w) = some e → q0.length < 2 →
      escapes s false (tileOf s u) (srcLines w) = false → pageBad (tileOf s u) (wSrcA w) = false →
      ∃ (t : State) (f : Flight) (q : MoveReq), exec c s = .next t ∧ inFlight [.tiles] s t u r w op f ∧ (tileOf t u).mover = q0 ++ [q] ∧
        q.kind = k ∧ q.entry = e ∧ q.serve = s.job.slot + 1 ∧ q.retire = s.job.slot + 2 ∧
        q.blk = some { payload := pageData (tileOf s u) (wSrcA w),
                       env := buildEnv (tileOf s u) (wSrcA w) (nTag e) s.job.step (wFmt w) }) ∧
    (∀ (c : Instr) (op : Nat), (c = .bld u ∧ op = 0x12) ∨ (c = .bst u ∧ op = 0x13) ∨ (c = .bwr u ∧ op = 0x14) ∨ (c = .gacc u ∧ op = 0x15) ∨
        (c = .gtree u ∧ op = 0x16) →
      readyToIssue s u r w rest op → 2 ≤ q0.length → toldIn s (tileOf s u) (wToken w) = none →
      ∃ t : State, exec c s = .next t ∧ t.job.faulted = true ∧ (tileOf t u).mover = q0 ∧ (tileOf t u).flight = none ∧
        (tileOf t u).todo = rest ∧ tilesBut u s t ∧ changesOnly [.tiles, .job, .settings, .test] s t ∧
        (s.job.ownFault = none → t.job.ownFault.map (fun l => (l.code, l.unit, l.index)) =
          some (0x0404#16, BitVec.ofNat 16 u, 0xFF#8))) ∧
    (∀ (c : Instr) (op : Nat) (k : MoveKind), (c = .bst u ∧ op = 0x13 ∧ k = MoveKind.bst) ∨ (c = .bwr u ∧ op = 0x14 ∧ k = .bwr) ∨
        (c = .gacc u ∧ op = 0x15 ∧ k = .gacc) ∨ (c = .gtree u ∧ op = 0x16 ∧ k = .gtree) →
      readyToIssue s u r w rest op → q0.length < 2 → toldIn s (tileOf s u) (wToken w) = none →
      ((∃ l ∈ srcLines w, pdueUp s (readLine (tileOf s u) l).pdue = true ∨
          tagUp s.job.slot (readLine (tileOf s u) l).cdue = true) → faultsWith 0x0406 c s u rest) ∧
      ((∀ l ∈ srcLines w, pdueUp s (readLine (tileOf s u) l).pdue = false ∧
          tagUp s.job.slot (readLine (tileOf s u) l).cdue = false) → pageBad (tileOf s u) (wSrcA w) = true →
        (k = .bst → blockAt r u s.job.phase (wImm w) = some e ∧ bPaired e = true ∧ bFar e = false) →
        (k ≠ .bst → windowAt r u s.job.phase (wImm w) = some e) →
        ∃ t f q, exec c s = .next t ∧ (tileOf t u).flight = some f ∧ (tileOf t u).todo = rest ∧
          (tileOf t u).mover = q0 ++ [q] ∧ q.kind = k ∧ q.entry = e ∧ q.blk = none ∧ (tileOf t u).detected = true ∧
          (tileOf t u).lines = (tileOf s u).lines ∧ tilesBut u s t ∧
          t.sec.totals = { s.sec.totals with detect := s.sec.totals.detect + 1, env := s.sec.totals.env + 1 } ∧
          (healthOf t u).c2 = min ((healthOf s u).c2 + 1) 65535 ∧ changesOnly (.tiles :: detects) s t))

/-- Whatever the opcode: a word of the running slot whose fields or operands are not legal raises ILLEGAL_OP. A legal word that
reads a working line which this attempt has not written faults the job, with POCKET_STALE where the word can raise nothing
lower, and a legal one with V = 1 in strict mode faults it as well, with V_IN_STRICT likewise. The word
leaves the sequencer, nothing goes into flight, the Pocket stays, and the job has faulted. A tile that the hold of a
notice, a fault, a halt or an operation in flight keeps from issuing does not change at all. -/
def Obligations.IllegalWordsFaultTheJob : Prop :=
  (∀ (s : State) (u : Nat) (r : Reel) (w : Rec128) (rest : List Rec128) (c : Instr) (op : Nat),
    (c, op) ∈ [(Instr.nop u, 0x00), (.ewait u, 0x01), (.esig u, 0x02), (.rdflg u, 0x03), (.exitIf u, 0x04), (.recv u, 0x10),
      (.send u, 0x11), (.bld u, 0x12), (.bst u, 0x13), (.bwr u, 0x14), (.gacc u, 0x15), (.gtree u, 0x16), (.mvd u, 0x20),
      (.mvs u, 0x21), (.mmh u, 0x22), (.mmq u, 0x23), (.mmi u, 0x24), (.vfma u, 0x30), (.vadd u, 0x31), (.vmul u, 0x32),
      (.vmax u, 0x33), (.vmin u, 0x34), (.vcvt u, 0x35), (.vred u, 0x36), (.vcpy u, 0x37)] →
    (mayIssue s u = true → s.reel = some r → (tileOf s u).todo = w :: rest → wSlot w = s.job.slot → wOp w = op →
      toldIn s (tileOf s u) (wToken w) = none →
      (fieldsOk w = false ∨ operandsOk (jobRegions s r u) w = false) →
      ∃ t : State, exec c s = .next t ∧ t.job.faulted = true ∧ (tileOf t u).todo = rest ∧ (tileOf t u).flight = none ∧
        (tileOf t u).lines = (tileOf s u).lines ∧ tilesBut u s t ∧
        changesOnly [.tiles, .job, .settings, .test] s t ∧
        (s.job.ownFault = none → (t.job.ownFault.map (fun l => (l.code, l.unit))) =
          some (0x0409#16, BitVec.ofNat 16 u))) ∧
    (mayIssue s u = false → exec c s = .next s)) ∧
  (∀ (s : State) (u : Nat) (r : Reel) (w : Rec128) (rest : List Rec128) (c : Instr) (op : Nat),
    mayIssue s u = true → s.reel = some r → (tileOf s u).todo = w :: rest → wSlot w = s.job.slot → wOp w = op →
    fieldsOk w = true → operandsOk (jobRegions s r u) w = true → toldIn s (tileOf s u) (wToken w) = none →
    ((c, op) ∈ [(Instr.exitIf u, 0x04), (.send u, 0x11), (.bst u, 0x13), (.bwr u, 0x14), (.gacc u, 0x15), (.gtree u, 0x16),
        (.mvd u, 0x20), (.mvs u, 0x21), (.mmh u, 0x22), (.mmq u, 0x23), (.mmi u, 0x24), (.vfma u, 0x30), (.vadd u, 0x31),
        (.vmul u, 0x32), (.vmax u, 0x33), (.vmin u, 0x34), (.vcvt u, 0x35), (.vred u, 0x36), (.vcpy u, 0x37)] →
      (∃ l ∈ srcLines w, staleLine (jobRegions s r u) (tileOf s u) l = true) →
      ∃ t : State, exec c s = .next t ∧ t.job.faulted = true ∧ (tileOf t u).todo = rest ∧ (tileOf t u).flight = none ∧
        (tileOf t u).lines = (tileOf s u).lines ∧ tilesBut u s t ∧
        (0x20 ≤ op ∨ op = 0x04 → s.job.ownFault = none →
          t.job.ownFault.map (fun l => (l.code, l.unit)) = some (0x0407#16, BitVec.ofNat 16 u))) ∧
    ((c, op) ∈ [(Instr.exitIf u, 0x04), (.gacc u, 0x15), (.vcvt u, 0x35)] → wV w = true → r.strict = true →
      ∃ t : State, exec c s = .next t ∧ t.job.faulted = true ∧ (tileOf t u).todo = rest ∧ (tileOf t u).flight = none ∧
        (tileOf t u).lines = (tileOf s u).lines ∧ tilesBut u s t ∧
        (op ≠ 0x15 → (∀ l ∈ srcLines w, staleLine (jobRegions s r u) (tileOf s u) l = false) → s.job.ownFault = none →
          t.job.ownFault.map (fun l => (l.code, l.unit)) = some (0x040A#16, BitVec.ofNat 16 u))))

/-- An operation in flight in the slot of its deadline leaves flight: its result lines take its bytes (with the bits that
the datapath upset turned over), a checked one's CDUE is two slots on, its PDUE stays while it has not passed, a hold
line takes the value as its next-step copy, every other line stays, and its flags are added. SEND fills an outbox
place (the lowest free one), RECV frees its entry, RDFLG clears the flags and ESIG sends its signal. A late operation writes
nothing: at the token after its deadline, which for a deadline at the last token of the commit-point slot lies in slot 0 of the
next step, the tile raises LATE_OP and issues nothing further. -/
def Obligations.OperationsEndAtTheirDeadline : Prop :=
  (∀ (s : State) (u : Nat) (f : Flight) (ups : List (Nat × LineBits)), u < 1024 → running s = true →
    (tileOf s u).flight = some f → f.pastStep = false → f.last / 64 = s.job.slot → engineHeld s u f = false →
    ∃ t : State, exec (.opDeadline u (.done ups)) s = .next t ∧ (tileOf t u).flight = none ∧ tilesBut u s t ∧
      changesOnly [.tiles, .shadowed, .localq] s t ∧
      (tileOf t u).todo = (tileOf s u).todo ∧ (tileOf t u).mover = (tileOf s u).mover ∧
      (tileOf t u).events = (tileOf s u).events ∧
      (∀ l, l ∉ f.results.map (fun x => x.1) → lineAt (tileOf t u) l = lineAt (tileOf s u) l) ∧
      ((f.results.map (fun x => x.1)).Nodup → ∀ k l v, f.results[k]? = some (l, v) →
        ∃ d : LineVal, d.data = v.data ^^^ look 0 k ups ∧ d.side = v.side ∧
          d.cdue = (if f.checked then s.job.slot + 2 else 0) ∧
          d.pdue = (if s.job.slot ≤ v.pdue then v.pdue else 0) ∧
          lineAt (tileOf t u) l =
            (if isHold (regionsNow s u) l then { lineAt (tileOf s u) l with nxt := d, mark := true }
             else { lineAt (tileOf s u) l with cur := d, mark := true })) ∧
      (f.effect = .clearFlags → (tileOf t u).flags = 0) ∧
      (f.effect ≠ .clearFlags → (tileOf t u).flags = (tileOf s u).flags ||| f.flags) ∧
      (∀ e, f.effect = .send e → find? (freePlace (tileOf s u)) (tileOf t u).outbox = some e ∧
        (∀ k, k < 8 → find? k (tileOf s u).outbox = none → find? (freePlace (tileOf s u)) (tileOf s u).outbox = none ∧
          freePlace (tileOf s u) ≤ k) ∧
        ∀ j, j ≠ freePlace (tileOf s u) → find? j (tileOf t u).outbox = find? j (tileOf s u).outbox) ∧
      (∀ k, f.effect = .freeEntry k → find? k (tileOf t u).inbox = none ∧
        ∀ j, j ≠ k → find? j (tileOf t u).inbox = find? j (tileOf s u).inbox) ∧
      (∀ d i, f.effect = .signal d i → ∃ m, t.localq = s.localq ++ [m] ∧ m.dst = d ∧ m.event = i ∧ m.parcel = none ∧
        (s.job.slot ≤ s.bridle.count → m.due = s.bridle.count + (if u / 512 = d / 512 then 1 else 2)))) ∧
  (∀ (s : State) (u : Nat) (f : Flight) (ups : List (Nat × LineBits)), (tileOf s u).flight = some f →
    engineHeld s u f = true → exec (.opDeadline u (.done ups)) s = .next s) ∧
  (∀ (s : State) (u : Nat) (f : Flight), u < 1024 → running s = true → (tileOf s u).flight = some f →
    ((f.pastStep = false ∧ (f.last + 1) / 64 = s.job.slot) ∨ (f.pastStep = true ∧ s.job.slot = 0)) → toldIn s (tileOf s u) ((f.last + 1) % 64) = none →
    ∃ t : State, exec (.opDeadline u .late) s = .next t ∧ (tileOf t u).flight = none ∧ (tileOf t u).lateOp = true ∧
      (tileOf t u).lines = (tileOf s u).lines ∧ (tileOf t u).flags = (tileOf s u).flags ∧
      (tileOf t u).outbox = (tileOf s u).outbox ∧ mayIssue t u = false ∧ tilesBut u s t ∧
      t.sec.totals = { s.sec.totals with detect := s.sec.totals.detect + 1, late := s.sec.totals.late + 1 } ∧
      changesOnly (.tiles :: detects) s t)

/-- The checks of a slot complete at its end: the CDUE of the lines they cover clears and no other line changes. Where one
fails, RESIDUE_MISMATCH is counted for the package and the tile, whose score rises by 1, and the lines of the failed
checks are kept as bad. Where the tile has told of ENVELOPE_BAD in that token already, the lower code takes its place and only
it stays counted (R84, R204; that a count is taken back where it had risen, and that the move that a score calls for waits for
the slot's end, are the model's choice, log 75). Two operations of a shadow entry are compared in slot max(c_P, c_S) + 2: equal results change
nothing; unequal ones are one SHADOW_MISMATCH for the package, and count and score for both tiles. -/
def Obligations.ChecksCompleteTwoSlotsOn : Prop :=
  (∀ (s : State) (u : Nat) (parity : Bool) (cs : List Check), u < 1024 → running s = true →
    cs = (tileOf s u).checks.filter (fun c => c.slot == s.job.slot && !c.lines.isEmpty) → cs ≠ [] →
    ∃ t : State, exec (.residueCheckComplete u parity) s = .next t ∧ tilesBut u s t ∧
      (∀ l, (∀ c ∈ cs, l ∉ c.lines) → lineAt (tileOf t u) l = lineAt (tileOf s u) l) ∧
      (∀ c ∈ cs, ∀ l ∈ c.lines, (lineAt (tileOf t u) l).cur.data = (lineAt (tileOf s u) l).cur.data ∧
        (lineAt (tileOf t u) l).cur.cdue =
          (if (lineAt (tileOf s u) l).cur.cdue = s.job.slot then 0 else (lineAt (tileOf s u) l).cur.cdue) ∧
        (lineAt (tileOf t u) l).nxt.cdue =
          (if (lineAt (tileOf s u) l).nxt.cdue = s.job.slot then 0 else (lineAt (tileOf s u) l).nxt.cdue)) ∧
      (parity = false → (∀ c ∈ cs, c.bad = false) →
        changesOnly [.tiles] s t ∧ (tileOf t u).detected = (tileOf s u).detected ∧
        (tileOf t u).badLines = (tileOf s u).badLines) ∧
      (parity = true ∨ (∃ c ∈ cs, c.bad = true) → toldIn s (tileOf s u) 63 = none →
        changesOnly (.tiles :: detects) s t ∧ (tileOf t u).detected = true ∧
        (∀ c ∈ cs, (parity = true ∨ c.bad = true) → ∀ l ∈ c.lines, l ∈ (tileOf t u).badLines) ∧
        t.sec.totals = { s.sec.totals with detect := s.sec.totals.detect + 1, res := s.sec.totals.res + 1 } ∧
        (healthOf t u).c0 = min ((healthOf s u).c0 + 1) 65535 ∧ (healthOf t u).score = min 255 ((healthOf s u).score + 1)) ∧
      (parity = true ∨ (∃ c ∈ cs, c.bad = true) → toldIn s (tileOf s u) 63 = some 0x0483 → 0 < s.sec.totals.detect →
        t.sec.totals = { s.sec.totals with res := s.sec.totals.res + 1, env := s.sec.totals.env - 1 } ∧
        (healthOf t u).c0 = min ((healthOf s u).c0 + 1) 65535 ∧
        (healthOf t u).c2 = (healthOf s u).c2 - (if (tileOf s u).rose.1 then 1 else 0) ∧
        (healthOf t u).score = min 255 ((healthOf s u).score - (if (tileOf s u).rose.2 then 1 else 0) + 1) ∧
        (tileOf t u).moves = (tileOf s u).moves.dropLast ++ [0x0481])) ∧
  (∀ (s : State) (r : Reel) (g i p q a b : Nat) (e : BitVec 256) (x y : List LineBits), g < 128 → running s = true →
    s.reel = some r → (shadowTable r s.job.phase g)[i]? = some e → p = groupHead g + shPPos e → q = groupHead g + shSPos e →
    shadowResult s p (shPSlot e) (shPToken e) = some x → shadowResult s q (shSSlot e) (shSToken e) = some y →
    doneAt s r p (shPSlot e) (shPToken e) = some a → doneAt s r q (shSSlot e) (shSToken e) = some b →
    max a b + 2 = s.job.slot →
    (x = y → exec (.shadowCompare g i) s = .next s) ∧
    (x ≠ y → p ≠ q → toldIn s (tileOf s p) 63 = none →
      ∃ t : State, exec (.shadowCompare g i) s = .next t ∧ changesOnly (.tiles :: detects) s t ∧ tilesBut p s t ∧
        (tileOf t p).detected = true ∧
        t.sec.totals = { s.sec.totals with detect := s.sec.totals.detect + 1, shd := s.sec.totals.shd + 1 } ∧
        (healthOf t p).c1 = min ((healthOf s p).c1 + 1) 65535 ∧ (healthOf t q).c1 = min ((healthOf s q).c1 + 1) 65535 ∧
        (healthOf t p).score = min 255 ((healthOf s p).score + 1) ∧
        (healthOf t q).score = min 255 ((healthOf s q).score + 1)))

/-- In a debug job at Vent level 32 or above, with no notice and no fault, a slot in which every tile that has raised no
detection agrees with the annex changes nothing. Otherwise the lowest code, of the lowest tile that has it, faults the
job: LDR_HAZ takes the expected and the actual value, and the location names the tile and the code 0x0E01 plus the
part. A package that has raised a detection in the attempt, that holds a replay notice, or whose fault is of an earlier slot
compares nothing (the slot of a fault is the model's choice, log 76). Below level 32 the slot is counted in
LDR_HAZ_UNCHECKED and nothing else changes. -/
def Obligations.DebugJobsAreHeldToTheAnnex : Prop :=
  (∀ (s : State) (r : Reel), running s = true → s.reel = some r → r.debug = true → 32 ≤ s.pacer.vent →
    s.job.notice = none → s.job.faulted = false →
    (∀ u, u < 1024 → (tileOf s u).detected = false → ∀ x ∈ hazParts,
      hazExpected (recsOf r secHazard u s.job.phase) s.job.pattern s.job.slot x.1 x.2 =
        hazActual s.job.slot (tileOf s u) x.1 x.2) →
    exec .hazardCheck s = .next s) ∧
  (∀ (s : State) (r : Reel) (u k i want have_ : Nat), running s = true → s.reel = some r → r.debug = true →
    32 ≤ s.pacer.vent → s.job.notice = none → s.job.faulted = false → s.job.ownFault = none →
    s.job.detected = false → (u, k, i, want, have_) ∈ hazards r s →
    (∀ y ∈ hazards r s, k < y.2.1 ∨ (k = y.2.1 ∧ u ≤ y.1)) → toldIn s (tileOf s u) 63 = none →
    want ≠ have_ ∧ want = hazExpected (recsOf r secHazard u s.job.phase) s.job.pattern s.job.slot k i ∧
    have_ = hazActual s.job.slot (tileOf s u) k i ∧
    ∃ t : State, exec .hazardCheck s = .next t ∧ t.job.faulted = true ∧ tilesBut u s t ∧
      (tileOf t u).lines = (tileOf s u).lines ∧ changesOnly [.tiles, .job, .settings, .test, .ldr] s t ∧
      t.ldr.hazExpect = BitVec.ofNat 16 want ∧ t.ldr.hazActual = BitVec.ofNat 16 have_ ∧
      t.ldr.hazKind = BitVec.ofNat 2 k ∧
      (t.job.ownFault.map (fun l => (l.code, l.unit, l.token))) =
        some (BitVec.ofNat 16 (0x0E01 + k), BitVec.ofNat 16 u, 63)) ∧
  (∀ (s : State) (r : Reel), running s = true → s.reel = some r → r.debug = true → 32 ≤ s.pacer.vent →
    s.job.detected = true ∨ (∃ n, s.job.notice = some n ∧ (n.fault = false ∨ s.job.noticeAt ≠ s.bridle.count)) →
    exec .hazardCheck s = .next s) ∧
  (∀ (s : State) (r : Reel), running s = true → s.reel = some r → r.debug = true → s.pacer.vent < 32 →
    ∃ t : State, exec .hazardCheck s = .next t ∧ changesOnly [.ldr] s t ∧
      t.ldr = { s.ldr with unchecked := min (s.ldr.unchecked + 1) (2 ^ 32 - 1) })

/-- For every state whose tables of tiles, stacks and ports, whose Pocket lines and whose selectors and written marks are
in canonical form (keys strictly rising, no default listed), every step that answers a next state leaves them in that
form. The form is the model's: it makes one machine state one piece of data. -/
def Obligations.SparseDataStaysCanonical : Prop :=
  ∀ s t : State, sparseOk s → step s = .next t → sparseOk t

/-- At the end of the commit-point slot a package with no notice and no fault, whose tiles hold no parcel, event or block move, and no
outbox entry but those that leave at the end of this slot (the model's choice, log 67), seals its step: every written hold line takes its next-step copy, every written pair turns its
selector over, all other lines and selectors and every block stay, and the seal keeps the step, its attempt and the
count. Where a tile does hold something the step is not sealed: STEP_RESIDUE faults the job. In another slot nothing
changes. -/
def Obligations.StepsSealAtTheCommitPoint : Prop :=
  ∀ s : State, s.pacer.running = true → running s = true →
    (s.job.slot ≠ curCommit s → exec .stepSeal s = .next s) ∧
    (sparseOk s → s.job.slot = curCommit s → s.job.sealed_ = none → s.job.notice = none → s.job.faulted = false →
      ((∀ u, (tileOf s u).inbox = [] ∧ (tileOf s u).events = [] ∧ (tileOf s u).mover = [] ∧
          ∀ x ∈ (tileOf s u).outbox, x.2.leaves = some s.job.slot) →
        ∃ t x, exec .stepSeal s = .next t ∧ changesOnly [.tiles, .mems, .job] s t ∧ t.job = { s.job with sealed_ := some x } ∧
          x.step = s.job.step ∧ x.attempt = s.job.attempt ∧ x.at_ = s.bridle.count ∧
          (∀ u l, lineAt (tileOf t u) l =
            (if isHold (regionsNow s u) l && (lineAt (tileOf s u) l).mark then
              { cur := (lineAt (tileOf s u) l).nxt, nxt := (lineAt (tileOf s u) l).cur, mark := false }
             else lineAt (tileOf s u) l)) ∧
          (∀ u, { tileOf t u with lines := (tileOf s u).lines } = tileOf s u) ∧
          (∀ k, (memOf t k).blocks = (memOf s k).blocks ∧ (memOf t k).mark = [] ∧
            ∀ b, look false b (memOf t k).sel = (look false b (memOf s k).sel != look false b (memOf s k).mark))) ∧
      ((∃ u, (tileOf s u).inbox ≠ [] ∨ (tileOf s u).events ≠ [] ∨ (tileOf s u).mover ≠ [] ∨
          ∃ y ∈ (tileOf s u).outbox, y.2.leaves ≠ some s.job.slot) → s.job.ownFault = none →
        (∀ u, toldIn s (tileOf s u) 63 = none) →
        ∃ t : State, exec .stepSeal s = .next t ∧ changesOnly [.tiles, .job, .settings, .test] s t ∧ t.job.sealed_ = none ∧
          t.job.faulted = true ∧ (t.job.ownFault.map (fun l => l.code)) = some 0x0408#16 ∧
          ∀ u, (tileOf t u).lines = (tileOf s u).lines))

/-- At 2D + 8 slots after the commit point, unless a notice applies there, the sealed step is final: what it delivered is
added to the work counters and leaves the provisional ones, one more step is counted, and no byte of a Pocket or a
stack changes. With no staged block of a final step nothing else changes but a held replay notice that names a final step, which
is dropped; the confirmed WINDOW count rises by one for each block written (the model's choice, log 44); a single staged BWR block of it (in panels that
the part owns, with no provenance record) is written to its slot: payload and Envelope, and no other byte of host
memory. A block that waits for the inputs of its record keeps back a block that comes after it, and neither is written. -/
def Obligations.SealedStepsBecomeFinal : Prop :=
  ∀ (s : State) (r : Reel) (x : Sealed), sparseOk s → s.pacer.running = true → running s = true → s.reel = some r →
    s.job.sealed_ = some x → (∀ n, s.job.notice = some n → n.applyAt ≠ s.bridle.count) →
    (s.bridle.count ≠ x.at_ + 2 * diam s + 8 → exec .stepFinal s = .next s) ∧
    (s.bridle.count = x.at_ + 2 * diam s + 8 →
      ∃ t : State, exec .stepFinal s = .next t ∧ t.job.sealed_ = none ∧ t.job.final = x.step ∧ t.job.step = s.job.step ∧
        t.work.steps = s.work.steps + 1 ∧ t.work.parcels = s.work.parcels + x.parcels ∧
        t.work.stores = s.work.stores + x.stores ∧
        t.work.parcelsProv = s.work.parcelsProv - x.parcels ∧ t.work.storesProv = s.work.storesProv - x.stores ∧
        t.work.windowProv = s.work.windowProv - x.window ∧ t.work.replays = s.work.replays ∧
        (∀ u l, (lineAt (tileOf t u) l).cur.data = (lineAt (tileOf s u) l).cur.data ∧
          (lineAt (tileOf t u) l).nxt.data = (lineAt (tileOf s u) l).nxt.data ∧
          (lineAt (tileOf t u) l).mark = (lineAt (tileOf s u) l).mark) ∧
        (∀ k, (memOf t k).blocks = (memOf s k).blocks ∧ (memOf t k).sel = (memOf s k).sel ∧
          (memOf t k).mark = (memOf s k).mark) ∧
        ((∀ b ∈ s.window.stage, b.released = false ∧ x.step < b.step) → changesOnly [.job, .work, .tiles, .mems] s t ∧
          t.work.window = s.work.window ∧
          t.job = { s.job with sealed_ := none, final := x.step, notice := t.job.notice } ∧
          (s.job.notice = none → t.job.notice = none) ∧
          (∀ n, s.job.notice = some n →
            t.job.notice = (if n.fault = true ∨ x.step < n.step then some n else none))) ∧
        (∀ b c, s.window.stage = [c, b] → b.released = false → c.released = false → b.step ≤ x.step → c.step ≤ x.step →
          (b.step < c.step ∨ (b.step = c.step ∧ b.slot < c.slot)) → awaitsInputs s r b = true →
          t.window.stage = [{ b with released := true }, { c with released := true }] ∧ hostMem t = hostMem s ∧
          t.work.window = s.work.window) ∧
        (∀ b, s.window.stage = [b] → b.released = false → b.step ≤ x.step → b.kind = .bwr → ownsPanels s b = true →
          nProv b.entry = false →
          changesOnly [.job, .work, .tiles, .mems, .stage, .host] s t ∧ t.window.stage = [] ∧
          t.work.window = s.work.window + 1 ∧
          readBytes (hostMem t) (payloadAddr s (nTarget b.entry)) 4096 = pageBytes b.blk.payload ∧
          readBytes (hostMem t) (envAddr s (nTarget b.entry)) 32 = envBytes b.blk.env ∧
          hostBut [(payloadAddr s (nTarget b.entry), 4096), (envAddr s (nTarget b.entry), 32)] s t))

/-- At the count at which a replay notice applies, slot 0 of the next attempt of its step begins: every sequencer is at
the first word, queues, event inputs, tags and marks are clear, the flag word is the saved one, and hold lines read
what the step began with. A step that was sealed and is not final is unsealed: its lines and selectors turn back.
Committed blocks stay, staged parcels and the staged blocks of the step are dropped, and one more replay is counted. A test
in a window goes on only where the step's pattern covers its unit. -/
def Obligations.RewindRestartsTheStep : Prop :=
  ∀ (s : State) (r : Reel) (n : Notice) (pat ph : Nat), sparseOk s → s.pacer.running = true → running s = true →
    s.job.faulted = false → s.reel = some r → s.job.notice = some n → n.fault = false → n.final = false →
    stepPlan r n.step = some (pat, ph) →
    (n.applyAt ≠ s.bridle.count → exec .rewind s = .next s) ∧
    (n.applyAt = s.bridle.count →
      ∃ t : State, exec .rewind s = .next t ∧ t.job.step = n.step ∧ t.job.attempt = n.attempt + 1 ∧ t.job.slot = 0 ∧
        t.job.pattern = pat ∧ t.job.phase = ph ∧ t.job.notice = none ∧ t.job.faulted = false ∧ t.job.st = .running ∧
        t.work.replays = s.work.replays + 1 ∧ t.localq = [] ∧ t.transits = [] ∧
        changesOnly (([.tiles, .mems, .ports, .localq, .transits, .shadowed, .stage, .work, .job, .power, .test, .totals] :
          List Part) ++ moves) s t ∧
        (noHeld s →
          changesOnly [.tiles, .mems, .ports, .localq, .transits, .shadowed, .stage, .work, .job, .power, .test] s t) ∧
        (∀ w, s.sec.test = some w → w.by_ = .window → windowCovers r w.unit pat = false → t.sec.test = none) ∧
        (∀ w, s.sec.test = some w → w.by_ ≠ .window ∨ windowCovers r w.unit pat = true → t.sec.test = s.sec.test) ∧
        (∀ u, u < 1024 → (tileOf t u).todo = stepWords r u ph pat ∧ (tileOf t u).inbox = [] ∧ (tileOf t u).outbox = [] ∧
          (tileOf t u).mover = [] ∧ (tileOf t u).events = [] ∧ (tileOf t u).flight = none ∧ (tileOf t u).halted = false ∧
          ∀ l, (lineAt (tileOf t u) l).mark = false ∧ (lineAt (tileOf t u) l).cur.pdue = 0 ∧
            (lineAt (tileOf t u) l).cur.cdue = 0) ∧
        (∀ k, (memOf t k).blocks = (memOf s k).blocks ∧ (memOf t k).mark = []) ∧
        (∀ p, (portOf t p).staged = [] ∧ (portOf t p).st = (portOf s p).st) ∧
        t.window.stage = s.window.stage.filter (fun b => b.released || decide (b.step < n.step)) ∧
        ((∀ x, s.job.sealed_ = some x → x.step ≠ n.step) →
          (∀ u, u < 1024 → (tileOf t u).flags = (tileOf s u).savedFlags ∧
            ∀ l, (lineAt (tileOf t u) l).cur.data = (lineAt (tileOf s u) l).cur.data) ∧
          (∀ k, (memOf t k).sel = (memOf s k).sel) ∧ t.job.sealed_ = s.job.sealed_) ∧
        (∀ x, s.job.sealed_ = some x → x.step = n.step → x.lines.Nodup → x.pairs.Nodup →
          (x.flags.map (fun y => y.1)).Nodup →
          t.job.sealed_ = none ∧
          (∀ u l, u < 1024 → (lineAt (tileOf t u) l).cur.data =
            (if (u, l) ∈ x.lines then (lineAt (tileOf s u) l).nxt.data else (lineAt (tileOf s u) l).cur.data)) ∧
          (∀ k b, look false b (memOf t k).sel =
            (if (k, b) ∈ x.pairs then !look false b (memOf s k).sel else look false b (memOf s k).sel)) ∧
          (∀ u f, u < 1024 → (u, f) ∈ x.flags → (tileOf t u).flags = f)))

/-- At the count that an armed launch names, step 1 begins in slot 0: every tile of the package is at its first word with
its Pocket as loaded, and only the digests of resident inputs stay chained. A fault notice or the notice of a third
attempt ends the job at its apply-at count: the tiles stop, one more fault and one more failure record are written,
and the Reel stays unless it uses a unit that leaves service. A job whose last step is final, with its window work
done, ends with status 0 (5 where a tree or an addition was abandoned): its record carries the launch's tag and the
energy. A test in a window ends with the job, and where it holds back no result the job's end counts nothing for it. -/
def Obligations.JobsStartAndEnd : Prop :=
  (∀ (s : State) (r : Reel) (pat ph : Nat), sparseOk s → s.pacer.running = true → armed s = true → s.reel = some r →
    stepPlan r 1 = some (pat, ph) →
    (s.job.start ≠ s.bridle.count → exec .launchFire s = .next s) ∧
    (s.job.start = s.bridle.count →
      ∃ t : State, exec .launchFire s = .next t ∧ t.job.st = .running ∧ t.job.step = 1 ∧ t.job.attempt = 1 ∧ t.job.slot = 0 ∧
        t.job.start = s.job.start ∧ t.job.launch = s.job.launch ∧ t.job.final = 0 ∧ t.job.sealed_ = none ∧
        (∀ u, u < 1024 → (tileOf t u).todo = stepWords r u ph pat ∧ (tileOf t u).inbox = [] ∧
          ∀ l, (lineAt (tileOf t u) l).cur.data = (lineAt (tileOf s u) l).cur.data) ∧
        t.det.leaves = s.det.leaves.take (residentInputs r) ∧
        (s.job.fenceNow = none → t.job.notice = none ∧ t.job.faulted = false ∧
          changesOnly [.job, .tiles, .shadowed, .det, .power] s t) ∧
        (∀ u, s.job.fenceNow = some u → t.job.faulted = true ∧
          (t.job.ownFault.map (fun l => (l.code, l.unit))) = some (0x0F01#16, u)))) ∧
  (∀ (s : State) (n : Notice), s.pacer.running = true → running s = true → s.job.notice = some n →
    n.applyAt = s.bridle.count → n.fault = true ∨ n.final = true →
    ∃ t : State, exec .jobFaultApply s = .next t ∧ changesOnly jobEnds s t ∧ t.job.st = .idle ∧ t.job.faulted = true ∧
      t.job.notice = none ∧ t.job.lastCode = n.code ∧ t.job.lastOrigin = n.origin ∧
      (noHeld s → t.sec.totals = { s.sec.totals with faults := s.sec.totals.faults + 1 } ∧
        t.sec.fsrSeq = nextSeq s.sec.fsrSeq) ∧
      (∀ w, s.sec.test = some w → w.by_ = .window → t.sec.test = none) ∧
      t.window.stage = [] ∧ (∀ u, (tileOf t u).flight = none) ∧
      ((∀ x ∈ s.store.set.units, x.2.held = false) → firstOut s = none → t.reel = s.reel)) ∧
  (∀ (s : State) (r : Reel) (l : Rec), running s = true → s.job.notice = none → s.job.faulted = false →
    s.job.sealed_ = none → windowDrained s = true → s.reel = some r → s.job.final = stepTotal r → noHeld s →
    (∀ x ∈ s.store.set.units, x.2.held = false) → firstOut s = none →
    l = jobEndRec s.job.launch (if s.job.abandoned then 5 else 0) s.power.jobEnergy →
    l.tag = s.job.launch.tag ∧ l.final = true ∧ l.status = (if s.job.abandoned then 0x0005#16 else 0) ∧ l.countInfo = true ∧
    ∃ t : State, exec .jobComplete s = .next t ∧ changesOnly jobEnds s t ∧ t.job.st = .idle ∧ t.job.faulted = false ∧
      t.reel = s.reel ∧ t.sec.totals = s.sec.totals ∧ t.work.steps = s.work.steps ∧
      t.rings = (complete l s).rings ∧ hostMem t = hostMem (complete l s)) ∧
  (∀ s : State, windowDrained s = false → exec .jobComplete s = .next s)

/-- In its service slot the oldest request is served: a complete BLD without an uncorrectable burst keeps the block that
its entry names and changes no stack; a complete BST on a trained stack fills the uncommitted side of its pair, marks
it and leaves selectors, the committed side and every other block as they were; a window move joins the stage. In its
retire slot the request leaves the mover: a block that passes its checks is written to the page, one that fails is
ENV_CHECK, and a transfer that has not completed is MEM_LATE. A failed one writes no line. A request that carries no block
(log 78) stores and stages nothing. -/
def Obligations.BlockMovesServeAndRetire : Prop :=
  (∀ (s : State) (u i : Nat) (q : MoveReq) (r : MoveService), u < 1024 → running s = true →
    findMove (fun q => !q.served && q.serve == s.job.slot) (tileOf s u).mover = some (i, q) →
    (q.kind = .bld → loadBlock s q.entry < 25165824 → r.complete = true → r.uncorrectable = 0 →
      (memOf s (bStack q.entry)).st = .trained →
      ∃ t : State, exec (.blockMoveService u r) s = .next t ∧ changesOnly [.tiles, .totals, .health] s t ∧ tilesBut u s t ∧
        tileOf t u = { tileOf s u with
          mover := ((tileOf s u).mover.set i ({ q with
            served := true, complete := true, uncorr := false,
            blk := some (blkAt s (bStack q.entry) (loadBlock s q.entry)) })) } ∧
        t.sec.totals = { s.sec.totals with memCorr := s.sec.totals.memCorr + r.corrected }) ∧
    (∀ v, q.kind = .bst → q.blk = some v → sideBlock s (bStack q.entry) (bBlock q.entry) true < 25165824 →
      r.complete = true → r.uncorrectable = 0 → (memOf s (bStack q.entry)).st = .trained →
      ∃ t : State, exec (.blockMoveService u r) s = .next t ∧ changesOnly [.tiles, .totals, .health, .mems, .work] s t ∧
        tilesBut u s t ∧ memsBut (bStack q.entry) s t ∧
        (∀ b, blkAt t (bStack q.entry) b =
          (if b = sideBlock s (bStack q.entry) (bBlock q.entry) true then v else blkAt s (bStack q.entry) b)) ∧
        sideBlock s (bStack q.entry) (bBlock q.entry) true ≠ sideBlock s (bStack q.entry) (bBlock q.entry) false ∧
        (memOf t (bStack q.entry)).sel = (memOf s (bStack q.entry)).sel ∧
        (∀ b, look false b (memOf t (bStack q.entry)).mark =
          (b == bBlock q.entry || look false b (memOf s (bStack q.entry)).mark)) ∧
        t.work = { s.work with storesProv := s.work.storesProv + 1 }) ∧
    (∀ v, q.kind ≠ .bld → q.kind ≠ .bst → q.blk = some v →
      ∃ t b, exec (.blockMoveService u r) s = .next t ∧ changesOnly [.tiles, .stage, .work] s t ∧ tilesBut u s t ∧
        t.window.stage = s.window.stage ++ [b] ∧ b.blk = v ∧ b.kind = q.kind ∧ b.entry = q.entry ∧ b.unit = u ∧
        b.step = s.job.step ∧ b.attempt = s.job.attempt ∧ b.slot = q.slot ∧ b.token = q.token ∧ b.released = false ∧
        t.work = { s.work with windowProv := s.work.windowProv + 1 }) ∧
    (q.kind ≠ .bld → q.blk = none → sideBlock s (bStack q.entry) (bBlock q.entry) true < 25165824 →
      (q.kind = .bst → r.uncorrectable = 0) →
      ∃ t : State, exec (.blockMoveService u r) s = .next t ∧ changesOnly [.tiles, .totals, .health] s t ∧ tilesBut u s t) ∧
    (q.kind = .bld → loadBlock s q.entry < 25165824 → 0 < r.uncorrectable → toldIn s (tileOf s u) 63 = none →
      ∃ t : State, exec (.blockMoveService u r) s = .next t ∧ changesOnly (.tiles :: detects) s t ∧ (tileOf t u).detected = true ∧
        (tileOf t u).lines = (tileOf s u).lines ∧
        t.sec.totals = { s.sec.totals with detect := s.sec.totals.detect + 1,
                                           memCorr := s.sec.totals.memCorr + r.corrected,
                                           memUncorr := s.sec.totals.memUncorr + r.uncorrectable })) ∧
  (∀ (s : State) (u i : Nat) (q : MoveReq), u < 1024 → running s = true →
    findMove (fun q => q.retire == s.job.slot) (tileOf s u).mover = some (i, q) →
    (∀ b, q.kind = .bld → q.complete = true → q.blk = some b → loadOk s q.entry b = true →
      ∃ t : State, exec (.blockMoveRetire u) s = .next t ∧ changesOnly [.tiles] s t ∧ tilesBut u s t ∧
        (tileOf t u).mover = (tileOf s u).mover.eraseIdx i ∧
        (∀ j, j < 16 → (lineAt (tileOf t u) (q.page + j)).mark = true ∧
          (if isHold (regionsNow s u) (q.page + j) then (lineAt (tileOf t u) (q.page + j)).nxt
           else (lineAt (tileOf t u) (q.page + j)).cur).data = b.payload.extractLsb' (2048 * j) 2048) ∧
        (∀ l, l < q.page ∨ q.page + 16 ≤ l → lineAt (tileOf t u) l = lineAt (tileOf s u) l)) ∧
    (∀ b, q.kind = .bld → q.complete = true → q.blk = some b → loadOk s q.entry b = false →
      toldIn s (tileOf s u) 63 = none →
      ∃ t : State, exec (.blockMoveRetire u) s = .next t ∧ changesOnly (.tiles :: detects) s t ∧ tilesBut u s t ∧
        (tileOf t u).mover = (tileOf s u).mover.eraseIdx i ∧ (tileOf t u).lines = (tileOf s u).lines ∧
        (tileOf t u).detected = true ∧
        t.sec.totals = { s.sec.totals with detect := s.sec.totals.detect + 1, env := s.sec.totals.env + 1 }) ∧
    (q.kind = .bld ∨ q.kind = .bst → q.complete = false → toldIn s (tileOf s u) 63 = none →
      ∃ t : State, exec (.blockMoveRetire u) s = .next t ∧ changesOnly (.tiles :: detects) s t ∧ tilesBut u s t ∧
        (tileOf t u).mover = (tileOf s u).mover.eraseIdx i ∧ (tileOf t u).lines = (tileOf s u).lines ∧
        (tileOf t u).detected = true ∧
        t.sec.totals = { s.sec.totals with detect := s.sec.totals.detect + 1, late := s.sec.totals.late + 1 }) ∧
    (q.kind ≠ .bld → (q.kind = .bst → q.complete = true) →
      ∃ t : State, exec (.blockMoveRetire u) s = .next t ∧ changesOnly [.tiles] s t ∧ tilesBut u s t ∧
        tileOf t u = { tileOf s u with mover := (tileOf s u).mover.eraseIdx i }))

/-- A home that a far-fill record names, in a panel that the part owns, is held as the window shows it. In its slot a
far-fill writes the held block to its cache block and no other, and hashes it when it is the first fill of an input; the digest
takes an input when every one before it has been taken, and keeps the hash of one that comes early. With none
held it writes nothing; in a panel that the part does not own it faults the job. A stack that leaves its trained state
is LOST with its blocks as they were, and faults a running job. -/
def Obligations.FarTierAndLostStacks : Prop :=
  (∀ (s : State) (r : Reel) (home : Nat), s.reel = some r → devicePanel s (home / 15) = true →
    (∃ f ∈ pkgRecs r secFarFill, fHome f = home) →
    ∃ t : State, exec (.farBlockArrival home .quiet) s = .next t ∧ changesOnly [.far] s t ∧
      find? home t.far.held = some (slotBlk s home) ∧
      (∀ k, k ≠ home → find? k t.far.held = find? k s.far.held) ∧ t.far.written = s.far.written) ∧
  (∀ (s : State) (r : Reel) (f : BitVec 256) (i : Nat), running s = true → s.reel = some r →
    (pkgRecs r secFarFill)[i]? = some f → fBlock f < 25165824 →
    (fStep f ≠ s.job.step ∨ fSlot f ≠ s.job.slot → exec (.farFill i) s = .next s) ∧
    (∀ b, fStep f = s.job.step → fSlot f = s.job.slot → devicePanel s (fHome f / 15) = true →
      find? (fHome f) s.far.held = some b → (∀ x ∈ s.window.stage, x.released = false) →
      ∃ t : State, exec (.farFill i) s = .next t ∧ changesOnly [.mems, .far, .det] s t ∧ memsBut (fStack f) s t ∧
        (∀ n, blkAt t (fStack f) n = (if n = fBlock f then b else blkAt s (fStack f) n)) ∧
        (memOf t (fStack f)).st = (memOf s (fStack f)).st ∧ (memOf t (fStack f)).sel = (memOf s (fStack f)).sel ∧
        look false (cacheKey (fStack f) (fBlock f)) t.far.written = true ∧ t.far.held = s.far.held ∧
        (∀ l, (pkgRecs r secInputs)[s.det.leaves.length]? = some l → fills l f = true →
          find? s.det.leaves.length s.det.filled = none →
          ∃ more, t.det.leaves = s.det.leaves ++ leafOf (lTag l) b.payload :: more ∧
            (s.det.filled = [] → (∀ j l, s.det.leaves.length < j → (pkgRecs r secInputs)[j]? = some l → fills l f = false) →
              more = [])) ∧
        (∀ j l, s.det.leaves.length < j → (pkgRecs r secInputs)[j]? = some l → fills l f = true → s.det.filled = [] →
          ((pkgRecs r secInputs)[s.det.leaves.length]?).any (fun x => fills x f) = false →
          t.det.leaves = s.det.leaves ∧ find? j t.det.filled = some (leafOf (lTag l) b.payload)) ∧
        ((∀ l ∈ pkgRecs r secInputs, fills l f = false) → t.det = s.det)) ∧
    (fStep f = s.job.step → fSlot f = s.job.slot → devicePanel s (fHome f / 15) = true →
      find? (fHome f) s.far.held = none →
      ∃ t : State, exec (.farFill i) s = .next t ∧ changesOnly [.far] s t ∧
        look false (cacheKey (fStack f) (fBlock f)) t.far.written = false ∧ t.far.held = s.far.held) ∧
    (fStep f = s.job.step → fSlot f = s.job.slot → devicePanel s (fHome f / 15) = false → s.job.ownFault = none →
      ∃ t : State, exec (.farFill i) s = .next t ∧ t.job.faulted = true ∧ t.mems = s.mems ∧
        (t.job.ownFault.map (fun l => (l.code, l.unit))) = some (0x0D01#16, 0xC002#16) ∧
        changesOnly [.far, .job, .settings, .test] s t)) ∧
  (∀ (s : State) (k : Nat), stackPop s k = true → (memOf s k).st = .trained →
    ∃ t : State, exec (.stackLost k) s = .next t ∧ memsBut k s t ∧ memOf t k = { memOf s k with st := .lost } ∧
      (running s = false → changesOnly [.mems] s t) ∧
      (running s = true → t.job.faulted = true ∧ changesOnly [.mems, .job, .settings, .test] s t))

/-- While the target's lock word is not 0 an attempt changes nothing. With the lock word 0 and a sound target, each INT32
element of the target becomes the exact sum with the contribution, saturated once; the Envelope is built anew over the
sum, the lock word reads 0 afterwards, no other byte of host memory changes, and the addition is no longer pending. A
target that is not sound, or an addition that stays locked for its time, is abandoned: one event, and the target keeps
its bytes unless the event ring lies there. That lock, addition and freeing are one command, that TAG comes from the window
entry and FMT from the contribution, and that a timeout runs in a stop as well are the model's choice (log 47). -/
def Obligations.AdditionsUnderALock : Prop :=
  (∀ (s : State) (i : Nat) (b : StageBlk), s.stop.stopped = false → s.window.gaccs[i]? = some b →
    (ofLe (readBytes (hostMem s) (lockAddr s (nTarget b.entry)) 8) ≠ 0 →
      exec (.gaccLockAttempt i false .quiet) s = .next s) ∧
    (ofLe (readBytes (hostMem s) (lockAddr s (nTarget b.entry)) 8) = 0 →
      envSound (slotEnv s (nTarget b.entry)) (pageBytes (slotBlk s (nTarget b.entry)).payload) = true →
      eFmt b.blk.env = 6 →
      ∃ t : State, exec (.gaccLockAttempt i false .quiet) s = .next t ∧ changesOnly [.gaccs, .host, .work] s t ∧
        t.work = { s.work with window := s.work.window + 1 } ∧
        t.window.gaccs = s.window.gaccs.eraseIdx i ∧
        (∀ k, k < 1024 → intAt 32 (slotBlk t (nTarget b.entry)).payload.toNat k =
          saturated 32 (intAt 32 (slotBlk s (nTarget b.entry)).payload.toNat k + intAt 32 b.blk.payload.toNat k)) ∧
        slotEnv t (nTarget b.entry) = mkEnv (pageBytes (slotBlk t (nTarget b.entry)).payload)
          (residues (pageBytes (slotBlk t (nTarget b.entry)).payload)) (nTag b.entry) b.step 6 ∧
        ofLe (readBytes (hostMem t) (lockAddr t (nTarget b.entry)) 8) = 0 ∧
        hostBut [(payloadAddr s (nTarget b.entry), 4096), (envAddr s (nTarget b.entry), 32),
          (lockAddr s (nTarget b.entry), 8)] s t) ∧
    (ofLe (readBytes (hostMem s) (lockAddr s (nTarget b.entry)) 8) = 0 →
      envSound (slotEnv s (nTarget b.entry)) (pageBytes (slotBlk s (nTarget b.entry)).payload) = false →
      ∃ t : State, exec (.gaccLockAttempt i false .quiet) s = .next t ∧ changesOnly (([.gaccs, .job] : List Part) ++ posts) s t ∧
        t.window.gaccs = s.window.gaccs.eraseIdx i ∧ t.rings.seq = nextSeq s.rings.seq ∧
        (running s = true → b.start = s.job.start → t.job.abandoned = true) ∧
        (s.rings.committed.enable = false → hostMem t = hostMem s) ∧
        hostBut [(s.rings.committed.eq.toNat + 32 * (s.rings.eqTail.toNat % 2 ^ s.rings.committed.szEq.toNat), 32),
          (s.rings.committed.db.toNat + 64, 24)] s t)) ∧
  (∀ (s : State) (i : Nat) (b : StageBlk), s.window.gaccs[i]? = some b →
    ∃ t : State, exec (.gaccLockTimeout i) s = .next t ∧ changesOnly (([.gaccs, .job] : List Part) ++ posts) s t ∧
      t.window.gaccs = s.window.gaccs.eraseIdx i ∧ t.rings.seq = nextSeq s.rings.seq ∧
      t.job = { s.job with abandoned := s.job.abandoned || (running s && s.job.start == b.start) } ∧
      (s.rings.committed.enable = false → hostMem t = hostMem s) ∧
      hostBut [(s.rings.committed.eq.toNat + 32 * (s.rings.eqTail.toNat % 2 ^ s.rings.committed.szEq.toNat), 32),
        (s.rings.committed.db.toNat + 64, 24)] s t)

/-- A poll that finds a leaf absent changes nothing. With every leaf present, each INT32 element of the target is the
exact sum of the leaves' elements, saturated once; the Envelope is built over it, no other byte of host memory
changes, and the tree's place goes to the longest waiting tree. A tree that runs out of time is abandoned. A panel of
a take becomes HOST once no released write targets it; the take's record follows when all of its panels have. That a tree's
timeout acts in every state is the model's choice (log 47), which work counts as targeting a panel is log 48. -/
def Obligations.TreesAndMovingPanels : Prop :=
  (∀ (s : State) (i : Nat) (x : Tree), s.stop.stopped = false → s.window.trees[i]? = some x →
    ((∃ b ∈ treeLeaves s x, leafReady x.step b = false) → exec (.gtreePoll i .quiet) s = .next s) ∧
    ((∀ b ∈ treeLeaves s x, leafReady x.step b = true) → x.fmt = 6 →
      ∃ t : State, exec (.gtreePoll i .quiet) s = .next t ∧ changesOnly [.trees, .waiting, .host] s t ∧
        t.window.trees = s.window.trees.eraseIdx i ++ s.window.waiting.take 1 ∧
        t.window.waiting = s.window.waiting.drop 1 ∧
        (∀ k, k < 1024 → intAt 32 (slotBlk t (nTarget x.entry)).payload.toNat k =
          saturated 32 (((treeLeaves s x).map (fun b => intAt 32 b.payload.toNat k)).sum)) ∧
        slotEnv t (nTarget x.entry) = mkEnv (pageBytes (slotBlk t (nTarget x.entry)).payload)
          (residues (pageBytes (slotBlk t (nTarget x.entry)).payload)) (nTag x.entry) x.step 6 ∧
        hostBut [(payloadAddr s (nTarget x.entry), 4096), (envAddr s (nTarget x.entry), 32)] s t)) ∧
  (∀ (s : State) (i : Nat) (x : Tree), s.window.trees[i]? = some x →
    ∃ t : State, exec (.gtreeTimeout i) s = .next t ∧ changesOnly (([.trees, .waiting, .job] : List Part) ++ posts) s t ∧
      t.window.trees = s.window.trees.eraseIdx i ++ s.window.waiting.take 1 ∧ t.rings.seq = nextSeq s.rings.seq ∧
      t.job = { s.job with abandoned := s.job.abandoned || (running s && s.job.start == x.start) } ∧
      hostBut [(s.rings.committed.eq.toNat + 32 * (s.rings.eqTail.toNat % 2 ^ s.rings.committed.szEq.toNat), 32),
        (s.rings.committed.db.toNat + 64, 24)] s t) ∧
  (∀ (s : State) (i us : Nat) (x : TakeRef), s.window.takes[i]? = some x →
    ((∃ k, k < x.count ∧ panelPending s (x.first + k) = true ∧ (panelOf s (x.first + k)).st = .moving) →
      ∃ t : State, exec (.panelMoveDone i us) s = .next t ∧ changesOnly [.panels] s t ∧ t.window.takes = s.window.takes ∧
        (∀ p, panelOf t p = (if x.first ≤ p ∧ p < x.first + x.count ∧ (panelOf s p).st = .moving ∧ panelPending s p = false then
          { panelOf s p with st := .host } else panelOf s p))) ∧
    ((∀ k, k < x.count → panelPending s (x.first + k) = false) →
      ∃ t : State, exec (.panelMoveDone i us) s = .next t ∧ changesOnly [.panels, .takes, .ringOut, .ringRegs, .host] s t ∧
        t.window.takes = s.window.takes.eraseIdx i ∧
        (∀ p, panelOf t p = (if x.first ≤ p ∧ p < x.first + x.count ∧ (panelOf s p).st = .moving then
          { panelOf s p with st := .host } else panelOf s p)) ∧
        t.rings = (complete (takeRec x us) s).rings ∧ hostMem t = hostMem (complete (takeRec x us) s)))

/-- A NOP that the part starts leaves one record of 32 bytes at CQ_TAIL's entry: TAG, OPCODE, FINAL with the ring's phase,
status OK, UNIT_GEN, the count at which it was fetched and 16 zero bytes of INFO; CQ_TAIL and the fetched count rise
by 1, and no host byte outside the entry and the part's line changes. A malformed one and a reserved opcode are
BAD_DESCRIPTOR. UNLOAD with a Reel and no job leaves no Reel, no digest and no loader position; without a Reel it is
NO_REEL and in a job BUSY. A descriptor that the part may not start changes nothing (a descriptor is one command that the
part starts when it may, the model's choice, log 1). -/
def Obligations.RecordsFollowDescriptors : Prop :=
  (∀ (s : State) (d : BitVec 512) (a : Nat), canStart s = true → dOp d = 0 → bareOk d = true → s.rings.due = [] →
    a = s.rings.committed.cq.toNat + 32 * (s.rings.cqTail.toNat % 2 ^ s.rings.committed.szCq.toNat) →
    a + 32 ≤ s.rings.committed.db.toNat + 64 ∨ s.rings.committed.db.toNat + 64 + 24 ≤ a →
    ∃ t : State, exec (.nopDescriptor d) s = .next t ∧ changesOnly recordParts s t ∧
      readBytes (hostMem t) a 32 = leBytes 4 (fld d 32 32) ++ [0] ++
        leBytes 1 (phaseBit s.rings.cqTail s.rings.committed.szCq + 2) ++ leBytes 2 0 ++ leBytes 4 s.unitGen ++
        leBytes 4 s.rings.sqDone.toNat ++ leBytes 16 0 ∧
      t.rings.cqTail = s.rings.cqTail + 1 ∧ t.rings.sqDone = s.rings.sqDone + 1 ∧ t.rings.due = [] ∧
      hostBut [(a, 32), (s.rings.committed.db.toNat + 64, 24)] s t) ∧
  (∀ (s : State) (d : BitVec 512), canStart s = true → (dOp d = 0 ∧ bareOk d = false) →
    ∃ t : State, exec (.nopDescriptor d) s = .next t ∧ changesOnly recordParts s t ∧
      recordedAs (recOf d (sqNext s) true 0x10 []) s t) ∧
  (∀ (s : State) (d : BitVec 512), canStart s = true → 0x0C ≤ dOp d →
    ∃ t : State, exec (.reservedOpcode d) s = .next t ∧ changesOnly recordParts s t ∧
      recordedAs (recOf d (sqNext s) true 0x10 []) s t) ∧
  (∀ (s : State) (d : BitVec 512), canStart s = true → dOp d = 3 → bareOk d = true →
    (s.reel = none → ∃ t : State, exec (.unload d) s = .next t ∧ changesOnly recordParts s t ∧
      recordedAs (recOf d (sqNext s) true 0x11 []) s t) ∧
    (s.reel ≠ none → jobBusy s = true → ∃ t : State, exec (.unload d) s = .next t ∧ changesOnly recordParts s t ∧
      recordedAs (recOf d (sqNext s) true 0x12 []) s t) ∧
    (s.reel ≠ none → jobBusy s = false → ∃ t : State, exec (.unload d) s = .next t ∧
      changesOnly (recordParts ++ ([.reel, .far, .det, .ldr, .ports, .power] : List Part)) s t ∧ t.reel = none ∧ t.det.leaves = [] ∧
      t.det.latched = 0 ∧ t.far.held = [] ∧ t.ldr.debug = s.ldr.debug ∧ t.ldr.status = s.ldr.status ∧
      recordedAs (recOf d (sqNext s) true 0 []) s t)) ∧
  (∀ (s : State) (d : BitVec 512), canStart s = false →
    ∀ c ∈ [Instr.nopDescriptor d, .reservedOpcode d, .unload d, .clear d, .launchAt d, .cancel d, .windowMap d, .panelGive d,
      .panelTake d, .storeSettings d, .patch d, .load d], exec c s = .next s)

/-- A well-formed CLEAR that the part starts while it is not stopped leaves one record with status OK and INFO 0 and
changes nothing but the rings that carry it. -/
def Obligations.ClearOfARunningPackage : Prop :=
  ∀ (s : State) (d : BitVec 512), canStart s = true → dOp d = 0x0B → bareOk d = true → s.stop.stopped = false →
    ∃ t : State, exec (.clear d) s = .next t ∧ changesOnly recordParts s t ∧ recordedAs (recOf d (sqNext s) true 0 []) s t ∧
      (recOf d (sqNext s) true 0 []).status = 0 ∧
      (recBytes s (recOf d (sqNext s) true 0 [])).drop 16 = List.replicate 16 0

/-- A well-formed LAUNCH_AT that a package in service starts names S. It is refused, with one final record and nothing
else changed, with NO_REEL when no Reel is loaded, else BUSY when a launch is armed or a job runs, else NOT_SYNCED
when the package is not SYNCED, else LATE when the count is at or above S - 16. Otherwise the launch is armed for S. -/
def Obligations.LaunchAtIsCheckedInOrder : Prop :=
  ∀ (s : State) (d : BitVec 512), canStart s = true → dOp d = 0x07 → headOk d false = true → zeros d 128 384 = true →
    s.stop.stopped = false →
    (∀ code, (code = 0x11 ∧ s.reel = none) ∨ (code = 0x12 ∧ s.reel ≠ none ∧ s.job.st ≠ .idle) ∨
        (code = 0x13 ∧ s.reel ≠ none ∧ s.job.st = .idle ∧ s.bridle.st ≠ .synced) ∨
        (code = 0x14 ∧ s.reel ≠ none ∧ s.job.st = .idle ∧ s.bridle.st = .synced ∧ fld d 64 64 ≤ s.bridle.count + 16) →
      ∃ t : State, exec (.launchAt d) s = .next t ∧ changesOnly recordParts s t ∧
        recordedAs { recOf d (sqNext s) true code [] with countInfo := true } s t) ∧
    (s.reel ≠ none → s.job.st = .idle → s.bridle.st = .synced → s.bridle.count + 16 < fld d 64 64 →
      ∃ t : State, exec (.launchAt d) s = .next t ∧ changesOnly (.job :: recordParts) s t ∧
        recordedAs { recOf d (sqNext s) false 1 [] with countInfo := true } s t ∧
        t.job = { s.job with st := .armed, start := fld d 64 64, launch := { tag := dTag d, sq := sqNext s },
                             fenceNow := none, abandoned := false })

/-- A CANCEL of an idle package leaves one record with INFO 0. With a launch armed or a job running the package is idle
afterwards: the launch's record, with DISARMED or JOB_CANCELLED, comes first and the CANCEL's own, with bit 0 or bit 1
of INFO set, second. The Reel stays loaded unless it uses a unit that leaves service, and no fault is counted. While
COOL_FLOW_N is low, a junction reads 95 degrees or more, VIN48 lies outside 40.0 to 59.5 V or LREF0 is absent, a CLEAR
of a stopped package is CAUSE_PRESENT and changes nothing else. Otherwise the stop and its causes clear, THERM_TRIP_N
is released, the rails stand at V3, SELF_TEST begins, every panel is FREE, the stacks in service leave self-refresh
with their blocks, CLEARED is posted and the newest log entry is of kind 3. -/
def Obligations.CancelAndClear : Prop :=
  (∀ (s : State) (d : BitVec 512), canStart s = true → dOp d = 0x08 → bareOk d = true →
    (s.job.st = .idle → ∃ t : State, exec (.cancel d) s = .next t ∧ changesOnly recordParts s t ∧
      recordedAs (recOf d (sqNext s) true 0 [0]) s t) ∧
    (∀ status info e, (s.job.st = .armed ∧ status = 2 ∧ info = 1) ∨ (s.job.st = .running ∧ status = 3 ∧ info = 2) →
      (∀ x ∈ s.store.set.units, x.2.held = false) → firstOut s = none → noHeld s →
      e = jobEndRec s.job.launch status s.power.jobEnergy →
      ∃ t : State, exec (.cancel d) s = .next t ∧ changesOnly (recordParts ++ jobEnds) s t ∧ t.job.st = .idle ∧
        t.reel = s.reel ∧ t.sec.totals = s.sec.totals ∧ t.window.panels = s.window.panels ∧
        t.rings = (complete (recOf d (sqNext s) true 0 [BitVec.ofNat 8 info]) (complete e (takeDesc s))).rings ∧
        hostMem t = hostMem (complete (recOf d (sqNext s) true 0 [BitVec.ofNat 8 info]) (complete e (takeDesc s))))) ∧
  (∀ (s : State) (d : BitVec 512), canStart s = true → dOp d = 0x0B → bareOk d = true → s.stop.stopped = true →
    (s.tray.coolFlowN = false ∨ 95 ≤ s.tray.tMax ∨ s.tray.vin48 < 40000 ∨ 59500 < s.tray.vin48 ∨ s.tray.lref0 = false →
      ∃ t : State, exec (.clear d) s = .next t ∧ changesOnly recordParts s t ∧
        recordedAs (recOf d (sqNext s) true 0x1D []) s t) ∧
    (s.tray.coolFlowN = true → s.tray.tMax < 95 → 40000 ≤ s.tray.vin48 → s.tray.vin48 ≤ 59500 → s.tray.lref0 = true →
      ∃ t : State, exec (.clear d) s = .next t ∧ t.stop = State.reset.stop ∧ t.tray = { s.tray with thermTripN := true } ∧
        t.power.cls = 3 ∧ t.pacer.running = true ∧ t.boot.stage = .selfTest ∧
        t.window.size = s.window.size ∧ (∀ p, (panelOf t p).st = .free) ∧ t.window.stage = [] ∧ t.window.gaccs = [] ∧
        t.rings.seq = nextSeq s.rings.seq ∧
        (t.store.set.log.getLast?.map (fun e => e.getD 24 0)) = some 3 ∧
        (∀ k, (memOf t k).blocks = (memOf s k).blocks) ∧
        (∀ k, k < 8 → (memOf s k).st = .selfRefresh → unitSt s (1072 + k) = .active → (memOf t k).st = .trained)))

/-- A well-formed WINDOW_MAP of FREE panels ties each to its 64 KiB host page as HOST, in the format that it names, and
one with UNMAP makes HOST panels FREE. PANEL_GIVE makes HOST panels DEVICE; PANEL_TAKE makes DEVICE panels HOST, those
that released writes still target MOVING, and its record waits for these; the staged ones among them note the panels that wait (log 48). A panel of the range in another state
refuses the whole descriptor as PANEL_STATE, and a take of a far-tier or leaf panel during a job as PANEL_IN_USE, with
no panel changed. -/
def Obligations.PanelsChangeHands : Prop :=
  ∀ (s : State) (d : BitVec 512) (a n : Nat), canStart s = true → headOk d false = true → a = fld d 64 32 → n = fld d 96 32 →
    1 ≤ n → n ≤ 65536 → a + n ≤ s.window.size →
    (dOp d = 0x04 → zeros d 194 318 = true → zeros d 128 16 = true → bit d 193 = false →
      ((∀ k, k < n → (panelOf s (a + k)).st = .free) →
        ∃ t : State, exec (.windowMap d) s = .next t ∧ changesOnly (.panels :: recordParts) s t ∧
          recordedAs (recOf d (sqNext s) true 0 []) s t ∧
          (∀ k, k < n → panelOf t (a + k) = { st := .host, blocks := bit d 192, backing := fld d 128 64 + 65536 * k }) ∧
          (∀ p, p < a ∨ a + n ≤ p → panelOf t p = panelOf s p)) ∧
      ((∃ k, k < n ∧ (panelOf s (a + k)).st ≠ .free) →
        ∃ t : State, exec (.windowMap d) s = .next t ∧ changesOnly recordParts s t ∧
          recordedAs (recOf d (sqNext s) true 0x17 []) s t)) ∧
    (dOp d = 0x04 → zeros d 194 318 = true → zeros d 128 16 = true → bit d 193 = true →
      ((∀ k, k < n → (panelOf s (a + k)).st = .host) →
        ∃ t : State, exec (.windowMap d) s = .next t ∧ changesOnly (.panels :: recordParts) s t ∧
          recordedAs (recOf d (sqNext s) true 0 []) s t ∧ (∀ k, k < n → (panelOf t (a + k)).st = .free) ∧
          (∀ p, p < a ∨ a + n ≤ p → panelOf t p = panelOf s p)) ∧
      ((∃ k, k < n ∧ (panelOf s (a + k)).st ≠ .host) →
        ∃ t : State, exec (.windowMap d) s = .next t ∧ changesOnly recordParts s t ∧
          recordedAs (recOf d (sqNext s) true 0x17 []) s t)) ∧
    (dOp d = 0x05 → zeros d 128 384 = true →
      ((∀ k, k < n → (panelOf s (a + k)).st = .host) →
        ∃ t : State, exec (.panelGive d) s = .next t ∧ changesOnly (.panels :: recordParts) s t ∧
          recordedAs (recOf d (sqNext s) true 0 []) s t ∧
          (∀ p, panelOf t p = (if a ≤ p ∧ p < a + n then { panelOf s p with st := .device } else panelOf s p))) ∧
      ((∃ k, k < n ∧ (panelOf s (a + k)).st ≠ .host) →
        ∃ t : State, exec (.panelGive d) s = .next t ∧ changesOnly recordParts s t ∧
          recordedAs (recOf d (sqNext s) true 0x17 []) s t)) ∧
    (dOp d = 0x06 → zeros d 128 384 = true →
      ((∃ k, k < n ∧ (panelOf s (a + k)).st ≠ .device) →
        ∃ t : State, exec (.panelTake d) s = .next t ∧ changesOnly recordParts s t ∧
          recordedAs (recOf d (sqNext s) true 0x17 []) s t) ∧
      ((∀ k, k < n → (panelOf s (a + k)).st = .device) →
        (jobBusy s = false ∨ ∀ k, k < n → farPanel s (a + k) = false ∧ leafPanel s (a + k) = false) →
        ∃ t : State, exec (.panelTake d) s = .next t ∧ changesOnly (([.panels, .takes, .stage] : List Part) ++ recordParts) s t ∧
          t.window.stage = s.window.stage.map (StageBlk.awaitedBy (dPanels d)) ∧
          (∀ p, panelOf t p = (if a ≤ p ∧ p < a + n then
            { panelOf s p with st := if panelPending s p then .moving else .host } else panelOf s p)) ∧
          ((∀ k, k < n → panelPending s (a + k) = false) →
            t.window.takes = s.window.takes ∧ recordedAs (recOf d (sqNext s) true 0 (leBytes 4 0)) s t) ∧
          ((∃ k, k < n ∧ panelPending s (a + k) = true) →
            t.rings = { s.rings with sqDone := s.rings.sqDone + 1 } ∧ hostMem t = hostMem s ∧
            t.window.takes = s.window.takes ++ [{ tag := dTag d, irq := bit d 8, sq := sqNext s, first := a, count := n }])) ∧
      ((∀ k, k < n → (panelOf s (a + k)).st = .device) → jobBusy s = true →
        (∃ k, k < n ∧ (farPanel s (a + k) = true ∨ leafPanel s (a + k) = true)) →
        ∃ t : State, exec (.panelTake d) s = .next t ∧ changesOnly recordParts s t ∧
          recordedAs (recOf d (sqNext s) true 0x18 []) s t))

/-- A store that starts keeps a copy of the volatile set, with the log entry of its start, for the bank that is not
active, with GENERATION and STORE_COUNT one up. A request during a store waits; the longest waiting one starts when
none runs. A store whose read-back checks makes its bank the active one with the copied set and completes with OK; one
that fails leaves the active bank as it was and completes with STORE_FAILED. At 100,000 stores a request is WORN_OUT. Bank B
where no bank is active (log 5), the log entry inside the copied set and WORN set by a refusal (log 54), and STORE_COUNT one
above the active bank's (log 74) are the model's choices. -/
def Obligations.TheSettingsStoreRuns : Prop :=
  (∀ (s : State) (d : BitVec 512), canStart s = true → dOp d = 0x0A → bareOk d = true → activeCount s.store < 100000 →
    (s.store.run = none → s.store.waiting = [] →
      ∃ t x, exec (.storeSettings d) s = .next t ∧ changesOnly [.settings, .banks, .ringRegs] s t ∧
        t.rings = { s.rings with sqDone := s.rings.sqDone + 1 } ∧ t.store.run = some x ∧ x.set = t.store.set ∧
        x.generation = activeGen s.store + 1 ∧ x.storeCount = activeCount s.store + 1 ∧
        (x.toB = true ↔ s.store.active ≠ some true) ∧
        (t.store.set.log.getLast?.map (fun e => e.getD 24 0)) = some 4 ∧
        { t.store.set with log := s.store.set.log } = s.store.set ∧
        t.store.bankA = s.store.bankA ∧ t.store.bankB = s.store.bankB ∧ t.store.active = s.store.active) ∧
    (s.store.run ≠ none →
      ∃ t : State, exec (.storeSettings d) s = .next t ∧ changesOnly [.banks, .ringRegs] s t ∧
        t.store = { s.store with waiting := s.store.waiting ++ [.ring (dTag d) (bit d 8) (sqNext s)] })) ∧
  (∀ (s : State) (d : BitVec 512), canStart s = true → dOp d = 0x0A → bareOk d = true → 100000 ≤ activeCount s.store →
    ∃ t : State, exec (.storeSettings d) s = .next t ∧ changesOnly (.banks :: recordParts) s t ∧
      recordedAs (recOf d (sqNext s) true 0x1C (leBytes 4 (activeGen s.store))) s t ∧ t.store.worn = true) ∧
  (∀ (s : State) (q : StoreReq) (l : List StoreReq), svcOn s = true → s.store.run = none → s.store.waiting = q :: l →
    activeCount s.store < 100000 →
    ∃ t x, exec .storeStart s = .next t ∧ changesOnly [.settings, .banks] s t ∧ t.store.run = some x ∧ x.req = q ∧
      t.store.waiting = l ∧ x.set = t.store.set ∧ x.generation = activeGen s.store + 1) ∧
  (∀ (s : State) (x : StoreRun) (good : Bool), svcOn s = true → s.store.run = some x →
    ∃ t : State, exec (.storeComplete good) s = .next t ∧ changesOnly (recordParts ++ ([.banks, .out, .mgmtRegs] : List Part)) s t ∧
      t.store.run = none ∧ t.store.set = s.store.set ∧ t.store.waiting = s.store.waiting ∧
      (good = true → t.store.active = some x.toB ∧
        (if x.toB then t.store.bankB else t.store.bankA).intact = true ∧
        (if x.toB then t.store.bankB else t.store.bankA).set = x.set ∧
        (if x.toB then t.store.bankB else t.store.bankA).generation = x.generation ∧
        (if x.toB then t.store.bankA else t.store.bankB) = (if x.toB then s.store.bankA else s.store.bankB)) ∧
      (good = false → t.store.active = s.store.active) ∧
      (∀ tag irq sq, x.req = .ring tag irq sq →
        t.rings = (complete
          { tag := tag, opcode := 0x0A, final := true, status := (if good then 0 else 0x1B), sq := sq,
            info := leBytes 4 (activeGen t.store), irq := irq, countInfo := false } s).rings))

/-- While the rings are enabled and the package is READY with its host link up, a poll reads SQ_TAIL, CQ_HEAD and EQ_HEAD from the host's line
and, unless SQ_TAIL lies more than a ring ahead, fetches up to it, where a full completion ring does not make the
fetch wait; the next interval is MIN_US after a change or a written record, else twice the last, within MIN_US and
MAX_US. An overrun fetches nothing, sets RING_OVERRUN and clears ENABLE; a read that fails, of the doorbell line or of the
submission ring, fetches nothing, sets DMA_ERROR and adds 1 to HOST_ERR.DMA. Each posts one event. What happens on the
host's side of the link before a poll acts first: each failed read counts in HOST_ERR.DMA, HOST_LINK.ATOMICS follows Device
Control 2, and a pending vector that is no longer masked sends its message. The wait for a full completion ring, the lower
clamp of the interval and SQ_TAIL taken from a poll whose ring read fails are the model's choices (log 49), the host's acts in
the operand of a poll is log 21. -/
def Obligations.TheDoorbellIsPolled : Prop :=
  (∀ (s : State) (c : LinkControl) (n : Nat) (read : PollRead), barOpen s = false ∨ s.rings.committed.enable = false →
    s.rings.dma ≤ 65535 →
    ∃ t : State, exec (.doorbellPoll { wrote := [], control := some c, failed := n } read) s = .next t ∧
      changesOnly [.ringRegs, .ringOut] s t ∧ t.rings.dma = min (s.rings.dma + n) 65535 ∧
      t.rings.link = { s.rings.link with atomics := c.atomics, masked := c.masked } ∧
      t.rings.vecPend = s.rings.vecPend &&& c.masked ∧
      ∀ v, v < 32 → (v ∈ t.rings.msix ↔
        v ∈ s.rings.msix ∨ (s.rings.vecPend.getLsbD v = true ∧ c.masked.getLsbD v = false))) ∧
  (∀ (s : State) (read : PollRead), barOpen s = false ∨ s.rings.committed.enable = false →
    exec (.doorbellPoll .quiet read) s = .next s) ∧
  ∀ (s : State) (db : Nat) (tail : BitVec 32), barOpen s = true → s.rings.committed.enable = true →
    db = s.rings.committed.db.toNat → tail = BitVec.ofNat 32 (ofLe (readBytes (hostMem s) db 4)) →
    ((tail - s.rings.sqHead).toNat ≤ 2 ^ s.rings.committed.szSq.toNat →
      ∃ t : State, exec (.doorbellPoll .quiet .whole) s = .next t ∧ changesOnly recordParts s t ∧
        t.rings.sqHead = (if 2 ^ s.rings.committed.szCq.toNat ≤ (t.rings.cqTail - t.rings.cqHead).toNat then s.rings.sqHead
          else tail) ∧
        t.rings.cqHead = BitVec.ofNat 32 (ofLe (readBytes (hostMem s) (db + 4) 4)) ∧
        t.rings.eqHead = BitVec.ofNat 32 (ofLe (readBytes (hostMem s) (db + 8) 4)) ∧
        t.rings.heartbeat = s.rings.heartbeat + 1 ∧
        t.rings.pollUs = (if tail ≠ s.rings.lastTail ∨ s.rings.wrote = true then s.rings.committed.minUs.toNat
          else max s.rings.committed.minUs.toNat (min (2 * s.rings.pollUs) s.rings.committed.maxUs.toNat)) ∧
        t.rings.committed = s.rings.committed ∧ t.rings.sqDone = s.rings.sqDone ∧
        (s.rings.due = [] → t.rings.cqTail = s.rings.cqTail ∧ t.rings.msix = [] ∧ t.rings.vecPend = s.rings.vecPend ∧
          hostBut [(db + 64, 24)] s t)) ∧
    (2 ^ s.rings.committed.szSq.toNat < (tail - s.rings.sqHead).toNat →
      ∃ t : State, exec (.doorbellPoll .quiet .whole) s = .next t ∧ changesOnly (recordParts ++ ([.alerts] : List Part)) s t ∧
        t.rings.sqHead = s.rings.sqHead ∧ t.rings.committed = { s.rings.committed with enable := false } ∧
        t.rings.events = s.rings.events ||| 2 ∧ t.rings.seq = nextSeq s.rings.seq) ∧
    (∃ t : State, exec (.doorbellPoll .quiet .badBlock) s = .next t ∧ changesOnly (recordParts ++ ([.alerts] : List Part)) s t ∧
      t.rings.sqHead = s.rings.sqHead ∧ t.rings.dma = min (s.rings.dma + 1) 65535 ∧
      t.rings.events = s.rings.events ||| 4 ∧ t.rings.seq = nextSeq s.rings.seq ∧ t.rings.committed = s.rings.committed) ∧
    ((tail - s.rings.sqHead).toNat ≤ 2 ^ s.rings.committed.szSq.toNat → tail ≠ s.rings.sqHead → s.rings.due = [] →
      (s.rings.cqTail - BitVec.ofNat 32 (ofLe (readBytes (hostMem s) (db + 4) 4))).toNat < 2 ^ s.rings.committed.szCq.toNat →
      ∃ t : State, exec (.doorbellPoll .quiet .badRing) s = .next t ∧ changesOnly (recordParts ++ ([.alerts] : List Part)) s t ∧
        t.rings.sqHead = s.rings.sqHead ∧ t.rings.lastTail = tail ∧ t.rings.dma = min (s.rings.dma + 1) 65535 ∧
        t.rings.events = s.rings.events ||| 4 ∧ t.rings.seq = nextSeq s.rings.seq ∧ t.rings.committed = s.rings.committed)

/-- With a Reel loaded a port that loses lock out of MEASURING relocks: it sends IDLE and counts one relock; else it
leaves the trained state. Lock that returns resumes the frames; its new latency leaves the port TRAINED in a job, to
be measured again afterwards if it moved then or before, and at once, without a class, outside one; one above the class in use
faults the job. Lock that does not return
faults a job that uses the port, which then waits for full training. A port reports what it hears of its far end:
NOT_READY, STOPPED or nothing; where that takes a parcel that the slot schedules it is PEER_NOT_READY. When a port is measured
again, at once and without a class outside a job, and a loss of lock in MEASURING are the model's choice (log 35). -/
def Obligations.LinksRelockAndDrop : Prop :=
  (∀ (s : State) (p : Nat), portPop s p = true → framing (portOf s p) = true →
    (s.reel ≠ none → (portOf s p).st ≠ .measuring →
      ∃ t : State, exec (.laneLockLoss p) s = .next t ∧ changesOnly [.ports] s t ∧ portsBut p s t ∧ (portOf t p).st = .relock ∧
        (portOf t p).sends = .idle ∧ (portOf t p).relocks = min ((portOf s p).relocks + 1) 65535 ∧
        (portOf t p).staged = [] ∧ (portOf t p).cls = (portOf s p).cls) ∧
    (s.reel = none ∨ (portOf s p).st = .measuring → unitSt s (1024 + p) = .active ∨ unitSt s (1024 + p) = .watch →
      ∃ t : State, exec (.laneLockLoss p) s = .next t ∧ changesOnly [.ports] s t ∧ portsBut p s t ∧ (portOf t p).st = .absent)) ∧
  (∀ (s : State) (p : Nat), portPop s p = true → (portOf s p).st = .relock → (portOf s p).measured = false →
    (∃ t : State, exec (.relockDone p) s = .next t ∧ changesOnly [.ports] s t ∧ portsBut p s t ∧
      portOf t p = { portOf s p with measured := true, sends := .frames }) ∧
    (∃ t : State, exec (.relockTimeout p) s = .next t ∧ portsBut p s t ∧ (portOf t p).st ≠ .relock ∧
      (portOf t p).trainDue = reelPort s p ∧
      (running s = false ∨ reelPort s p = false → changesOnly [.ports] s t) ∧
      (running s = true → reelPort s p = true → t.job.faulted = true ∧
        changesOnly [.ports, .job, .settings, .test] s t ∧
        (s.job.ownFault = none → (t.job.ownFault.map (fun l => (l.code, l.unit))) =
          some (0x0601#16, BitVec.ofNat 16 (0x4000 + p)))))) ∧
  (∀ (s : State) (p ps : Nat), portPop s p = true → (portOf s p).st = .relock → (portOf s p).measured = true →
    ∃ t : State, exec (.relockMeasureDone p ps) s = .next t ∧ portsBut p s t ∧ (portOf t p).wirePs = ps ∧
      (portOf t p).measured = false ∧
      (running s = true → (portOf t p).st = .trained ∧ (portOf t p).cls = (portOf s p).cls ∧
        ((portOf t p).remeasure = true ↔ (portOf s p).remeasure = true ∨ ps ≠ (portOf s p).wirePs)) ∧
      (running s = false → changesOnly [.ports] s t ∧ (portOf t p).remeasure = false ∧
        (ps = (portOf s p).wirePs ∧ (portOf s p).remeasure = false →
          (portOf t p).st = .trained ∧ (portOf t p).cls = (portOf s p).cls) ∧
        (ps ≠ (portOf s p).wirePs ∨ (portOf s p).remeasure = true →
          (portOf t p).st = .measuring ∧ (portOf t p).cls = 0)) ∧
      (ps ≤ 32000 * padClass s p → changesOnly [.ports] s t) ∧
      (running s = true → reelPort s p = true → 32000 * padClass s p < ps → t.job.faulted = true ∧
        changesOnly [.ports, .job, .settings, .test] s t ∧
        (s.job.ownFault = none → (t.job.ownFault.map (fun l => (l.code, l.unit))) =
          some (0x0602#16, BitVec.ofNat 16 (0x4000 + p))))) ∧
  (∀ (s : State) (p : Nat) (c : Instr) (st : PortSt), listens s p = true →
    (c, st) ∈ [(Instr.farNotReady p, PortSt.notReady), (.farStopped p, .stopped), (.signalLoss p, .absent)] →
    ∃ t : State, exec c s = .next t ∧ portsBut p s t ∧ (portOf t p).st = st ∧
      (missesParcel s p = false → changesOnly [.ports] s t) ∧
      (portUp (portOf s p) = false → (portOf s p).st ≠ .relock → (portOf s p).st ≠ .training →
        portOf t p = { portOf s p with st := st }) ∧
      (portUp (portOf s p) = true → missesParcel s p = true → t.job.faulted = true ∧
        changesOnly [.ports, .job, .settings, .test] s t ∧
        (s.job.ownFault = none → (t.job.ownFault.map (fun l => (l.code, l.unit))) =
          some (0x0607#16, BitVec.ofNat 16 (0x4000 + p)))))

/-- A sample adds the energy of the regulators that are on to the counters, takes the junction readings, of which T_max is the
largest, and counts uptime. From a control period on the committed settings act; one of a job requests the largest of the
preferred, cap and thermal terms (at least 32 in debug mode), with the allowance at twice the cap less the window mean, up to the
power limit, and the larger of the line part and the link reserve served first. One outside a job brings the settings, the mean
and the allowance only (the model's choice, log 76). The leader decides the aggregate level, raised by no more than
the allowed rise, for 64 slots later under the next epoch; at its count a decision sets the Vent level and nothing but
the power and pacer registers changes. Another package decides nothing. That the line part is never below the link reserve is
the model's choice (log 52), and that it is the latest sample's (log 76). -/
def Obligations.PowerIsSampledAndPaced : Prop :=
  (∀ (s : State) (x : Sensors), svcOn s = true →
    ∃ t : State, exec (.powerSample x) s = .next t ∧ changesOnly [.tray, .mems, .secRegs, .power] s t ∧
      t.sec.uptime = s.sec.uptime + 1 ∧ t.tray.groupT = x.groups ∧ t.tray.hubT = x.hubs ∧
      t.tray.lineT = x.lines.take s.ident.lineDies ∧
      (∀ c ∈ x.groups ++ x.hubs ++ x.lines.take s.ident.lineDies, c ≤ t.tray.tMax) ∧
      (x.groups ≠ [] → t.tray.tMax ∈ x.groups ++ x.hubs ++ x.lines.take s.ident.lineDies) ∧
      t.power.energy = s.power.energy + inputSum s x ∧ t.power.now = inputSum s x / 10 ∧
      (∀ k r, x.regs[k]? = some r → t.power.regs[k]? = some (if regulatorOn s k then r else (0, 0))) ∧
      t.power.jobEnergy = s.power.jobEnergy + (if s.power.jobSampling then inputSum s x else 0) ∧
      t.power.jobSampling = running s ∧ t.power.committed = s.power.committed ∧ t.power.inForce = s.power.inForce ∧
      (∀ k, (memOf t k).blocks = (memOf s k).blocks ∧ (memOf t k).st = (memOf s k).st)) ∧
  (∀ (s : State) (r : Reel) (pm : PowerModel), running s = true → s.reel = some r →
    ∃ t : State, exec (.controlPeriod pm) s = .next t ∧ changesOnly (.power :: posts) s t ∧
      t.power.inForce = s.power.committed ∧ t.power.model = pm ∧
      t.power.mean = windowMean s.power.committed.window.toNat s.power.samples ∧
      t.power.allow = min (1000 * powerLimit s) (2 * (1000 * s.power.committed.cap.toNat) - t.power.mean) ∧
      t.power.vTherm = (if 93 ≤ s.tray.tMax then min 48 (s.pacer.vent + 2 * (s.tray.tMax - 92).toNat)
        else if s.tray.tMax ≤ 90 then s.power.vTherm - 1 else s.power.vTherm) ∧
      t.power.req = max (max (prefLevel t r)
        (max (capLevel pm s.power.committed.order (max (lineMw s.power) s.power.linkRes) t.power.allow (floorNow s))
          t.power.vTherm))
        (if r.debug then 32 else 0) ∧
      t.power.aggLevel = max s.power.aggLevel t.power.req ∧ t.power.spacing ≤ nMax (floorNow s) s.pacer.vent ∧
      t.power.decision = s.power.decision ∧ t.power.epoch = s.power.epoch ∧
      (capFits pm (max (lineMw s.power) s.power.linkRes) t.power.allow (floorNow s) = true → s.tray.tMax < 93 →
        changesOnly [.power] s t ∧ t.power.capUnmet = false)) ∧
  (∀ (s : State) (pm : PowerModel), running s = false → svcOn s = true →
    ∃ t : State, exec (.controlPeriod pm) s = .next t ∧ changesOnly [.power] s t ∧ t.power.inForce = s.power.committed ∧
      t.power.mean = windowMean s.power.committed.window.toNat s.power.samples ∧
      t.power.allow = min (1000 * powerLimit s) (2 * (1000 * s.power.committed.cap.toNat) - t.power.mean) ∧
      t.power.req = s.power.req ∧ t.power.decision = s.power.decision ∧ t.power.spacing = s.power.spacing) ∧
  (∀ (s : State) (r : Reel), s.pacer.running = true → running s = true → s.reel = some r →
    (leaderOf r ≠ s.bridle.committed.id.toNat → exec .ventDecision s = .next s) ∧
    (leaderOf r = s.bridle.committed.id.toNat →
      ∃ t : State, exec .ventDecision s = .next t ∧ changesOnly [.power] s t ∧
        t.power.decision = some { level := (if s.power.aggLevel ≤ s.pacer.vent then s.power.aggLevel
                                            else min s.power.aggLevel (s.pacer.vent + s.power.aggUpMax)),
                                  leader := s.bridle.committed.id, epoch := s.power.epoch + 1,
                                  applyAt := s.bridle.count + 64 } ∧
        t.power.epoch = s.power.epoch + 1 ∧ t.power.aggLevel = s.power.req ∧ t.power.aggUpMax = s.power.upMax)) ∧
  (∀ (s : State) (d : Decision), s.pacer.running = true → s.power.decision = some d →
    (d.applyAt ≠ s.bridle.count → exec .ventApply s = .next s) ∧
    (d.applyAt = s.bridle.count →
      ∃ t : State, exec .ventApply s = .next t ∧ changesOnly [.power, .pacer] s t ∧ t.pacer.vent = d.level ∧
        t.power.decision = none ∧ t.pacer.running = true ∧
        (d.level ≠ s.pacer.vent → (s.bridle.count, d.level) ∈ t.pacer.hist) ∧
        (d.level = s.pacer.vent → t.pacer = s.pacer) ∧
        t.power.spacing ≤ nMax (floorNow s) d.level))

/-- The class in force rises to the class of the running phase, or of one that the Reel schedules to begin within 1,024 slots, the
first phase of an armed launch included; it falls to the running phase's once the phase before is final and no higher class is
ahead so near, and moves to nothing else. A Ballast operation starts on a tile in service that holds the ramp or heats a die under test, whose engine is idle
and has no Reel word of its own before the operation ends, and changes no line. After each sample the tiles chosen, with the free
value that a tile draws (log 31), hold the sample to come at or above that of 1 ms before it less the ramp, unless the cap forbids. Its result ends it and
writes no buffer but its tile's, whose bytes are free values (log 31): a pass of an ACTIVE tile changes nothing else; a failure counts for the tile and the
package, scores, and moves the tile to WATCH. A tile out of service runs none. -/
def Obligations.RailsAndBallast : Prop :=
  (∀ (s : State) (r : Reel) (cls : Nat), s.reel = some r → running s = true →
    (cls = s.power.cls → exec (.classRailMove cls) s = .next s) ∧
    (s.power.cls < cls ∧ cls ∈ classesAhead s r ∨ (cls < s.power.cls ∧ mayFall s r cls = true) →
      ∃ t : State, exec (.classRailMove cls) s = .next t ∧ changesOnly [.power] s t ∧ t.power = { s.power with cls := cls }) ∧
    (s.power.cls < cls → cls ∉ classesAhead s r → exec (.classRailMove cls) s = .next s) ∧
    (cls < s.power.cls → mayFall s r cls = false → exec (.classRailMove cls) s = .next s) ∧
    (stepPlan r s.job.step = some (s.job.pattern, s.job.phase) → phaseClass r s.job.phase ∈ classesAhead s r) ∧
    (∀ v, stepPlan r s.job.step = some (s.job.pattern, s.job.phase) → stepPlan r (s.job.step + 1) = some v →
      commitSlot r s.job.phase s.job.pattern + 1 ≤ s.job.slot + 1024 → phaseClass r v.2 ∈ classesAhead s r) ∧
    (mayFall s r cls = true →
      phaseClass r s.job.phase = cls ∧ (stepPlan r (s.job.final + 1)).any (fun x => x.2 == s.job.phase) = true ∧
      ∀ c ∈ classesAhead s r, c ≤ cls)) ∧
  (∀ (s : State) (r : Reel) (cls : Nat) (v : Nat × Nat), s.reel = some r → s.job.st = .armed → stepPlan r 1 = some v →
    phaseClass r v.2 = cls → s.power.cls < cls →
    (s.job.start ≤ s.bridle.count + 1024 →
      ∃ t : State, exec (.classRailMove cls) s = .next t ∧ changesOnly [.power] s t ∧ t.power = { s.power with cls := cls }) ∧
    (s.bridle.count + 1024 < s.job.start → exec (.classRailMove cls) s = .next s)) ∧
  (∀ (s : State) (u : Nat) (ka : BitVec 8) (token : Nat), u < 1024 → token < 64 →
    (outOfService s u = true ∨ s.stop.stopped = true → exec (.ballastIssue u ka token) s = .next s) ∧
    (∀ k, ballastEnd s u ka = some k → k < token + ballastTokens s.power.cls ka → exec (.ballastIssue u ka token) s = .next s) ∧
    (runsBallast s u = true → ka = 1 ∨ ka = 2 ∨ ka = 3 →
      (∀ k, ballastEnd s u ka = some k → token + ballastTokens s.power.cls ka ≤ k) →
      (∀ f, (tileOf s u).flight = some f → ballastEngine ka (wOp f.word) = false) → (u, ka) ∉ s.power.ballast →
      ∃ t : State, exec (.ballastIssue u ka token) s = .next t ∧ changesOnly [.power] s t ∧
        t.power = { s.power with ballast := s.power.ballast ++ [(u, ka)] })) ∧
  (∀ (s : State) (x : Sensors), isReady s = true → s.stop.stopped = false → 0 < Config.ballastMw s.power.cls →
    ∃ t : State, exec (.powerSample x) s = .next t ∧ t.power.ballastTiles ≤ 1024 ∧
      (t.power.ballastUnmet = false → t.power.ballastTiles < 1024 →
        t.power.samples.getD 99 0 - 1000 * s.power.committed.ramp.toNat ≤
          t.power.now - Config.ballastMw s.power.cls * s.power.ballastTiles +
            Config.ballastMw s.power.cls * t.power.ballastTiles)) ∧
  (∀ (s : State) (u : Nat) (ka : BitVec 8), u < 1024 → (u, ka) ∈ s.power.ballast → unitSt s u = .active →
    (∃ t : State, exec (.ballastResult u { ka := ka, result := .pass }) s = .next t ∧ changesOnly [.power] s t ∧
      t.power = { s.power with ballast := s.power.ballast.erase (u, ka), buffers := t.power.buffers } ∧
      (bufferOf t u).length = (bufferOf s u).length ∧ ∀ v, v ≠ u → bufferOf t v = bufferOf s v) ∧
    (∀ o, o ≠ KaOutcome.pass → ∃ t : State, exec (.ballastResult u { ka := ka, result := o }) s = .next t ∧
      changesOnly (([.power, .totals] : List Part) ++ moves) s t ∧
      t.power = { s.power with ballast := s.power.ballast.erase (u, ka), buffers := t.power.buffers } ∧
      (bufferOf t u).length = (bufferOf s u).length ∧ (∀ v, v ≠ u → bufferOf t v = bufferOf s v) ∧ unitSt t u = .watch ∧
      t.sec.totals = { s.sec.totals with kat := s.sec.totals.kat + 1 } ∧
      (healthOf t u).c3 = min ((healthOf s u).c3 + 1) 65535 ∧
      (healthOf t u).score = min 255 ((healthOf s u).score + 1) ∧ (healthOf t u).passes = 0 ∧
      (∀ j, j ≠ u → healthOf t j = healthOf s j ∧ unitEntry t j = unitEntry s j))) ∧
  (∀ (s : State) (u : Nat) (x : BallastEnd), (u, x.ka) ∉ s.power.ballast → exec (.ballastResult u x) s = .next s)

/-- At a multiple of SCORE_HALF_H every score halves, rounded down. With no Reel loaded and TEST_AUTO set the unit due
longest, the lowest of equals, is tested at the last Reel's class; in a step whose pattern has a window over it, a due unit of a
job is, units in WATCH first. The profiles run in order, each with every kernel of the unit; a profile whose die stays cold makes
the test partial. A failed kernel counts and scores for its unit and is kept as the first failing profile; a window's results are
held to its end. A stress test whose profiles have all run posts TEST_DONE, writes one history entry, and sets LAST_TEST unless it
was partial. Each whole multiple of 12 h past the due time is posted and counted once. TEST starts a run with no record yet, or is refused by its first check. Kernels once each per profile,
the halving points, the notices at whole multiples and the lowest of equals are the model's choice (log 53), as are the first
failing profile and the held results of a window (log 43) and the last Reel's class (log 76). -/
def Obligations.TestsRunAndCount : Prop :=
  (∀ s : State, svcOn s = true → s.sec.halvedAt < halvingPoint s → risingKeys s.sec.health = true →
    ∃ t : State, exec .scoreHalving s = .next t ∧ changesOnly (.secRegs :: moves) s t ∧ t.sec.halvedAt = halvingPoint s ∧
      ∀ i, (healthOf t i).score = (healthOf s i).score / 2 ∧ (healthOf t i).c0 = (healthOf s i).c0 ∧
        (healthOf t i).lastTest = (healthOf s i).lastTest) ∧
  (∀ s : State, halvingPoint s ≤ s.sec.halvedAt → exec .scoreHalving s = .next s) ∧
  (∀ (s : State) (u n k : Nat), svcOn s = true → u < 1080 → unitPop s u = true → n = dueTime s u + 12 * hourUnits * (k + 1) →
    (healthOf s u).overdueAt < n → (∀ j, j < k → dueTime s u + 12 * hourUnits * (j + 1) ≤ (healthOf s u).overdueAt) →
    (s.sec.uptime < n → exec (.testOverdue u) s = .next s) ∧
    (n ≤ s.sec.uptime →
      ∃ t : State, exec (.testOverdue u) s = .next t ∧ changesOnly (([.secRegs, .health] : List Part) ++ posts) s t ∧
        t.sec.overdue = min (s.sec.overdue + 1) (2 ^ 32 - 1) ∧ (healthOf t u).overdueAt = n ∧
        t.rings.seq = nextSeq s.rings.seq)) ∧
  (∀ (s : State) (u : Nat), isReady s = true → s.stop.stopped = false → s.sec.testAuto = true → s.sec.test = none →
    u < 1080 → testDue s u = true →
    (∀ v, v < 1080 → testDue s v = true → dueTime s u < dueTime s v ∨ (dueTime s u = dueTime s v ∧ u ≤ v)) →
    (s.reel ≠ none → exec .autoStressTest s = .next s) ∧
    (s.reel = none → ∃ t x, exec .autoStressTest s = .next t ∧ changesOnly [.secRegs, .test, .power] s t ∧ t.sec.test = some x ∧
      t.power = { s.power with cls := s.sec.lastClass } ∧
      x.unit = u ∧ x.stress = true ∧ x.by_ = .auto ∧ x.failing = none ∧ x.partialHeat = false ∧
      x.left = (if u < 1024 then [0, 1, 2] else [0, 3]) ∧ x.ran = [] ∧ x.held = [])) ∧
  (∀ (s : State) (r : Reel) (u : Nat), running s = true → s.reel = some r → s.job.notice = none → s.sec.test = none →
    testDue s u = true →
    (windowCovers r u s.job.pattern = false → exec (.windowTest u) s = .next s) ∧
    (unitSt s u ≠ .watch →
      (∃ v, v < 1080 ∧ unitSt s v = .watch ∧ testDue s v = true ∧ windowCovers r v s.job.pattern = true) →
      exec (.windowTest u) s = .next s) ∧
    (windowCovers r u s.job.pattern = true →
      unitSt s u = .watch ∨ (∀ v, v < 1080 → unitSt s v = .watch → testDue s v = true → windowCovers r v s.job.pattern = false) →
      ∃ t x, exec (.windowTest u) s = .next t ∧ changesOnly [.secRegs, .test] s t ∧
        t.sec.test = some x ∧ x.unit = u ∧ x.stress = true ∧ x.by_ = .window ∧ x.ran = [] ∧ x.held = [] ∧
        x.left = (if 1024 ≤ u then [0, 3] else if dieWide s u then [0, 2] else [0]))) ∧
  (∀ (s : State) (x : TestRun), s.sec.test = some x →
    (85 ≤ dieTemp s x.unit ∨ x.left.head? = some 0 → exec .stressHeatTimeout s = .next s) ∧
    (∀ k l, x.stress = true → x.left = (k + 1) :: l → x.ran = [] → x.cold = false → dieTemp s x.unit < 85 →
      ∃ t : State, exec .stressHeatTimeout s = .next t ∧ changesOnly [.secRegs, .test] s t ∧
        t.sec.test = some { x with cold := true, partialHeat := true })) ∧
  (∀ (s : State) (x : TestRun) (ka : BitVec 8) (prof : Nat) (o : KaOutcome), s.sec.test = some x → x.stress = true →
    (x.left.head? ≠ some prof ∨ x.ran.contains ka.toNat = true → exec (.knownAnswerDone x.unit ka prof o) s = .next s) ∧
    (kernelMayRun s x ka.toNat prof = true → x.by_ = .window →
      ∃ t y, exec (.knownAnswerDone x.unit ka prof o) s = .next t ∧ changesOnly [.secRegs, .test] s t ∧ t.sec.test = some y ∧
        y.held = x.held ++ [(ka.toNat, prof, o)])) ∧
  (∀ (s : State) (x : TestRun) (ka : BitVec 8) (prof : Nat), s.sec.test = some x → x.unit < 1024 → x.stress = true →
    kernelMayRun s x ka.toNat prof = true → x.by_ ≠ .window →
    (unitSt s x.unit = .active → ∃ t : State, exec (.knownAnswerDone x.unit ka prof .pass) s = .next t ∧
      changesOnly [.secRegs, .test] s t ∧ t.sec.test = some (advanceTest ka.toNat x) ∧
      ((∀ k, 1 ≤ k → k ≤ 6 → k = ka.toNat ∨ k ∈ x.ran) → (advanceTest ka.toNat x).left = x.left.drop 1 ∧
        (advanceTest ka.toNat x).ran = [] ∧ (advanceTest ka.toNat x).cold = false) ∧
      ((∃ k, 1 ≤ k ∧ k ≤ 6 ∧ k ≠ ka.toNat ∧ k ∉ x.ran) → advanceTest ka.toNat x = { x with ran := ka.toNat :: x.ran })) ∧
    (∀ o, o ≠ KaOutcome.pass → unitSt s x.unit = .active →
      ∃ t : State, exec (.knownAnswerDone x.unit ka prof o) s = .next t ∧ changesOnly (([.secRegs, .test, .totals] : List Part) ++ moves) s t ∧
        unitSt t x.unit = .watch ∧ t.sec.totals = { s.sec.totals with kat := s.sec.totals.kat + 1 } ∧
        (healthOf t x.unit).c3 = min ((healthOf s x.unit).c3 + 1) 65535 ∧
        (healthOf t x.unit).score = min 255 ((healthOf s x.unit).score + 1) ∧
        t.sec.test = some (advanceTest ka.toNat
          { x with failing := (if x.failing = none then some (prof, o) else x.failing) }))) ∧
  (∀ (s : State) (x : TestRun), s.sec.test = some x → x.left ≠ [] → exec .stressTestDone s = .next s) ∧
  (∀ (s : State) (x : TestRun), s.sec.test = some x → x.stress = true → x.by_ = .auto → x.left = [] → x.held = [] →
    ∃ t : State, exec .stressTestDone s = .next t ∧ changesOnly (([.secRegs, .test, .health, .settings] : List Part) ++ posts) s t ∧
      t.sec.test = none ∧ t.rings.seq = nextSeq s.rings.seq ∧
      t.store.set.history.length = min 2048 (s.store.set.history.length + 1) ∧
      (x.partialHeat = false → (healthOf t x.unit).lastTest = some s.sec.uptime ∧ (healthOf t x.unit).overdueAt = 0) ∧
      (x.partialHeat = true → t.sec.health = s.sec.health)) ∧
  (∀ (s : State) (d : BitVec 512), canStart s = true → dOp d = 0x09 →
    (∀ code, firstFailure (testChecks s d) = some code →
      ∃ t : State, exec (.test d) s = .next t ∧ changesOnly recordParts s t ∧ recordedAs (recOf d (sqNext s) true code []) s t) ∧
    (firstFailure (testChecks s d) = none →
      ∃ t x, exec (.test d) s = .next t ∧ changesOnly [.secRegs, .test, .ringRegs, .power] s t ∧
        t.power = { s.power with cls := s.sec.lastClass } ∧
        t.rings = { s.rings with sqDone := s.rings.sqDone + 1 } ∧ t.sec.test = some x ∧
        unitIndex (dTestUnit d) = some x.unit ∧ x.stress = bit d 72 ∧ x.ka = BitVec.ofNat 8 (fld d 64 8) ∧
        x.by_ = .ring (dTag d) (bit d 8) (sqNext s)))

/-- A LOAD refused by a check of its descriptor or of its image leaves no Reel and no block changed, gives the status of
the first check that fails in the record and in LDR_STATUS, and after the image is read the place and the detail as
well. A LOAD that passes installs the Reel of the image with cleared Pockets, every selector at side 0, the digests of
its inputs chained, no stack block changed but those that its tables name, the link reserve as measured now, and a record of
status OK. PATCH of a
loaded Reel with no job replaces the named relocation slots and recomputes the sections; without a Reel, in a job,
past the slots or out of range it is refused and changes nothing. Selectors at side 0 and what PATCH checks are the model's
choice (log 57), as is the moment at which the link reserve is measured (log 76). -/
def Obligations.LoadAndPatch : Prop :=
  (∀ (s x : State) (d : BitVec 512), canStart s = true → dOp d = 0x01 → x = endAutoTest (takeDesc s) →
    (∀ code, firstFailure (loadChecks x d) = some code →
      ∃ t : State, exec (.load d) s = .next t ∧ changesOnly (([.ldr, .test] : List Part) ++ recordParts) s t ∧
        t.ldr = { s.ldr with status := BitVec.ofNat 16 code } ∧ recordedAs (recOf d (sqNext s) true code []) s t) ∧
    (∀ r b, firstFailure (loadChecks x d) = none → r = reelOf (loadImage x d) (loadStrict x d) s.ldr.debug →
      badReel x (loadImage x d) (dReelLength d) r = some b →
      ∃ t : State, exec (.load d) s = .next t ∧ changesOnly (([.ldr, .test] : List Part) ++ recordParts) s t ∧ t.reel = none ∧
        t.ldr.status = BitVec.ofNat 16 b.status ∧ t.ldr.whereUnit = BitVec.ofNat 16 b.unit ∧
        t.ldr.whereSection = BitVec.ofNat 16 b.dir ∧ t.ldr.whereRec = BitVec.ofNat 32 b.record ∧
        recordedAs (recOf d (sqNext s) true b.status (leBytes 8 b.detail)) s t) ∧
    (∀ r, firstFailure (loadChecks x d) = none → r = reelOf (loadImage x d) (loadStrict x d) s.ldr.debug →
      badReel x (loadImage x d) (dReelLength d) r = none →
      (∀ e ∈ readEntries r, listBad x e.2.1 = false) →
      ∃ t r1, exec (.load d) s = .next t ∧
        changesOnly (([.reel, .tiles, .far, .det, .ldr, .mems, .ports, .test, .secRegs, .power] : List Part) ++ recordParts) s t ∧
        t.power = { s.power with linkRes := measuredReserve s } ∧ t.sec.lastClass = phaseClass r 0 ∧
        t.reel = some r1 ∧ r1 = { r with weights := r1.weights } ∧ t.tiles = [] ∧ t.det.strict = s.det.strict ∧
        t.det.leaves = ((pkgRecs r secInputs).filter (fun l => !lFar l)).map
          (fun l => leafOf (lTag l) (slotBlk x (lSource l)).payload) ∧
        t.ldr.status = 0 ∧ (∀ k b, look false b (memOf t k).sel = false) ∧
        (risingKeys s.mems = true → ∀ k b, (∀ p ∈ allPlaces x r, ¬ (p.stack = k ∧ p.block = b)) →
          blkAt t k b = blkAt s k b) ∧
        recordedAs (recOf d (sqNext s) true 0 (leBytes 8 0 ++ leBytes 4 (loadedTag r))) s t)) ∧
  (∀ (s : State) (d : BitVec 512), canStart s = true → dOp d = 0x02 → patchArgsOk d = true → s.stop.stopped = false →
    (s.reel = none → ∃ t : State, exec (.patch d) s = .next t ∧ changesOnly recordParts s t ∧
      recordedAs (recOf d (sqNext s) true 0x11 []) s t) ∧
    (∀ r, s.reel = some r →
      (∀ code, (code = 0x12 ∧ jobBusy s = true) ∨
          (code = 0x10 ∧ jobBusy s = false ∧ r.slots.length < fld d 64 32 + fld d 96 8) ∨
          (code = 0x103 ∧ jobBusy s = false ∧ fld d 64 32 + fld d 96 8 ≤ r.slots.length ∧ patchOut s d r = true) →
        ∃ t : State, exec (.patch d) s = .next t ∧ changesOnly recordParts s t ∧
          recordedAs (recOf d (sqNext s) true code []) s t) ∧
      (jobBusy s = false → fld d 64 32 + fld d 96 8 ≤ r.slots.length → patchOut s d r = false →
        ∃ t r1, exec (.patch d) s = .next t ∧ changesOnly (.reel :: recordParts) s t ∧ t.reel = some r1 ∧
          r1.patched = true ∧ r1.image = r.image ∧ r1.program = r.program ∧ r1.slots.length = r.slots.length ∧
          (∀ k, k < fld d 96 8 → r1.slots.getD (fld d 64 32 + k) 0 = d.extractLsb' (128 + 64 * k) 64) ∧
          (∀ k, k < fld d 64 32 ∨ fld d 64 32 + fld d 96 8 ≤ k → r1.slots.getD k 0 = r.slots.getD k 0) ∧
          r1.sections = installed (sectionsOf r.image) r1.slots ∧
          recordedAs (recOf d (sqNext s) true 0 (leBytes 4 (fld d 96 8))) s t)))

/-- A packet with a bad PEC is dropped and counted. Control messages are answered from the end of SERVICE_BOOT on,
vendor-defined ones once the endpoint has an identifier. Each is counted and its answer carries COMMAND, INSTANCE,
COMPLETION and UNIT_GEN; a reading command changes no other state, except that GET_ALERTS removes the alerts that it
returns. An argument out of range is INVALID_DATA, a reserved command ERROR. The formats of control messages are the
model's (log 12), and so are refusals without data, GET_QLIST and READ_HISTORY past the end, READ_UNIT of an unpopulated
position and the two-byte length of READ_FSR (log 60). -/
def Obligations.ManagementAnswers : Prop :=
  (∀ s : State, mgmtUp s = true →
    exec .badPecPacket s = .next { s with mgmt := { s.mgmt with dropped := min (s.mgmt.dropped + 1) 65535 } } ∧
    (∀ eid : BitVec 8, eid ≠ 0 → eid ≠ 0xFF → ∃ t : State, exec (.setEndpointId eid) s = .next t ∧
      replied [0, 0, eid, 0] { s.mgmt with eid := eid, eidValid := true } s t) ∧
    (∀ eid : BitVec 8, eid = 0 ∨ eid = 0xFF → ∃ t : State, exec (.setEndpointId eid) s = .next t ∧ replied [0x02] s.mgmt s t) ∧
    (∃ t : State, exec .getEndpointId s = .next t ∧
      replied [0, if s.mgmt.eidValid then s.mgmt.eid else 0, 0, 0] s.mgmt s t) ∧
    (∀ v : BitVec 8, v ∈ [(0xFF : BitVec 8), 0x00, 0x01, 0x7E] → ∃ t : State, exec (.getMctpVersionSupport v) s = .next t ∧
      replied ([0, 1] ++ beBytes 4 (Config.mctpVersion v).toNat) s.mgmt s t) ∧
    (∃ t : State, exec .getMessageTypeSupport s = .next t ∧ replied [0, 2, 0x01, 0x7E] s.mgmt s t) ∧
    (∃ t : State, exec .getVendorDefinedMessageSupport s = .next t ∧
      replied ([0, 0xFF, 0] ++ beBytes 2 Config.vendorId.toNat ++ beBytes 2 Config.vendorSet.toNat) s.mgmt s t)) ∧
  (∀ (s : State) (ins k n b : BitVec 8) (a c : BitVec 16) (w : Word32) (u : UnitField), vendorUp s = true →
    (∀ x ∈ [(Instr.reservedCommand k ins, k.toNat, 0x01, ([] : List Byte)),
        (.readTotals ins, 0x0A, 0, (totalsList s.sec.totals ++ [s.work.replays]).flatMap (leBytes 8)),
        (.getStatus ins, 0x0F, 0,
          wordBytes [bootStage s, ssStatus s, ssCapLimits s, pwrStatus s, replayStatus s, tbStatus s.tb] ++ timeBytes s.tb)],
      ∃ t : State, exec x.1 s = .next t ∧ changesOnly [.out, .mgmtRegs] s t ∧ answered x.2.1 ins x.2.2.1 x.2.2.2 s t) ∧
    (∃ t code data, exec (.getUnits ins a c) s = .next t ∧ changesOnly [.out, .mgmtRegs] s t ∧
      answered 0x01 ins code data s t ∧
      (1 ≤ c.toNat ∧ c.toNat ≤ 512 ∧ a.toNat + c.toNat ≤ 1080 → code = 0 ∧ data.length = c.toNat ∧
        ∀ j, j < c.toNat → data[j]? = some (entryByte (unitEntry s (a.toNat + j)))) ∧
      (¬ (1 ≤ c.toNat ∧ c.toNat ≤ 512 ∧ a.toNat + c.toNat ≤ 1080) → code = 0x02 ∧ data = [])) ∧
    (∃ t code data, exec (.getQlist ins a c) s = .next t ∧ changesOnly [.out, .mgmtRegs] s t ∧
      answered 0x06 ins code data s t ∧
      (1 ≤ c.toNat ∧ c.toNat ≤ 16 → code = 0 ∧
        data = ((s.store.set.qlist.drop a.toNat).take c.toNat).flatMap qBytes) ∧
      (c.toNat = 0 ∨ 16 < c.toNat → code = 0x02 ∧ data = [])) ∧
    (∃ t code data, exec (.readUnit ins u) s = .next t ∧ changesOnly [.out, .mgmtRegs] s t ∧
      answered 0x09 ins code data s t ∧ (∀ i, unitIndex u = some i → code = 0 ∧ data = wordBytes (secEntry s i)) ∧
      (unitIndex u = none → code = 0x02 ∧ data = [])) ∧
    (∃ t code data, exec (.readFsr ins w a) s = .next t ∧ changesOnly [.out, .mgmtRegs] s t ∧
      answered 0x0B ins code data s t ∧
      (∀ bs, heldFsr s w.toNat = some bs → code = 0 ∧ data = (bs.drop a.toNat).take 256 ++ leBytes 2 bs.length) ∧
      (heldFsr s w.toNat = none → code = 0x86 ∧ data = [])) ∧
    (∃ t code data, exec (.readHistory ins k a n) s = .next t ∧ changesOnly [.out, .mgmtRegs] s t ∧
      answered 0x0C ins code data s t ∧
      (k.toNat ≤ 1 → 1 ≤ n.toNat → n.toNat ≤ 8 → code = 0 ∧
        data = (((if k = 0 then s.store.set.history else s.store.set.log).drop a.toNat).take n.toNat).flatten) ∧
      (1 < k.toNat ∨ n.toNat = 0 ∨ 8 < n.toNat → code = 0x02 ∧ data = [])) ∧
    (∃ t code data, exec (.debugRead ins k u w b) s = .next t ∧ changesOnly [.out, .mgmtRegs] s t ∧
      answered 0x0D ins code data s t ∧
      (∀ r, debugReading s k.toNat u w.toNat b.toNat = some r → code = 0 ∧
        data = leBytes 1 r.1 ++ leBytes 8 s.bridle.count ++ r.2) ∧
      (debugReading s k.toNat u w.toNat b.toNat = none → code = 0x02 ∧ data = [])) ∧
    (1 ≤ n.toNat → n.toNat ≤ 16 → ∃ t : State, exec (.getAlerts ins n) s = .next t ∧
      changesOnly [.out, .mgmtRegs, .alerts] s t ∧
      answered 0x0E ins 0 (alertsBytes s.mgmt.alertLost (s.mgmt.alerts.take n.toNat)) s t ∧
      t.mgmt.alerts = s.mgmt.alerts.drop n.toNat)) ∧
  (∀ s : State, vendorUp s = false → ∀ (ins k n b : BitVec 8) (a c : BitVec 16) (w : Word32) (u : UnitField),
    ∀ x ∈ [Instr.reservedCommand k ins, .getUnits ins a c, .getQlist ins a c, .readUnit ins u, .readTotals ins,
      .readFsr ins w a, .readHistory ins k a n, .debugRead ins k u w b, .getAlerts ins n, .getStatus ins,
      .fence ins u k, .fenceNow ins u k, .setOff ins u k, .restore ins u], exec x s = .next s)

/-- With no Reel and no job a fenced unit is out of service at once, a set-off one OFF: the table's generation rises if
its entry changes, its quarantine entry is kept with the reason, FENCE_APPLIED is posted and its new entry answered; a test of the unit ends.
While a job uses the unit it is only HELD: the job goes on, except that FENCE_NOW faults it. A unit that RESTORE takes
back is in WATCH, due for a test, without quarantine entry. Limits in range are kept and the committed cap moves into
them; others are refused. A store asked for here is answered when it completes, with RESULT 1 and SUCCESS or RESULT 2 and STORE_FAILED,
and the active bank's GENERATION as it then is. FENCE_APPLIED at every fence, repeats included (log 59), the end of the
unit's test (log 24), and the store answer's one-byte RESULT with RESULT 3 for wear (log 54) are the model's choices; a tile
that RESTORE takes back in READY has its Ballast buffer loaded anew with its group's (log 31). -/
def Obligations.UnitsLeaveAndReturn : Prop :=
  (∀ (s : State) (ins reason : BitVec 8) (u : UnitField) (i : Nat) (c : Instr) (st : UnitSt) (cmd : Nat), vendorUp s = true →
    unitIndex u = some i → unitPop s i = true →
    (c, st, cmd) ∈ [(Instr.fence ins u reason, UnitSt.fenced, 2), (.fenceNow ins u reason, .fenced, 3),
      (.setOff ins u reason, .off, 4)] →
    (listFull s i = true → ∃ t : State, exec c s = .next t ∧ changesOnly [.out, .mgmtRegs] s t ∧ answered cmd ins 0x82 [] s t) ∧
    (listFull s i = false → s.reel = none → jobBusy s = false → (∀ x ∈ s.store.set.units, x.2.held = false) →
      ∃ t : State, exec c s = .next t ∧
        changesOnly (([.settings, .unitGen, .tiles, .ports, .mems, .power, .test, .out, .mgmtRegs] : List Part) ++ posts) s t ∧
        ((∀ y, s.sec.test = some y → y.unit ≠ i) → t.sec.test = s.sec.test) ∧
        (∀ y, s.sec.test = some y → y.unit = i → unitEntry s i ≠ { st := st, held := false } → t.sec.test = none) ∧
        (1024 ≤ i ∨ st ≠ .off → t.tiles = s.tiles) ∧
        unitEntry t i = { st := st, held := false } ∧ (∀ j, j ≠ i → unitEntry t j = unitEntry s j) ∧
        t.unitGen = (if unitEntry s i = { st := st, held := false } then s.unitGen else nextSeq s.unitGen) ∧
        (∃ q ∈ t.store.set.qlist, q.unit = unitField i ∧ q.st = st ∧ q.reason = reason) ∧
        t.rings.seq = nextSeq s.rings.seq ∧ answered cmd ins 0 [entryByte { st := st, held := false }] s t) ∧
    (listFull s i = false → running s = true → usesUnit s i = true → s.job.ownFault = none →
      ∃ t : State, exec c s = .next t ∧ changesOnly (([.settings, .unitGen, .out, .mgmtRegs, .job, .test] : List Part) ++ posts) s t ∧
        unitEntry t i = { st := st, held := true } ∧ unitSt t i = .fenced ∧
        answered cmd ins 0 [entryByte { st := st, held := true }] s t ∧
        (cmd ≠ 3 → t.job = s.job) ∧
        (cmd = 3 → t.job.faulted = true ∧
          (t.job.ownFault.map (fun l => (l.code, l.unit))) = some (0x0F01#16, unitField i)))) ∧
  (∀ (s : State) (ins : BitVec 8) (u : UnitField) (i : Nat), vendorUp s = true → unitIndex u = some i → unitPop s i = true →
    (outOfService s i = false → ∃ t : State, exec (.restore ins u) s = .next t ∧ changesOnly [.out, .mgmtRegs] s t ∧
      answered 5 ins 0x81 [] s t) ∧
    (outOfService s i = true → ∃ t : State, exec (.restore ins u) s = .next t ∧
      changesOnly (([.settings, .unitGen, .health, .ports, .mems, .power, .out, .mgmtRegs] : List Part) ++ posts) s t ∧
      t.power = { s.power with buffers := t.power.buffers } ∧ (1024 ≤ i → t.power = s.power) ∧
      unitEntry t i = { st := .watch, held := false } ∧ (∀ q ∈ t.store.set.qlist, q.unit ≠ unitField i) ∧
      dueTime t i ≤ s.sec.uptime ∧ t.unitGen = nextSeq s.unitGen ∧ t.rings.seq = nextSeq s.rings.seq ∧
      answered 5 ins 0 [entryByte { st := .watch, held := false }] s t)) ∧
  (∀ (s : State) (ins reason : BitVec 8) (u : UnitField), vendorUp s = true →
    unitIndex u = none ∨ (∃ i, unitIndex u = some i ∧ unitPop s i = false) →
    ∃ t code, exec (.fence ins u reason) s = .next t ∧ changesOnly [.out, .mgmtRegs] s t ∧ answered 2 ins code [] s t ∧
      code = (if unitIndex u = none then 0x02 else 0x80)) ∧
  (∀ (s : State) (ins : BitVec 8) (lo hi : BitVec 16), vendorUp s = true →
    (lo.toNat < 500 ∨ powerLimit s < hi.toNat ∨ hi.toNat < lo.toNat →
      ∃ t : State, exec (.setCapLimits ins lo hi) s = .next t ∧ changesOnly [.out, .mgmtRegs] s t ∧ answered 7 ins 0x83 [] s t) ∧
    (500 ≤ lo.toNat → lo.toNat ≤ hi.toNat → hi.toNat ≤ powerLimit s →
      ∃ t : State, exec (.setCapLimits ins lo hi) s = .next t ∧
        changesOnly (([.settings, .power, .out, .mgmtRegs] : List Part) ++ posts) s t ∧ t.store.set.capMin = lo.toNat ∧
        t.store.set.capMax = hi.toNat ∧
        t.power.committed.cap.toNat = max lo.toNat (min hi.toNat s.power.committed.cap.toNat) ∧
        answered 7 ins 0 (leBytes 2 lo.toNat ++ leBytes 2 hi.toNat) s t)) ∧
  (∀ (s : State) (ins : BitVec 8), vendorUp s = true →
    (activeCount s.store < 100000 → s.store.run = none → s.store.waiting = [] →
      ∃ t x, exec (.mgmtStoreSettings ins) s = .next t ∧ changesOnly [.settings, .banks] s t ∧ t.store.run = some x ∧
        x.req = .mgmt ins ∧ x.set = t.store.set) ∧
    (100000 ≤ activeCount s.store →
      ∃ t : State, exec (.mgmtStoreSettings ins) s = .next t ∧ changesOnly [.banks, .out, .mgmtRegs] s t ∧
        answered 8 ins 0x85 (leBytes 1 3 ++ leBytes 4 (activeGen s.store)) s t ∧ t.store.worn = true)) ∧
  (∀ (s : State) (ins : BitVec 8) (x : StoreRun) (good : Bool), svcOn s = true → s.store.run = some x → x.req = .mgmt ins →
    ∃ t : State, exec (.storeComplete good) s = .next t ∧ changesOnly [.banks, .out, .mgmtRegs] s t ∧
      answered 8 ins (if good then 0 else 0x84)
        (leBytes 1 (if good then 1 else 2) ++ leBytes 4 (if good then x.generation else activeGen s.store)) s t)

/-- A refresh takes every sensor's reading anew and changes nothing else; a numeric sensor is answered with its reading as
last refreshed in 32 bits, a state sensor with its state, another number as an error. The message formats are the
model's (log 12). BYPASS, IDCODE, SAMPLE/PRELOAD and TRST select their register and drive nothing. EXTEST, CLAMP and
HIGHZ drive the lands in stages OFF and HELD; later they act as BYPASS with bit 2 of the captured instruction register
at 1, also when the stage has moved on since the instruction was loaded. No TAP instruction changes anything but the TAP. An
instruction as one whole operation, drive and bit 2 that follow later changes of stage, and TRST as a low level are the
model's (log 61). -/
def Obligations.SensorsAndTheTap : Prop :=
  (∀ s : State, mgmtUp s = true → ∃ t : State, exec .pdrSensorRefresh s = .next t ∧ changesOnly [.mgmtRegs] s t ∧
    (∀ id ∈ sensorIds s, sensorReading t id = sensorNow s id)) ∧
  (∀ (s : State) (x : BitVec 8) (id : BitVec 16) (h : Word32), vendorUp s = true →
    (∀ y ∈ [(Instr.getTid, [(0 : Byte), s.mgmt.tid]), (.getPldmTypes, [(0 : Byte)] ++ leBytes 8 5),
        (.getPdrRepositoryInfo, [(0 : Byte), 0] ++ List.replicate 26 0 ++ leBytes 4 (sensorIds s).length ++
          leBytes 4 (5 * (sensorIds s).length) ++ leBytes 4 5 ++ [0])],
      ∃ t : State, exec y.1 s = .next t ∧ replied y.2 s.mgmt s t) ∧
    (x = 0 ∨ x = 0xFF → ∃ t : State, exec (.setTid x) s = .next t ∧ replied [0x02] s.mgmt s t) ∧
    (x ≠ 0 → x ≠ 0xFF → ∃ t : State, exec (.setTid x) s = .next t ∧ replied [0] { s.mgmt with tid := x } s t) ∧
    (x = 0 ∨ x = 2 → (∃ t : State, exec (.getPldmVersion x) s = .next t ∧
        replied ([0] ++ leBytes 4 0 ++ [5] ++ leBytes 4 (Config.pldmVersion x).toNat) s.mgmt s t) ∧
      ∃ t : State, exec (.getPldmCommands x) s = .next t ∧ replied ([0] ++ leBytes 32 (pldmCommands x)) s.mgmt s t) ∧
    (x ≠ 0 → x ≠ 2 → (∃ t : State, exec (.getPldmVersion x) s = .next t ∧ replied [0x83] s.mgmt s t) ∧
      ∃ t : State, exec (.getPldmCommands x) s = .next t ∧ replied [0x83] s.mgmt s t) ∧
    (∃ t : State, exec (.getPdr h) s = .next t ∧ replied
      (if (if h = 0 then 1 else h.toNat) ∈ sensorIds s then
        [0] ++ leBytes 4 (nextHandle (if h = 0 then 1 else h.toNat) (sensorIds s)) ++
          pdrBytes (if h = 0 then 1 else h.toNat)
       else [0x82]) s.mgmt s t) ∧
    (id.toNat ∈ sensorIds s → id.toNat < 40 → ∃ t : State, exec (.getSensorReading id) s = .next t ∧
      replied ([0, if 5 ≤ id.toNat ∧ id.toNat < 14 then 5 else 4, 0, 0, 0, 0, 0] ++
        leInt 4 (sensorReading s id.toNat)) s.mgmt s t) ∧
    (id.toNat ∈ sensorIds s → 40 ≤ id.toNat → ∃ t : State, exec (.getStateSensorReadings id) s = .next t ∧
      replied ([0, 1, 0] ++ leInt 1 (sensorReading s id.toNat) ++ [0, 0]) s.mgmt s t) ∧
    (id.toNat ∉ sensorIds s → (∃ t : State, exec (.getSensorReading id) s = .next t ∧ replied [0x80] s.mgmt s t) ∧
      ∃ t : State, exec (.getStateSensorReadings id) s = .next t ∧ replied [0x80] s.mgmt s t)) ∧
  (∀ (s : State) (lands preload : List Bool) (c : Instr) (ir : BitVec 8) (tdo : List Bool),
    (c, ir, tdo) ∈ [(Instr.bypass, (0xFF : BitVec 8), [false]),
      (.idcode, 0x01, bitList 32 (2 ^ 28 + 0xCA1C * 2 ^ 12 + Config.jedecId.toNat * 2 + 1)),
      (.trst, 0x01, bitList 32 (2 ^ 28 + 0xCA1C * 2 ^ 12 + Config.jedecId.toNat * 2 + 1)),
      (.samplePreload lands preload, 0x02, lands)] →
    ∃ t : State, exec c s = .next t ∧ changesOnly [.tap, .out] s t ∧ t.tap.ir = ir ∧ t.out = { s.out with tdo := tdo } ∧
      t.tap.drive = .functional ∧ capBit2 t = false ∧ (t.tap.trstN = false ↔ c = .trst) ∧
      t.tap.boundary = (if ir = 0x02 then preload else s.tap.boundary)) ∧
  (∀ (s : State) (c : Instr) (ir : BitVec 8) (tdo : List Bool) (d : LandDrive),
    (c, ir, tdo, d) ∈ [(Instr.extest, (0x03 : BitVec 8), s.tap.boundary, LandDrive.extest), (.clamp, 0x04, [false], .clamp),
      (.highz, 0x05, [false], .highz)] →
    ∃ t : State, exec c s = .next t ∧ changesOnly [.tap, .out] s t ∧ t.tap.ir = ir ∧ t.tap.boundary = s.tap.boundary ∧
      (s.boot.stage = .off ∨ s.boot.stage = .held →
        landDriver t = d ∧ capBit2 t = false ∧ t.out = { s.out with tdo := tdo }) ∧
      (s.boot.stage ≠ .off → s.boot.stage ≠ .held →
        landDriver t = .functional ∧ capBit2 t = true ∧ t.out = { s.out with tdo := [false] }) ∧
      (∀ b : Boot, b.stage ≠ .off → b.stage ≠ .held →
        capBit2 { t with boot := b } = true ∧ landDriver { t with boot := b } = .functional))
end

