-- ==== Sys2Proof/Laws/Sparse.lean ====
section
/-! SUPPORT. Sparse data and host memory: a read after a write, and the canonical form, which every operation keeps. -/

namespace Sys2Proof.Machine

variable {α : Type}

/-! ## Reads after writes -/

theorem find?_put_self (k : Nat) (v : α) (m : Sparse α) : find? k (put k v m) = some v := by
  induction m with
  | nil => simp [put, find?]
  | cons x m ih =>
    obtain ⟨j, w⟩ := x
    by_cases h1 : k < j
    · simp [put, find?, h1]
    · by_cases h2 : k = j
      · simp [put, find?, h2]
      · simp [put, find?, h1, h2, ih]

theorem find?_put_other {k j : Nat} (h : j ≠ k) (v : α) (m : Sparse α) : find? j (put k v m) = find? j m := by
  induction m with
  | nil => simp [put, find?, h]
  | cons x m ih =>
    obtain ⟨i, w⟩ := x
    by_cases h1 : k < i
    · simp [put, find?, h1, h]
    · by_cases h2 : k = i
      · subst h2
        simp [put, find?, h]
      · simp [put, find?, h1, h2, ih]

theorem find?_erase_self (k : Nat) (m : Sparse α) : find? k (erase k m) = none := by
  induction m with
  | nil => rfl
  | cons x m ih =>
    obtain ⟨i, w⟩ := x
    by_cases h : k = i
    · rw [erase, if_pos h]
      exact ih
    · simp [erase, find?, h, ih]

theorem find?_erase_other {k j : Nat} (h : j ≠ k) (m : Sparse α) : find? j (erase k m) = find? j m := by
  induction m with
  | nil => rfl
  | cons x m ih =>
    obtain ⟨i, w⟩ := x
    by_cases h2 : k = i
    · subst h2
      simp [erase, find?, h, ih]
    · simp [erase, find?, h2, ih]

/-- What was stored at a key is read back. -/
@[simp] theorem look_store_self [DecidableEq α] (d : α) (k : Nat) (v : α) (m : Sparse α) : look d k (store d k v m) = v := by
  by_cases h : v = d
  · simp [look, store, h, find?_erase_self]
  · simp [look, store, h, find?_put_self]

/-- A store leaves every other key as it was. -/
theorem look_store_other [DecidableEq α] {k j : Nat} (h : j ≠ k) (d v : α) (m : Sparse α) : look d j (store d k v m) = look d j m := by
  by_cases hv : v = d
  · simp [look, store, hv, find?_erase_other h]
  · simp [look, store, hv, find?_put_other h]

/-! ## The canonical form -/

/-- Every key of the data lies above a number. -/
def Above (k : Nat) (m : Sparse α) : Prop := ∀ x ∈ m, k < x.1

theorem risingKeys_cons (x : Nat × α) (m : Sparse α) :
    risingKeys (x :: m) = true ↔ Above x.1 m ∧ risingKeys m = true := by
  induction m generalizing x with
  | nil => simp [risingKeys, Above]
  | cons y m ih =>
    obtain ⟨j, w⟩ := x
    obtain ⟨i, u⟩ := y
    constructor
    · intro h
      simp only [risingKeys, Bool.and_eq_true, decide_eq_true_eq] at h
      refine ⟨?_, h.2⟩
      intro z hz
      rcases List.mem_cons.mp hz with rfl | hz
      · exact h.1
      · exact Nat.lt_trans h.1 ((ih (i, u)).mp h.2 |>.1 z hz)
    · rintro ⟨h1, h2⟩
      simp only [risingKeys, Bool.and_eq_true, decide_eq_true_eq]
      exact ⟨h1 (i, u) (by simp), h2⟩

theorem mem_erase {k : Nat} {m : Sparse α} {x : Nat × α} (h : x ∈ erase k m) : x ∈ m := by
  induction m with
  | nil => simp [erase] at h
  | cons y m ih =>
    obtain ⟨j, w⟩ := y
    by_cases hk : k = j
    · rw [erase, if_pos hk] at h
      exact List.mem_cons_of_mem _ (ih h)
    · rw [erase, if_neg hk] at h
      rcases List.mem_cons.mp h with h | h
      · simp [h]
      · exact List.mem_cons_of_mem _ (ih h)

theorem mem_put {k : Nat} {v : α} {m : Sparse α} {x : Nat × α} (h : x ∈ put k v m) : x = (k, v) ∨ x ∈ m := by
  induction m with
  | nil => simpa [put] using h
  | cons y m ih =>
    obtain ⟨j, w⟩ := y
    by_cases h1 : k < j
    · rw [put, if_pos h1] at h
      exact List.mem_cons.mp h
    · by_cases h2 : k = j
      · rw [put, if_neg h1, if_pos h2] at h
        rcases List.mem_cons.mp h with h | h
        · exact Or.inl h
        · exact Or.inr (List.mem_cons_of_mem _ h)
      · rw [put, if_neg h1, if_neg h2] at h
        rcases List.mem_cons.mp h with h | h
        · exact Or.inr (by simp [h])
        · rcases ih h with h | h
          · exact Or.inl h
          · exact Or.inr (List.mem_cons_of_mem _ h)

theorem risingKeys_erase (k : Nat) (m : Sparse α) (h : risingKeys m = true) : risingKeys (erase k m) = true := by
  induction m with
  | nil => rfl
  | cons y m ih =>
    obtain ⟨j, w⟩ := y
    obtain ⟨ha, hm⟩ := (risingKeys_cons _ _).mp h
    by_cases hk : k = j
    · rw [erase, if_pos hk]
      exact ih hm
    · rw [erase, if_neg hk]
      exact (risingKeys_cons _ _).mpr ⟨fun x hx => ha x (mem_erase hx), ih hm⟩

theorem risingKeys_put (k : Nat) (v : α) (m : Sparse α) (h : risingKeys m = true) : risingKeys (put k v m) = true := by
  induction m with
  | nil => rfl
  | cons y m ih =>
    obtain ⟨j, w⟩ := y
    obtain ⟨ha, hm⟩ := (risingKeys_cons _ _).mp h
    by_cases h1 : k < j
    · rw [put, if_pos h1]
      refine (risingKeys_cons _ _).mpr ⟨?_, h⟩
      intro x hx
      rcases List.mem_cons.mp hx with rfl | hx
      · exact h1
      · exact Nat.lt_trans h1 (ha x hx)
    · by_cases h2 : k = j
      · rw [put, if_neg h1, if_pos h2]
        subst h2
        exact (risingKeys_cons _ _).mpr ⟨ha, hm⟩
      · rw [put, if_neg h1, if_neg h2]
        refine (risingKeys_cons _ _).mpr ⟨?_, ih hm⟩
        intro x hx
        rcases mem_put hx with rfl | hx
        · omega
        · exact ha x hx

/-- A store keeps the canonical form. -/
theorem canonical_store [DecidableEq α] (d : α) (k : Nat) (v : α) (m : Sparse α) (h : canonical d m = true) :
    canonical d (store d k v m) = true := by
  simp only [canonical, Bool.and_eq_true, List.all_eq_true, decide_eq_true_eq] at h ⊢
  by_cases hv : v = d
  · rw [store, if_pos hv]
    exact ⟨risingKeys_erase k m h.1, fun x hx => h.2 x (mem_erase hx)⟩
  · rw [store, if_neg hv]
    refine ⟨risingKeys_put k v m h.1, fun x hx => ?_⟩
    rcases mem_put hx with rfl | hx
    · exact hv
    · exact h.2 x hx

theorem risingKeys_sublist {m n : Sparse α} (hs : List.Sublist n m) (h : risingKeys m = true) : risingKeys n = true := by
  induction hs with
  | slnil => rfl
  | cons x _ ih => exact ih ((risingKeys_cons _ _).mp h).2
  | @cons_cons l₁ l₂ x hs ih =>
    obtain ⟨ha, hm⟩ := (risingKeys_cons _ _).mp h
    exact (risingKeys_cons _ _).mpr ⟨fun y hy => ha y (hs.subset hy), ih hm⟩

theorem risingKeys_map (f : α → α) (m : Sparse α) (h : risingKeys m = true) :
    risingKeys (m.map (fun x => (x.1, f x.2))) = true := by
  induction m with
  | nil => rfl
  | cons y m ih =>
    obtain ⟨ha, hm⟩ := (risingKeys_cons _ _).mp h
    rw [List.map_cons]
    refine (risingKeys_cons _ _).mpr ⟨?_, ih hm⟩
    intro x hx
    obtain ⟨z, hz, rfl⟩ := List.mem_map.mp hx
    exact ha z hz

/-- A function applied to every entry keeps the canonical form. -/
theorem canonical_mapVals [DecidableEq α] (d : α) (f : α → α) (m : Sparse α) (h : canonical d m = true) :
    canonical d (mapVals d f m) = true := by
  simp only [canonical, Bool.and_eq_true, List.all_eq_true, decide_eq_true_eq] at h ⊢
  refine ⟨risingKeys_sublist List.filter_sublist (risingKeys_map f m h.1), fun x hx => ?_⟩
  simpa [mapVals] using (List.mem_filter.mp hx).2

/-! ## Host memory -/

theorem Memory.wf_writeByte (m : List Host.Cell) (a : Nat) (b : Byte) (h : Memory.wf m = true) :
    Memory.wf (writeByte m a b) = true := canonical_store _ a b m h

theorem Memory.wf_writeBytes (bs : List Byte) (m : List Host.Cell) (a : Nat) (h : Memory.wf m = true) :
    Memory.wf (writeBytes m a bs) = true := by
  induction bs generalizing m a with
  | nil => exact h
  | cons b bs ih => exact ih _ _ (Memory.wf_writeByte m a b h)

theorem Memory.wf_writeCells (cs : List (Nat × Byte)) (m : List Host.Cell) (h : Memory.wf m = true) :
    Memory.wf (writeCells m cs) = true := by
  induction cs generalizing m with
  | nil => exact h
  | cons c cs ih => exact ih _ (Memory.wf_writeByte m c.1 c.2 h)

/-- A byte written is read back. -/
@[simp] theorem readByte_writeByte_self (m : List Host.Cell) (a : Nat) (b : Byte) : readByte (writeByte m a b) a = b :=
  look_store_self 0 a b m

/-- A byte written leaves every other address as it was. -/
theorem readByte_writeByte_other {a c : Nat} (h : c ≠ a) (m : List Host.Cell) (b : Byte) :
    readByte (writeByte m a b) c = readByte m c := look_store_other h 0 b m

/-- Bytes written leave every address below and above them as it was. -/
theorem readByte_writeBytes_outside (bs : List Byte) (m : List Host.Cell) (a c : Nat) (h : c < a ∨ a + bs.length ≤ c) :
    readByte (writeBytes m a bs) c = readByte m c := by
  induction bs generalizing m a with
  | nil => rfl
  | cons b bs ih =>
    simp only [List.length_cons] at h
    rw [writeBytes, ih _ _ (by omega), readByte_writeByte_other (by omega)]

/-- Bytes written are read back. -/
theorem readByte_writeBytes_inside (bs : List Byte) (m : List Host.Cell) (a i : Nat) (h : i < bs.length) :
    readByte (writeBytes m a bs) (a + i) = bs[i] := by
  induction bs generalizing m a i with
  | nil => simp at h
  | cons b bs ih =>
    cases i with
    | zero => rw [writeBytes, readByte_writeBytes_outside _ _ _ _ (by omega)]; simp
    | succ i =>
      have := ih (writeByte m a b) (a + 1) i (by simpa using h)
      rw [writeBytes, show a + (i + 1) = a + 1 + i by omega, this]
      simp

end Sys2Proof.Machine
end

