-- ==== Sys2Proof/Laws/State.lean ====
section
/-! SUPPORT. The small lemmas of the state's updates: one per field and update, and access after update. -/

namespace Sys2Proof.Machine

@[simp] theorem setTile_ident (u : Nat) (v : Tile) (s : State) : (setTile u v s).ident = s.ident := rfl
@[simp] theorem setTile_tray (u : Nat) (v : Tile) (s : State) : (setTile u v s).tray = s.tray := rfl
@[simp] theorem setTile_boot (u : Nat) (v : Tile) (s : State) : (setTile u v s).boot = s.boot := rfl
@[simp] theorem setTile_stop (u : Nat) (v : Tile) (s : State) : (setTile u v s).stop = s.stop := rfl
@[simp] theorem setTile_store (u : Nat) (v : Tile) (s : State) : (setTile u v s).store = s.store := rfl
@[simp] theorem setTile_unitGen (u : Nat) (v : Tile) (s : State) : (setTile u v s).unitGen = s.unitGen := rfl
@[simp] theorem setTile_sec (u : Nat) (v : Tile) (s : State) : (setTile u v s).sec = s.sec := rfl
@[simp] theorem setTile_tiles (u : Nat) (v : Tile) (s : State) : (setTile u v s).tiles = store Tile.clear u v s.tiles := rfl
@[simp] theorem setTile_localq (u : Nat) (v : Tile) (s : State) : (setTile u v s).localq = s.localq := rfl
@[simp] theorem setTile_shadowed (u : Nat) (v : Tile) (s : State) : (setTile u v s).shadowed = s.shadowed := rfl
@[simp] theorem setTile_mems (u : Nat) (v : Tile) (s : State) : (setTile u v s).mems = s.mems := rfl
@[simp] theorem setTile_far (u : Nat) (v : Tile) (s : State) : (setTile u v s).far = s.far := rfl
@[simp] theorem setTile_ports (u : Nat) (v : Tile) (s : State) : (setTile u v s).ports = s.ports := rfl
@[simp] theorem setTile_transits (u : Nat) (v : Tile) (s : State) : (setTile u v s).transits = s.transits := rfl
@[simp] theorem setTile_bridle (u : Nat) (v : Tile) (s : State) : (setTile u v s).bridle = s.bridle := rfl
@[simp] theorem setTile_pacer (u : Nat) (v : Tile) (s : State) : (setTile u v s).pacer = s.pacer := rfl
@[simp] theorem setTile_job (u : Nat) (v : Tile) (s : State) : (setTile u v s).job = s.job := rfl
@[simp] theorem setTile_work (u : Nat) (v : Tile) (s : State) : (setTile u v s).work = s.work := rfl
@[simp] theorem setTile_window (u : Nat) (v : Tile) (s : State) : (setTile u v s).window = s.window := rfl
@[simp] theorem setTile_reel (u : Nat) (v : Tile) (s : State) : (setTile u v s).reel = s.reel := rfl
@[simp] theorem setTile_det (u : Nat) (v : Tile) (s : State) : (setTile u v s).det = s.det := rfl
@[simp] theorem setTile_ldr (u : Nat) (v : Tile) (s : State) : (setTile u v s).ldr = s.ldr := rfl
@[simp] theorem setTile_power (u : Nat) (v : Tile) (s : State) : (setTile u v s).power = s.power := rfl
@[simp] theorem setTile_tb (u : Nat) (v : Tile) (s : State) : (setTile u v s).tb = s.tb := rfl
@[simp] theorem setTile_rings (u : Nat) (v : Tile) (s : State) : (setTile u v s).rings = s.rings := rfl
@[simp] theorem setTile_mgmt (u : Nat) (v : Tile) (s : State) : (setTile u v s).mgmt = s.mgmt := rfl
@[simp] theorem setTile_tap (u : Nat) (v : Tile) (s : State) : (setTile u v s).tap = s.tap := rfl
@[simp] theorem setTile_out (u : Nat) (v : Tile) (s : State) : (setTile u v s).out = s.out := rfl
@[simp] theorem setTile_latches (u : Nat) (v : Tile) (s : State) : (setTile u v s).latches = s.latches := rfl
@[simp] theorem setTile_entropy (u : Nat) (v : Tile) (s : State) : (setTile u v s).entropy = s.entropy := rfl
@[simp] theorem setTile_pending (u : Nat) (v : Tile) (s : State) : (setTile u v s).pending = s.pending := rfl

@[simp] theorem updTile_ident (u : Nat) (f : Tile → Tile) (s : State) : (updTile u f s).ident = s.ident := rfl
@[simp] theorem updTile_tray (u : Nat) (f : Tile → Tile) (s : State) : (updTile u f s).tray = s.tray := rfl
@[simp] theorem updTile_boot (u : Nat) (f : Tile → Tile) (s : State) : (updTile u f s).boot = s.boot := rfl
@[simp] theorem updTile_stop (u : Nat) (f : Tile → Tile) (s : State) : (updTile u f s).stop = s.stop := rfl
@[simp] theorem updTile_store (u : Nat) (f : Tile → Tile) (s : State) : (updTile u f s).store = s.store := rfl
@[simp] theorem updTile_unitGen (u : Nat) (f : Tile → Tile) (s : State) : (updTile u f s).unitGen = s.unitGen := rfl
@[simp] theorem updTile_sec (u : Nat) (f : Tile → Tile) (s : State) : (updTile u f s).sec = s.sec := rfl
@[simp] theorem updTile_tiles (u : Nat) (f : Tile → Tile) (s : State) : (updTile u f s).tiles = store Tile.clear u (f (tileOf s u)) s.tiles := rfl
@[simp] theorem updTile_localq (u : Nat) (f : Tile → Tile) (s : State) : (updTile u f s).localq = s.localq := rfl
@[simp] theorem updTile_shadowed (u : Nat) (f : Tile → Tile) (s : State) : (updTile u f s).shadowed = s.shadowed := rfl
@[simp] theorem updTile_mems (u : Nat) (f : Tile → Tile) (s : State) : (updTile u f s).mems = s.mems := rfl
@[simp] theorem updTile_far (u : Nat) (f : Tile → Tile) (s : State) : (updTile u f s).far = s.far := rfl
@[simp] theorem updTile_ports (u : Nat) (f : Tile → Tile) (s : State) : (updTile u f s).ports = s.ports := rfl
@[simp] theorem updTile_transits (u : Nat) (f : Tile → Tile) (s : State) : (updTile u f s).transits = s.transits := rfl
@[simp] theorem updTile_bridle (u : Nat) (f : Tile → Tile) (s : State) : (updTile u f s).bridle = s.bridle := rfl
@[simp] theorem updTile_pacer (u : Nat) (f : Tile → Tile) (s : State) : (updTile u f s).pacer = s.pacer := rfl
@[simp] theorem updTile_job (u : Nat) (f : Tile → Tile) (s : State) : (updTile u f s).job = s.job := rfl
@[simp] theorem updTile_work (u : Nat) (f : Tile → Tile) (s : State) : (updTile u f s).work = s.work := rfl
@[simp] theorem updTile_window (u : Nat) (f : Tile → Tile) (s : State) : (updTile u f s).window = s.window := rfl
@[simp] theorem updTile_reel (u : Nat) (f : Tile → Tile) (s : State) : (updTile u f s).reel = s.reel := rfl
@[simp] theorem updTile_det (u : Nat) (f : Tile → Tile) (s : State) : (updTile u f s).det = s.det := rfl
@[simp] theorem updTile_ldr (u : Nat) (f : Tile → Tile) (s : State) : (updTile u f s).ldr = s.ldr := rfl
@[simp] theorem updTile_power (u : Nat) (f : Tile → Tile) (s : State) : (updTile u f s).power = s.power := rfl
@[simp] theorem updTile_tb (u : Nat) (f : Tile → Tile) (s : State) : (updTile u f s).tb = s.tb := rfl
@[simp] theorem updTile_rings (u : Nat) (f : Tile → Tile) (s : State) : (updTile u f s).rings = s.rings := rfl
@[simp] theorem updTile_mgmt (u : Nat) (f : Tile → Tile) (s : State) : (updTile u f s).mgmt = s.mgmt := rfl
@[simp] theorem updTile_tap (u : Nat) (f : Tile → Tile) (s : State) : (updTile u f s).tap = s.tap := rfl
@[simp] theorem updTile_out (u : Nat) (f : Tile → Tile) (s : State) : (updTile u f s).out = s.out := rfl
@[simp] theorem updTile_latches (u : Nat) (f : Tile → Tile) (s : State) : (updTile u f s).latches = s.latches := rfl
@[simp] theorem updTile_entropy (u : Nat) (f : Tile → Tile) (s : State) : (updTile u f s).entropy = s.entropy := rfl
@[simp] theorem updTile_pending (u : Nat) (f : Tile → Tile) (s : State) : (updTile u f s).pending = s.pending := rfl

@[simp] theorem setPort_ident (p : Nat) (v : Port) (s : State) : (setPort p v s).ident = s.ident := rfl
@[simp] theorem setPort_tray (p : Nat) (v : Port) (s : State) : (setPort p v s).tray = s.tray := rfl
@[simp] theorem setPort_boot (p : Nat) (v : Port) (s : State) : (setPort p v s).boot = s.boot := rfl
@[simp] theorem setPort_stop (p : Nat) (v : Port) (s : State) : (setPort p v s).stop = s.stop := rfl
@[simp] theorem setPort_store (p : Nat) (v : Port) (s : State) : (setPort p v s).store = s.store := rfl
@[simp] theorem setPort_unitGen (p : Nat) (v : Port) (s : State) : (setPort p v s).unitGen = s.unitGen := rfl
@[simp] theorem setPort_sec (p : Nat) (v : Port) (s : State) : (setPort p v s).sec = s.sec := rfl
@[simp] theorem setPort_tiles (p : Nat) (v : Port) (s : State) : (setPort p v s).tiles = s.tiles := rfl
@[simp] theorem setPort_localq (p : Nat) (v : Port) (s : State) : (setPort p v s).localq = s.localq := rfl
@[simp] theorem setPort_shadowed (p : Nat) (v : Port) (s : State) : (setPort p v s).shadowed = s.shadowed := rfl
@[simp] theorem setPort_mems (p : Nat) (v : Port) (s : State) : (setPort p v s).mems = s.mems := rfl
@[simp] theorem setPort_far (p : Nat) (v : Port) (s : State) : (setPort p v s).far = s.far := rfl
@[simp] theorem setPort_ports (p : Nat) (v : Port) (s : State) : (setPort p v s).ports = store Port.off p v s.ports := rfl
@[simp] theorem setPort_transits (p : Nat) (v : Port) (s : State) : (setPort p v s).transits = s.transits := rfl
@[simp] theorem setPort_bridle (p : Nat) (v : Port) (s : State) : (setPort p v s).bridle = s.bridle := rfl
@[simp] theorem setPort_pacer (p : Nat) (v : Port) (s : State) : (setPort p v s).pacer = s.pacer := rfl
@[simp] theorem setPort_job (p : Nat) (v : Port) (s : State) : (setPort p v s).job = s.job := rfl
@[simp] theorem setPort_work (p : Nat) (v : Port) (s : State) : (setPort p v s).work = s.work := rfl
@[simp] theorem setPort_window (p : Nat) (v : Port) (s : State) : (setPort p v s).window = s.window := rfl
@[simp] theorem setPort_reel (p : Nat) (v : Port) (s : State) : (setPort p v s).reel = s.reel := rfl
@[simp] theorem setPort_det (p : Nat) (v : Port) (s : State) : (setPort p v s).det = s.det := rfl
@[simp] theorem setPort_ldr (p : Nat) (v : Port) (s : State) : (setPort p v s).ldr = s.ldr := rfl
@[simp] theorem setPort_power (p : Nat) (v : Port) (s : State) : (setPort p v s).power = s.power := rfl
@[simp] theorem setPort_tb (p : Nat) (v : Port) (s : State) : (setPort p v s).tb = s.tb := rfl
@[simp] theorem setPort_rings (p : Nat) (v : Port) (s : State) : (setPort p v s).rings = s.rings := rfl
@[simp] theorem setPort_mgmt (p : Nat) (v : Port) (s : State) : (setPort p v s).mgmt = s.mgmt := rfl
@[simp] theorem setPort_tap (p : Nat) (v : Port) (s : State) : (setPort p v s).tap = s.tap := rfl
@[simp] theorem setPort_out (p : Nat) (v : Port) (s : State) : (setPort p v s).out = s.out := rfl
@[simp] theorem setPort_latches (p : Nat) (v : Port) (s : State) : (setPort p v s).latches = s.latches := rfl
@[simp] theorem setPort_entropy (p : Nat) (v : Port) (s : State) : (setPort p v s).entropy = s.entropy := rfl
@[simp] theorem setPort_pending (p : Nat) (v : Port) (s : State) : (setPort p v s).pending = s.pending := rfl

@[simp] theorem updPort_ident (p : Nat) (f : Port → Port) (s : State) : (updPort p f s).ident = s.ident := rfl
@[simp] theorem updPort_tray (p : Nat) (f : Port → Port) (s : State) : (updPort p f s).tray = s.tray := rfl
@[simp] theorem updPort_boot (p : Nat) (f : Port → Port) (s : State) : (updPort p f s).boot = s.boot := rfl
@[simp] theorem updPort_stop (p : Nat) (f : Port → Port) (s : State) : (updPort p f s).stop = s.stop := rfl
@[simp] theorem updPort_store (p : Nat) (f : Port → Port) (s : State) : (updPort p f s).store = s.store := rfl
@[simp] theorem updPort_unitGen (p : Nat) (f : Port → Port) (s : State) : (updPort p f s).unitGen = s.unitGen := rfl
@[simp] theorem updPort_sec (p : Nat) (f : Port → Port) (s : State) : (updPort p f s).sec = s.sec := rfl
@[simp] theorem updPort_tiles (p : Nat) (f : Port → Port) (s : State) : (updPort p f s).tiles = s.tiles := rfl
@[simp] theorem updPort_localq (p : Nat) (f : Port → Port) (s : State) : (updPort p f s).localq = s.localq := rfl
@[simp] theorem updPort_shadowed (p : Nat) (f : Port → Port) (s : State) : (updPort p f s).shadowed = s.shadowed := rfl
@[simp] theorem updPort_mems (p : Nat) (f : Port → Port) (s : State) : (updPort p f s).mems = s.mems := rfl
@[simp] theorem updPort_far (p : Nat) (f : Port → Port) (s : State) : (updPort p f s).far = s.far := rfl
@[simp] theorem updPort_ports (p : Nat) (f : Port → Port) (s : State) : (updPort p f s).ports = store Port.off p (f (portOf s p)) s.ports := rfl
@[simp] theorem updPort_transits (p : Nat) (f : Port → Port) (s : State) : (updPort p f s).transits = s.transits := rfl
@[simp] theorem updPort_bridle (p : Nat) (f : Port → Port) (s : State) : (updPort p f s).bridle = s.bridle := rfl
@[simp] theorem updPort_pacer (p : Nat) (f : Port → Port) (s : State) : (updPort p f s).pacer = s.pacer := rfl
@[simp] theorem updPort_job (p : Nat) (f : Port → Port) (s : State) : (updPort p f s).job = s.job := rfl
@[simp] theorem updPort_work (p : Nat) (f : Port → Port) (s : State) : (updPort p f s).work = s.work := rfl
@[simp] theorem updPort_window (p : Nat) (f : Port → Port) (s : State) : (updPort p f s).window = s.window := rfl
@[simp] theorem updPort_reel (p : Nat) (f : Port → Port) (s : State) : (updPort p f s).reel = s.reel := rfl
@[simp] theorem updPort_det (p : Nat) (f : Port → Port) (s : State) : (updPort p f s).det = s.det := rfl
@[simp] theorem updPort_ldr (p : Nat) (f : Port → Port) (s : State) : (updPort p f s).ldr = s.ldr := rfl
@[simp] theorem updPort_power (p : Nat) (f : Port → Port) (s : State) : (updPort p f s).power = s.power := rfl
@[simp] theorem updPort_tb (p : Nat) (f : Port → Port) (s : State) : (updPort p f s).tb = s.tb := rfl
@[simp] theorem updPort_rings (p : Nat) (f : Port → Port) (s : State) : (updPort p f s).rings = s.rings := rfl
@[simp] theorem updPort_mgmt (p : Nat) (f : Port → Port) (s : State) : (updPort p f s).mgmt = s.mgmt := rfl
@[simp] theorem updPort_tap (p : Nat) (f : Port → Port) (s : State) : (updPort p f s).tap = s.tap := rfl
@[simp] theorem updPort_out (p : Nat) (f : Port → Port) (s : State) : (updPort p f s).out = s.out := rfl
@[simp] theorem updPort_latches (p : Nat) (f : Port → Port) (s : State) : (updPort p f s).latches = s.latches := rfl
@[simp] theorem updPort_entropy (p : Nat) (f : Port → Port) (s : State) : (updPort p f s).entropy = s.entropy := rfl
@[simp] theorem updPort_pending (p : Nat) (f : Port → Port) (s : State) : (updPort p f s).pending = s.pending := rfl

@[simp] theorem setMem_ident (k : Nat) (v : Stack) (s : State) : (setMem k v s).ident = s.ident := rfl
@[simp] theorem setMem_tray (k : Nat) (v : Stack) (s : State) : (setMem k v s).tray = s.tray := rfl
@[simp] theorem setMem_boot (k : Nat) (v : Stack) (s : State) : (setMem k v s).boot = s.boot := rfl
@[simp] theorem setMem_stop (k : Nat) (v : Stack) (s : State) : (setMem k v s).stop = s.stop := rfl
@[simp] theorem setMem_store (k : Nat) (v : Stack) (s : State) : (setMem k v s).store = s.store := rfl
@[simp] theorem setMem_unitGen (k : Nat) (v : Stack) (s : State) : (setMem k v s).unitGen = s.unitGen := rfl
@[simp] theorem setMem_sec (k : Nat) (v : Stack) (s : State) : (setMem k v s).sec = s.sec := rfl
@[simp] theorem setMem_tiles (k : Nat) (v : Stack) (s : State) : (setMem k v s).tiles = s.tiles := rfl
@[simp] theorem setMem_localq (k : Nat) (v : Stack) (s : State) : (setMem k v s).localq = s.localq := rfl
@[simp] theorem setMem_shadowed (k : Nat) (v : Stack) (s : State) : (setMem k v s).shadowed = s.shadowed := rfl
@[simp] theorem setMem_mems (k : Nat) (v : Stack) (s : State) : (setMem k v s).mems = store Stack.off k v s.mems := rfl
@[simp] theorem setMem_far (k : Nat) (v : Stack) (s : State) : (setMem k v s).far = s.far := rfl
@[simp] theorem setMem_ports (k : Nat) (v : Stack) (s : State) : (setMem k v s).ports = s.ports := rfl
@[simp] theorem setMem_transits (k : Nat) (v : Stack) (s : State) : (setMem k v s).transits = s.transits := rfl
@[simp] theorem setMem_bridle (k : Nat) (v : Stack) (s : State) : (setMem k v s).bridle = s.bridle := rfl
@[simp] theorem setMem_pacer (k : Nat) (v : Stack) (s : State) : (setMem k v s).pacer = s.pacer := rfl
@[simp] theorem setMem_job (k : Nat) (v : Stack) (s : State) : (setMem k v s).job = s.job := rfl
@[simp] theorem setMem_work (k : Nat) (v : Stack) (s : State) : (setMem k v s).work = s.work := rfl
@[simp] theorem setMem_window (k : Nat) (v : Stack) (s : State) : (setMem k v s).window = s.window := rfl
@[simp] theorem setMem_reel (k : Nat) (v : Stack) (s : State) : (setMem k v s).reel = s.reel := rfl
@[simp] theorem setMem_det (k : Nat) (v : Stack) (s : State) : (setMem k v s).det = s.det := rfl
@[simp] theorem setMem_ldr (k : Nat) (v : Stack) (s : State) : (setMem k v s).ldr = s.ldr := rfl
@[simp] theorem setMem_power (k : Nat) (v : Stack) (s : State) : (setMem k v s).power = s.power := rfl
@[simp] theorem setMem_tb (k : Nat) (v : Stack) (s : State) : (setMem k v s).tb = s.tb := rfl
@[simp] theorem setMem_rings (k : Nat) (v : Stack) (s : State) : (setMem k v s).rings = s.rings := rfl
@[simp] theorem setMem_mgmt (k : Nat) (v : Stack) (s : State) : (setMem k v s).mgmt = s.mgmt := rfl
@[simp] theorem setMem_tap (k : Nat) (v : Stack) (s : State) : (setMem k v s).tap = s.tap := rfl
@[simp] theorem setMem_out (k : Nat) (v : Stack) (s : State) : (setMem k v s).out = s.out := rfl
@[simp] theorem setMem_latches (k : Nat) (v : Stack) (s : State) : (setMem k v s).latches = s.latches := rfl
@[simp] theorem setMem_entropy (k : Nat) (v : Stack) (s : State) : (setMem k v s).entropy = s.entropy := rfl
@[simp] theorem setMem_pending (k : Nat) (v : Stack) (s : State) : (setMem k v s).pending = s.pending := rfl

@[simp] theorem updMem_ident (k : Nat) (f : Stack → Stack) (s : State) : (updMem k f s).ident = s.ident := rfl
@[simp] theorem updMem_tray (k : Nat) (f : Stack → Stack) (s : State) : (updMem k f s).tray = s.tray := rfl
@[simp] theorem updMem_boot (k : Nat) (f : Stack → Stack) (s : State) : (updMem k f s).boot = s.boot := rfl
@[simp] theorem updMem_stop (k : Nat) (f : Stack → Stack) (s : State) : (updMem k f s).stop = s.stop := rfl
@[simp] theorem updMem_store (k : Nat) (f : Stack → Stack) (s : State) : (updMem k f s).store = s.store := rfl
@[simp] theorem updMem_unitGen (k : Nat) (f : Stack → Stack) (s : State) : (updMem k f s).unitGen = s.unitGen := rfl
@[simp] theorem updMem_sec (k : Nat) (f : Stack → Stack) (s : State) : (updMem k f s).sec = s.sec := rfl
@[simp] theorem updMem_tiles (k : Nat) (f : Stack → Stack) (s : State) : (updMem k f s).tiles = s.tiles := rfl
@[simp] theorem updMem_localq (k : Nat) (f : Stack → Stack) (s : State) : (updMem k f s).localq = s.localq := rfl
@[simp] theorem updMem_shadowed (k : Nat) (f : Stack → Stack) (s : State) : (updMem k f s).shadowed = s.shadowed := rfl
@[simp] theorem updMem_mems (k : Nat) (f : Stack → Stack) (s : State) : (updMem k f s).mems = store Stack.off k (f (memOf s k)) s.mems := rfl
@[simp] theorem updMem_far (k : Nat) (f : Stack → Stack) (s : State) : (updMem k f s).far = s.far := rfl
@[simp] theorem updMem_ports (k : Nat) (f : Stack → Stack) (s : State) : (updMem k f s).ports = s.ports := rfl
@[simp] theorem updMem_transits (k : Nat) (f : Stack → Stack) (s : State) : (updMem k f s).transits = s.transits := rfl
@[simp] theorem updMem_bridle (k : Nat) (f : Stack → Stack) (s : State) : (updMem k f s).bridle = s.bridle := rfl
@[simp] theorem updMem_pacer (k : Nat) (f : Stack → Stack) (s : State) : (updMem k f s).pacer = s.pacer := rfl
@[simp] theorem updMem_job (k : Nat) (f : Stack → Stack) (s : State) : (updMem k f s).job = s.job := rfl
@[simp] theorem updMem_work (k : Nat) (f : Stack → Stack) (s : State) : (updMem k f s).work = s.work := rfl
@[simp] theorem updMem_window (k : Nat) (f : Stack → Stack) (s : State) : (updMem k f s).window = s.window := rfl
@[simp] theorem updMem_reel (k : Nat) (f : Stack → Stack) (s : State) : (updMem k f s).reel = s.reel := rfl
@[simp] theorem updMem_det (k : Nat) (f : Stack → Stack) (s : State) : (updMem k f s).det = s.det := rfl
@[simp] theorem updMem_ldr (k : Nat) (f : Stack → Stack) (s : State) : (updMem k f s).ldr = s.ldr := rfl
@[simp] theorem updMem_power (k : Nat) (f : Stack → Stack) (s : State) : (updMem k f s).power = s.power := rfl
@[simp] theorem updMem_tb (k : Nat) (f : Stack → Stack) (s : State) : (updMem k f s).tb = s.tb := rfl
@[simp] theorem updMem_rings (k : Nat) (f : Stack → Stack) (s : State) : (updMem k f s).rings = s.rings := rfl
@[simp] theorem updMem_mgmt (k : Nat) (f : Stack → Stack) (s : State) : (updMem k f s).mgmt = s.mgmt := rfl
@[simp] theorem updMem_tap (k : Nat) (f : Stack → Stack) (s : State) : (updMem k f s).tap = s.tap := rfl
@[simp] theorem updMem_out (k : Nat) (f : Stack → Stack) (s : State) : (updMem k f s).out = s.out := rfl
@[simp] theorem updMem_latches (k : Nat) (f : Stack → Stack) (s : State) : (updMem k f s).latches = s.latches := rfl
@[simp] theorem updMem_entropy (k : Nat) (f : Stack → Stack) (s : State) : (updMem k f s).entropy = s.entropy := rfl
@[simp] theorem updMem_pending (k : Nat) (f : Stack → Stack) (s : State) : (updMem k f s).pending = s.pending := rfl

@[simp] theorem setHealth_ident (i : Nat) (v : Health) (s : State) : (setHealth i v s).ident = s.ident := rfl
@[simp] theorem setHealth_tray (i : Nat) (v : Health) (s : State) : (setHealth i v s).tray = s.tray := rfl
@[simp] theorem setHealth_boot (i : Nat) (v : Health) (s : State) : (setHealth i v s).boot = s.boot := rfl
@[simp] theorem setHealth_stop (i : Nat) (v : Health) (s : State) : (setHealth i v s).stop = s.stop := rfl
@[simp] theorem setHealth_store (i : Nat) (v : Health) (s : State) : (setHealth i v s).store = s.store := rfl
@[simp] theorem setHealth_unitGen (i : Nat) (v : Health) (s : State) : (setHealth i v s).unitGen = s.unitGen := rfl
@[simp] theorem setHealth_sec (i : Nat) (v : Health) (s : State) : (setHealth i v s).sec = { s.sec with health := store Health.zero i v s.sec.health } := rfl
@[simp] theorem setHealth_tiles (i : Nat) (v : Health) (s : State) : (setHealth i v s).tiles = s.tiles := rfl
@[simp] theorem setHealth_localq (i : Nat) (v : Health) (s : State) : (setHealth i v s).localq = s.localq := rfl
@[simp] theorem setHealth_shadowed (i : Nat) (v : Health) (s : State) : (setHealth i v s).shadowed = s.shadowed := rfl
@[simp] theorem setHealth_mems (i : Nat) (v : Health) (s : State) : (setHealth i v s).mems = s.mems := rfl
@[simp] theorem setHealth_far (i : Nat) (v : Health) (s : State) : (setHealth i v s).far = s.far := rfl
@[simp] theorem setHealth_ports (i : Nat) (v : Health) (s : State) : (setHealth i v s).ports = s.ports := rfl
@[simp] theorem setHealth_transits (i : Nat) (v : Health) (s : State) : (setHealth i v s).transits = s.transits := rfl
@[simp] theorem setHealth_bridle (i : Nat) (v : Health) (s : State) : (setHealth i v s).bridle = s.bridle := rfl
@[simp] theorem setHealth_pacer (i : Nat) (v : Health) (s : State) : (setHealth i v s).pacer = s.pacer := rfl
@[simp] theorem setHealth_job (i : Nat) (v : Health) (s : State) : (setHealth i v s).job = s.job := rfl
@[simp] theorem setHealth_work (i : Nat) (v : Health) (s : State) : (setHealth i v s).work = s.work := rfl
@[simp] theorem setHealth_window (i : Nat) (v : Health) (s : State) : (setHealth i v s).window = s.window := rfl
@[simp] theorem setHealth_reel (i : Nat) (v : Health) (s : State) : (setHealth i v s).reel = s.reel := rfl
@[simp] theorem setHealth_det (i : Nat) (v : Health) (s : State) : (setHealth i v s).det = s.det := rfl
@[simp] theorem setHealth_ldr (i : Nat) (v : Health) (s : State) : (setHealth i v s).ldr = s.ldr := rfl
@[simp] theorem setHealth_power (i : Nat) (v : Health) (s : State) : (setHealth i v s).power = s.power := rfl
@[simp] theorem setHealth_tb (i : Nat) (v : Health) (s : State) : (setHealth i v s).tb = s.tb := rfl
@[simp] theorem setHealth_rings (i : Nat) (v : Health) (s : State) : (setHealth i v s).rings = s.rings := rfl
@[simp] theorem setHealth_mgmt (i : Nat) (v : Health) (s : State) : (setHealth i v s).mgmt = s.mgmt := rfl
@[simp] theorem setHealth_tap (i : Nat) (v : Health) (s : State) : (setHealth i v s).tap = s.tap := rfl
@[simp] theorem setHealth_out (i : Nat) (v : Health) (s : State) : (setHealth i v s).out = s.out := rfl
@[simp] theorem setHealth_latches (i : Nat) (v : Health) (s : State) : (setHealth i v s).latches = s.latches := rfl
@[simp] theorem setHealth_entropy (i : Nat) (v : Health) (s : State) : (setHealth i v s).entropy = s.entropy := rfl
@[simp] theorem setHealth_pending (i : Nat) (v : Health) (s : State) : (setHealth i v s).pending = s.pending := rfl

@[simp] theorem updHealth_ident (i : Nat) (f : Health → Health) (s : State) : (updHealth i f s).ident = s.ident := rfl
@[simp] theorem updHealth_tray (i : Nat) (f : Health → Health) (s : State) : (updHealth i f s).tray = s.tray := rfl
@[simp] theorem updHealth_boot (i : Nat) (f : Health → Health) (s : State) : (updHealth i f s).boot = s.boot := rfl
@[simp] theorem updHealth_stop (i : Nat) (f : Health → Health) (s : State) : (updHealth i f s).stop = s.stop := rfl
@[simp] theorem updHealth_store (i : Nat) (f : Health → Health) (s : State) : (updHealth i f s).store = s.store := rfl
@[simp] theorem updHealth_unitGen (i : Nat) (f : Health → Health) (s : State) : (updHealth i f s).unitGen = s.unitGen := rfl
@[simp] theorem updHealth_sec (i : Nat) (f : Health → Health) (s : State) : (updHealth i f s).sec = { s.sec with health := store Health.zero i (f (healthOf s i)) s.sec.health } := rfl
@[simp] theorem updHealth_tiles (i : Nat) (f : Health → Health) (s : State) : (updHealth i f s).tiles = s.tiles := rfl
@[simp] theorem updHealth_localq (i : Nat) (f : Health → Health) (s : State) : (updHealth i f s).localq = s.localq := rfl
@[simp] theorem updHealth_shadowed (i : Nat) (f : Health → Health) (s : State) : (updHealth i f s).shadowed = s.shadowed := rfl
@[simp] theorem updHealth_mems (i : Nat) (f : Health → Health) (s : State) : (updHealth i f s).mems = s.mems := rfl
@[simp] theorem updHealth_far (i : Nat) (f : Health → Health) (s : State) : (updHealth i f s).far = s.far := rfl
@[simp] theorem updHealth_ports (i : Nat) (f : Health → Health) (s : State) : (updHealth i f s).ports = s.ports := rfl
@[simp] theorem updHealth_transits (i : Nat) (f : Health → Health) (s : State) : (updHealth i f s).transits = s.transits := rfl
@[simp] theorem updHealth_bridle (i : Nat) (f : Health → Health) (s : State) : (updHealth i f s).bridle = s.bridle := rfl
@[simp] theorem updHealth_pacer (i : Nat) (f : Health → Health) (s : State) : (updHealth i f s).pacer = s.pacer := rfl
@[simp] theorem updHealth_job (i : Nat) (f : Health → Health) (s : State) : (updHealth i f s).job = s.job := rfl
@[simp] theorem updHealth_work (i : Nat) (f : Health → Health) (s : State) : (updHealth i f s).work = s.work := rfl
@[simp] theorem updHealth_window (i : Nat) (f : Health → Health) (s : State) : (updHealth i f s).window = s.window := rfl
@[simp] theorem updHealth_reel (i : Nat) (f : Health → Health) (s : State) : (updHealth i f s).reel = s.reel := rfl
@[simp] theorem updHealth_det (i : Nat) (f : Health → Health) (s : State) : (updHealth i f s).det = s.det := rfl
@[simp] theorem updHealth_ldr (i : Nat) (f : Health → Health) (s : State) : (updHealth i f s).ldr = s.ldr := rfl
@[simp] theorem updHealth_power (i : Nat) (f : Health → Health) (s : State) : (updHealth i f s).power = s.power := rfl
@[simp] theorem updHealth_tb (i : Nat) (f : Health → Health) (s : State) : (updHealth i f s).tb = s.tb := rfl
@[simp] theorem updHealth_rings (i : Nat) (f : Health → Health) (s : State) : (updHealth i f s).rings = s.rings := rfl
@[simp] theorem updHealth_mgmt (i : Nat) (f : Health → Health) (s : State) : (updHealth i f s).mgmt = s.mgmt := rfl
@[simp] theorem updHealth_tap (i : Nat) (f : Health → Health) (s : State) : (updHealth i f s).tap = s.tap := rfl
@[simp] theorem updHealth_out (i : Nat) (f : Health → Health) (s : State) : (updHealth i f s).out = s.out := rfl
@[simp] theorem updHealth_latches (i : Nat) (f : Health → Health) (s : State) : (updHealth i f s).latches = s.latches := rfl
@[simp] theorem updHealth_entropy (i : Nat) (f : Health → Health) (s : State) : (updHealth i f s).entropy = s.entropy := rfl
@[simp] theorem updHealth_pending (i : Nat) (f : Health → Health) (s : State) : (updHealth i f s).pending = s.pending := rfl

@[simp] theorem setPanel_ident (p : Nat) (v : Panel) (s : State) : (setPanel p v s).ident = s.ident := rfl
@[simp] theorem setPanel_tray (p : Nat) (v : Panel) (s : State) : (setPanel p v s).tray = s.tray := rfl
@[simp] theorem setPanel_boot (p : Nat) (v : Panel) (s : State) : (setPanel p v s).boot = s.boot := rfl
@[simp] theorem setPanel_stop (p : Nat) (v : Panel) (s : State) : (setPanel p v s).stop = s.stop := rfl
@[simp] theorem setPanel_store (p : Nat) (v : Panel) (s : State) : (setPanel p v s).store = s.store := rfl
@[simp] theorem setPanel_unitGen (p : Nat) (v : Panel) (s : State) : (setPanel p v s).unitGen = s.unitGen := rfl
@[simp] theorem setPanel_sec (p : Nat) (v : Panel) (s : State) : (setPanel p v s).sec = s.sec := rfl
@[simp] theorem setPanel_tiles (p : Nat) (v : Panel) (s : State) : (setPanel p v s).tiles = s.tiles := rfl
@[simp] theorem setPanel_localq (p : Nat) (v : Panel) (s : State) : (setPanel p v s).localq = s.localq := rfl
@[simp] theorem setPanel_shadowed (p : Nat) (v : Panel) (s : State) : (setPanel p v s).shadowed = s.shadowed := rfl
@[simp] theorem setPanel_mems (p : Nat) (v : Panel) (s : State) : (setPanel p v s).mems = s.mems := rfl
@[simp] theorem setPanel_far (p : Nat) (v : Panel) (s : State) : (setPanel p v s).far = s.far := rfl
@[simp] theorem setPanel_ports (p : Nat) (v : Panel) (s : State) : (setPanel p v s).ports = s.ports := rfl
@[simp] theorem setPanel_transits (p : Nat) (v : Panel) (s : State) : (setPanel p v s).transits = s.transits := rfl
@[simp] theorem setPanel_bridle (p : Nat) (v : Panel) (s : State) : (setPanel p v s).bridle = s.bridle := rfl
@[simp] theorem setPanel_pacer (p : Nat) (v : Panel) (s : State) : (setPanel p v s).pacer = s.pacer := rfl
@[simp] theorem setPanel_job (p : Nat) (v : Panel) (s : State) : (setPanel p v s).job = s.job := rfl
@[simp] theorem setPanel_work (p : Nat) (v : Panel) (s : State) : (setPanel p v s).work = s.work := rfl
@[simp] theorem setPanel_window (p : Nat) (v : Panel) (s : State) : (setPanel p v s).window = { s.window with panels := store { st := .free, blocks := false, backing := 0 } p v s.window.panels } := rfl
@[simp] theorem setPanel_reel (p : Nat) (v : Panel) (s : State) : (setPanel p v s).reel = s.reel := rfl
@[simp] theorem setPanel_det (p : Nat) (v : Panel) (s : State) : (setPanel p v s).det = s.det := rfl
@[simp] theorem setPanel_ldr (p : Nat) (v : Panel) (s : State) : (setPanel p v s).ldr = s.ldr := rfl
@[simp] theorem setPanel_power (p : Nat) (v : Panel) (s : State) : (setPanel p v s).power = s.power := rfl
@[simp] theorem setPanel_tb (p : Nat) (v : Panel) (s : State) : (setPanel p v s).tb = s.tb := rfl
@[simp] theorem setPanel_rings (p : Nat) (v : Panel) (s : State) : (setPanel p v s).rings = s.rings := rfl
@[simp] theorem setPanel_mgmt (p : Nat) (v : Panel) (s : State) : (setPanel p v s).mgmt = s.mgmt := rfl
@[simp] theorem setPanel_tap (p : Nat) (v : Panel) (s : State) : (setPanel p v s).tap = s.tap := rfl
@[simp] theorem setPanel_out (p : Nat) (v : Panel) (s : State) : (setPanel p v s).out = s.out := rfl
@[simp] theorem setPanel_latches (p : Nat) (v : Panel) (s : State) : (setPanel p v s).latches = s.latches := rfl
@[simp] theorem setPanel_entropy (p : Nat) (v : Panel) (s : State) : (setPanel p v s).entropy = s.entropy := rfl
@[simp] theorem setPanel_pending (p : Nat) (v : Panel) (s : State) : (setPanel p v s).pending = s.pending := rfl

@[simp] theorem setHostMem_ident (m : List Host.Cell) (s : State) : (setHostMem m s).ident = s.ident := rfl
@[simp] theorem setHostMem_tray (m : List Host.Cell) (s : State) : (setHostMem m s).tray = s.tray := rfl
@[simp] theorem setHostMem_boot (m : List Host.Cell) (s : State) : (setHostMem m s).boot = s.boot := rfl
@[simp] theorem setHostMem_stop (m : List Host.Cell) (s : State) : (setHostMem m s).stop = s.stop := rfl
@[simp] theorem setHostMem_store (m : List Host.Cell) (s : State) : (setHostMem m s).store = s.store := rfl
@[simp] theorem setHostMem_unitGen (m : List Host.Cell) (s : State) : (setHostMem m s).unitGen = s.unitGen := rfl
@[simp] theorem setHostMem_sec (m : List Host.Cell) (s : State) : (setHostMem m s).sec = s.sec := rfl
@[simp] theorem setHostMem_tiles (m : List Host.Cell) (s : State) : (setHostMem m s).tiles = s.tiles := rfl
@[simp] theorem setHostMem_localq (m : List Host.Cell) (s : State) : (setHostMem m s).localq = s.localq := rfl
@[simp] theorem setHostMem_shadowed (m : List Host.Cell) (s : State) : (setHostMem m s).shadowed = s.shadowed := rfl
@[simp] theorem setHostMem_mems (m : List Host.Cell) (s : State) : (setHostMem m s).mems = s.mems := rfl
@[simp] theorem setHostMem_far (m : List Host.Cell) (s : State) : (setHostMem m s).far = s.far := rfl
@[simp] theorem setHostMem_ports (m : List Host.Cell) (s : State) : (setHostMem m s).ports = s.ports := rfl
@[simp] theorem setHostMem_transits (m : List Host.Cell) (s : State) : (setHostMem m s).transits = s.transits := rfl
@[simp] theorem setHostMem_bridle (m : List Host.Cell) (s : State) : (setHostMem m s).bridle = s.bridle := rfl
@[simp] theorem setHostMem_pacer (m : List Host.Cell) (s : State) : (setHostMem m s).pacer = s.pacer := rfl
@[simp] theorem setHostMem_job (m : List Host.Cell) (s : State) : (setHostMem m s).job = s.job := rfl
@[simp] theorem setHostMem_work (m : List Host.Cell) (s : State) : (setHostMem m s).work = s.work := rfl
@[simp] theorem setHostMem_window (m : List Host.Cell) (s : State) : (setHostMem m s).window = { s.window with hostMem := m } := rfl
@[simp] theorem setHostMem_reel (m : List Host.Cell) (s : State) : (setHostMem m s).reel = s.reel := rfl
@[simp] theorem setHostMem_det (m : List Host.Cell) (s : State) : (setHostMem m s).det = s.det := rfl
@[simp] theorem setHostMem_ldr (m : List Host.Cell) (s : State) : (setHostMem m s).ldr = s.ldr := rfl
@[simp] theorem setHostMem_power (m : List Host.Cell) (s : State) : (setHostMem m s).power = s.power := rfl
@[simp] theorem setHostMem_tb (m : List Host.Cell) (s : State) : (setHostMem m s).tb = s.tb := rfl
@[simp] theorem setHostMem_rings (m : List Host.Cell) (s : State) : (setHostMem m s).rings = s.rings := rfl
@[simp] theorem setHostMem_mgmt (m : List Host.Cell) (s : State) : (setHostMem m s).mgmt = s.mgmt := rfl
@[simp] theorem setHostMem_tap (m : List Host.Cell) (s : State) : (setHostMem m s).tap = s.tap := rfl
@[simp] theorem setHostMem_out (m : List Host.Cell) (s : State) : (setHostMem m s).out = s.out := rfl
@[simp] theorem setHostMem_latches (m : List Host.Cell) (s : State) : (setHostMem m s).latches = s.latches := rfl
@[simp] theorem setHostMem_entropy (m : List Host.Cell) (s : State) : (setHostMem m s).entropy = s.entropy := rfl
@[simp] theorem setHostMem_pending (m : List Host.Cell) (s : State) : (setHostMem m s).pending = s.pending := rfl

@[simp] theorem updSet_ident (f : Settings → Settings) (s : State) : (updSet f s).ident = s.ident := rfl
@[simp] theorem updSet_tray (f : Settings → Settings) (s : State) : (updSet f s).tray = s.tray := rfl
@[simp] theorem updSet_boot (f : Settings → Settings) (s : State) : (updSet f s).boot = s.boot := rfl
@[simp] theorem updSet_stop (f : Settings → Settings) (s : State) : (updSet f s).stop = s.stop := rfl
@[simp] theorem updSet_store (f : Settings → Settings) (s : State) : (updSet f s).store = { s.store with set := f s.store.set } := rfl
@[simp] theorem updSet_unitGen (f : Settings → Settings) (s : State) : (updSet f s).unitGen = s.unitGen := rfl
@[simp] theorem updSet_sec (f : Settings → Settings) (s : State) : (updSet f s).sec = s.sec := rfl
@[simp] theorem updSet_tiles (f : Settings → Settings) (s : State) : (updSet f s).tiles = s.tiles := rfl
@[simp] theorem updSet_localq (f : Settings → Settings) (s : State) : (updSet f s).localq = s.localq := rfl
@[simp] theorem updSet_shadowed (f : Settings → Settings) (s : State) : (updSet f s).shadowed = s.shadowed := rfl
@[simp] theorem updSet_mems (f : Settings → Settings) (s : State) : (updSet f s).mems = s.mems := rfl
@[simp] theorem updSet_far (f : Settings → Settings) (s : State) : (updSet f s).far = s.far := rfl
@[simp] theorem updSet_ports (f : Settings → Settings) (s : State) : (updSet f s).ports = s.ports := rfl
@[simp] theorem updSet_transits (f : Settings → Settings) (s : State) : (updSet f s).transits = s.transits := rfl
@[simp] theorem updSet_bridle (f : Settings → Settings) (s : State) : (updSet f s).bridle = s.bridle := rfl
@[simp] theorem updSet_pacer (f : Settings → Settings) (s : State) : (updSet f s).pacer = s.pacer := rfl
@[simp] theorem updSet_job (f : Settings → Settings) (s : State) : (updSet f s).job = s.job := rfl
@[simp] theorem updSet_work (f : Settings → Settings) (s : State) : (updSet f s).work = s.work := rfl
@[simp] theorem updSet_window (f : Settings → Settings) (s : State) : (updSet f s).window = s.window := rfl
@[simp] theorem updSet_reel (f : Settings → Settings) (s : State) : (updSet f s).reel = s.reel := rfl
@[simp] theorem updSet_det (f : Settings → Settings) (s : State) : (updSet f s).det = s.det := rfl
@[simp] theorem updSet_ldr (f : Settings → Settings) (s : State) : (updSet f s).ldr = s.ldr := rfl
@[simp] theorem updSet_power (f : Settings → Settings) (s : State) : (updSet f s).power = s.power := rfl
@[simp] theorem updSet_tb (f : Settings → Settings) (s : State) : (updSet f s).tb = s.tb := rfl
@[simp] theorem updSet_rings (f : Settings → Settings) (s : State) : (updSet f s).rings = s.rings := rfl
@[simp] theorem updSet_mgmt (f : Settings → Settings) (s : State) : (updSet f s).mgmt = s.mgmt := rfl
@[simp] theorem updSet_tap (f : Settings → Settings) (s : State) : (updSet f s).tap = s.tap := rfl
@[simp] theorem updSet_out (f : Settings → Settings) (s : State) : (updSet f s).out = s.out := rfl
@[simp] theorem updSet_latches (f : Settings → Settings) (s : State) : (updSet f s).latches = s.latches := rfl
@[simp] theorem updSet_entropy (f : Settings → Settings) (s : State) : (updSet f s).entropy = s.entropy := rfl
@[simp] theorem updSet_pending (f : Settings → Settings) (s : State) : (updSet f s).pending = s.pending := rfl

@[simp] theorem updTotals_ident (f : Totals → Totals) (s : State) : (updTotals f s).ident = s.ident := rfl
@[simp] theorem updTotals_tray (f : Totals → Totals) (s : State) : (updTotals f s).tray = s.tray := rfl
@[simp] theorem updTotals_boot (f : Totals → Totals) (s : State) : (updTotals f s).boot = s.boot := rfl
@[simp] theorem updTotals_stop (f : Totals → Totals) (s : State) : (updTotals f s).stop = s.stop := rfl
@[simp] theorem updTotals_store (f : Totals → Totals) (s : State) : (updTotals f s).store = s.store := rfl
@[simp] theorem updTotals_unitGen (f : Totals → Totals) (s : State) : (updTotals f s).unitGen = s.unitGen := rfl
@[simp] theorem updTotals_sec (f : Totals → Totals) (s : State) : (updTotals f s).sec = { s.sec with totals := f s.sec.totals } := rfl
@[simp] theorem updTotals_tiles (f : Totals → Totals) (s : State) : (updTotals f s).tiles = s.tiles := rfl
@[simp] theorem updTotals_localq (f : Totals → Totals) (s : State) : (updTotals f s).localq = s.localq := rfl
@[simp] theorem updTotals_shadowed (f : Totals → Totals) (s : State) : (updTotals f s).shadowed = s.shadowed := rfl
@[simp] theorem updTotals_mems (f : Totals → Totals) (s : State) : (updTotals f s).mems = s.mems := rfl
@[simp] theorem updTotals_far (f : Totals → Totals) (s : State) : (updTotals f s).far = s.far := rfl
@[simp] theorem updTotals_ports (f : Totals → Totals) (s : State) : (updTotals f s).ports = s.ports := rfl
@[simp] theorem updTotals_transits (f : Totals → Totals) (s : State) : (updTotals f s).transits = s.transits := rfl
@[simp] theorem updTotals_bridle (f : Totals → Totals) (s : State) : (updTotals f s).bridle = s.bridle := rfl
@[simp] theorem updTotals_pacer (f : Totals → Totals) (s : State) : (updTotals f s).pacer = s.pacer := rfl
@[simp] theorem updTotals_job (f : Totals → Totals) (s : State) : (updTotals f s).job = s.job := rfl
@[simp] theorem updTotals_work (f : Totals → Totals) (s : State) : (updTotals f s).work = s.work := rfl
@[simp] theorem updTotals_window (f : Totals → Totals) (s : State) : (updTotals f s).window = s.window := rfl
@[simp] theorem updTotals_reel (f : Totals → Totals) (s : State) : (updTotals f s).reel = s.reel := rfl
@[simp] theorem updTotals_det (f : Totals → Totals) (s : State) : (updTotals f s).det = s.det := rfl
@[simp] theorem updTotals_ldr (f : Totals → Totals) (s : State) : (updTotals f s).ldr = s.ldr := rfl
@[simp] theorem updTotals_power (f : Totals → Totals) (s : State) : (updTotals f s).power = s.power := rfl
@[simp] theorem updTotals_tb (f : Totals → Totals) (s : State) : (updTotals f s).tb = s.tb := rfl
@[simp] theorem updTotals_rings (f : Totals → Totals) (s : State) : (updTotals f s).rings = s.rings := rfl
@[simp] theorem updTotals_mgmt (f : Totals → Totals) (s : State) : (updTotals f s).mgmt = s.mgmt := rfl
@[simp] theorem updTotals_tap (f : Totals → Totals) (s : State) : (updTotals f s).tap = s.tap := rfl
@[simp] theorem updTotals_out (f : Totals → Totals) (s : State) : (updTotals f s).out = s.out := rfl
@[simp] theorem updTotals_latches (f : Totals → Totals) (s : State) : (updTotals f s).latches = s.latches := rfl
@[simp] theorem updTotals_entropy (f : Totals → Totals) (s : State) : (updTotals f s).entropy = s.entropy := rfl
@[simp] theorem updTotals_pending (f : Totals → Totals) (s : State) : (updTotals f s).pending = s.pending := rfl

@[simp] theorem tileOf_setTile_self (u : Nat) (v : Tile) (s : State) : tileOf (setTile u v s) u = v := look_store_self _ _ _ _

theorem tileOf_setTile_other {j u : Nat} (h : j ≠ u) (v : Tile) (s : State) : tileOf (setTile u v s) j = tileOf s j :=
  look_store_other h _ _ _

@[simp] theorem tileOf_updTile_self (u : Nat) (f : Tile → Tile) (s : State) : tileOf (updTile u f s) u = f (tileOf s u) :=
  tileOf_setTile_self _ _ _

theorem tileOf_updTile_other {j u : Nat} (h : j ≠ u) (f : Tile → Tile) (s : State) : tileOf (updTile u f s) j = tileOf s j :=
  tileOf_setTile_other h _ _

@[simp] theorem portOf_setPort_self (u : Nat) (v : Port) (s : State) : portOf (setPort u v s) u = v := look_store_self _ _ _ _

theorem portOf_setPort_other {j u : Nat} (h : j ≠ u) (v : Port) (s : State) : portOf (setPort u v s) j = portOf s j :=
  look_store_other h _ _ _

@[simp] theorem portOf_updPort_self (u : Nat) (f : Port → Port) (s : State) : portOf (updPort u f s) u = f (portOf s u) :=
  portOf_setPort_self _ _ _

theorem portOf_updPort_other {j u : Nat} (h : j ≠ u) (f : Port → Port) (s : State) : portOf (updPort u f s) j = portOf s j :=
  portOf_setPort_other h _ _

@[simp] theorem memOf_setMem_self (u : Nat) (v : Stack) (s : State) : memOf (setMem u v s) u = v := look_store_self _ _ _ _

theorem memOf_setMem_other {j u : Nat} (h : j ≠ u) (v : Stack) (s : State) : memOf (setMem u v s) j = memOf s j :=
  look_store_other h _ _ _

@[simp] theorem memOf_updMem_self (u : Nat) (f : Stack → Stack) (s : State) : memOf (updMem u f s) u = f (memOf s u) :=
  memOf_setMem_self _ _ _

theorem memOf_updMem_other {j u : Nat} (h : j ≠ u) (f : Stack → Stack) (s : State) : memOf (updMem u f s) j = memOf s j :=
  memOf_setMem_other h _ _

@[simp] theorem healthOf_setHealth_self (i : Nat) (h : Health) (s : State) : healthOf (setHealth i h s) i = h :=
  look_store_self _ _ _ _

theorem healthOf_setHealth_other {i j : Nat} (h : j ≠ i) (v : Health) (s : State) :
    healthOf (setHealth i v s) j = healthOf s j := look_store_other h _ _ _

@[simp] theorem healthOf_updHealth_self (i : Nat) (f : Health → Health) (s : State) :
    healthOf (updHealth i f s) i = f (healthOf s i) := healthOf_setHealth_self _ _ _

@[simp] theorem panelOf_setPanel_self (p : Nat) (v : Panel) (s : State) : panelOf (setPanel p v s) p = v :=
  look_store_self _ _ _ _

theorem panelOf_setPanel_other {p q : Nat} (h : q ≠ p) (v : Panel) (s : State) :
    panelOf (setPanel p v s) q = panelOf s q := look_store_other h _ _ _

@[simp] theorem hostMem_setHostMem (m : List Host.Cell) (s : State) : hostMem (setHostMem m s) = m := rfl

end Sys2Proof.Machine
end

