-- ==== Sys2Proof/Laws/Frame.lean ====
section
/-! SUPPORT. What the shared operations may change, one lemma per operation, and how such facts compose. -/

namespace Sys2Proof.Machine

variable {A B C : List Part} {s t u : State}

/-! ## Composition -/

theorem changesOnly.refl (A : List Part) (s : State) : changesOnly A s s := by
  intro p _; cases p <;> simp [Part.same]

theorem Part.same_trans {p : Part} (h : p.same s t) (k : p.same t u) : p.same s u := by
  cases p
  case banks =>
    simp only [Part.same] at h k ⊢
    rw [← h, ← k]
  case secRegs =>
    simp only [Part.same] at h k ⊢
    rw [← h, ← k]
  case ringRegs =>
    simp only [Part.same] at h k ⊢
    rw [← h, ← k]
  case mgmtRegs =>
    simp only [Part.same] at h k ⊢
    rw [← h, ← k]
  all_goals simp_all [Part.same]

theorem changesOnly.mono (h : changesOnly A s t) (hs : A ⊆ B) : changesOnly B s t :=
  fun p hp => h p (fun hq => hp (hs hq))

theorem changesOnly.trans (h : changesOnly A s t) (k : changesOnly A t u) : changesOnly A s u :=
  fun p hp => Part.same_trans (h p hp) (k p hp)

/-- A further change within the list. -/
theorem changesOnly.next (h : changesOnly A s t) (k : changesOnly B t u) (hb : B ⊆ A) : changesOnly A s u :=
  h.trans (k.mono hb)

/-- Two changes in turn, each within a common list. -/
theorem changesOnly.both (h : changesOnly A s t) (k : changesOnly B t u) (ha : A ⊆ C) (hb : B ⊆ C) :
    changesOnly C s u := (h.mono ha).trans (k.mono hb)

theorem changesOnly.ite {c : Prop} [Decidable c] (h : changesOnly A s t) (k : changesOnly A s u) :
    changesOnly A s (if c then t else u) := by
  split
  · exact h
  · exact k

theorem changesOnly.foldl {α : Type} {f : State → α → State} (h : ∀ a x, changesOnly A a (f a x)) :
    ∀ (l : List α) (s : State), changesOnly A s (l.foldl f s)
  | [], s => .refl A s
  | x :: l, s => (h s x).trans (changesOnly.foldl h l (f s x))

theorem keepsHost.refl (s : State) : keepsHost s s := id
theorem keepsHost.trans (h : keepsHost s t) (k : keepsHost t u) : keepsHost s u := fun x => k (h x)

/-- A change that leaves host memory alone keeps its form. -/
theorem changesOnly.keepsHost (h : changesOnly A s t) (hp : Part.host ∉ A) : keepsHost s t := by
  have e : hostMem t = hostMem s := h .host hp
  intro w
  rw [e]
  exact w

theorem keepsHost_foldl {α : Type} {f : State → α → State} (h : ∀ a x, keepsHost a (f a x)) :
    ∀ (l : List α) (s : State), keepsHost s (l.foldl f s)
  | [], s => .refl s
  | x :: l, s => (h s x).trans (keepsHost_foldl h l (f s x))

/-! ## Access and host memory -/

theorem setTile_changes (u : Nat) (v : Tile) (s : State) : changesOnly [.tiles] s (setTile u v s) := by
  intro p hp; cases p <;> first | rfl | exact absurd (by decide) hp

theorem updTile_changes (u : Nat) (f : Tile → Tile) (s : State) : changesOnly [.tiles] s (updTile u f s) := by
  intro p hp; cases p <;> first | rfl | exact absurd (by decide) hp

theorem setPort_changes (u : Nat) (v : Port) (s : State) : changesOnly [.ports] s (setPort u v s) := by
  intro p hp; cases p <;> first | rfl | exact absurd (by decide) hp

theorem updPort_changes (u : Nat) (f : Port → Port) (s : State) : changesOnly [.ports] s (updPort u f s) := by
  intro p hp; cases p <;> first | rfl | exact absurd (by decide) hp

theorem setMem_changes (u : Nat) (v : Stack) (s : State) : changesOnly [.mems] s (setMem u v s) := by
  intro p hp; cases p <;> first | rfl | exact absurd (by decide) hp

theorem updMem_changes (u : Nat) (f : Stack → Stack) (s : State) : changesOnly [.mems] s (updMem u f s) := by
  intro p hp; cases p <;> first | rfl | exact absurd (by decide) hp

theorem setHealth_changes (u : Nat) (v : Health) (s : State) : changesOnly [.health] s (setHealth u v s) := by
  intro p hp; cases p <;> first | rfl | exact absurd (by decide) hp

theorem updHealth_changes (u : Nat) (f : Health → Health) (s : State) : changesOnly [.health] s (updHealth u f s) := by
  intro p hp; cases p <;> first | rfl | exact absurd (by decide) hp

theorem setPanel_changes (u : Nat) (v : Panel) (s : State) : changesOnly [.panels] s (setPanel u v s) := by
  intro p hp; cases p <;> first | rfl | exact absurd (by decide) hp

theorem setHostMem_changes (m : List Host.Cell) (s : State) : changesOnly [.host] s (setHostMem m s) := by
  intro p hp; cases p <;> first | rfl | exact absurd (by decide) hp

theorem hostWrote_changes (cs : List (Nat × Byte)) (s : State) : changesOnly [.host] s (hostWrote cs s) := by
  intro p hp; cases p <;> first | rfl | exact absurd (by decide) hp

theorem updSet_changes (f : Settings → Settings) (s : State) : changesOnly [.settings] s (updSet f s) := by
  intro p hp; cases p <;> first | rfl | exact absurd (by decide) hp

theorem updTotals_changes (f : Totals → Totals) (s : State) : changesOnly [.totals] s (updTotals f s) := by
  intro p hp; cases p <;> first | rfl | exact absurd (by decide) hp

theorem capSpacing_changes (s : State) : changesOnly [.power] s (capSpacing s) := by
  intro p hp; cases p <;> first | rfl | exact absurd (by decide) hp

theorem setStall_changes (s : State) : changesOnly [.ringOut] s (setStall s) := by
  intro p hp; cases p <;> first | rfl | exact absurd (by decide) hp

theorem appendLog_changes (kind code arg : Nat) (s : State) : changesOnly [.settings] s (appendLog kind code arg s) := by
  unfold appendLog
  exact updSet_changes _ s

theorem appendHistory_changes (e : List Byte) (s : State) : changesOnly [.settings] s (appendHistory e s) := by
  unfold appendHistory
  exact updSet_changes _ s

theorem bumpCtr_changes (k i : Nat) (s : State) : changesOnly [.health] s (bumpCtr k i s) := by
  intro p hp; cases p <;> first | rfl | exact absurd (by decide) hp

theorem flipPair_changes (k b : Nat) (s : State) : changesOnly [.mems] s (flipPair k b s) := by
  intro p hp; cases p <;> first | rfl | exact absurd (by decide) hp

theorem syncDoorbell_changes (s : State) : changesOnly [.host] s (syncDoorbell s) :=
  .ite (setHostMem_changes _ s) (.refl _ s)

/-- What has happened on the host's side of the link may change host memory and the host link's registers and messages. -/
theorem hostActs_changes (h : HostSide) (s : State) : changesOnly [.host, .ringRegs, .ringOut] s (hostActs h s) := by
  refine ((hostWrote_changes h.wrote s).mono (by decide)).trans ?_
  intro p hp
  cases p <;> first | rfl | exact absurd (by decide) hp

/-- Where nothing has happened there, nothing changes. -/
@[simp] theorem hostActs_quiet (s : State) : hostActs .quiet s = s := rfl

theorem hostWrote_keeps (cs : List (Nat × Byte)) (s : State) : keepsHost s (hostWrote cs s) :=
  fun h => Memory.wf_writeCells cs _ h

theorem syncDoorbell_keeps (s : State) : keepsHost s (syncDoorbell s) := by
  simp only [syncDoorbell]
  split
  · exact fun h => Memory.wf_writeBytes _ _ _ h
  · exact keepsHost.refl s

/-! ## Events, alerts and completion records -/

theorem pushAlert_changes (code : BitVec 16) (n : Nat) (info : List Byte) (s : State) :
    changesOnly [.alerts] s (pushAlert code n info s) := by
  unfold pushAlert
  refine .ite ?_ (.refl _ s)
  intro p hp
  cases p <;> first | rfl | exact absurd (by decide) hp

theorem ringEvent_changes (code : BitVec 16) (loc : Bool) (n : Nat) (info : List Byte) (s : State) :
    changesOnly [.ringOut, .host] s (ringEvent code loc n info s) := by
  unfold ringEvent
  refine .ite ?_ ?_
  all_goals
    refine changesOnly.trans ?_ ((syncDoorbell_changes _).mono (by decide))
    intro p hp
    cases p <;> first | rfl | exact absurd (by decide) hp

theorem ringEvent_keeps (code : BitVec 16) (loc : Bool) (n : Nat) (info : List Byte) (s : State) :
    keepsHost s (ringEvent code loc n info s) := by
  simp only [ringEvent]
  split
  · exact fun h => syncDoorbell_keeps _ h
  · exact fun h => syncDoorbell_keeps _ (Memory.wf_writeBytes _ _ _ h)

theorem postAt_changes (code : BitVec 16) (loc : Bool) (n : Nat) (info : List Byte) (s : State) :
    changesOnly posts s (postAt code loc n info s) :=
  (pushAlert_changes code n info s).both (ringEvent_changes code loc n info _) (by decide) (by decide)

theorem postAt_keeps (code : BitVec 16) (loc : Bool) (n : Nat) (info : List Byte) (s : State) :
    keepsHost s (postAt code loc n info s) :=
  ((pushAlert_changes code n info s).keepsHost (by decide)).trans (ringEvent_keeps code loc n info _)

theorem post_changes (code : BitVec 16) (info : List Byte) (s : State) : changesOnly posts s (post code info s) :=
  postAt_changes code false _ info s

theorem post_keeps (code : BitVec 16) (info : List Byte) (s : State) : keepsHost s (post code info s) :=
  postAt_keeps code false _ info s

/-- An event takes the next sequence number (R290, R350). -/
theorem ringEvent_seq (code : BitVec 16) (loc : Bool) (n : Nat) (info : List Byte) (s : State) :
    (ringEvent code loc n info s).rings.seq = nextSeq s.rings.seq := by
  have h : ∀ a : State, (syncDoorbell a).rings = a.rings := by intro a; unfold syncDoorbell; split <;> rfl
  simp only [ringEvent]
  split
  · rw [h]
  · rw [h]; rfl

theorem writeRec_changes (c : Rec) (s : State) : changesOnly [.ringOut, .host] s (writeRec c s) := by
  unfold writeRec
  refine changesOnly.trans ?_ ((syncDoorbell_changes _).mono (by decide))
  by_cases h : c.irq = true
  all_goals
    simp only [h]
    intro p hp
    cases p <;> first | rfl | exact absurd (by decide) hp

theorem writeRec_keeps (c : Rec) (s : State) : keepsHost s (writeRec c s) := by
  intro h
  unfold writeRec
  exact syncDoorbell_keeps _ (Memory.wf_writeBytes _ _ _ h)

theorem flushGo_changes : ∀ (l : List Rec) (s : State), changesOnly [.ringOut, .host] s (flushGo l s)
  | [], s => by
    intro p hp
    cases p <;> first | rfl | exact absurd (by decide) hp
  | c :: l, s => by
    unfold flushGo
    refine .ite ((writeRec_changes c s).trans (flushGo_changes l _)) ?_
    intro p hp
    cases p <;> first | rfl | exact absurd (by decide) hp

theorem flushGo_keeps : ∀ (l : List Rec) (s : State), keepsHost s (flushGo l s)
  | [], s => fun h => h
  | c :: l, s => by
    unfold flushGo
    split
    · exact (writeRec_keeps c s).trans (flushGo_keeps l _)
    · exact fun h => h

theorem flushDue_changes (s : State) : changesOnly [.ringOut, .host] s (flushDue s) :=
  (flushGo_changes _ s).both (setStall_changes _) (by decide) (by decide)

theorem flushDue_keeps (s : State) : keepsHost s (flushDue s) := fun h => flushGo_keeps _ s h

theorem complete_changes (c : Rec) (s : State) : changesOnly [.ringOut, .host] s (complete c s) := by
  unfold complete
  refine changesOnly.trans ?_ (flushDue_changes _)
  intro p hp
  cases p <;> first | rfl | exact absurd (by decide) hp

theorem complete_keeps (c : Rec) (s : State) : keepsHost s (complete c s) := fun h => flushDue_keeps _ h

/-! ## Records, scores and unit states -/

theorem keepFsr_changes (b : List Byte) (u : Option Nat) (s : State) :
    changesOnly [.fsrs, .health] s (keepFsr b u s) := by
  cases u with
  | none =>
    intro p hp
    cases p <;> first | rfl | exact absurd (by decide) hp
  | some i =>
    refine changesOnly.trans ?_ ((updHealth_changes i _ _).mono (by decide))
    intro p hp
    cases p <;> first | rfl | exact absurd (by decide) hp

theorem writeFsr_changes (c : Nat) (path : List Nat) (u : Option Nat) (l : Option Loc) (q : Option Nat) (s : State) :
    changesOnly records s (writeFsr c path u l q s) :=
  (keepFsr_changes _ u s).both (post_changes _ _ _) (by decide) (by decide)

theorem writeFsr_keeps (c : Nat) (path : List Nat) (u : Option Nat) (l : Option Loc) (q : Option Nat) (s : State) :
    keepsHost s (writeFsr c path u l q s) :=
  ((keepFsr_changes _ u s).keepsHost (by decide)).trans (post_keeps _ _ _)

theorem unitFsr_changes (c i : Nat) (q : Option Nat) (s : State) : changesOnly records s (unitFsr c i q s) :=
  writeFsr_changes _ _ _ _ _ s

theorem unitFsr_keeps (c i : Nat) (q : Option Nat) (s : State) : keepsHost s (unitFsr c i q s) := writeFsr_keeps _ _ _ _ _ s

theorem setUnit_changes (i : Nat) (e : UnitEntry) (s : State) : changesOnly [.settings, .unitGen] s (setUnit i e s) := by
  unfold setUnit
  refine .ite (.refl _ s) ?_
  intro p hp
  cases p <;> first | rfl | exact absurd (by decide) hp

theorem enterWatch_changes (c i : Nat) (s : State) : changesOnly moves s (enterWatch c i s) :=
  ((setUnit_changes _ _ s).both (updHealth_changes _ _ _) (by decide) (by decide)).trans
    ((post_changes _ _ _).both (unitFsr_changes _ _ _ _) (by decide) (by decide))

theorem enterWatch_keeps (c i : Nat) (s : State) : keepsHost s (enterWatch c i s) :=
  ((setUnit_changes _ _ s).keepsHost (by decide)).trans (((updHealth_changes _ _ _).keepsHost (by decide)).trans
    ((post_keeps _ _ _).trans (unitFsr_keeps _ _ _ _)))

theorem advise_changes (c i : Nat) (s : State) : changesOnly records s (advise c i s) := by
  unfold advise
  exact .ite (((updHealth_changes _ _ s).both (post_changes _ _ _) (by decide) (by decide)).trans (unitFsr_changes _ _ _ _))
    (.refl _ s)

theorem advise_keeps (c i : Nat) (s : State) : keepsHost s (advise c i s) := by
  simp only [advise]
  split
  · exact ((updHealth_changes _ _ s).keepsHost (by decide)).trans ((post_keeps _ _ _).trans (unitFsr_keeps _ _ _ _))
  · exact keepsHost.refl s

theorem judge_changes (c i : Nat) (s : State) : changesOnly moves s (judge c i s) :=
  (changesOnly.ite (enterWatch_changes c i s) (.refl _ s)).both (advise_changes c i _) (by decide) (by decide)

theorem judge_keeps (c i : Nat) (s : State) : keepsHost s (judge c i s) := by
  refine keepsHost.trans ?_ (advise_keeps c i _)
  split
  · exact enterWatch_keeps c i s
  · exact keepsHost.refl s

theorem score_changes (c i : Nat) (s : State) : changesOnly moves s (score c i s) :=
  (updHealth_changes i _ s).both (judge_changes c i _) (by decide) (by decide)

theorem score_keeps (c i : Nat) (s : State) : keepsHost s (score c i s) :=
  ((updHealth_changes i _ s).keepsHost (by decide)).trans (judge_keeps c i _)

theorem settle_changes (i : Nat) (s : State) : changesOnly moves s (settle i s) := by
  unfold settle
  exact .ite (((setUnit_changes _ _ s).both (updHealth_changes _ _ _) (by decide) (by decide)).trans
    ((post_changes _ _ _).mono (by decide))) (.refl _ s)

theorem settle_keeps (i : Nat) (s : State) : keepsHost s (settle i s) := by
  simp only [settle]
  split
  · exact ((setUnit_changes _ _ s).keepsHost (by decide)).trans
      (((updHealth_changes _ _ _).keepsHost (by decide)).trans (post_keeps _ _ _))
  · exact keepsHost.refl s

theorem kaPass_changes (i : Nat) (s : State) : changesOnly moves s (kaPass i s) := by
  unfold kaPass
  exact .ite ((updHealth_changes _ _ s).both (settle_changes _ _) (by decide) (by decide)) (.refl _ s)

theorem kaPass_keeps (i : Nat) (s : State) : keepsHost s (kaPass i s) := by
  unfold kaPass
  split
  · exact ((updHealth_changes _ _ s).keepsHost (by decide)).trans (settle_keeps _ _)
  · exact keepsHost.refl s

theorem kaFail_changes (i : Nat) (ka q : Nat) (r : KaOutcome) (s : State) :
    changesOnly (.totals :: moves) s (kaFail i ka q r s) := by
  unfold kaFail
  extract_lets s1 s2 s3 s4 s5
  have h1 : changesOnly (.totals :: moves) s s1 := (bumpCtr_changes _ _ s).both (updTotals_changes _ _) (by decide) (by decide)
  have h2 : changesOnly _ s1 s2 := updHealth_changes _ _ s1
  have h3 : changesOnly _ s2 s3 := changesOnly.ite (enterWatch_changes _ _ s2) (.refl _ s2)
  have h4 : changesOnly _ s3 s4 := advise_changes _ _ s3
  have h5 : changesOnly _ s4 s5 := unitFsr_changes _ _ _ s4
  exact ((((h1.next h2 (by decide)).next h3 (by decide)).next h4 (by decide)).next h5 (by decide)).next
    (appendHistory_changes _ s5) (by decide)

theorem kaFail_keeps (i : Nat) (ka q : Nat) (r : KaOutcome) (s : State) : keepsHost s (kaFail i ka q r s) := by
  unfold kaFail
  extract_lets s1 s2 s3 s4 s5
  have h1 : keepsHost s s1 := ((bumpCtr_changes _ _ s).both (updTotals_changes _ _) (by decide) (by decide) :
    changesOnly [.health, .totals] s s1).keepsHost (by decide)
  have h2 : keepsHost s s2 := h1.trans ((updHealth_changes _ _ s1).keepsHost (by decide))
  have h3 : keepsHost s2 s3 := by
    unfold s3
    split
    · exact enterWatch_keeps _ _ s2
    · exact keepsHost.refl s2
  have h4 : keepsHost s3 s4 := advise_keeps _ _ s3
  have h5 : keepsHost s4 s5 := unitFsr_keeps _ _ _ s4
  exact (h2.trans (h3.trans (h4.trans h5))).trans ((appendHistory_changes _ s5).keepsHost (by decide))

end Sys2Proof.Machine
end

