-- ==== Sys2Proof/Laws/JobFrame.lean ====
section
/-! SUPPORT. What detections, faults, the end of a job, the job boundary and the stop sequence may change. -/

namespace Sys2Proof.Machine

/-! ## Notices, detections and faults -/

theorem abortWindowTest_changes (n : Nat) (s : State) : changesOnly [.settings, .test] s (abortWindowTest n s) := by
  unfold abortWindowTest
  split
  · split
    · refine changesOnly.trans ?_ ((appendHistory_changes _ _).mono (by decide))
      intro p hp
      cases p <;> first | rfl | exact absurd (by decide) hp
    · exact .refl _ s
  · exact .refl _ s

theorem takeNotice_changes (n : Notice) (s : State) : changesOnly [.settings, .test, .job] s (takeNotice n s) := by
  have h : ∀ j : Job, changesOnly [.job] s { s with job := j } := by
    intro j p hp
    cases p <;> first | rfl | exact absurd (by decide) hp
  have hold : changesOnly [.job] s (holdNotice n s) := by
    unfold holdNotice
    split
    · exact .ite (h _) (.refl _ s)
    · exact h _
  unfold takeNotice
  exact .ite (hold.both (abortWindowTest_changes _ _) (by decide) (by decide)) (.refl _ s)

theorem scoreRun_changes (u k p : Nat) (r : KaOutcome) (s : State) : changesOnly (.totals :: moves) s (scoreRun u k p r s) := by
  unfold scoreRun
  split
  · exact (kaPass_changes u s).mono (by decide)
  · exact kaFail_changes u k p _ s

theorem scoreRun_keeps (u k p : Nat) (r : KaOutcome) (s : State) : keepsHost s (scoreRun u k p r s) := by
  unfold scoreRun
  split
  · exact kaPass_keeps u s
  · exact kaFail_keeps u k p _ s

/-- What the end of a window's test may change. -/
theorem endWindowTest_changes (s : State) : changesOnly (.test :: .totals :: moves) s (endWindowTest s) := by
  unfold endWindowTest
  split
  · rename_i t _
    refine .ite ?_ (.refl _ s)
    have h : changesOnly (.test :: .totals :: moves) s { s with sec := { s.sec with test := none } } := by
      intro p hp
      cases p <;> first | rfl | exact absurd (by decide) hp
    exact h.trans (changesOnly.foldl
      (fun a (x : Nat × Nat × KaOutcome) => (scoreRun_changes t.unit x.1 x.2.1 x.2.2 a).mono (by decide)) t.held _)
  · exact .refl _ s

theorem endWindowTest_keeps (s : State) : keepsHost s (endWindowTest s) := by
  unfold endWindowTest
  split
  · rename_i t _
    split
    · have h : keepsHost s { s with sec := { s.sec with test := none } } := fun h => h
      exact h.trans (keepsHost_foldl
        (fun a (x : Nat × Nat × KaOutcome) => scoreRun_keeps t.unit x.1 x.2.1 x.2.2 a) t.held _)
    · exact .refl s
  · exact .refl s

/-- Where no test runs by a window, none ends. -/
theorem endWindowTest_none (s : State) (h : s.sec.test.all (fun t => t.by_ != .window)) : endWindowTest s = s := by
  unfold endWindowTest
  split
  · rename_i t e
    rw [e] at h
    exact if_neg (by simpa using h)
  · rfl

theorem closeWindow_changes (s : State) : changesOnly (.test :: .totals :: moves) s (closeWindow s) := by
  unfold closeWindow
  exact .ite (.refl _ s) (endWindowTest_changes s)

theorem closeWindow_none (s : State) (h : s.sec.test.all (fun t => t.by_ != .window)) : closeWindow s = s := by
  unfold closeWindow
  split
  · rfl
  · exact endWindowTest_none s h

theorem countUnit_changes (c i : Nat) (s : State) : changesOnly (.totals :: moves) s (countUnit c i s) := by
  unfold countUnit
  extract_lets s1
  have h1 : changesOnly (.totals :: moves) s s1 := by
    unfold s1
    split
    · exact (bumpCtr_changes _ _ s).mono (by decide)
    · exact .refl _ s
  have h2 : changesOnly moves s1 (addScore i s1) := (updHealth_changes i _ s1).mono (by decide)
  exact .ite (h1.trans ((changesOnly.ite h2 (score_changes c i s1)).mono (by decide))) h1

theorem countUnit_keeps (c i : Nat) (s : State) : keepsHost s (countUnit c i s) := by
  unfold countUnit
  extract_lets s1
  have h1 : keepsHost s s1 := by
    unfold s1
    split
    · exact (bumpCtr_changes _ _ s).keepsHost (by decide)
    · exact .refl s
  split
  · split
    · exact h1.trans ((updHealth_changes i _ s1).keepsHost (by decide))
    · exact h1.trans (score_keeps c i s1)
  · exact h1

theorem countDetect_changes (c : Nat) (i : Option Nat) (s : State) :
    changesOnly (.totals :: moves) s (countDetect c i s) := by
  unfold countDetect
  extract_lets s1
  have h1 : changesOnly (.totals :: moves) s s1 := (updTotals_changes _ s).mono (by decide)
  split
  · exact h1.trans (countUnit_changes c _ s1)
  · exact h1

theorem countDetect_keeps (c : Nat) (i : Option Nat) (s : State) : keepsHost s (countDetect c i s) := by
  unfold countDetect
  extract_lets s1
  have h1 : keepsHost s s1 := (updTotals_changes _ s).keepsHost (by decide)
  split
  · exact h1.trans (countUnit_keeps c _ s1)
  · exact h1

theorem uncountDetect_changes (c i : Nat) (x : Bool × Bool) (s : State) :
    changesOnly [.totals, .health] s (uncountDetect c i x s) :=
  (updTotals_changes _ s).both (updHealth_changes i _ _) (by decide) (by decide)

theorem retract_changes (u w : Nat) (s : State) : changesOnly [.tiles, .totals, .health] s (retract u w s) := by
  unfold retract
  split
  · exact .ite (.refl _ s) ((uncountDetect_changes _ u _ s).both (updTile_changes u _ _) (by decide) (by decide))
  · exact .refl _ s

/-- What the moves that a slot's detections call for may change. -/
theorem takeMoves_changes (u : Nat) (s : State) : changesOnly (.tiles :: moves) s (takeMoves u s) :=
  ((updTile_changes u _ s).mono (by decide)).trans
    (changesOnly.foldl (fun a c => (judge_changes c u a).mono (by decide)) _ _)

theorem takeMoves_keeps (u : Nat) (s : State) : keepsHost s (takeMoves u s) :=
  ((updTile_changes u _ s).keepsHost (by decide)).trans (keepsHost_foldl (fun a c => judge_keeps c u a) _ _)

theorem takeAllMoves_changes (s : State) : changesOnly (.tiles :: moves) s (takeAllMoves s) :=
  changesOnly.foldl (fun a u => takeMoves_changes u a) _ _

theorem takeAllMoves_keeps (s : State) : keepsHost s (takeAllMoves s) := keepsHost_foldl (fun a u => takeMoves_keeps u a) _ _

/-- A slot whose detections call for no move takes none. -/
theorem takeAllMoves_none (s : State) (h : movers s = []) : takeAllMoves s = s := by
  unfold takeAllMoves
  rw [h]
  rfl

theorem markDetected_changes (s : State) : changesOnly [.job] s (markDetected s) := by
  intro p hp
  cases p <;> first | rfl | exact absurd (by decide) hp

theorem raiseDetect_changes (c : Nat) (n : UnitField) (k w : Nat) (s : State) :
    changesOnly detects s (raiseDetect c n k w s) := by
  unfold raiseDetect
  extract_lets l s1 s2 m
  have h1 : changesOnly detects s s1 := (countDetect_changes _ _ s).mono (by decide)
  have h2 : changesOnly detects s s2 := h1.next (markDetected_changes s1) (by decide)
  refine .ite (.ite h2 (h2.next (takeNotice_changes _ s2) (by decide))) h1

theorem raiseDetect_keeps (c : Nat) (n : UnitField) (k w : Nat) (s : State) : keepsHost s (raiseDetect c n k w s) := by
  unfold raiseDetect
  extract_lets l s1 s2 m
  have h1 : keepsHost s s1 := countDetect_keeps _ _ s
  have h2 : keepsHost s s2 := h1.trans ((markDetected_changes s1).keepsHost (by decide))
  split
  · split
    · exact h2
    · exact h2.trans ((takeNotice_changes _ s2).keepsHost (by decide))
  · exact h1

theorem raiseFaultLoc_changes (l : Loc) (s : State) : changesOnly [.settings, .test, .job] s (raiseFaultLoc l s) := by
  unfold raiseFaultLoc
  refine .ite ?_ (.refl _ s)
  refine changesOnly.trans ?_ (takeNotice_changes _ _)
  intro p hp
  cases p <;> first | rfl | exact absurd (by decide) hp

theorem raiseFault_changes (c : Nat) (n : UnitField) (k w : Nat) (s : State) :
    changesOnly [.settings, .test, .job] s (raiseFault c n k w s) := raiseFaultLoc_changes _ s

theorem tileFault_changes (c u k w : Nat) (s : State) :
    changesOnly [.settings, .test, .job, .tiles, .totals, .health] s (tileFault c u k w s) := by
  unfold tileFault
  have h := (retract_changes u w s).mono (B := [.settings, .test, .job, .tiles, .totals, .health]) (by decide)
  exact .ite ((h.next (updTile_changes u _ _) (by decide)).next (raiseFault_changes _ _ _ _ _) (by decide)) (.refl _ s)

theorem tileDetect_changes (c u k w : Nat) (s : State) : changesOnly (.tiles :: detects) s (tileDetect c u k w s) := by
  unfold tileDetect
  have h := (retract_changes u w s).mono (B := .tiles :: detects) (by decide)
  exact .ite ((h.next (updTile_changes u _ _) (by decide)).next (raiseDetect_changes _ _ _ _ _) (by decide)) (.refl _ s)

theorem tileDetect_keeps (c u k w : Nat) (s : State) : keepsHost s (tileDetect c u k w s) := by
  unfold tileDetect
  split
  · exact (((retract_changes u w s).keepsHost (by decide)).trans ((updTile_changes u _ _).keepsHost (by decide))).trans
      (raiseDetect_keeps _ _ _ _ _)
  · exact .refl s

/-! ## Unsealing, ports and units -/

theorem unsealStep_changes (s : State) : changesOnly [.tiles, .mems, .job] s (unsealStep s) := by
  unfold unsealStep
  split
  · exact .refl _ s
  · rename_i x _
    extract_lets s1 s2 s3
    have h1 : changesOnly [.tiles, .mems, .job] s s1 :=
      changesOnly.foldl (fun a p => (updTile_changes p.1 _ a).mono (by decide)) x.lines s
    have h2 : changesOnly [.tiles, .mems, .job] s1 s2 :=
      changesOnly.foldl (fun a p => (flipPair_changes p.1 p.2 a).mono (by decide)) x.pairs s1
    have h3 : changesOnly [.tiles, .mems, .job] s2 s3 :=
      changesOnly.foldl (fun a p => (updTile_changes p.1 _ a).mono (by decide)) x.flags s2
    refine (h1.trans (h2.trans h3)).trans ?_
    intro p hp
    cases p <;> first | rfl | exact absurd (by decide) hp

theorem dropPort_changes (p : Nat) (s : State) : changesOnly [.ports] s (dropPort p s) := by
  unfold dropPort
  exact .ite (setPort_changes _ _ s) (updPort_changes _ _ s)

theorem dropPorts_changes (s : State) : changesOnly [.ports] s (dropPorts s) :=
  changesOnly.foldl (fun a p => dropPort_changes p a) _ s

theorem dropTest_changes (s : State) : changesOnly [.test, .ringOut, .host] s (dropTest s) := by
  unfold dropTest
  split
  · rename_i t _
    extract_lets c s1
    have h1 : changesOnly [.test, .ringOut, .host] s s1 := by
      intro p hp
      cases p <;> first | rfl | exact absurd (by decide) hp
    split
    · exact h1.next (complete_changes _ s1) (by decide)
    · exact h1
  · exact .refl _ s

theorem dropTest_keeps (s : State) : keepsHost s (dropTest s) := by
  unfold dropTest
  split
  · extract_lets c s1
    split
    · exact fun h => complete_keeps _ s1 h
    · exact fun h => h
  · exact .refl s

theorem dropTestOf_changes (i : Nat) (s : State) : changesOnly [.test, .ringOut, .host] s (dropTestOf i s) := by
  unfold dropTestOf
  exact .ite (dropTest_changes s) (.refl _ s)

theorem dropTestOf_keeps (i : Nat) (s : State) : keepsHost s (dropTestOf i s) := by
  unfold dropTestOf
  split
  · exact dropTest_keeps s
  · exact .refl s

theorem tileLeaves_changes (u : Nat) (s : State) : changesOnly [.power, .tiles] s (tileLeaves u s) := by
  unfold tileLeaves
  extract_lets w s1
  have h1 : changesOnly [.power, .tiles] s s1 := by
    intro p hp
    cases p <;> first | rfl | exact absurd (by decide) hp
  have h2 : changesOnly [.power, .tiles] s
      { s1 with power := { s1.power with buffers := s1.power.buffers.filter (fun x => x.1 / 8 != u / 8) } } := by
    intro p hp
    cases p <;> first | rfl | exact absurd (by decide) hp
  exact .ite h1 (h2.next (changesOnly.foldl (fun a v => setTile_changes v _ a) _ _) (by decide))

theorem unitLeaves_changes (i : Nat) (s : State) : changesOnly [.power, .tiles, .ports, .mems] s (unitLeaves i s) := by
  unfold unitLeaves
  split
  · exact (tileLeaves_changes i s).mono (by decide)
  split
  · split
    · exact (setPort_changes _ _ s).mono (by decide)
    · exact (updPort_changes _ _ s).mono (by decide)
  split
  · exact (setMem_changes _ _ s).mono (by decide)
  · exact (updMem_changes _ _ s).mono (by decide)

theorem leaveService_changes (i : Nat) (s : State) :
    changesOnly [.power, .tiles, .ports, .mems, .test, .ringOut, .host] s (leaveService i s) :=
  (dropTestOf_changes i s).both (unitLeaves_changes i _) (by decide) (by decide)

theorem leaveService_keeps (i : Nat) (s : State) : keepsHost s (leaveService i s) :=
  (dropTestOf_keeps i s).trans ((unitLeaves_changes i _).keepsHost (by decide))

theorem wakeQuad_changes (p : Nat) (s : State) : changesOnly [.ports] s (wakeQuad p s) := by
  unfold wakeQuad
  exact .ite (dropPort_changes p s) (.refl _ s)

theorem wakeQuads_changes (s : State) : changesOnly [.ports] s (wakeQuads s) :=
  changesOnly.foldl (fun a p => wakeQuad_changes p a) _ s

theorem dropReel_changes (s : State) : changesOnly [.reel, .far, .det, .ldr, .power] s (dropReel s) := by
  intro p hp
  cases p <;> first | rfl | exact absurd (by decide) hp

/-- What an unload may change. -/
theorem unloadReel_changes (s : State) : changesOnly [.reel, .far, .det, .ldr, .ports, .power] s (unloadReel s) := by
  unfold unloadReel
  refine changesOnly.trans ?_ ((wakeQuads_changes _).mono (by decide))
  refine ((dropReel_changes s).mono (by decide)).trans ?_
  intro p hp
  cases p <;> first | rfl | exact absurd (by decide) hp

theorem releaseHeld_changes (i : Nat) (e : UnitEntry) (s : State) :
    changesOnly [.settings, .unitGen, .power, .tiles, .ports, .mems, .test, .ringOut, .host] s (releaseHeld i e s) := by
  unfold releaseHeld
  extract_lets s1 s2
  have h1 : changesOnly [.settings, .unitGen] s s1 := setUnit_changes _ _ s
  have h2 : changesOnly [.settings, .unitGen] s s2 := h1.next (updSet_changes _ s1) (by decide)
  have h3 : changesOnly [.settings, .unitGen] s2 (if e.st = .off then logUnit i (reasonOf s2 i) s2 else s2) := by
    refine .ite ?_ (.refl _ s2)
    unfold logUnit
    exact (appendLog_changes _ _ _ _).mono (by decide)
  exact ((h2.trans h3).mono (by decide)).trans ((leaveService_changes i _).mono (by decide))

theorem releaseHeld_keeps (i : Nat) (e : UnitEntry) (s : State) : keepsHost s (releaseHeld i e s) := by
  unfold releaseHeld
  extract_lets s1 s2
  have h1 : keepsHost s s1 := (setUnit_changes _ _ s).keepsHost (by decide)
  have h2 : keepsHost s1 s2 := (updSet_changes _ s1).keepsHost (by decide)
  have h3 : keepsHost s2 (if e.st = .off then logUnit i (reasonOf s2 i) s2 else s2) := by
    split
    · exact (appendLog_changes _ _ _ _).keepsHost (by decide)
    · exact .refl s2
  exact ((h1.trans h2).trans h3).trans (leaveService_keeps i _)

theorem releaseAll_changes (s : State) :
    changesOnly [.settings, .unitGen, .power, .tiles, .ports, .mems, .test, .ringOut, .host] s (releaseAll s) :=
  changesOnly.foldl (fun a (x : Nat × UnitEntry) => releaseHeld_changes x.1 x.2 a) _ s

theorem releaseAll_keeps (s : State) : keepsHost s (releaseAll s) :=
  keepsHost_foldl (fun a (x : Nat × UnitEntry) => releaseHeld_keeps x.1 x.2 a) _ s

/-- What a job boundary may change. -/
theorem jobBoundary_changes (s : State) :
    changesOnly [.settings, .unitGen, .power, .tiles, .ports, .mems, .reel, .far, .det, .ldr, .test, .ringOut, .host, .alerts] s
      (jobBoundary s) := by
  unfold jobBoundary
  extract_lets s1
  have h1 := releaseAll_changes s
  split
  · exact (h1.mono (by decide)).trans ((unloadReel_changes s1).both (post_changes _ _ _) (by decide) (by decide))
  · exact h1.mono (by decide)

theorem jobBoundary_keeps (s : State) : keepsHost s (jobBoundary s) := by
  unfold jobBoundary
  extract_lets s1
  have h1 : keepsHost s s1 := releaseAll_keeps s
  split
  · exact h1.trans (((unloadReel_changes s1).keepsHost (by decide)).trans (post_keeps _ _ _))
  · exact h1

/-! ## The end of a job -/

theorem clearJob_changes (f : Bool) (s : State) :
    changesOnly [.job, .tiles, .ports, .localq, .transits, .shadowed, .stage, .far, .work] s (clearJob f s) := by
  intro p hp
  cases p <;> first | rfl | exact absurd (by decide) hp

theorem finishJob_changes (n : Nat) (f : Bool) (s : State) : changesOnly jobEnds s (finishJob n f s) := by
  unfold finishJob
  extract_lets l s1
  have h0 : changesOnly jobEnds s (endWindowTest (unsealStep s)) :=
    (unsealStep_changes s).both (endWindowTest_changes _) (by decide) (by decide)
  have h1 : changesOnly jobEnds s s1 := h0.next (clearJob_changes f _) (by decide)
  exact (h1.next (complete_changes _ s1) (by decide)).next (jobBoundary_changes _) (by decide)

theorem finishJob_keeps (n : Nat) (f : Bool) (s : State) : keepsHost s (finishJob n f s) := by
  unfold finishJob
  extract_lets l s1
  have h1 : keepsHost s s1 :=
    (((unsealStep_changes s).keepsHost (by decide)).trans (endWindowTest_keeps _)).trans
      ((clearJob_changes f _).keepsHost (by decide))
  exact (h1.trans (complete_keeps _ s1)).trans (jobBoundary_keeps _)

theorem disarm_changes (s : State) : changesOnly jobEnds s (disarm s) := by
  unfold disarm
  exact .ite (finishJob_changes _ _ s) (.refl _ s)

theorem disarm_keeps (s : State) : keepsHost s (disarm s) := by
  unfold disarm
  split
  · exact finishJob_keeps _ _ s
  · exact .refl s

theorem endByFault_changes (l : Loc) (s : State) : changesOnly jobEnds s (endByFault l s) := by
  unfold endByFault
  extract_lets f s1 s2 s3
  have h1 : changesOnly jobEnds s s1 := (unsealStep_changes s).both (updTotals_changes _ _) (by decide) (by decide)
  have h2 : changesOnly jobEnds s s2 := h1.next (writeFsr_changes _ _ _ _ _ s1) (by decide)
  have h3 : changesOnly jobEnds s s3 := h2.next (postAt_changes _ _ _ _ s2) (by decide)
  exact h3.trans (finishJob_changes _ _ s3)

theorem endByFault_keeps (l : Loc) (s : State) : keepsHost s (endByFault l s) := by
  unfold endByFault
  extract_lets f s1 s2 s3
  have h1 : keepsHost s s1 :=
    ((unsealStep_changes s).keepsHost (by decide)).trans ((updTotals_changes _ _).keepsHost (by decide))
  have h2 : keepsHost s1 s2 := writeFsr_keeps _ _ _ _ _ s1
  have h3 : keepsHost s2 s3 := postAt_keeps _ _ _ _ s2
  exact (h1.trans (h2.trans h3)).trans (finishJob_keeps _ _ s3)

/-! ## The stop sequence -/

theorem haltPacer_changes (s : State) : changesOnly [.pacer, .bridle] s (haltPacer s) := by
  intro p hp
  cases p <;> first | rfl | exact absurd (by decide) hp

theorem stopPort_changes (p : Nat) (s : State) : changesOnly [.ports] s (stopPort p s) := by
  unfold stopPort
  exact .ite (setPort_changes _ _ s) (.ite (.refl _ s) (setPort_changes _ _ s))

/-- What the stop of a job may change: that of its end, or a record of the stop. -/
theorem stopJob_changes (c : StopCause) (s : State) : changesOnly jobEnds s (stopJob c s) := by
  unfold stopJob
  refine .ite ?_ ((disarm_changes s).next (writeFsr_changes _ _ _ _ _ _) (by decide))
  refine changesOnly.trans ?_ (endByFault_changes _ _)
  intro p hp
  cases p <;> first | rfl | exact absurd (by decide) hp

theorem stopJob_keeps (c : StopCause) (s : State) : keepsHost s (stopJob c s) := by
  unfold stopJob
  split
  · exact fun h => endByFault_keeps _ _ h
  · exact (disarm_keeps s).trans (writeFsr_keeps _ _ _ _ _ _)

theorem stopPorts_changes (s : State) : changesOnly [.ports] s (eachPort stopPort s) :=
  changesOnly.foldl (fun a p => stopPort_changes p a) _ s

theorem stopUnits_changes (s : State) : changesOnly jobEnds s (stopUnits s) := by
  unfold stopUnits
  extract_lets s1
  have h1 : changesOnly jobEnds s s1 := (unloadReel_changes s).mono (by decide)
  refine h1.trans ?_
  intro p hp
  cases p <;> first | rfl | exact absurd (by decide) hp

theorem postStopped_changes (c : StopCause) (s : State) : changesOnly (.settings :: posts) s (postStopped c s) := by
  unfold postStopped
  exact (post_changes _ _ s).both (appendLog_changes _ _ _ _) (by decide) (by decide)

/-- What a stop may change. -/
theorem stopPackage_changes (c : StopCause) (s : State) :
    changesOnly ([.stop, .tray, .pacer, .bridle, .test] ++ jobEnds) s (stopPackage c s) := by
  unfold stopPackage
  extract_lets y tray z s1
  have h0 : ∀ x : Stop, changesOnly ([.stop, .tray, .pacer, .bridle, .test] ++ jobEnds) s { s with stop := x, tray := tray } := by
    intro x p hp
    cases p <;> first | rfl | exact absurd (by decide) hp
  refine .ite (h0 _) ?_
  have h1 : changesOnly ([.stop, .tray, .pacer, .bridle, .test] ++ jobEnds) s s1 :=
    (h0 _).next (haltPacer_changes _) (by decide)
  exact ((((h1.next (stopPorts_changes s1) (by decide)).next (stopJob_changes c _) (by decide)).next (dropTest_changes _)
    (by decide)).next (stopUnits_changes _) (by decide)).next (postStopped_changes c _) (by decide)

theorem stopPackage_keeps (c : StopCause) (s : State) : keepsHost s (stopPackage c s) := by
  unfold stopPackage
  extract_lets y tray z s1
  split
  · exact fun h => h
  · have h1 : keepsHost s s1 := id
    have h4 : ∀ a, keepsHost a (stopUnits a) := by
      intro a h
      have e : hostMem (stopUnits a) = hostMem a := by
        exact unloadReel_changes a .host (by decide)
      rw [e]
      exact h
    have h5 : ∀ a, keepsHost a (postStopped c a) := fun a =>
      (post_keeps _ _ a).trans ((appendLog_changes _ _ _ _).keepsHost (by decide))
    have h2 : keepsHost s1 (eachPort stopPort s1) := (stopPorts_changes s1).keepsHost (by decide)
    exact ((((h1.trans h2).trans (stopJob_keeps c _)).trans (dropTest_keeps _)).trans (h4 _)).trans (h5 _)

end Sys2Proof.Machine
end

