-- ==== Sys2Proof/Tests/Slice0.lean ====
section
/-! SUPPORT. Small tests: for each statement, states and operands that meet its hypotheses clause by clause, the commands that
WellFormed refuses, and results that the spec's tables give. -/

namespace Sys2Proof.Tests

open Sys2Proof.Machine

set_option Elab.async false

/-! ## Small states -/

/-- A package in READY, synchronised as a root, its rings enabled with one descriptor fetched, its endpoint known. -/
def up : State :=
  { State.reset with
    boot := { State.reset.boot with stage := .ready }
    tray := { State.reset.tray with vin48 := 48000, coolFlowN := true, perstN := true }
    bridle := { Bridle.reset with
      st := .synced, hops := 0, count := 200
      staged := { BridleCfg.reset with id := 5, idValid := true, root := true }
      committed := { BridleCfg.reset with id := 5, idValid := true, root := true } }
    pacer := { Pacer.reset with running := true }
    rings := { State.reset.rings with
      link := { speed := 6, width := 16, flit := true, atomics := true, masked := 0 }
      committed := { HostCfg.reset with sq := 0x100000, cq := 0x200000, eq := 0x300000, db := 0x400000, enable := true }
      sqHead := 1 }
    mgmt := { Mgmt.reset with eid := 9, eidValid := true } }

def atStage (g : Stage) (s : State) : State := { s with boot := { s.boot with stage := g } }

def stoppedUp : State :=
  { up with stop := { up.stop with stopped := true, first := some .cool, cool := true }, pacer := Pacer.reset }

def withPort (p : Nat) (v : Port) (s : State) : State := setPort p v s

def withTile (u : Nat) (t : Tile) (s : State) : State := setTile u t s

/-- A section of a Reel. -/
def section_ (typ owner : Nat) (aux : List Nat) (recs : List (BitVec 256)) : Section_ :=
  { dir := 0, typ := typ, alt := none, owner := owner, aux := aux, recs := recs }

/-- A Reel of two steps in one phase at class 3 with the commit point in slot 4, and further sections. -/
def reelA (ss : List Section_) : Reel :=
  { image := [], pkgId := 5, jobTag := 7, shadow := 0, strict := false, debug := false, patched := false, vari := false,
    sections := [section_ secJobIds ownPackage [] [5], section_ secPhases ownPackage [] [3],
      section_ secSequence ownPackage [] [2 * 2 ^ 32], section_ secPatterns ownPackage [] [4]] ++ ss,
    slots := [], diameter := 1, program := 0, weights := 0 }

/-- The TILE section of a tile with one constant page, 16 hold pages (lines 16 to 271) and 16 working pages (272 to 527). -/
def tileSec (u : Nat) : Section_ := section_ secTile u ([1, 16, 16, 0, 0] ++ List.replicate 63 0xFFFF) []

/-- A running job in slot 2 of its first step. -/
def runs (r : Reel) (s : State) : State :=
  { s with reel := some r,
           job := { Job.none with st := .running, start := 198, step := 1, attempt := 1, slot := 2 } }

/-- An instruction word. -/
def word (slot token op fmt dst a b c aux imm : Nat) : Rec128 :=
  BitVec.ofNat 128 (slot * 2 ^ 116 + token * 2 ^ 110 + op * 2 ^ 102 + fmt * 2 ^ 98 + dst * 2 ^ 72 + a * 2 ^ 56 + b * 2 ^ 40 +
    c * 2 ^ 24 + aux * 2 ^ 16 + imm)

/-- A route within the package to tile 1, and a parcel route through port 3; a near paired block; a window slot. -/
def routes : List (BitVec 256) := [1 + 63 * 2 ^ 40, 1 + 3 * 2 ^ 40]
def blocks : List (BitVec 256) := [0x10000000#256 + 6 + 0x77 * 2 ^ 64]
def windows : List (BitVec 256) := [0x55 * 2 ^ 64]

/-- A job over tile 0 whose sequencer stands before one word. -/
def jobWord (w : Rec128) : State :=
  withTile 0 { Tile.clear with todo := [w], events := [(3, 2)],
                               inbox := [(1, { late := false, at_ := 199, data := 77, side := sideOf 77, pdue := 0 })] }
    (runs (reelA [tileSec 0, section_ secRoutes 0 [] routes, section_ secBlocks 0 [] blocks, section_ secWindow 0 [] windows]) up)

/-- A descriptor of an opcode. -/
def desc (op rest : Nat) : BitVec 512 := BitVec.ofNat 512 (op + rest)

/-! ## Each statement's hypotheses are met -/

theorem test_hyps_StepTakesTheFrontCommand :
    ({ up with pending := [.clockStop, .thermStop 105] } : State).pending = .clockStop :: [.thermStop 105] ∧ up.pending = [] :=
  ⟨rfl, rfl⟩

theorem test_hyps_StepKeepsMakeAndStraps :
    ∃ t : State, step { State.reset with pending := [.vin48Rise 39000 5 true true] } = .next t ∧ t.ident.slotId = 5 :=
  ⟨_, rfl, rfl⟩

theorem test_hyps_StepKeepsHostMemoryForm :
    Memory.wf (hostMem up) = true ∧ ∃ t : State, step { up with pending := [.ref10mLoss] } = .next t :=
  ⟨by decide, _, rfl⟩

theorem test_hyps_CommandsNeitherQueueNorStop : ∃ t : State, exec .clockStop up = .next t := ⟨_, rfl⟩

/-- A bank of a past store. -/
def bankOf (gen : Nat) : Bank := { Bank.empty with intact := true, generation := gen }

def banks (a b : Nat) : State := { State.reset with store := { State.reset.store with bankA := bankOf a, bankB := bankOf b } }

theorem test_hyps_ColdStartLoadsABank :
    State.reset.boot.stage = .off ∧ (banks 2 1).store.bankB.generation < (banks 2 1).store.bankA.generation ∧
    (banks 1 2).store.bankA.generation < (banks 1 2).store.bankB.generation ∧ (banks 1 2).store.bankA.intact = true ∧
    (banks 1 2).store.bankB.intact = true ∧ (banks 1 2).boot.stage = .off ∧ ¬ State.reset.store.bankA.intact = true ∧
    ¬ State.reset.store.bankB.intact = true := by decide +kernel

/-- A package in SELF_TEST with a unit in WATCH at score 3. -/
def watching (u : Nat) : State :=
  { atStage .selfTest up with
    store := { up.store with set := { up.store.set with units := [(u, { st := .watch, held := false })] } }
    sec := { up.sec with health := [(u, { Health.zero with score := 3 })] } }

/-- A package in a stage with stack 7 fenced. -/
def fencedStack (g : Stage) : State :=
  { atStage g up with store := { up.store with set := { up.store.set with units := [(1079, { st := .fenced, held := false })] } } }

theorem test_hyps_StagesEndInOrder :
    ((atStage .serviceBoot up).boot.stage = .serviceBoot ∧ (atStage .serviceBoot up).boot.overrunHold = false ∧
      portPop up 31 = true ∧ portPop up 32 = false ∧ unitSt up 1055 ≠ .off ∧ lrefOn up 1 = true) ∧
    (atStage .held up).boot.stage = .held ∧ (atStage .rails up).boot.stage = .rails ∧
    ((atStage .memoryInit up).boot.stage = .memoryInit ∧ stackPop up 7 = true ∧ unitSt up 1079 = .active) ∧
    ((atStage .selfTest up).boot.stage = .selfTest ∧ up.boot.overrunHold = false ∧ up.stop.stopped = false ∧
      unitSt up 1055 = .active) ∧
    ((linkTrains { LinkInfo.down with speed := 6, flit := true, width := 4 } = true ∧
      linkTrains { LinkInfo.down with speed := 4, width := 16 } = true) ∧
      linkTrains { LinkInfo.down with speed := 3, width := 16 } = false ∧ linkTrains { LinkInfo.down with speed := 5, width := 2 } = false) ∧
    ((watching 1055).boot.stage = .selfTest ∧ unitSt (watching 1055) 1055 = .watch ∧ (healthOf (watching 1055) 1055).score ≠ 0 ∧
      risingKeys (watching 1055).store.set.units = true ∧ risingKeys (watching 1055).sec.health = true) ∧
    (unitSt (fencedStack .selfTest) 1079 = .fenced ∧ (fencedStack .selfTest).boot.stage = .selfTest ∧
      (memOf (fencedStack .selfTest) 7).st = .off ∧ unitSt (fencedStack .memoryInit) 1079 = .fenced ∧
      (atStage .selfTest stoppedUp).stop.stopped = true ∧ unitSt up 1023 = .active) := by decide +kernel

/-- An overrun stage that holds. -/
def overrun : State := { up with boot := { up.boot with overrunHold := true, stage := .rails } }

theorem test_hyps_StartUpFailuresAreKept :
    ((atStage .selfTest up).boot.stage = .selfTest ∧ unitPop up 1023 = true ∧ unitSt up 1023 = .active ∧ unitPop up 1055 = true ∧
      unitSt up 1055 = .active ∧ KaOutcome.late ≠ .pass ∧ up.boot.overrunHold = false) ∧
    ((atStage .rails up).boot.stage = .rails ∧ (atStage .rails up).boot.overrunHold = false) ∧
    overrun.boot.overrunHold = true := by decide +kernel

theorem test_hyps_FundamentalResetReturnsToHeld :
    (atStage .rails up).boot.stage = .rails ∧ up.boot.stage = .ready ∧ risingKeys up.sec.health = true ∧
    (atStage .held up).boot.stage = .held := by decide +kernel

/-- A running job over nothing. -/
def plainJob : State := runs (reelA []) up

/-- A job with a port whose wire latency moved in it. -/
def movedJob : State := setPort 16 { Port.off with st := .trained, sends := .frames, cls := 2, remeasure := true } plainJob

theorem test_hyps_HotResetKeepsMemoryAndTraining :
    linkUp up = true ∧ running up = false ∧ risingKeys up.mems = true ∧ linkUp plainJob = true ∧
    running plainJob = true ∧ linkUp (atStage .held up) = false ∧ up.store.set.units = [] ∧
    ((portOf movedJob 16).remeasure = true ∧ (portOf movedJob 16).st = .trained ∧ risingKeys movedJob.ports = true ∧
      linkUp movedJob = true) := by decide +kernel

/-- COOL_FLOW_N low while its count runs. -/
def noFlow (s : State) : State :=
  { s with tray := { s.tray with coolFlowN := false }, boot := { s.boot with coolCount := true } }

theorem test_hyps_StopConditionsStopThePackage :
    mgmtUp up = true ∧ up.stop.stopped = false ∧ (37999 < 38000 ∨ 60500 < 37999) ∧ 30000 ≤ 37999 ∧ regulatorOn up 0 = true ∧
    mgmtUp (noFlow up) = true ∧ (noFlow up).stop.stopped = false ∧ (noFlow up).tray.coolFlowN = false ∧
    (noFlow up).boot.coolCount = true := by decide +kernel

theorem test_hyps_FurtherCausesAreRecorded :
    mgmtUp stoppedUp = true ∧ stoppedUp.stop.stopped = true ∧ (60501 < 38000 ∨ 60500 < 60501) ∧ regulatorOn stoppedUp 23 = true ∧
    (noFlow stoppedUp).stop.stopped = true ∧ (noFlow stoppedUp).boot.coolCount = true := by decide +kernel

/-- A running store for bank A or B. -/
def storing (toB : Bool) : State :=
  { up with store := { up.store with
      run := some { req := .mgmt 1, set := up.store.set, toB := toB, generation := 2, storeCount := 1, tbSeconds := 0 } } }

theorem test_hyps_PowerLossKeepsOnlyTheBanks :
    up.boot.stage ≠ .off ∧ 29999 < 30000 ∧ up.store.run = none ∧ (storing true).store.run.map (fun r => r.toB) = some true ∧
    (storing false).store.run.map (fun r => r.toB) = some false := by decide +kernel

/-- Line die 1's reference lost; a job that uses port 16; the 10 MHz reference lost. -/
def noLref1 : State := { up with tray := { up.tray with lref1 := false } }
def topo (p far cls : Nat) : BitVec 256 := BitVec.ofNat 256 (p + far * 2 ^ 8 + 6 * 2 ^ 16 + cls * 2 ^ 28)
def trainedPort : Port := { Port.off with st := .trained, sends := .frames, cls := 2, wirePs := 40000 }
def portJob : State :=
  withPort 17 trainedPort (withPort 16 trainedPort (runs (reelA [section_ secTopology ownPackage [] [topo 16 3 2]]) up))
def noRef10m : State := { up with tb := { up.tb with refLost := true } }

theorem test_hyps_ReferencesComeAndGo :
    (1 < up.ident.lineDies ∧ mgmtUp up = true ∧ running portJob = true ∧ portJob.job.faulted = false ∧
      reelPort portJob 16 = true ∧ reelPort portJob 17 = false) ∧
    (lrefOn noLref1 1 = false ∧ noLref1.boot.stage = .ready ∧ noLref1.stop.stopped = false ∧ unitSt noLref1 1040 = .active) ∧
    up.tray.coolFlowN ≠ false ∧ (svcOn up = true ∧ up.tb.refLost = false) ∧
    (svcOn noRef10m = true ∧ noRef10m.tb.refLost = true) := by decide +kernel

/-- The last nanosecond of the time base, and a slew of more than a cycle takes. -/
def lastTick : State :=
  { up with tb := { up.tb with sec := 2 ^ 48 - 1, ns := 999999999, valid := true, slewRem := -2 ^ 50,
                               committed := { up.tb.committed with mode := true, slewBound := 1 } } }

/-- A time base with a step of 2 s waiting, under armed outputs 2 and 3 (a one-shot and a periodic one). -/
def steppingTb : TimeBase :=
  setOut 2 { Tout.reset with armed := true, nextLead := 10 ^ 9, committed := { ToutCfg.reset with mode := 1 } }
    (setOut 3 { Tout.reset with armed := true, nextLead := 500, committed := { ToutCfg.reset with mode := 2, period := 1000 } }
      { up.tb with stepDue := some (2 * 10 ^ 9 * 2 ^ 32) })
def stepping : State := { up with tb := steppingTb }

/-- The TIME cycle that takes the step: the one-shot at 1 s is missed, the periodic output skips to its next grid point. -/
theorem test_step_under_outputs :
    ∃ t : State, exec .timeCycle stepping = .next t ∧ t.tb.sec = 2 ∧ t.tb.ns = 1 ∧ (outOf t.tb 2).missed = true ∧
      (outOf t.tb 3).nextLead = 2000001000 ∧ (outOf t.tb 3).skipped = true :=
  ⟨_, rfl, by decide +kernel, by decide +kernel, by decide +kernel, by decide +kernel, by decide +kernel⟩

theorem test_hyps_TimeBaseCounts :
    (svcOn stepping = true ∧ stepping.tb.refLost = false ∧ stepping.tb.stepDue = some (2 * 10 ^ 9 * 2 ^ 32) ∧ up.tb.stepDue = none) ∧
    svcOn up = true ∧ up.tb.refLost = false ∧ ((0 : Int) = if up.tb.slewRem.natAbs ≤ 0 then up.tb.slewRem else 0) ∧
    svcOn lastTick = true ∧ lastTick.tb.refLost = false ∧
    ¬ (lastTick.tb.slewRem.natAbs ≤ lastTick.tb.committed.slewBound.toNat * 2 ^ 48 / 10 ^ 6) := by decide +kernel

/-- Output 3 with settings staged, or in progress. -/
def outCfg (mode startNs width : Nat) : ToutCfg :=
  { ToutCfg.reset with mode := BitVec.ofNat 2 mode, startSec := 1, startNs := BitVec.ofNat 30 startNs, period := 1000,
                       width := BitVec.ofNat 32 width }
def withOut (o : Tout) : State := { up with tb := setOut 3 o { up.tb with sec := 1 } }
def staging (c : ToutCfg) : State := withOut { Tout.reset with staged := c }
def firing : State :=
  withOut { Tout.reset with armed := true, pulse := true, nextLead := 1000000000, trail := 1000000000,
                            committed := outCfg 2 0 996 }
def captures (n : Nat) (episode : Bool) : State :=
  { up with tb := setCap 2 { Capture.reset with
      edge := 1, event := true, episode := episode,
      queue := List.replicate n { sec := 0, ns := 0, bridle := 0, rising := true, held := false, invalid := false } } up.tb }

theorem test_hyps_TimeOutputs :
    (barOpen (staging (outCfg 1 65 100)) = true ∧ bit (1 : Word32) 0 = true ∧ (outOf (staging (outCfg 1 65 100)).tb 3).staged = outCfg 1 65 100 ∧
      (outCfg 1 65 100).mode ≠ 3 ∧ (outCfg 1 65 100).startNs.toNat ≤ 999999999 ∧
      tbNs (staging (outCfg 1 65 100)).tb + 64 < startNs (outCfg 1 65 100) ∧
      startNs (outCfg 1 64 100) ≤ tbNs (staging (outCfg 1 64 100)).tb + 64) ∧
    ((outCfg 2 0 996).mode = 2 ∧ pulseNs (outCfg 2 0 996) + 4 ≤ (outCfg 2 0 996).period.toNat) ∧
    ((outCfg 0 0 0).mode = 0 ∧ (outOf (staging (outCfg 0 0 0)).tb 3).pulse = false) ∧
    ((outCfg 3 0 0).mode = 3 ∧ (outCfg 2 0 997).period.toNat < pulseNs (outCfg 2 0 997) + 4) ∧
    (svcOn firing = true ∧ firing.tb.refLost = false ∧ (outOf firing.tb 3).armed = true ∧ (outOf firing.tb 3).nextLead ≠ 0 ∧
      (outOf firing.tb 3).nextLead ≤ tbNs firing.tb ∧ (outOf firing.tb 3).pulse = true ∧ (outOf firing.tb 3).trail ≤ tbNs firing.tb) ∧
    ((outOf stepping.tb 2).armed = true ∧ (outOf stepping.tb 2).pulse = false ∧ (outOf stepping.tb 2).committed.mode = 1 ∧
      (outOf stepping.tb 3).armed = true ∧ (outOf stepping.tb 3).committed.mode = 2 ∧
      0 < (outOf stepping.tb 3).committed.period.toNat ∧ (outOf up.tb 0).armed = false ∧ (outOf up.tb 0).pulse = false) := by
  decide +kernel

theorem test_hyps_TimeCaptures :
    (svcOn (captures 15 false) = true ∧ bit (capOf (captures 15 false).tb 2).edge 0 = true ∧
      (capOf (captures 15 false).tb 2).queue.length < 16) ∧
    (svcOn (captures 16 false) = true ∧ 16 ≤ (capOf (captures 16 false).tb 2).queue.length ∧
      (capOf (captures 16 false).tb 2).episode = false ∧ (capOf (captures 16 true).tb 2).episode = true) ∧
    bit (capOf up.tb 2).edge 1 = false ∧ barOpen up = true := by decide +kernel

/-- A time base in which commits are staged. -/
def tbStaged (c : TbCfg) : State := { up with tb := { up.tb with staged := c } }
def slewMode : State := { up with tb := { up.tb with valid := true, staged := { up.tb.staged with mode := true, slewBound := 500 },
                                                     committed := { up.tb.committed with mode := true }, modeNow := true } }

theorem test_hyps_TimeBaseCommits :
    (barOpen slewMode = true ∧ slewMode.tb.staged.mode = true ∧ 1 ≤ slewMode.tb.staged.slewBound.toNat ∧
      slewMode.tb.staged.slewBound.toNat ≤ 500) ∧
    ((tbStaged { TbCfg.reset with mode := true }).tb.staged.slewBound = 0 ∧ barOpen (tbStaged TbCfg.reset) = true) ∧
    (up.tb.staged.stepNs.toNat ≤ 999999999 ∧ up.tb.modeNow = false ∧ up.tb.stepUsed = false ∧ bit (1 : Word32) 0 = true) ∧
    999999999 < (tbStaged { TbCfg.reset with stepNs := 1000000000 }).tb.staged.stepNs.toNat ∧
    (slewMode.tb.modeNow = true ∧ slewMode.tb.valid = true) ∧
    civilSeconds 0x018447B2 24 0 = .invalid ∧ civilSeconds 0x018447B2 0 1 = .outOfRange ∧
    civilSeconds 0x018447B2 1 0 = .secs 3600 := by decide +kernel

theorem test_hyps_LatchingReads :
    barOpen up = true ∧ wideAt up 0x7018 = some 0 ∧ up.reel = none ∧ barOpen State.reset = false ∧
    barOpen { up with rings := { up.rings with link := LinkInfo.down } } = false := by decide +kernel

theorem test_hyps_RegisterWritesStageAndClear :
    0x500C % 8 ≠ 0 ∧ 0x5010 % 8 = 0 ∧ ¬ (16 = 32 ∧ 0x5010 % 4 = 0) ∧ ¬ (16 = 64 ∧ 0x5010 % 8 = 0) ∧ barOpen (atStage .rails up) = false ∧
    barOpen up = true ∧ (linkUp (atStage .memoryInit up) = true ∧ barOpen (atStage .memoryInit up) = false) := by decide +kernel

/-- Table 3-4 and R34: a flag of BOOT_FLAGS written as 1 clears before READY, its neighbour stays. -/
theorem test_boot_flags_clear_early :
    ∃ t : State, exec (.registerWrite 0x804 32 2) { atStage .memoryInit up with
        boot := { up.boot with stage := .memoryInit, bankFallback := true, potFail := true } } = .next t ∧
      t.boot.bankFallback = false ∧ t.boot.potFail = true :=
  ⟨_, rfl, by decide +kernel, by decide +kernel⟩

/-- Staged settings of the blocks. -/
def bridleStaged (id : BitVec 11) (r : Option Reel) : State :=
  { up with bridle := { up.bridle with staged := { up.bridle.staged with id := id } }, reel := r }
def hostStaged (sz : BitVec 5) (due : List Rec) : State :=
  { up with rings := { up.rings with due := due, committed := HostCfg.reset,
                                     staged := { up.rings.committed with szSq := sz, szEq := 16 } } }


theorem test_hyps_BlockCommitsAreAtomic :
    (up.bridle.staged.id = up.bridle.committed.id ∧ up.bridle.staged.idValid = up.bridle.committed.idValid ∧
      up.bridle.staged.root = up.bridle.committed.root ∧ barOpen up = true ∧ bit (1 : Word32) 0 = true) ∧
    ((bridleStaged 6 none).reel = none ∧ (bridleStaged 6 none).bridle.staged.id ≠ (bridleStaged 6 none).bridle.committed.id) ∧
    ((bridleStaged 6 (some (reelA []))).reel.isSome = true ∧ barOpen (bridleStaged 6 (some (reelA []))) = true) ∧
    (up.store.set.capMin ≤ up.power.staged.cap.toNat ∧ up.power.staged.cap.toNat ≤ up.store.set.capMax ∧
      1 ≤ up.power.staged.window.toNat ∧ 20 ≤ up.power.staged.ramp.toNat ∧
      up.power.staged.pref.all (fun w => (List.range 4).all (fun k => w.extractLsb' (8 * k) 8 == 0xFF#8)) = true) ∧
    ((hostStaged 6 []).rings.staged.sq.toNat % 4096 = 0 ∧ (hostStaged 6 []).rings.staged.db.toNat % 4096 = 0 ∧
      (hostStaged 6 []).rings.staged.szEq.toNat ≤ 16 ∧ (hostStaged 6 []).rings.staged.maxUs.toNat ≤ 64 ∧
      1 ≤ (hostStaged 6 []).rings.staged.minUs.toNat ∧ (hostStaged 6 []).rings.staged.enable = true ∧
      (hostStaged 6 []).rings.committed.enable = false ∧ (hostStaged 6 []).rings.due = []) ∧
    (up.rings.committed.enable = true ∧ jobBusy plainJob = true ∧ up.store.run = none) ∧
    (hostStaged 5 []).rings.staged.szSq.toNat < 6 := by decide +kernel

/-! Ports and the window. -/

def portWith (st : PortSt) (sends : Signal) : State := withPort 31 { Port.off with st := st, sends := sends } up

theorem test_hyps_LinksTrain :
    (barOpen portJob = true ∧ (0x10000#32 : Word32).getLsbD 16 = true ∧ reelPort portJob 16 = true ∧ portPop up 31 = true ∧
      portPop up 32 = false) ∧
    (reelPort up 31 = false ∧ up.boot.stage = .ready ∧ up.stop.stopped = false ∧ lrefOn up 1 = true ∧ unitSt up 1055 = .active) ∧
    (isReady portJob = true ∧ (portOf (withPort 16 { trainedPort with sends := .wake } portJob) 16).sends = .wake ∧
      reelPort (withPort 16 { trainedPort with sends := .wake } portJob) 16 = true) ∧
    ((portOf (portWith .absent .wake) 31).sends = .wake ∧ (portOf (portWith .absent .wake) 31).trainDue = false) ∧
    ((portOf (portWith .training .train) 31).st = .training ∧ (portWith .training .train).reel = none) ∧
    (portOf (portWith .failed .none) 31).st = .failed ∧
    ((portOf (portWith .measuring .frames) 31).st = .measuring ∧ up.bridle.st = .synced ∧
      (atStage .ready (portWith .measuring .frames)).bridle.st = .synced ∧ State.reset.bridle.st ≠ .synced) ∧
    ((portOf (portWith .off .notReady) 31).sends = .notReady ∧ (portOf (portWith .stopped .stopped) 31).sends = .stopped) := by
  decide +kernel

def panels_ (st : PanelSt) : State := setPanel 16383 { st := st, blocks := false, backing := 0x10000 } up

theorem test_hyps_BarTwoResizesWhileFree :
    linkUp up = true ∧ (∀ x ∈ up.window.panels, x.2.st = .free) ∧ (0 ≤ 10 ∧ 10 ≤ 10) ∧ linkUp State.reset = false ∧
    (∀ k, k ≤ 10 → 2097152 ≠ 1024 * 2 ^ k) ∧
    (panelOf (panels_ .host) 16383).st ≠ .free := by decide +kernel

theorem test_hyps_BarTwoAccessesFollowThePanel :
    (linkUp (panels_ .host) = true ∧ 16383 < (panels_ .host).window.size ∧ 65535 + 1 ≤ 65536 ∧
      (panelOf (panels_ .host) 16383).st = .host) ∧
    ((panelOf up 0).st = .free ∧ (panelOf (panels_ .device) 16383).st ≠ .host ∧ up.rings.dropped < 65535) := by decide +kernel

/-! The count and the tree. -/

/-- A job whose step 1 is sealed in the slot that ends. -/
def seal1 : Sealed :=
  { step := 1, at_ := 200, attempt := 1, lines := [], pairs := [], flags := [], parcels := 0, stores := 0, window := 0 }
def sealJob : State := { plainJob with job := { plainJob.job with slot := 4, sealed_ := some seal1 } }

/-- Table 6-3: a LANE_MARK has type 0x2D and 31 bytes 0xA5, an IDLE block type 0x1E and zeros. -/
theorem test_control_blocks :
    (fld laneMark 0 1, fld laneMark 1 8, fld laneMark 9 8, fld laneMark 249 8) = (0, 0x2D, 0xA5, 0xA5) ∧ idleBlock.toNat = 2 * 0x1E := by
  decide +kernel

/-- A frame on the wire of port 31. -/
def txFrame : TxFrame := { slotStart := 0, parcels := [(4, 7)], tail := 0 }
def framedPort : State := withPort 31 { Port.off with st := .trained, sends := .frames, sent := some txFrame } up

/-- A job in which tile `u` has reached its WATCH threshold by a residue mismatch of this slot. -/
def due (u : Nat) : State :=
  let s := withTile u { Tile.clear with moves := [0x0481] } plainJob
  { s with sec := { s.sec with health := [(u, { Health.zero with score := 255 })] } }

/-- A job whose next step has no window over tile 7, which is under test with one passed kernel. -/
def windowRun (held : List (Nat × Nat × KaOutcome)) : TestRun :=
  { unit := 7, stress := true, ka := 0, by_ := .window, failing := none, partialHeat := false, left := [0], ran := [1], cold := false,
    held := held }
def sealTest : State := { sealJob with sec := { sealJob.sec with test := some (windowRun [(1, 0, .pass)]) } }

theorem test_hyps_CountRisesAtEachBoundary :
    ((portOf framedPort 31).sends = .frames ∧ (portOf framedPort 31).sent = some txFrame ∧ inOrder txFrame = [7]) ∧
    (up.pacer.running = true ∧ running up = false ∧ State.reset.pacer.running = false) ∧
    (plainJob.pacer.running = true ∧ running plainJob = true ∧ plainJob.job.sealed_ = none) ∧
    (sealJob.job.sealed_ = some seal1 ∧ seal1.step = sealJob.job.step ∧ seal1.at_ = sealJob.bridle.count ∧ seal1.step < 2 ∧
      1 < stepTotal (reelA []) ∧ sealJob.job.faulted = false ∧ sealJob.job.notice = none ∧
      stepPlan (reelA []) (sealJob.job.step + 1) = some (0, 0) ∧ sealJob.bridle.parent = none) ∧
    (movers up = [] ∧ movers (due 5) = [5] ∧ (tileOf (due 5) 5).moves = [0x0481] ∧ unitSt (due 5) 5 = .active ∧
      watchAt (due 5) 5 ≤ (healthOf (due 5) 5).score ∧ running (due 5) = true ∧ (due 5).job.sealed_ = none) ∧
    (sealTest.job.sealed_ = some seal1 ∧ sealTest.sec.test.map (fun w => w.by_ == .window && !windowCovers (reelA []) w.unit 0) = some true ∧
      movers sealTest = [] ∧ unitSt sealTest 7 = .active) := by decide +kernel

/-- A follower on port 2. -/
def follower (st : SyncSt) (adopted root : Bool) : State :=
  { up with bridle := { up.bridle with st := st, parent := some 2, adopted := adopted, quiet := 1024, rootId := if root then 5 else 3,
                                       committed := { up.bridle.committed with root := root } } }
def fresh_ : State := { up with bridle := { Bridle.reset with committed := up.bridle.committed } }
def busyFollower : State := runs (reelA []) (follower .acquiring false false)

theorem test_hyps_SynchronisationIsTakenAndKept :
    ((follower .acquiring true false).pacer.running = true ∧ (follower .acquiring true false).bridle.st = .acquiring ∧
      (follower .acquiring true false).bridle.parent = some 2 ∧ (follower .acquiring true false).bridle.adopted = true ∧
      1024 ≤ (follower .acquiring true false).bridle.quiet ∧ (follower .acquiring true true).bridle.committed.root = true ∧
      (follower .acquiring true true).bridle.rootId = (follower .acquiring true true).bridle.committed.id) ∧
    ((follower .acquiring false false).bridle.adopted = false ∧ running (follower .acquiring false false) = false ∧
      armed (follower .acquiring false false) = false) ∧
    (running busyFollower = true ∧ busyFollower.bridle.st = .acquiring ∧ busyFollower.bridle.adopted = false) ∧
    (fresh_.bridle.st = .unsynced ∧ fresh_.bridle.committed.root = true ∧ fresh_.bridle.committed.idValid = true ∧
      idClash fresh_ = false ∧ rootClash fresh_ = false ∧ ownCandidate fresh_ = none ∧
      ∀ p, p < portCount fresh_ → (portOf fresh_ p).st ≠ .training ∧
        (portUp (portOf fresh_ p) = true → (portOf fresh_ p).tailSeen = true)) ∧
    (31 < portCount (portWith .training .train) ∧ (portOf (portWith .training .train) 31).st = .training) := by decide +kernel

/-- A tail at root 3, one hop from it, SYNCED, with PHASE 0, of package 3. -/
def tailAt3 (phase : Nat) : BitVec 992 :=
  BitVec.ofNat 992 (3 * 2 ^ 64 + 1 * 2 ^ 80 + 2 * 2 ^ 88 + 3 * 2 ^ 96 + 2 ^ 111 + phase * 2 ^ 112 + 63 * 2 ^ 144)

/-- A follower whose parent port is down, with or without another candidate on port 7. -/
def orphan (phase : Option Nat) : State :=
  let s := follower .synced true false
  match phase with
  | none => s
  | some m => withPort 7 { trainedPort with tail := some (tailAt3 m), tailAt := 200, tailSeen := true, phase := some 0 } s

/-- A follower whose one neighbour is 15 hops from root 3. -/
def farOff : State :=
  withPort 7 { trainedPort with tail := some (tailAt3 0 + 14 * 2 ^ 80), tailAt := 200, tailSeen := true, phase := some 0 } (orphan none)

def holdJob : State := { plainJob with bridle := { plainJob.bridle with st := .holdover } }
def markDue : State := { up with bridle := { up.bridle with markArmed := true,
                                                             committed := { up.bridle.committed with mark := 200 } } }

theorem test_hyps_ParentLossAndHoldover :
    ((orphan none).pacer.running = true ∧ (orphan none).bridle.parent = some 2 ∧ portUp (portOf (orphan none) 2) = false ∧
      (orphan none).bridle.committed.idValid = true ∧ (orphan none).bridle.committed.root = false ∧ idClash (orphan none) = false ∧
      firstParent (candidates (orphan none)) = none ∧ (orphan none).bridle.st = .synced) ∧
    (idClash (orphan (some 2000)) = false ∧ firstParent (candidates (orphan (some 2000))) = some (7, tailAt3 2000) ∧
      closeTo (orphan (some 2000)) 7 = true ∧ portUp (portOf (orphan (some 2000)) 2) = false) ∧
    (firstParent (candidates (orphan (some 2001))) = some (7, tailAt3 2001) ∧ closeTo (orphan (some 2001)) 7 = false ∧
      running (orphan (some 2001)) = false) ∧
    (allTooFar (orphan none) = false ∧ allTooFar farOff = true ∧ farOff.bridle.st = .synced ∧ running farOff = false ∧
      idClash farOff = false ∧ farOff.bridle.parent = some 2 ∧ portUp (portOf farOff 2) = false ∧
      running (runs (reelA []) farOff) = true ∧ (runs (reelA []) farOff).job.ownFault = none ∧ allTooFar (runs (reelA []) farOff) = true) ∧
    (holdJob.pacer.running = true ∧ holdJob.bridle.parent = none) ∧
    (holdJob.bridle.st = .holdover ∧ running holdJob = true ∧ holdJob.job.ownFault = none) ∧
    (markDue.pacer.running = true ∧ markDue.bridle.markArmed = true ∧
      markDue.bridle.committed.mark.toNat = markDue.bridle.count) := by decide +kernel

/-! Parcels and words. -/

/-- A crosspoint entry of port 0 of a line die at position 4, for tile 0's route 1 or for inbox entry 6 and event 2. -/
def txEntry : BitVec 256 := BitVec.ofNat 256 (3 + 4 * 2 ^ 16 + 1 * 2 ^ 40)
def rxEntry : BitVec 256 := BitVec.ofNat 256 (2 + 4 * 2 ^ 16 + 2 ^ 20 + 6 * 2 ^ 52 + 2 * 2 ^ 56)
def xpSec (n : Nat) (es : List (BitVec 256)) : Section_ :=
  section_ secXpoint (0x6000 + n) (es.length :: List.replicate 63 0) es

def gatherReel : Reel := reelA [tileSec 0, section_ secRoutes 0 [] routes, xpSec 1 [txEntry]]
def sendOut : OutEntry := { route := 1, pidx := 0, payload := 9, env := 0, prov := false, line := 16, cdue := 0, leaves := none }
def gatherJob (o : Sparse OutEntry) : State := withTile 0 { Tile.clear with outbox := o } (runs gatherReel up)

theorem test_hyps_ParcelsAreGathered :
    (gatherJob []).pacer.running = true ∧ 1 < (gatherJob []).ident.lineDies ∧ gatherPlan (gatherJob []) = some (gatherReel, 0, 0, 3) ∧
    gatherPlan (gatherJob [(0, sendOut)]) = some (gatherReel, 0, 0, 3) ∧ gatherReel.debug = false ∧
    txEntries gatherReel 16 0 0 3 = [txEntry] ∧ (∀ j, j < 32 → j / 16 = 1 → j ≠ 16 → txEntries gatherReel j 0 0 3 = []) ∧
    xKind txEntry = 0 ∧ routeAt gatherReel 0 0 1 = some (1 + 3 * 2 ^ 40) ∧
    outboxPlace (tileOf (gatherJob [(0, sendOut)]) 0) 1 0 = some 0 ∧
    find? 0 (tileOf (gatherJob [(0, sendOut)]) 0).outbox = some sendOut ∧ outboxPlace (tileOf (gatherJob []) 0) 1 0 = none := by
  decide +kernel

def rxReel : Reel := reelA [section_ secTopology ownPackage [] [topo 16 3 2], xpSec 1 [rxEntry]]
def rxJob : State := { runs rxReel up with ports := [(16, trainedPort)] }

/-- The package at the far end, two slots behind, and the frame that it sends. -/
def sender : State :=
  { rxJob with bridle := { up.bridle with count := 198, rootId := 5, hops := 1, parent := some 3,
                                          committed := { up.bridle.committed with id := 6, root := false } } }
def rxParcel : BitVec 2304 := depart sender 3 4 none (mkParcel 1 false false 0 0 6 2 0 0 7 99)
def rxFrame : Frame :=
  { late := false, slotStart := some (slotStartOf sender 16), positions := [(4, some rxParcel)], tail := some (tailOf sender 3),
    phase := 0, corrected := 0 }

set_option maxRecDepth 1000000 in
theorem test_hyps_ParcelsAreDelivered :
    (rxJob.pacer.running = true ∧ portPop rxJob 16 = true ∧ (portOf rxJob 16).st = .trained ∧ running rxJob = true ∧
      reelPort rxJob 16 = true ∧ haltedJob rxJob = false ∧ rxJob.job.notice = none ∧ rxJob.job.rewound + padClass rxJob 16 ≤ cnt rxJob) ∧
    (rxJob.bridle.st = .synced ∧ rxJob.bridle.parent = none ∧ rxJob.bridle.committed.root = true ∧
      tOwn (tailOf sender 3) ≠ selfId rxJob ∧ (selfId rxJob).toNat ≤ (tRoot (tailOf sender 3)).toNat ∧
      rxJob.ports.map (fun x => x.1) = [16]) ∧
    (tailOk (tailOf sender 3) = true ∧ tCount (tailOf sender 3) + padClass rxJob 16 = cnt rxJob ∧ tNotice (tailOf sender 3) = none ∧
      tDecision (tailOf sender 3) = none) ∧
    (slotStartOk (slotStartOf sender 16) = true ∧ ssJobTag (slotStartOf sender 16) = tagNow rxJob ∧
      marked (slotStartOf sender 16) = [4] ∧ parcelAt rxFrame 4 = some rxParcel ∧ parcelOk rxParcel = true ∧ pType rxParcel = 1 ∧
      pConfValid rxParcel = false ∧ pBlock rxParcel = false) ∧
    (expected rxJob 16 = [rxEntry] ∧ xPos rxEntry = 4 ∧ xKind rxEntry = 0 ∧ xUnit rxEntry < 1024 ∧
      misrouted rxJob 16 rxEntry rxParcel = false ∧ confirmDue rxJob (portOf rxJob 16) = none ∧
      find? (xEntry rxEntry) (tileOf rxJob 0).inbox = none ∧ eventOf (tileOf rxJob 0) (xEvent rxEntry) < 255) := by
  decide +kernel

theorem test_hyps_ParcelsOutsideAJob :
    (withPort 16 trainedPort up).pacer.running = true ∧ portPop up 16 = true ∧ framing (portOf (withPort 16 trainedPort up) 16) = true ∧
    running (withPort 16 trainedPort up) = false ∧ framing (portOf portJob 16) = true ∧ reelPort portJob 16 = true ∧
    (portJob.pacer.running = true ∧ running portJob = true ∧ framing (portOf portJob 17) = true ∧ reelPort portJob 17 = false ∧
      (portOf portJob 17).cls ≠ 0 ∧ (portOf (withPort 17 { trainedPort with st := .measuring, cls := 0 } portJob) 17).cls = 0 ∧
      framing (portOf (withPort 17 { trainedPort with st := .measuring, cls := 0 } portJob) 17) = true) := by decide +kernel

/-- A legal word of each opcode in slot 2: pages 1 to 16 hold, line 272 works. -/
def wordsA : List (Nat × Rec128) :=
  [(0x00, word 2 5 0x00 0 0 0 0 0 0 0), (0x01, word 2 5 0x01 0 0 0 0 0 3 2), (0x02, word 2 5 0x02 0 1023 0 0 0 15 0),
   (0x03, word 2 5 0x03 0 272 0 0 0 0 0), (0x04, word 2 5 0x04 6 0 16 0 0 0 0 + 2 ^ 94), (0x04, word 2 5 0x04 6 0 16 0 0 1 0 + 2 ^ 94),
   (0x10, word 2 5 0x10 0 272 1 0 0 0 0), (0x10, word 2 5 0x10 0 272 2 0 0 0 0), (0x01, word 2 5 0x01 0 0 0 0 0 3 3),
   (0x11, word 2 5 0x11 0 0 16 0 0 0 0), (0x11, word 2 5 0x11 0 0 16 0 0 0 1 + 2 ^ 93), (0x12, word 2 5 0x12 0 272 0 0 0 0 0),
   (0x13, word 2 5 0x13 1 0 16 0 0 0 0)]
def wordsB : List (Nat × Rec128) :=
  [(0x14, word 2 5 0x14 1 0 16 0 0 0 0), (0x15, word 2 5 0x15 6 0 16 0 0 0 0 + 2 ^ 94), (0x16, word 2 5 0x16 6 0 16 0 0 0 0),
   (0x20, word 2 5 0x20 0 16 32 160 0 0 0), (0x21, word 2 5 0x21 1 16 32 160 0 0 0), (0x22, word 2 5 0x22 2 16 96 160 0 0 0),
   (0x23, word 2 5 0x23 8 16 96 160 0 0 0), (0x24, word 2 5 0x24 5 16 96 160 0 0 0), (0x30, word 2 5 0x30 6 272 16 32 48 0 0),
   (0x31, word 2 5 0x31 5 272 16 32 0 0 0), (0x32, word 2 5 0x32 6 272 16 32 0 0 0), (0x33, word 2 5 0x33 6 272 16 32 0 0 0),
   (0x34, word 2 5 0x34 5 272 16 32 0 0 0), (0x35, word 2 5 0x35 2 272 16 0 0 4 0 + 2 ^ 94 + 4 * 2 ^ 95),
   (0x36, word 2 5 0x36 6 272 16 0 0 0 0), (0x37, word 2 5 0x37 6 272 16 0 0 0 0)]
def wordReel : Reel :=
  reelA [tileSec 0, section_ secRoutes 0 [] routes, section_ secBlocks 0 [] blocks, section_ secWindow 0 [] windows]

theorem test_hyps_PlainWordsIssue :
    (∀ x ∈ wordsA, readyToIssue (jobWord x.2) 0 wordReel x.2 [] x.1) ∧ (∀ x ∈ wordsB, readyToIssue (jobWord x.2) 0 wordReel x.2 [] x.1) ∧
    exitTaken (tileOf (jobWord 0) 0) (word 2 5 0x04 6 0 16 0 0 0 0) = true ∧
    exitTaken (tileOf (jobWord 0) 0) (word 2 5 0x04 6 0 16 0 0 1 0) = false ∧ wRnd (word 2 5 0x35 2 272 16 0 0 4 0) ≠ 4 := by
  unfold readyToIssue; decide +kernel

/-- Page 1 with -128 and page 2 with -1 and 1 in the first INT8 elements: their first sum leaves the range, a sum of zeros does not. -/
def sums (a b : LineBits) : State :=
  let w := word 2 5 0x31 5 272 16 32 0 0 0
  withTile 0 { tileOf (jobWord w) 0 with lines := [(16, { LineSt.zero with cur := { LineVal.zero with data := a } }),
    (32, { LineSt.zero with cur := { LineVal.zero with data := b } })] } (jobWord w)

theorem test_hyps_IntegerVectorResultsSaturateOnce :
    readyToIssue (sums 0x80 0xFF) 0 wordReel (word 2 5 0x31 5 272 16 32 0 0 0) [] 0x31 ∧ wFmt (word 2 5 0x31 5 272 16 32 0 0 0) = 5 ∧
    intAt 8 (operand (tileOf (sums 0x80 0xFF) 0) (.page 1) 16) 0 = -128 ∧
    intAt 8 (operand (tileOf (sums 0x80 0xFF) 0) (.page 1) 32) 0 = -1 ∧ saturated 8 (-128 + -1) ≠ -128 + -1 ∧
    saturated 8 (-128 + 1) = -128 + 1 ∧ operand (tileOf (jobWord 0) 0) (.page 1) 16 = 0 ∧
    operand (tileOf (jobWord 0) 0) (.page 1) 32 = 0 := by
  unfold readyToIssue; decide +kernel

theorem test_hyps_WaitAndReceiveTakeTheirInput :
    wImm (word 2 5 0x01 0 0 0 0 0 3 2) ≤ eventOf (tileOf (jobWord 0) 0) 3 ∧ eventOf (tileOf (jobWord 0) 0) 3 < wImm (word 2 5 0x01 0 0 0 0 0 3 3) ∧
    toldIn (jobWord 0) (tileOf (jobWord 0) 0) 5 = none ∧
    (find? 1 (tileOf (jobWord 0) 0).inbox).map (fun e => e.late) = some false ∧ find? 2 (tileOf (jobWord 0) 0).inbox = none := by
  decide +kernel

theorem test_hyps_SendPlacesAParcel :
    routeAt wordReel 0 0 0 = some (1 + 63 * 2 ^ 40) ∧ routeAt wordReel 0 0 1 = some (1 + 3 * 2 ^ 40) ∧
    sendEvsOn (jobWord 0) wordReel 0 (tileOf (jobWord 0) 0) (1 + 63 * 2 ^ 40) (word 2 5 0x11 0 0 16 0 0 0 0) = [] ∧
    sendEvsOn (jobWord 0) wordReel 0 (tileOf (jobWord 0) 0) (1 + 3 * 2 ^ 40) (word 2 5 0x11 0 0 16 0 0 0 1 + 2 ^ 93) = [] := by
  decide +kernel

/-- A tile with a SEND of line 24 on route `i` before it, its line and outbox as given; route 2 is an outbound block route, route 3
an inbound one. -/
def sendReel : Reel :=
  reelA [tileSec 0, section_ secRoutes 0 [] (routes ++ [1 + 3 * 2 ^ 40 + 2 ^ 27, 1 + 3 * 2 ^ 40 + 2 ^ 28]),
    section_ secBlocks 0 [] blocks, section_ secWindow 0 [] windows]
def sendOf (i : Nat) : Rec128 := word 2 5 0x11 0 0 24 0 0 0 i
def sending (i : Nat) (v : LineVal) (o : Sparse OutEntry) : State :=
  withTile 0 { Tile.clear with todo := [sendOf i], outbox := o, lines := [(24, { LineSt.zero with cur := v })] } (runs sendReel up)

theorem test_hyps_SendIsRefused :
    (routeAt sendReel 0 0 2).map (fun e => (rBlock e, rInbound e, rPort e)) = some (true, false, 3) ∧
    (routeAt sendReel 0 0 3).map (fun e => (rBlock e, rInbound e)) = some (false, true) ∧
    readyToIssue (sending 1 { LineVal.zero with pdue := 2 } []) 0 sendReel (sendOf 1) [] 0x11 ∧
    pdueUp (sending 1 { LineVal.zero with pdue := 2 } []) 2 = true ∧ pdueUp (sending 1 LineVal.zero []) 0 = false ∧
    tagUp 2 2 = true ∧ wE (sendOf 1) = false ∧
    8 ≤ (tileOf (sending 1 LineVal.zero ((List.range 8).map (fun k => (k, sendOut)))) 0).outbox.length ∧
    readyToIssue (sending 2 { LineVal.zero with side := 1 } []) 0 sendReel (sendOf 2) [] 0x11 ∧
    wSrcA (sendOf 2) % 16 = 8 ∧ pageBad (tileOf (sending 2 { LineVal.zero with side := 1 } []) 0) 16 = true ∧
    (routeAt sendReel 0 0 2).map (fun e => orderBroken (tileOf (sending 2 LineVal.zero []) 0) e (sendOf 2)) = some false ∧
    (routeAt sendReel 0 0 2).map (fun e => inRegions (jobRegions (sending 2 LineVal.zero []) sendReel 0) (sendLines e (sendOf 2))) =
      some true ∧
    sendLines 0 (sendOf 3) = [24] ∧ staleLine (jobRegions (sending 3 LineVal.zero []) sendReel 0) (tileOf (sending 3 LineVal.zero []) 0) 24 =
      false := by
  unfold readyToIssue; decide +kernel

/-- A mover request that waits for its service and its retirement in the given slots. -/
def req (kind : MoveKind) (serve retire : Nat) (entry : Rec128) (blk : Option Blk) (complete : Bool) : MoveReq :=
  { kind := kind, entry := entry, page := 272, serve := serve, retire := retire, served := complete, complete := complete,
    uncorr := false, blk := blk, slot := 1, token := 5 }

/-- The tile with two requests in its mover. -/
def fullMover : State :=
  let w := word 2 5 0x12 0 272 0 0 0 0 0
  withTile 0 { tileOf (jobWord w) 0 with mover := [req .bld 2 3 0 none false, req .bwr 2 3 0 none false] } (jobWord w)

theorem test_hyps_BlockMovesEnterTheMover :
    blockAt wordReel 0 0 0 = some (0x10000000 + 6 + 0x77 * 2 ^ 64) ∧ windowAt wordReel 0 0 0 = some (0x55 * 2 ^ 64) ∧
    (tileOf (jobWord 0) 0).mover.length < 2 ∧ bFar (0x10000000 + 6 + 0x77 * 2 ^ 64) = false ∧
    bPaired (0x10000000 + 6 + 0x77 * 2 ^ 64) = true ∧
    escapes (jobWord 0) false (tileOf (jobWord 0) 0) (srcLines (word 2 5 0x13 1 0 16 0 0 0 0)) = false ∧
    pageBad (tileOf (jobWord 0) 0) 16 = false ∧ 2 ≤ (tileOf fullMover 0).mover.length ∧
    readyToIssue fullMover 0 wordReel (word 2 5 0x12 0 272 0 0 0 0 0) [] 0x12 ∧ (tileOf fullMover 0).told = (0, 0, 0) := by
  unfold readyToIssue; decide +kernel

/-- A BST of page 1 whose line 24 has the given value. -/
def storing_ (v : LineVal) : State :=
  withTile 0 { Tile.clear with todo := [word 2 5 0x13 1 0 16 0 0 0 0], lines := [(24, { LineSt.zero with cur := v })] } (runs wordReel up)

theorem test_hyps_PagesThatDoNotMove :
    readyToIssue (storing_ { LineVal.zero with cdue := 2 }) 0 wordReel (word 2 5 0x13 1 0 16 0 0 0 0) [] 0x13 ∧
    24 ∈ srcLines (word 2 5 0x13 1 0 16 0 0 0 0) ∧ tagUp 2 (readLine (tileOf (storing_ { LineVal.zero with cdue := 2 }) 0) 24).cdue = true ∧
    readyToIssue (storing_ { LineVal.zero with side := 1 }) 0 wordReel (word 2 5 0x13 1 0 16 0 0 0 0) [] 0x13 ∧
    pageBad (tileOf (storing_ { LineVal.zero with side := 1 }) 0) 16 = true ∧
    (∀ l ∈ srcLines (word 2 5 0x13 1 0 16 0 0 0 0),
      pdueUp (storing_ { LineVal.zero with side := 1 }) (readLine (tileOf (storing_ { LineVal.zero with side := 1 }) 0) l).pdue = false ∧
      tagUp 2 (readLine (tileOf (storing_ { LineVal.zero with side := 1 }) 0) l).cdue = false) ∧
    bPaired (0x10000000 + 6 + 0x77 * 2 ^ 64) = true ∧ bFar (0x10000000 + 6 + 0x77 * 2 ^ 64) = false ∧
    toldIn (storing_ LineVal.zero) (tileOf (storing_ LineVal.zero) 0) 5 = none := by
  unfold readyToIssue; decide +kernel

/-- A strict job whose tile has an EXIT_IF to issue. -/
def strictExit : State :=
  { jobWord (word 2 5 0x04 6 0 16 0 0 0 0 + 2 ^ 94) with reel := some { wordReel with strict := true } }

theorem test_hyps_IllegalWordsFaultTheJob :
    (mayIssue (jobWord (word 2 5 0x31 5 273 16 32 0 0 0)) 0 = true ∧ fieldsOk (word 2 5 0x31 5 273 16 32 0 0 0) = false ∧
      (tileOf (jobWord (word 2 5 0x31 5 273 16 32 0 0 0)) 0).todo = [word 2 5 0x31 5 273 16 32 0 0 0]) ∧
    (fieldsOk (word 2 5 0x31 5 528 16 32 0 0 0) = true ∧ operandsOk (1, 16, 16) (word 2 5 0x31 5 528 16 32 0 0 0) = false ∧
      jobRegions (jobWord 0) wordReel 0 = (1, 16, 16)) ∧
    mayIssue fullMover 1024 = false ∧
    (operandsOk (1, 16, 16) (word 2 5 0x31 5 16 272 32 0 0 0) = true ∧
      staleLine (1, 16, 16) (tileOf (jobWord 0) 0) 272 = true ∧ 272 ∈ srcLines (word 2 5 0x31 5 16 272 32 0 0 0)) ∧
    (mayIssue strictExit 0 = true ∧ (tileOf strictExit 0).todo = [word 2 5 0x04 6 0 16 0 0 0 0 + 2 ^ 94] ∧
      fieldsOk (word 2 5 0x04 6 0 16 0 0 0 0 + 2 ^ 94) = true ∧ wV (word 2 5 0x04 6 0 16 0 0 0 0 + 2 ^ 94) = true ∧
      (strictExit.reel.map (fun r => r.strict)) = some true) := by
  decide +kernel

theorem test_a_new_tile_has_told_nothing (token : Nat) : toldIn (jobWord 0) (tileOf (jobWord 0) 0) token = none := by
  unfold toldIn; exact if_neg (fun h => h.2.2 rfl)

/-! Deadlines, checks and the step's life. -/

/-- An operation that writes line 272 (or a hold line) and ends in slot 2. -/
def flight_ (line : Nat) (eff : OpEffect) : Flight :=
  { word := word 2 5 0x31 5 272 16 32 0 0 0, last := 2 * 64 + 63, results := [(line, { LineVal.zero with pdue := 2 })], flags := 32,
    effect := eff, checked := true, srcBad := false, pastStep := false }
def inTile (t : Tile) : State := withTile 0 t (jobWord 0)
def flying (line : Nat) (eff : OpEffect) : State := inTile { Tile.clear with flight := some (flight_ line eff) }

/-- Tile 0 with a Ballast operation of a kernel in it. -/
def held (ka : BitVec 8) (s : State) : State := { s with power := { s.power with ballast := [(0, ka)] } }

theorem test_hyps_OperationsEndAtTheirDeadline :
    running (flying 272 .nothing) = true ∧ (tileOf (flying 272 .nothing) 0).flight = some (flight_ 272 .nothing) ∧
    (flight_ 272 .nothing).last / 64 = (flying 272 .nothing).job.slot ∧ ((flight_ 16 .clearFlags).results.map (fun x => x.1)).Nodup ∧
    isHold (regionsNow (flying 16 .clearFlags) 0) 16 = true ∧ isHold (regionsNow (flying 16 .clearFlags) 0) 272 = false ∧
    (flight_ 16 .clearFlags).effect = .clearFlags ∧ (flight_ 16 (.send sendOut)).effect = .send sendOut ∧
    (flight_ 16 (.freeEntry 15)).effect = .freeEntry 15 ∧ (flight_ 16 (.signal 512 3)).effect = .signal 512 3 ∧
    (flying 16 .nothing).job.slot ≤ (flying 16 .nothing).bridle.count ∧
    ((2 * 64 - 1) + 1) / 64 = (flying 16 .nothing).job.slot ∧
    (flight_ 16 .nothing).pastStep = false ∧ freePlace (tileOf (flying 16 .nothing) 0) = 0 ∧
    (overdue 2 (tileOf (flying 16 .nothing) 0)).map (fun f => f.pastStep) = some true ∧
    engineHeld (flying 272 .nothing) 0 (flight_ 272 .nothing) = false ∧
    engineHeld (held 3 (flying 272 .nothing)) 0 (flight_ 272 .nothing) = true ∧
    engineHeld (held 1 (flying 272 .nothing)) 0 (flight_ 272 .nothing) = false := by decide +kernel

/-- Checks of slot 2, one good and one bad; two shadowed operations whose comparison is due in slot 4. -/
def checking (bad : Bool) : State := inTile { Tile.clear with checks := [{ slot := 2, lines := [16], bad := bad }] }
def shadowTile (u : Nat) : Section_ :=
  { tileSec u with recs := [BitVec.ofNat 256 (word 1 5 0x31 5 272 16 32 0 0 0).toNat, BitVec.ofNat 256 (2 ^ 92 + 4 * 2 ^ 116)],
                   aux := [1, 16, 16, 2, 0] ++ List.replicate 63 0xFFFF }
def shEntry : BitVec 256 := BitVec.ofNat 256 (1 + 5 * 2 ^ 12 + 1 * 2 ^ 21 + 5 * 2 ^ 33 + 7 * 2 ^ 39)
def shReel : Reel := reelA [shadowTile 0, shadowTile 7, section_ secShadow 0 [] [shEntry]]
def shJob (y : LineBits) : State :=
  let s := runs shReel up
  { s with job := { s.job with slot := 3 }, shadowed := [(0, 1, 5, [1]), (7, 1, 5, [y])] }

theorem test_hyps_ChecksCompleteTwoSlotsOn :
    ((tileOf (checking true) 0).checks.filter (fun c => c.slot == 2 && !c.lines.isEmpty) = [{ slot := 2, lines := [16], bad := true }] ∧
      (checking true).job.slot = 2 ∧ running (checking false) = true ∧
      toldIn (checking true) (tileOf (checking true) 0) 63 = none) ∧
    ((shadowTable shReel 0 0)[0]? = some shEntry ∧ groupHead 0 + shPPos shEntry = 0 ∧ groupHead 0 + shSPos shEntry = 7 ∧
      shadowResult (shJob 1) 0 1 5 = some [1] ∧ shadowResult (shJob 2) 7 1 5 = some [2] ∧ doneAt (shJob 1) shReel 0 1 5 = some 1 ∧
      doneAt (shJob 1) shReel 7 1 5 = some 1 ∧ max 1 1 + 2 = (shJob 1).job.slot ∧
      toldIn (shJob 2) (tileOf (shJob 2) 0) 63 = none) := by decide +kernel

/-- A tile that told of ENVELOPE_BAD in the last token of the slot, and whose check now fails in it. -/
def retelling : State :=
  let s := inTile { Tile.clear with checks := [{ slot := 2, lines := [16], bad := true }],
                                    told := (cnt (jobWord 0), 63, 0x0483), detected := true,
                                    rose := (true, true), moves := [0x0483] }
  { s with sec := { s.sec with totals := { Totals.zero with detect := 1, env := 1 } } }

theorem test_hyps_lower_code_retold :
    toldIn retelling (tileOf retelling 0) 63 = some 0x0483 ∧ 0 < retelling.sec.totals.detect ∧ retelling.job.slot = 2 ∧
    running retelling = true := by decide +kernel

/-- The worked example of R92: 1.0 + 1.0, whose residues are 48 each (0x3FF0 in the two highest bytes), gives 2.0 of residue 64. -/
theorem test_predicted_sum :
    elemRes 0 1023 0 = 48 ∧ predictAdd 48 0 1023 48 0 1023 0 false 1 0 0 0 1024 = 64 := by decide

/-- A debug job whose annex expects an event value of 2 on input 3 of tile 0 from slot 1 of pattern 0 on. -/
def hzReel : Reel :=
  { reelA [tileSec 0, section_ secHazard 0 [] [BitVec.ofNat 256 (1 + 3 * 2 ^ 18 + 3 * 2 ^ 20 + 2 * 2 ^ 32)]] with debug := true }
def hzJob (vent n : Nat) : State :=
  let s := withTile 0 { Tile.clear with events := [(3, n)] } (runs hzReel up)
  { s with pacer := { s.pacer with vent := vent } }

theorem test_hyps_DebugJobsAreHeldToTheAnnex :
    (running (hzJob 32 2) = true ∧ hzReel.debug = true ∧ 32 ≤ (hzJob 32 2).pacer.vent ∧ (hzJob 32 2).job.notice = none ∧
      (hzJob 32 2).tiles.map (fun x => x.1) = [0] ∧
      hazParts.all (fun x => hazExpected (recsOf hzReel secHazard 0 0) 0 2 x.1 x.2 == hazActual 2 (tileOf (hzJob 32 2) 0) x.1 x.2) = true ∧
      recsOf hzReel secHazard 1 0 = []) ∧
    (hazards hzReel (hzJob 32 1) = [(0, 3, 3, 2, 1)] ∧ (hzJob 32 1).job.ownFault = none ∧
      toldIn (hzJob 32 1) (tileOf (hzJob 32 1) 0) 63 = none ∧ (hzJob 32 1).job.detected = false ∧
      (markDetected (hzJob 32 1)).job.detected = true ∧ running (markDetected (hzJob 32 1)) = true) ∧
    (hzJob 31 1).pacer.vent < 32 := by decide +kernel

theorem test_hyps_SparseDataStaysCanonical :
    (∀ u l, canonical LineSt.zero (tileOf up u).lines = true ∧ canonical false (memOf up l).mark = true) ∧
    canonical Tile.clear (jobWord 0).tiles = true ∧ canonical Port.off portJob.ports = true ∧
    ∃ t : State, step { up with pending := [.ref10mLoss] } = .next t :=
  ⟨fun _ _ => ⟨rfl, rfl⟩, by decide +kernel, by decide +kernel, _, rfl⟩

/-- A job at its commit point, with a written hold line and a written pair, or with an inbox entry left. -/
def atCommit (left : Bool) : State :=
  let s := inTile { Tile.clear with
    lines := [(16, { LineSt.zero with nxt := { LineVal.zero with data := 5 }, mark := true })]
    inbox := if left then [(0, { late := false, at_ := 1, data := 0, side := 0, pdue := 0 })] else [] }
  { setMem 0 { Stack.off with st := .trained, mark := [(6, true)] } s with job := { s.job with slot := 4 } }

theorem test_sparseOk_atCommit : sparseOk (atCommit false) := by
  refine ⟨by decide +kernel, by decide +kernel, by decide +kernel, fun u => ?_, fun k => ?_⟩
  · by_cases h : u = 0
    · subst h; decide +kernel
    · have h0 : (0 == u) = false := by simpa using Ne.symm h
      have : tileOf (atCommit false) u = Tile.clear := by
        show look Tile.clear u [(0, _)] = _
        simp [look, find?, h]
      rw [this]; rfl
  · by_cases h : k = 0
    · subst h; decide +kernel
    · have : memOf (atCommit false) k = Stack.off := by
        show look Stack.off k [(0, _)] = _
        simp [look, find?, h]
      rw [this]; exact ⟨rfl, rfl⟩

theorem test_hyps_StepsSealAtTheCommitPoint :
    (plainJob.pacer.running = true ∧ running plainJob = true ∧ plainJob.job.slot ≠ curCommit plainJob) ∧
    ((atCommit false).job.slot = curCommit (atCommit false) ∧ (atCommit false).job.sealed_ = none ∧ (atCommit false).job.notice = none ∧
      (atCommit false).tiles.all (fun x => x.2.inbox.isEmpty && x.2.events.isEmpty && x.2.mover.isEmpty && x.2.outbox.isEmpty) = true) ∧
    ((tileOf (atCommit true) 0).inbox ≠ [] ∧ (atCommit true).job.ownFault = none ∧ (atCommit true).job.slot = curCommit (atCommit true) ∧
      (atCommit true).tiles.all (fun x => x.2.told == (0, 0, 0)) = true) := by decide +kernel

/-- A sealed step ten slots on, with a BWR block of it staged. -/
def stagedBlk : StageBlk :=
  { start := 198, step := 1, attempt := 1, slot := 1, token := 5, unit := 0, kind := .bwr, index := 0, entry := 0x55 * 2 ^ 64,
    blk := Blk.scrubbed, released := false, awaited := [] }
def sealedAt (count : Nat) (stage : List StageBlk) : State :=
  let s := setPanel 0 { st := .device, blocks := true, backing := 0x900000 } sealJob
  { s with bridle := { s.bridle with count := count }, window := { s.window with stage := stage } }

theorem test_hyps_SealedStepsBecomeFinal :
    ((sealedAt 209 []).job.sealed_ = some seal1 ∧ (sealedAt 209 []).bridle.count ≠ seal1.at_ + 2 * diam (sealedAt 209 []) + 8 ∧
      (sealedAt 210 []).bridle.count = seal1.at_ + 2 * diam (sealedAt 210 []) + 8 ∧ (sealedAt 210 []).job.notice = none) ∧
    ((sealedAt 210 [stagedBlk]).window.stage = [stagedBlk] ∧ stagedBlk.step ≤ seal1.step ∧
      ownsPanels (sealedAt 210 [stagedBlk]) stagedBlk = true ∧ nProv stagedBlk.entry = false) ∧
    canonical Tile.clear (sealedAt 210 []).tiles = true ∧ (sealedAt 210 []).tiles = [] ∧ (sealedAt 210 []).mems = [] := by
  decide +kernel

/-- A held notice. -/
def notice_ (fault final : Bool) (applyAt : Nat) : Notice :=
  { final := final, fault := fault, attempt := if final then 3 else 1, index := 0xFF, origin := 5, code := 0x0481, unit := 0, step := 1,
    detect := 190, applyAt := applyAt, token := 63 }
def noticed (n : Notice) (x : Option Sealed) : State :=
  { plainJob with job := { plainJob.job with notice := some n, sealed_ := x } }
def seal2 : Sealed := { seal1 with lines := [(0, 16)], pairs := [(0, 6)], flags := [(0, 3)] }

theorem test_hyps_RewindRestartsTheStep :
    (noticed (notice_ false false 201) none).job.notice = some (notice_ false false 201) ∧
    (notice_ false false 201).applyAt ≠ (noticed (notice_ false false 201) none).bridle.count ∧
    (notice_ false false 200).applyAt = (noticed (notice_ false false 200) none).bridle.count ∧
    (notice_ false false 200).fault = false ∧ (notice_ false false 200).final = false ∧ stepPlan (reelA []) 1 = some (0, 0) ∧
    (noticed (notice_ false false 200) none).job.sealed_ = none ∧ seal2.step = (notice_ false false 200).step ∧ seal2.lines.Nodup ∧
    seal2.pairs.Nodup ∧ (seal2.flags.map (fun y => y.1)).Nodup ∧ (noticed (notice_ false false 200) none).tiles = [] ∧
    windowCovers (reelA []) (windowRun []).unit 0 = false ∧ (windowRun []).by_ = .window := by
  decide +kernel

/-- An armed launch, and a job whose steps are all final. -/
def armedFor (n : Nat) (fence : Option UnitField) : State :=
  { up with reel := some (reelA []), job := { Job.none with st := .armed, start := n, fenceNow := fence } }
def lastFinal (abandoned : Bool) : State := { plainJob with job := { plainJob.job with final := 2, abandoned := abandoned } }

/-- No test runs, or one by window that holds nothing back. -/
theorem test_noHeld : noHeld plainJob ∧ noHeld (armedFor 300 none) ∧
    noHeld { plainJob with sec := { plainJob.sec with test := some (windowRun []) } } :=
  ⟨fun _ h => (Option.some_ne_none _ h.symm).elim, fun _ h => (Option.some_ne_none _ h.symm).elim,
   fun _ h _ => by cases h; rfl⟩

theorem test_hyps_JobsStartAndEnd :
    (armed (armedFor 200 none) = true ∧ stepPlan (reelA []) 1 = some (0, 0) ∧ (armedFor 201 none).job.start ≠ (armedFor 201 none).bridle.count ∧
      (armedFor 200 none).job.start = (armedFor 200 none).bridle.count ∧ (armedFor 200 (some 7)).job.fenceNow = some 7) ∧
    (running (noticed (notice_ true false 200) none) = true ∧ (notice_ true false 200).fault = true ∧
      (notice_ false true 200).final = true ∧ (noticed (notice_ true false 200) none).store.set.units = [] ∧
      firstOut (noticed (notice_ true false 200) none) = none) ∧
    (running (lastFinal true) = true ∧ (lastFinal true).job.notice = none ∧ (lastFinal true).job.sealed_ = none ∧
      windowDrained (lastFinal true) = true ∧ (lastFinal false).job.final = stepTotal (reelA []) ∧
      windowDrained (sealedAt 210 [stagedBlk]) = false) := by decide +kernel

/-! Memory and the window. -/

def moving (q : MoveReq) : State :=
  setMem 0 { Stack.off with st := .trained } (inTile { Tile.clear with mover := [q] })
def nearPair : Rec128 := 0x10000000 + 6 + 0x77 * 2 ^ 64

theorem test_hyps_BlockMovesServe :
    findMove (fun q => !q.served && q.serve == 2) (tileOf (moving (req .bld 2 3 nearPair none false)) 0).mover =
      some (0, req .bld 2 3 nearPair none false) ∧
    loadBlock (moving (req .bld 2 3 nearPair none false)) nearPair < 25165824 ∧ (memOf (moving (req .bld 2 3 nearPair none false)) 0).st = .trained ∧
    findMove (fun q => !q.served && q.serve == 2) (tileOf (moving (req .bst 2 3 nearPair (some Blk.scrubbed) false)) 0).mover =
      some (0, req .bst 2 3 nearPair (some Blk.scrubbed) false) ∧
    sideBlock (moving (req .bst 2 3 nearPair (some Blk.scrubbed) false)) 0 6 true = 7 ∧
    findMove (fun q => !q.served && q.serve == 2) (tileOf (moving (req .gacc 2 3 0 (some Blk.scrubbed) false)) 0).mover =
      some (0, req .gacc 2 3 0 (some Blk.scrubbed) false) ∧
    findMove (fun q => !q.served && q.serve == 2) (tileOf (moving (req .bst 2 3 nearPair none false)) 0).mover =
      some (0, req .bst 2 3 nearPair none false) ∧
    toldIn (moving (req .bld 2 3 nearPair none false)) (tileOf (moving (req .bld 2 3 nearPair none false)) 0) 63 = none := by
  decide +kernel

def zeroEnv : Blk := { payload := 0, env := 0 }

set_option maxRecDepth 1000000 in
theorem test_hyps_BlockMovesRetire :
    findMove (fun q => q.retire == 2) (tileOf (moving (req .bld 1 2 0 (some Blk.scrubbed) true)) 0).mover =
      some (0, req .bld 1 2 0 (some Blk.scrubbed) true) ∧
    loadOk (moving (req .bld 1 2 0 (some Blk.scrubbed) true)) 0 Blk.scrubbed = true ∧
    loadOk (moving (req .bld 1 2 0 (some zeroEnv) true)) 0 zeroEnv = false ∧
    findMove (fun q => q.retire == 2) (tileOf (moving (req .bst 1 2 nearPair none false)) 0).mover =
      some (0, req .bst 1 2 nearPair none false) ∧
    findMove (fun q => q.retire == 2) (tileOf (moving (req .gtree 1 2 0 none true)) 0).mover = some (0, req .gtree 1 2 0 none true) := by
  decide +kernel

/-- A far-fill of block 9 of stack 0 from home 16 (panel 1, slot 1) in slot 2 of step 1, which is also the first input. -/
def farRec : BitVec 256 := BitVec.ofNat 256 (1 + 2 * 2 ^ 32 + 9 * 2 ^ 48 + 16 * 2 ^ 80)
def inRec : BitVec 256 := BitVec.ofNat 256 (0x66 + 9 * 2 ^ 64 + 2 ^ 93 + 16 * 2 ^ 96)
def farReel : Reel := reelA [section_ secFarFill ownPackage [] [farRec], section_ secInputs ownPackage [] [inRec]]
def farJob (st : PanelSt) (held : Sparse Blk) : State :=
  let s := setMem 0 { Stack.off with st := .trained } (setPanel 1 { st := st, blocks := true, backing := 0x910000 } (runs farReel up))
  { s with far := { held := held, written := [] } }

theorem test_hyps_FarTierAndLostStacks :
    (devicePanel (farJob .device []) (16 / 15) = true ∧ pkgRecs farReel secFarFill = [farRec] ∧ fHome farRec = 16) ∧
    (running (farJob .device []) = true ∧ fBlock farRec < 25165824 ∧ fStep farRec = 1 ∧ fSlot farRec = (farJob .device []).job.slot ∧
      find? 16 (farJob .device [(16, Blk.scrubbed)]).far.held = some Blk.scrubbed ∧ find? 16 (farJob .device []).far.held = none ∧
      (pkgRecs farReel secInputs)[(farJob .device []).det.leaves.length]? = some inRec ∧ fills inRec farRec = true ∧
      devicePanel (farJob .moving []) (16 / 15) = false) ∧
    fSlot farRec ≠ plainJob.job.slot + 1 ∧
    (stackPop (farJob .device []) 0 = true ∧ (memOf (farJob .device []) 0).st = .trained ∧
      running (setMem 7 { Stack.off with st := .trained } up) = false) := by decide +kernel

/-- A sound block of zeros at generation 1 in INT32, under TAG 0x55. -/
def zeroBlk : Blk :=
  { payload := 0, env := 23656517118558644781841603939169433483675782859840597666977518390419933184393#256 }
def gaccBlk : StageBlk := { stagedBlk with kind := .gacc, blk := zeroBlk, released := true }
def adding (sound locked : Bool) : State :=
  let s := setPanel 0 { st := .device, blocks := true, backing := 0x900000 } plainJob
  let s1 := { s with window := { s.window with gaccs := [gaccBlk] } }
  let s2 := if sound then hostWrite 0x90F000 (envBytes zeroBlk.env) s1 else s1
  if locked then hostWrite 0x90FA00 [1] s2 else s2

set_option maxRecDepth 1000000 in
theorem test_hyps_AdditionsUnderALock :
    (adding true true).stop.stopped = false ∧ (adding true true).window.gaccs[0]? = some gaccBlk ∧
    ofLe (readBytes (hostMem (adding true true)) (lockAddr (adding true true) 0) 8) ≠ 0 ∧ nTarget gaccBlk.entry = 0 ∧
    ofLe (readBytes (hostMem (adding true false)) (lockAddr (adding true false) 0) 8) = 0 ∧
    envSound (slotEnv (adding true false) 0) (List.replicate 4096 0) = true ∧ eFmt gaccBlk.blk.env = 6 ∧
    slotEnv (adding false false) 0 = 0 ∧ envSound 0 (List.replicate 4096 0) = false ∧ gaccBlk.start = (adding true true).job.start := by
  decide +kernel

/-- A tree of one leaf in slot 1 for the target in slot 0, step 1; a take whose panel waits for it. -/
def treeEntry : Rec128 := 2 ^ 60 + 0x55 * 2 ^ 64
def tree_ : Tree := { start := 198, step := 1, index := 0, entry := treeEntry, fmt := 6 }
def treeUp (present : Bool) (st : PanelSt) : State :=
  let s := setPanel 0 { st := st, blocks := true, backing := 0x900000 } plainJob
  let s1 := { s with window := { s.window with trees := [tree_], waiting := [{ tree_ with index := 1 }],
                                               takes := [{ tag := 1, irq := false, sq := 0, first := 0, count := 1 }] } }
  if present then hostWrite 0x90F020 (envBytes zeroBlk.env) s1 else s1

set_option maxRecDepth 1000000 in
theorem test_hyps_TreesAndMovingPanels :
    (treeUp true .device).stop.stopped = false ∧ (treeUp true .device).window.trees[0]? = some tree_ ∧ nLeaves treeEntry = 1 ∧
    (nLeaf treeEntry 0, nTarget treeEntry) = (1, 0) ∧ slotEnv (treeUp true .device) 1 = zeroBlk.env ∧
    leafReady 1 zeroBlk = true ∧ slotEnv (treeUp false .device) 1 = 0 ∧ leafReady 1 { payload := 0, env := 0 } = false ∧ tree_.fmt = 6 ∧
    panelPending (treeUp true .moving) 0 = true ∧ (panelOf (treeUp true .moving) 0).st = .moving ∧
    (treeUp true .moving).window.takes.length = 1 ∧ panelPending plainJob 0 = false := by decide +kernel

/-! Descriptors. -/

def after (k : Nat) (v : Nat) : Nat := v * 2 ^ k

theorem test_hyps_RecordsFollowDescriptors :
    (canStart up = true ∧ dOp (desc 0 (after 32 9)) = 0 ∧ bareOk (desc 0 (after 32 9)) = true ∧ up.rings.due = [] ∧
      up.rings.committed.cq.toNat + 32 * (up.rings.cqTail.toNat % 2 ^ up.rings.committed.szCq.toNat) + 32 ≤
        up.rings.committed.db.toNat + 64) ∧
    bareOk (desc 0 (after 511 1)) = false ∧ 0x0C ≤ dOp (desc 0x0C 0) ∧ 0x0C ≤ dOp (desc 0xFF 0) ∧
    (dOp (desc 3 0) = 3 ∧ bareOk (desc 3 0) = true ∧ up.reel = none ∧ plainJob.reel.isSome = true ∧ jobBusy plainJob = true ∧
      canStart plainJob = true ∧ ({ up with reel := some (reelA []) } : State).reel.isSome = true ∧ jobBusy up = false) ∧
    canStart State.reset = false := by decide +kernel

theorem test_hyps_ClearOfARunningPackage :
    canStart up = true ∧ dOp (desc 0x0B 0) = 0x0B ∧ bareOk (desc 0x0B 0) = true ∧ up.stop.stopped = false := by decide +kernel

/-- A LAUNCH_AT for count 217, the first that is not late at count 200, and for 216. -/
def launchAt (n : Nat) : BitVec 512 := desc 7 (after 64 n)
def unsyncedReel : State := { bridleStaged 5 (some (reelA [])) with bridle := Bridle.reset }

theorem test_hyps_LaunchAtIsCheckedInOrder :
    canStart up = true ∧ dOp (launchAt 217) = 7 ∧ headOk (launchAt 217) false = true ∧ zeros (launchAt 217) 128 384 = true ∧
    up.stop.stopped = false ∧ up.reel = none ∧ (plainJob.reel.isSome = true ∧ plainJob.job.st ≠ .idle) ∧
    (unsyncedReel.reel.isSome = true ∧ unsyncedReel.job.st = .idle ∧ unsyncedReel.bridle.st ≠ .synced ∧ canStart unsyncedReel = true) ∧
    ((bridleStaged 5 (some (reelA []))).bridle.st = .synced ∧ fld (launchAt 216) 64 64 ≤ (bridleStaged 5 (some (reelA []))).bridle.count + 16 ∧
      (bridleStaged 5 (some (reelA []))).bridle.count + 16 < fld (launchAt 217) 64 64) := by decide +kernel

/-- A stopped package whose cause is gone, and one on the bound of each. -/
def stoppedAt (mv : Nat) (t : Int) : State :=
  { stoppedUp with tray := { stoppedUp.tray with vin48 := mv, tMax := t }, mems := [(3, { Stack.off with st := .selfRefresh })] }

theorem test_hyps_CancelAndClear :
    (canStart up = true ∧ dOp (desc 8 0) = 8 ∧ bareOk (desc 8 0) = true ∧ up.job.st = .idle ∧ (armedFor 300 none).job.st = .armed ∧
      canStart (armedFor 300 none) = true ∧ plainJob.job.st = .running ∧ plainJob.store.set.units = [] ∧ firstOut plainJob = none ∧
      firstOut (armedFor 300 none) = none) ∧
    (canStart stoppedUp = true ∧ stoppedUp.stop.stopped = true ∧ (stoppedAt 48000 95).tray.tMax = 95 ∧ (stoppedAt 39999 0).tray.vin48 < 40000 ∧
      59500 < (stoppedAt 59501 0).tray.vin48 ∧ (noFlow stoppedUp).tray.coolFlowN = false) ∧
    ((stoppedAt 40000 94).tray.coolFlowN = true ∧ (stoppedAt 40000 94).tray.tMax < 95 ∧ 40000 ≤ (stoppedAt 40000 94).tray.vin48 ∧
      (stoppedAt 59500 94).tray.vin48 ≤ 59500 ∧ (stoppedAt 40000 94).tray.lref0 = true ∧
      (memOf (stoppedAt 40000 94) 3).st = .selfRefresh ∧ unitSt (stoppedAt 40000 94) 1075 = .active) := by decide +kernel

/-- The last panel of the window, alone. -/
def onePanel (op rest : Nat) : BitVec 512 := desc op (after 64 16383 + after 96 1 + rest)
def farPanelJob : State := { farJob .device [] with job := plainJob.job }

theorem test_hyps_PanelsChangeHands :
    (canStart up = true ∧ headOk (onePanel 4 (after 128 0x10000)) false = true ∧ fld (onePanel 4 0) 64 32 + fld (onePanel 4 0) 96 32 ≤ up.window.size ∧
      dOp (onePanel 4 0) = 4 ∧ zeros (onePanel 4 (after 128 0x10000)) 194 318 = true ∧
      zeros (onePanel 4 (after 128 0x10000)) 128 16 = true ∧ bit (onePanel 4 (after 128 0x10000)) 193 = false ∧
      (panelOf up 16383).st = .free ∧ (panelOf (panels_ .host) 16383).st ≠ .free) ∧
    (bit (onePanel 4 (after 193 1)) 193 = true ∧ zeros (onePanel 4 (after 193 1)) 194 318 = true ∧ (panelOf (panels_ .host) 16383).st = .host ∧
      (panelOf (panels_ .moving) 16383).st ≠ .host ∧ (panelOf (panels_ .moving) 16383).st ≠ .device) ∧
    (dOp (onePanel 5 0) = 5 ∧ zeros (onePanel 5 0) 128 384 = true ∧ (panelOf (panels_ .device) 16383).st ≠ .host) ∧
    (dOp (onePanel 6 0) = 6 ∧ (panelOf (panels_ .device) 16383).st = .device ∧ jobBusy (panels_ .device) = false ∧
      panelPending (panels_ .device) 16383 = false ∧ panelPending (treeUp true .device) 0 = true ∧
      farPanel (treeUp true .device) 1 = false ∧ leafPanel (treeUp true .device) 1 = false) ∧
    (jobBusy farPanelJob = true ∧ farPanel farPanelJob 1 = true ∧ (panelOf farPanelJob 1).st = .device ∧ canStart farPanelJob = true) := by
  decide +kernel

def wornUp : State := { banks 1 1 with store := { up.store with active := some false, bankA := { bankOf 1 with storeCount := 100000 } } }

theorem test_hyps_TheSettingsStoreRuns :
    (canStart up = true ∧ dOp (desc 0x0A 0) = 0x0A ∧ bareOk (desc 0x0A 0) = true ∧ activeCount up.store < 100000 ∧ up.store.run = none ∧
      up.store.waiting = [] ∧ (storing true).store.run.isSome = true ∧ canStart (storing true) = true) ∧
    (100000 ≤ activeCount wornUp.store ∧ canStart { up with store := wornUp.store } = true) ∧
    (svcOn { up with store := { up.store with waiting := [.lost] } } = true) ∧
    svcOn (storing false) = true := by decide +kernel

/-- Host memory whose SQ_TAIL is 1 + 64 (the ring's size), or one more. -/
def polled (tail : Byte) : State := hostWrite 0x400000 [tail] up

theorem test_hyps_TheDoorbellIsPolled :
    barOpen up = true ∧ up.rings.committed.enable = true ∧ up.rings.committed.db.toNat = 0x400000 ∧
    (barOpen State.reset = false ∧ State.reset.rings.dma ≤ 65535 ∧ (hostStaged 6 []).rings.committed.enable = false) ∧
    (BitVec.ofNat 32 (ofLe (readBytes (hostMem (polled 65)) 0x400000 4)) - up.rings.sqHead).toNat = 2 ^ up.rings.committed.szSq.toNat ∧
    2 ^ up.rings.committed.szSq.toNat < (BitVec.ofNat 32 (ofLe (readBytes (hostMem (polled 66)) 0x400000 4)) - up.rings.sqHead).toNat ∧
    (polled 65).rings.due = [] ∧ BitVec.ofNat 32 (ofLe (readBytes (hostMem (polled 65)) 0x400000 4)) ≠ (polled 65).rings.sqHead ∧
    ((polled 65).rings.cqTail - BitVec.ofNat 32 (ofLe (readBytes (hostMem (polled 65)) 0x400004 4))).toNat <
      2 ^ (polled 65).rings.committed.szCq.toNat := by decide +kernel

/-- A port in RELOCK, its lock back or not, in a job that uses it. -/
def relocking (back : Bool) : State := withPort 16 { trainedPort with st := .relock, measured := back } portJob
/-- A port in RELOCK outside a job that moved in a relock before. -/
def movedPort : State := withPort 16 { trainedPort with st := .relock, measured := true, remeasure := true } up
def lateFrame : State := { rxJob with ports := [(16, { trainedPort with tail := none })] }

theorem test_hyps_LinksRelockAndDrop :
    (framing (portOf portJob 16) = true ∧ portJob.reel.isSome = true ∧ (portOf portJob 16).st ≠ .measuring ∧
      framing (portOf (portWith .measuring .frames) 31) = true ∧ (portWith .measuring .frames).reel = none ∧ unitSt up 1055 = .active) ∧
    ((portOf (relocking false) 16).st = .relock ∧ (portOf (relocking false) 16).measured = false ∧ running (relocking false) = true ∧
      reelPort (relocking false) 16 = true ∧ (relocking false).job.ownFault = none) ∧
    ((portOf (relocking true) 16).measured = true ∧ padClass (relocking true) 16 = 2 ∧ 64000 ≤ 32000 * padClass (relocking true) 16 ∧
      32000 * padClass (relocking true) 16 < 64001) ∧
    ((portOf (relocking true) 16).remeasure = false ∧ (portOf movedPort 16).remeasure = true ∧ (portOf movedPort 16).st = .relock ∧
      (portOf movedPort 16).measured = true ∧ running movedPort = false) ∧
    (listens lateFrame 16 = true ∧ missesParcel lateFrame 16 = true ∧ portUp (portOf lateFrame 16) = true ∧
      listens (portWith .notReady .wake) 31 = true ∧ missesParcel (portWith .notReady .wake) 31 = false ∧
      portUp (portOf (portWith .notReady .wake) 31) = false) := by decide +kernel

/-! Power, tests, loading and management. -/

def deciding (id : BitVec 11) : State :=
  { plainJob with bridle := { plainJob.bridle with committed := { plainJob.bridle.committed with id := id } } }
def decided (n : Nat) : State :=
  { up with power := { up.power with decision := some { level := 7, leader := 5, epoch := 1, applyAt := n } } }
def noPower : PowerModel :=
  { staticMw := 0, dynMw := 0, memIdleMw := 0, memActiveMw := 0 }

theorem test_hyps_PowerIsSampledAndPaced :
    svcOn up = true ∧ running plainJob = true ∧ plainJob.reel.isSome = true ∧ plainJob.tray.tMax < 93 ∧
    leaderOf (reelA []) ≠ (deciding 6).bridle.committed.id.toNat ∧ leaderOf (reelA []) = (deciding 5).bridle.committed.id.toNat ∧
    (decided 200).power.decision.map (fun d => d.applyAt) = some (decided 200).bridle.count ∧
    (decided 201).power.decision.map (fun d => d.applyAt) ≠ some (decided 201).bridle.count ∧
    capFits noPower 0 1000000 0 = true ∧ capFits noPower 1000001 1000000 0 = false ∧ running up = false := by decide +kernel

def atClass (c : Nat) : State := { plainJob with power := { plainJob.power with cls := c, ballastTiles := 1, buffers := [(0, [0])] } }
def ballasting : State := { up with power := { up.power with ballast := [(1023, 1), (1023, 3)] } }
def fencedTile : State :=
  { up with store := { up.store with set := { up.store.set with units := [(5, { st := .fenced, held := false })] } } }

/-- A job with a vector word in slot 5 still to issue on tile 0. -/
def wordAhead : State :=
  withTile 0 { Tile.clear with todo := [word 5 0 0x31 5 272 16 32 0 0 0] } (runs wordReel (atClass 3))

/-- A launch armed for a count, at class 2. -/
def armedClass (n : Nat) : State := { armedFor n none with power := { up.power with cls := 2 } }

theorem test_hyps_RailsAndBallast :
    (phaseClass (reelA []) 0 = 3 ∧ (atClass 3).power.cls = 3 ∧ (atClass 2).power.cls < 3 ∧ 3 < (atClass 4).power.cls ∧
      mayFall (atClass 4) (reelA []) 3 = true ∧
      mayFall { sealJob with job := { sealJob.job with phase := 1 } } (reelA []) 0 = false ∧
      phaseClass (reelA []) 1 = 0) ∧
    (outOfService fencedTile 5 = true ∧ isReady (atClass 3) = true ∧ (atClass 3).stop.stopped = false ∧
      ballastTokens 3 1 ≤ 256 ∧ runsBallast (atClass 3) 0 = true ∧ (tileOf (atClass 3) 0).flight = none ∧ (atClass 3).power.ballast = [] ∧
      ballastEnd (atClass 3) 0 1 = none ∧ ballastEnd wordAhead 0 3 = some 192 ∧ 191 < 191 + ballastTokens wordAhead.power.cls 3 ∧
      ballastEnd wordAhead 0 1 = none) ∧
    ((1023, 3) ∈ ballasting.power.ballast ∧ unitSt ballasting 1023 = .active ∧ KaOutcome.mismatch ≠ .pass ∧
      (1022, 3) ∉ ballasting.power.ballast) ∧
    (3 ∈ classesAhead (atClass 2) (reelA []) ∧ 4 ∉ classesAhead (atClass 2) (reelA []) ∧
      stepPlan (reelA []) (atClass 2).job.step = some ((atClass 2).job.pattern, (atClass 2).job.phase) ∧
      stepPlan (reelA []) ((atClass 2).job.step + 1) = some (0, 0) ∧
      commitSlot (reelA []) 0 0 + 1 ≤ (atClass 2).job.slot + 1024) ∧
    ((armedFor 1224 none).job.st = .armed ∧ stepPlan (reelA []) 1 = some (0, 0) ∧ phaseClass (reelA []) 0 = 3 ∧
      (armedClass 1224).power.cls < 3 ∧ (armedClass 1224).job.start ≤ (armedClass 1224).bridle.count + 1024 ∧
      (armedClass 1225).bridle.count + 1024 < (armedClass 1225).job.start) := by decide +kernel

def hours (n : Nat) (s : State) : State := { s with sec := { s.sec with uptime := n * hourUnits } }
def testing (u : Nat) (by_ : TestBy) (cold : Bool) : State :=
  { up with sec := { up.sec with test := some { unit := u, stress := true, ka := 0, by_ := by_, failing := none, partialHeat := cold,
                                                left := [2], ran := [1, 2, 3, 4, 5], cold := false, held := [] } },
            tray := { up.tray with groupT := List.replicate 64 84 ++ List.replicate 64 85, hubT := [0, 0] } }
/-- A test before its profile S2 begins, or after its last profile. -/
def testAt (u : Nat) (left : List Nat) : State :=
  let s := testing u .auto false
  { s with sec := { s.sec with test := s.sec.test.map (fun x => { x with left := left, ran := [] }) } }
def windowReel : Reel := reelA [section_ secTestWin ownPackage [] [BitVec.ofNat 256 (2 ^ 128)]]
def testDesc (unit rest : Nat) : BitVec 512 := desc 9 (after 80 unit + rest)

/-- A unit in WATCH. -/
def watchUnit (u : Nat) (s : State) : State :=
  { s with store := { s.store with set := { s.store.set with units := [(u, { st := .watch, held := false })] } } }

theorem test_hyps_TestsRunAndCount :
    (svcOn (hours 24 up) = true ∧ (hours 24 up).sec.halvedAt < halvingPoint (hours 24 up) ∧ halvingPoint (hours 23 up) ≤ (hours 23 up).sec.halvedAt ∧
      risingKeys up.sec.health = true) ∧
    ((healthOf (hours 13 up) 1079).overdueAt = 0 ∧ unitSt (watchUnit 8 (hours 1 (runs windowReel up))) 8 = .watch ∧
      watchFirst (watchUnit 7 (hours 1 (runs windowReel up))) windowReel = true ∧
      watchFirst (watchUnit 8 (hours 1 (runs windowReel up))) windowReel = false ∧
      unitSt (watchUnit 7 (hours 1 (runs windowReel up))) 6 = .active ∧ windowCovers windowReel 6 0 = true) ∧
    (dueTime (hours 13 up) 1079 + 12 * hourUnits * (0 + 1) ≤ (hours 13 up).sec.uptime ∧ unitPop up 1079 = true ∧
      (hours 12 up).sec.uptime < dueTime (hours 12 up) 1079 + 12 * hourUnits * (0 + 1)) ∧
    ((hours 1 up).sec.testAuto = true ∧ (hours 1 up).sec.test = none ∧ testDue (hours 1 up) 0 = true ∧ isReady (hours 1 up) = true ∧
      (hours 1 up).sec.health = [] ∧ (hours 1 up).store.set.units = []) ∧
    (running (hours 1 (runs windowReel up)) = true ∧ testDue (hours 1 (runs windowReel up)) 7 = true ∧ windowCovers windowReel 7 0 = true ∧
      windowCovers windowReel 8 0 = false) ∧
    (testing 0 .auto true).sec.test.map (fun x => x.partialHeat) = some true := by decide +kernel

theorem test_hyps_TestsRunTheirKernels :
    (dieTemp (testAt 511 [2]) 511 = 84 ∧ dieTemp (testAt 512 [2]) 512 = 85 ∧ dieTemp (testAt 1079 [3]) 1079 = 85 ∧
      (testAt 511 [2]).sec.test.map (fun x => x.left == [2] && x.ran.isEmpty && !x.cold) = some true ∧
      (testAt 511 [0, 1]).sec.test.map (fun x => x.left.head? == some 0) = some true) ∧
    ((testing 1023 .auto false).sec.test.map (fun x => kernelMayRun (testing 1023 .auto false) x 6 2) = some true ∧
      (testing 1023 .window false).sec.test.map (fun x => kernelMayRun (testing 1023 .window false) x 6 2) = some true ∧
      (testing 1023 .auto false).sec.test.map (fun x => kernelMayRun (testing 1023 .auto false) x 5 2) = some false ∧
      (testAt 511 [2]).sec.test.map (fun x => kernelMayRun (testAt 511 [2]) x 1 2) = some false ∧
      unitSt (testing 1023 .auto false) 1023 = .active) ∧
    ((testAt 1023 []).sec.test.map (fun x => x.left.isEmpty && x.held.isEmpty && x.stress) = some true ∧
      (testAt 1023 [2]).sec.test.map (fun x => x.left.isEmpty) = some false) := by decide +kernel

/-- A Reel image of 256 bytes for package 5, made from chapter 14's tables outside the model. -/
def img : List Byte := leBytes 256 0x40000000000000000000300000000000000550000000000000000000000000000000000000000000000280000000000000000000000020000000000000000000000000000000000000003000000000000000000000000000000050000000100000010000000f0ffff000f0000000100000010000000e0000000090000000100000008000000d0ffff00050000000100000008000000c0ffff00040000000100000008000000b0ffff00030000000100000002000000a0ffff00027e38f2015f99fe5600000000000000000000000000000000000000000000000000000001000001000000000600000007000500002821ca1c010000014c454552
def loadUp (st : PanelSt) : State := hostWrite 0x800000 img (setPanel 0 { st := st, blocks := false, backing := 0x800000 } up)
def loadDesc (len : Nat) : BitVec 512 := desc 1 (after 128 len)
def patchDesc (first v : Nat) : BitVec 512 := desc 2 (after 64 first + after 96 1 + after 128 v)
def imgReel : Reel := reelOf img false false
def loaded : State := { up with reel := some imgReel }

theorem test_hyps_LoadRefused :
    canStart (loadUp .host) = true ∧ dOp (loadDesc 256) = 1 ∧ firstFailure (loadChecks (loadUp .host) (loadDesc 256)) = some 0x17 ∧
    firstFailure (loadChecks (loadUp .device) (loadDesc 256)) = none ∧
    (badReel (loadUp .device) img 255 imgReel).map (fun b => b.status) = some 0x101 := by decide +kernel

set_option maxRecDepth 1000000 in
theorem test_image_is_taken : badReel up img 256 imgReel = none := by decide +kernel

theorem test_hyps_LoadAndPatch :
    windowBytes (loadUp .device) 0 256 = img ∧ allPlaces up imgReel = [] ∧ readEntries imgReel = [] ∧
    (loadStrict up (loadDesc 256) = false ∧ up.ldr.debug = false) ∧
    (patchArgsOk (patchDesc 0 3) = true ∧ dOp (patchDesc 0 3) = 2 ∧ canStart loaded = true ∧ loaded.stop.stopped = false ∧ up.reel = none) ∧
    (jobBusy (runs imgReel up) = true ∧ jobBusy loaded = false ∧ imgReel.slots.length < fld (patchDesc 1 3) 64 32 + fld (patchDesc 1 3) 96 8 ∧
      fld (patchDesc 0 3) 64 32 + fld (patchDesc 0 3) 96 8 ≤ imgReel.slots.length) ∧
    (patchOut loaded (patchDesc 0 16384) imgReel = true ∧ patchOut loaded (patchDesc 0 16383) imgReel = false) := by decide +kernel

theorem test_hyps_ManagementAnswers :
    mgmtUp up = true ∧ vendorUp up = true ∧ vendorUp (atStage .serviceBoot up) = false ∧ unitIndex 0x8007 = some 1079 ∧
    unitIndex 0x8008 = none ∧ heldFsr up 1 = none ∧
    heldFsr { up with sec := { up.sec with fsrs := [{ seq := 1, bytes := [7] }] } } 1 = some [7] ∧
    debugReading (jobWord 0) 4 0 0 17 = none ∧ (debugReading (jobWord 0) 0 0 16 0).isSome = true := by decide +kernel

/-- A quarantine list without room; a job that uses tile 0. -/
def fullList : State :=
  { up with store := { up.store with set := { up.store.set with
      qlist := List.replicate 448 { unit := 1, st := .fenced, reason := 0, seconds := 0, uptimeH := 0, gen := 1, fsrSeq := 0 } } } }

theorem test_hyps_UnitsLeaveAndReturn :
    (vendorUp up = true ∧ unitIndex 0x401F = some 1055 ∧ unitPop up 1055 = true ∧ listFull fullList 1055 = true ∧ listFull fullList 1 = false ∧
      listFull up 1055 = false ∧ up.reel = none ∧ jobBusy up = false ∧ up.store.set.units = []) ∧
    (running (jobWord 0) = true ∧ usesUnit (jobWord 0) 0 = true ∧ (jobWord 0).job.ownFault = none ∧ listFull (jobWord 0) 0 = false) ∧
    (outOfService up 0 = false ∧ outOfService fencedTile 5 = true ∧ vendorUp fencedTile = true) ∧
    (unitIndex 0x401F = some 1055 ∧ unitIndex 0x4020 = some 1056 ∧ unitPop up 1056 = false ∧ unitIndex 0x4030 = none) ∧
    ((499 : Nat) < 500 ∧ powerLimit up = 1375 ∧ powerLimit up < 1376) ∧
    (activeCount up.store < 100000 ∧ up.store.run = none ∧ up.store.waiting = [] ∧
      100000 ≤ activeCount { up.store with active := some false, bankA := { bankOf 1 with storeCount := 100000 } }) := by
  decide +kernel

theorem test_hyps_SensorsAndTheTap :
    mgmtUp up = true ∧ vendorUp up = true ∧ 13 ∈ sensorIds up ∧ 39 ∉ sensorIds up ∧ 40 ∈ sensorIds up ∧ 43 ∉ sensorIds up ∧
    (atStage .held up).boot.stage = .held ∧ up.boot.stage ≠ .off ∧ up.boot.stage ≠ .held := by decide +kernel

/-! ## Commands that are not well formed -/

def noSensors : Sensors := { regs := [], groups := [], hubs := [], lines := [], stackT := [] }
def noFrame : Frame := { late := false, slotStart := none, positions := [], tail := none, phase := 0, corrected := 0 }
def farHost : HostSide := { HostSide.quiet with wrote := [(2 ^ 64, 1)] }

theorem test_wf_refuses_units :
    ([Instr.selfTestEnd [(1080, 1, .late)], .testOverdue 1080, .windowTest 1080, .knownAnswerDone 1080 1 0 .pass, .regulatorFault 24,
      .stackLost 8, .ballastIssue 1024 1 0, .ballastIssue 0 1 64, .ballastResult 1024 { ka := 1, result := .pass }].all (fun c => !c.wf)) = true := by decide +kernel

theorem test_wf_refuses_lines :
    ([Instr.lrefLineLoss 0, .lrefLineLoss 3, .lrefReturn 3, .toutLeadingEdge 4, .toutTrailingEdge 4, .captureEdge 3 true, .toutCommit 4 1,
      .capPop 3 1, .classRailMove 0, .classRailMove 5].all (fun c => !c.wf)) = true := by decide +kernel

theorem test_wf_refuses_tiles :
    ([Instr.nop 1024, .ewait 1024, .esig 1024, .rdflg 1024, .exitIf 1024, .recv 1024, .send 1024, .bld 1024, .bst 1024, .bwr 1024,
      .gacc 1024, .gtree 1024, .mvd 1024, .mvs 1024, .mmh 1024, .mmq 1024, .mmi 1024, .vfma 1024, .vadd 1024, .vmul 1024, .vmax 1024,
      .vmin 1024, .vcvt 1024, .vred 1024, .vcpy 1024, .opDeadline 1024 .late, .residueCheckComplete 1024 true,
      .blockMoveService 1024 { complete := true, uncorrectable := 0, corrected := 0 }, .blockMoveRetire 1024,
      .shadowCompare 128 0].all (fun c => !c.wf)) = true := by decide +kernel

theorem test_wf_refuses_ports :
    ([Instr.crosspointGather 3, .frameDelivery 48 noFrame, .frameDelivery 0 { noFrame with positions := [(10, none)] }, .trainingStart 48,
      .trainingDone 48 { serial := 0, port := 0, slotId := 0, bridle := 0, rttPs := 0, precode := 0 }, .trainingTimeout 48,
      .trainingRetry 48, .measuringDone 48 { ps := 0, quadMw := 0, xpMw := 0 }, .laneLockLoss 48, .relockTimeout 48, .relockDone 48, .relockMeasureDone 48 0,
      .farNotReady 48, .farStopped 48, .signalLoss 48].all (fun c => !c.wf)) = true := by decide +kernel

theorem test_wf_refuses_host_and_samples :
    ([Instr.farBlockArrival 0 farHost, .gaccLockAttempt 0 false farHost, .gtreePoll 0 farHost, .doorbellPoll farHost .whole,
      .powerSample noSensors].all (fun c => !c.wf)) = true := by decide +kernel

theorem test_wf_refuses_descriptors :
    ([Instr.nopDescriptor 1, .load 0, .patch 0, .unload 0, .windowMap 0, .panelGive 0, .panelTake 0, .launchAt 0, .cancel 0, .test 0,
      .storeSettings 0, .clear 0, .reservedOpcode 11].all (fun c => !c.wf)) = true := by decide +kernel

theorem test_wf_takes :
    ([Instr.nop 1023, .lrefLineLoss 2, .frameDelivery 47 { noFrame with positions := [(9, none)] }, .reservedOpcode 12, .load 1,
      .doorbellPoll { HostSide.quiet with wrote := [(2 ^ 64 - 1, 1)] } .badRing, .testOverdue 1079].all (fun c => c.wf)) = true := by decide +kernel

end Sys2Proof.Tests
end

section
/-! Proofs: what a completion record changes and depends on, and LAUNCH_AT (R149). -/

namespace Sys2Proof.Machine

/-! ## The record that a descriptor leaves -/

theorem takeDesc_changes (s : State) : changesOnly [.ringRegs] s (takeDesc s) := by
  intro p hp
  cases p
  case ringRegs => exact absurd (by decide) hp
  all_goals rfl

/-- A descriptor that leaves one record and does nothing else changes the parts of a record. -/
theorem complete_takeDesc_changes (c : Rec) (s : State) : changesOnly recordParts s (complete c (takeDesc s)) :=
  (takeDesc_changes s).both (complete_changes c _) (by decide) (by decide)

/-- The descriptor at the front is carried out when its opcode is met and the part starts it. -/
theorem onDesc_of_canStart {op : Nat} {d : BitVec 512} {s : State} (hop : dOp d = op) (hs : canStart s = true)
    (f : Nat → State → State) : onDesc op d f s = f (sqNext s) (takeDesc s) := by
  rw [onDesc, if_pos ⟨hop, hs⟩]

/-! ## What a record depends on -/

/-- Two states that agree on everything that the writing of completion records reads (R280, R287, Table 13-6). -/
structure RecordsAlike (s t : State) : Prop where
  rings : t.rings = s.rings
  host : hostMem t = hostMem s
  unitGen : t.unitGen = s.unitGen
  count : cnt t = cnt s

section
variable {s t : State}

/-- A change to none of the rings, host memory, UNIT_GEN and the Bridle leaves records as they are. -/
theorem changesOnly.recordsAlike {A : List Part} (h : changesOnly A s t) (hr : t.rings = s.rings) (hh : Part.host ∉ A)
    (hu : Part.unitGen ∉ A) (hb : Part.bridle ∉ A) : RecordsAlike s t where
  rings := hr
  host := h .host hh
  unitGen := h .unitGen hu
  count := congrArg Bridle.count (h .bridle hb)

theorem RecordsAlike.withRings (h : RecordsAlike s t) (r : Rings) :
    RecordsAlike { s with rings := r } { t with rings := r } :=
  ⟨rfl, h.host, h.unitGen, h.count⟩

theorem RecordsAlike.withHostMem (h : RecordsAlike s t) (m : List Host.Cell) :
    RecordsAlike (setHostMem m s) (setHostMem m t) :=
  ⟨h.rings, rfl, h.unitGen, h.count⟩

theorem syncDoorbell_recordsAlike (h : RecordsAlike s t) : RecordsAlike (syncDoorbell s) (syncDoorbell t) := by
  simp only [syncDoorbell, h.rings, h.host]
  split
  · exact h.withHostMem _
  · exact h

theorem RecordsAlike.recBytes_eq (h : RecordsAlike s t) (c : Rec) : recBytes t c = recBytes s c := by
  simp only [recBytes, h.rings, h.unitGen, h.count]

theorem RecordsAlike.cqFull_eq (h : RecordsAlike s t) : cqFull t = cqFull s := by
  simp only [cqFull, h.rings]

theorem writeRec_recordsAlike (h : RecordsAlike s t) (c : Rec) : RecordsAlike (writeRec c s) (writeRec c t) := by
  simp only [writeRec, h.rings, h.host, h.recBytes_eq]
  exact syncDoorbell_recordsAlike ((h.withRings _).withHostMem _)

theorem flushGo_recordsAlike (l : List Rec) : ∀ {s t : State}, RecordsAlike s t → RecordsAlike (flushGo l s) (flushGo l t) := by
  induction l with
  | nil =>
    intro s t h
    simp only [flushGo, h.rings]
    exact h.withRings _
  | cons c l ih =>
    intro s t h
    simp only [flushGo, h.rings, h.cqFull_eq]
    split
    · exact ih (writeRec_recordsAlike h c)
    · exact h.withRings _

theorem flushDue_recordsAlike (h : RecordsAlike s t) : RecordsAlike (flushDue s) (flushDue t) := by
  have hgo := flushGo_recordsAlike s.rings.due h
  simp only [flushDue, setStall, h.rings, hgo.rings, hgo.cqFull_eq]
  exact hgo.withRings _

theorem complete_recordsAlike (h : RecordsAlike s t) (c : Rec) : RecordsAlike (complete c s) (complete c t) := by
  simp only [complete, h.rings]
  exact flushDue_recordsAlike (h.withRings _)

/-- A descriptor whose effect does not show in its record leaves the record that it would leave without it. -/
theorem recordedAs_of_recordsAlike (h : RecordsAlike (takeDesc s) t) (c : Rec) : recordedAs c s (complete c t) :=
  ⟨(complete_recordsAlike h c).rings, (complete_recordsAlike h c).host⟩

end

/-! ## LAUNCH_AT (R149) -/

theorem jobBusy_iff (s : State) : jobBusy s = true ↔ s.job.st ≠ .idle := by
  cases h : s.job.st <;> simp [jobBusy, running, armed, h]

/-- The order of R149, for a well-formed LAUNCH_AT of a package in service. -/
theorem firstFailure_launchChecks {s : State} {d : BitVec 512} (hhead : headOk d false = true)
    (hz : zeros d 128 384 = true) (hsv : s.stop.stopped = false) :
    firstFailure (launchChecks s d) =
      if s.reel = none then some 0x11 else if s.job.st ≠ .idle then some 0x12
      else if s.bridle.st ≠ .synced then some 0x13 else if dStart d ≤ cnt s + 16 then some 0x14 else none := by
  simp [launchChecks, firstFailure, hhead, hz, hsv, jobBusy_iff]

theorem exec_launchAt_of_refused {s : State} {d : BitVec 512} {status : Nat} (hs : canStart s = true) (hop : dOp d = 0x07)
    (hf : firstFailure (launchChecks s d) = some status) :
    exec (.launchAt d) s = .next (complete (launchRec d (sqNext s) true status) (takeDesc s)) := by
  have hf' : firstFailure (launchChecks (takeDesc s) d) = some status := hf
  change execLaunchAt d s = _
  rw [execLaunchAt, onDesc_of_canStart hop hs, hf']

theorem exec_launchAt_of_accepted {s : State} {d : BitVec 512} (hs : canStart s = true) (hop : dOp d = 0x07)
    (hf : firstFailure (launchChecks s d) = none) :
    exec (.launchAt d) s =
      .next (complete (launchRec d (sqNext s) false 1) (arm d (sqNext s) (takeDesc s))) := by
  have hf' : firstFailure (launchChecks (takeDesc s) d) = none := hf
  change execLaunchAt d s = _
  rw [execLaunchAt, onDesc_of_canStart hop hs, hf']

theorem arm_changes (d : BitVec 512) (sq : Nat) (s : State) : changesOnly [.job] s (arm d sq s) := by
  intro p hp
  cases p
  case job => exact absurd (by decide) hp
  all_goals rfl

theorem arm_recordsAlike (d : BitVec 512) (sq : Nat) (s : State) : RecordsAlike s (arm d sq s) :=
  (arm_changes d sq s).recordsAlike rfl (by decide) (by decide) (by decide)

/-- Settles O48: the checks of LAUNCH_AT give the first status that applies (`firstFailure_launchChecks`), and arming a launch
changes the job alone, which no record shows (`arm_recordsAlike`). -/
theorem launchAtIsCheckedInOrder : Obligations.LaunchAtIsCheckedInOrder := by
  unfold Obligations.LaunchAtIsCheckedInOrder
  intro s d hs hop hhead hz hsv
  have horder := firstFailure_launchChecks hhead hz hsv
  refine ⟨fun code hcode => ?_, fun hreel hidle hsync hearly => ?_⟩
  · have hf : firstFailure (launchChecks s d) = some code := by
      obtain ⟨rfl, hreel⟩ | ⟨rfl, hreel, hbusy⟩ | ⟨rfl, hreel, hidle, hsync⟩ | ⟨rfl, hreel, hidle, hsync, hlate⟩ := hcode
      · simp [horder, hreel]
      · simp [horder, hreel, hbusy]
      · simp [horder, hreel, hidle, hsync]
      · have hlate' : dStart d ≤ cnt s + 16 := hlate
        simp [horder, hreel, hidle, hsync, hlate']
    exact ⟨_, exec_launchAt_of_refused hs hop hf, complete_takeDesc_changes _ s, rfl, rfl⟩
  · have hf : firstFailure (launchChecks s d) = none := by
      have hearly' : ¬ dStart d ≤ cnt s + 16 := Nat.not_le.mpr hearly
      simp [horder, hreel, hidle, hsync, hearly']
    refine ⟨_, exec_launchAt_of_accepted hs hop hf, ?_, recordedAs_of_recordsAlike (arm_recordsAlike d (sqNext s) _) _, ?_⟩
    · exact ((takeDesc_changes s).both (arm_changes d _ _) (by decide) (by decide)).next (complete_changes _ _) (by decide)
    · exact complete_changes _ _ .job (by decide)

end Sys2Proof.Machine
end

section
/-! Proofs: BAR2 accesses within one panel (R295). -/

namespace Sys2Proof.Machine

/-! ## Runs of bytes in host memory -/

theorem readBytes_writeBytes (m : List Host.Cell) (a : Nat) (bs : List Byte) :
    readBytes (writeBytes m a bs) a bs.length = bs := by
  refine List.ext_getElem (by simp [readBytes]) fun i _ hi => ?_
  simp [readBytes, readByte_writeBytes_inside bs m a i hi]

/-- Cells at ascending addresses are a run of bytes. -/
theorem writeCells_zipIdx (bs : List Byte) (m : List Host.Cell) (a k : Nat) :
    writeCells m ((bs.zipIdx k).map (fun x => (a + x.2, x.1))) = writeBytes m (a + k) bs := by
  induction bs generalizing m k with
  | nil => rfl
  | cons b bs ih => exact ih (writeByte m (a + k) b) (k + 1)

theorem hostWrite_changes (a : Nat) (bs : List Byte) (s : State) : changesOnly [.host] s (hostWrite a bs s) :=
  setHostMem_changes _ s

theorem readBytes_hostWrite (a : Nat) (bs : List Byte) (s : State) :
    readBytes (hostMem (hostWrite a bs s)) a bs.length = bs :=
  readBytes_writeBytes (hostMem s) a bs

theorem hostWrite_hostBut (a : Nat) (bs : List Byte) (s : State) : hostBut [(a, bs.length)] s (hostWrite a bs s) :=
  fun c hc => readByte_writeBytes_outside bs (hostMem s) a c (hc _ (List.mem_singleton_self _))

/-! ## Offsets within a panel -/

section
variable {s : State} {p o k : Nat}

theorem backingAddr_within (s : State) (p : Nat) (hk : o + k < 65536) :
    backingAddr s (65536 * p + o + k) = (panelOf s p).backing + o + k := by
  have hdiv : (65536 * p + o + k) / 65536 = p := by omega
  have hmod : (65536 * p + o + k) % 65536 = o + k := by omega
  rw [backingAddr, hdiv, hmod, Nat.add_assoc]

theorem barByte_within (hp : p < s.window.size) (hk : o + k < 65536) :
    barByte s (65536 * p + o + k) =
      if (panelOf s p).st = .free then 0 else readByte (hostMem s) ((panelOf s p).backing + o + k) := by
  have hdiv : (65536 * p + o + k) / 65536 = p := by omega
  rw [barByte, hdiv, if_neg (Nat.not_le.mpr hp), backingAddr_within s p hk]

theorem barWritable_within (hp : p < s.window.size) (hk : o + k < 65536) :
    barWritable s (65536 * p + o + k) = ((panelOf s p).st == .host) := by
  have hdiv : (65536 * p + o + k) / 65536 = p := by omega
  simp [barWritable, hdiv, hp]

/-- Whether a byte of a write is carried out depends on the panel alone. -/
theorem barWritable_of_mem_zipIdx {bs : List Byte} (hp : p < s.window.size) (hn : o + bs.length ≤ 65536) :
    ∀ x ∈ bs.zipIdx, barWritable s (65536 * p + o + x.2) = ((panelOf s p).st == .host) := by
  intro x hx
  have hlt : x.2 < bs.length := List.snd_lt_of_mem_zipIdx hx
  exact barWritable_within hp (by omega)

end

/-! ## Reads and writes within a panel -/

section
variable {s : State} {p o : Nat}

theorem map_barByte_of_ne_free {n : Nat} (hp : p < s.window.size) (hn : o + n ≤ 65536) (hst : (panelOf s p).st ≠ .free) :
    (List.range n).map (fun k => barByte s (65536 * p + o + k)) =
      readBytes (hostMem s) ((panelOf s p).backing + o) n := by
  refine List.map_congr_left fun k hk => ?_
  have hlt : k < n := List.mem_range.mp hk
  rw [barByte_within hp (by omega), if_neg hst]

theorem map_barByte_of_free {n : Nat} (hp : p < s.window.size) (hn : o + n ≤ 65536) (hst : (panelOf s p).st = .free) :
    (List.range n).map (fun k => barByte s (65536 * p + o + k)) = List.replicate n 0 := by
  refine List.eq_replicate_iff.mpr ⟨by simp, fun b hb => ?_⟩
  obtain ⟨k, hk, rfl⟩ := List.mem_map.mp hb
  have hlt : k < n := List.mem_range.mp hk
  rw [barByte_within hp (by omega), if_pos hst]

variable {bs : List Byte}

theorem all_barWritable_of_host (hp : p < s.window.size) (hn : o + bs.length ≤ 65536) (hst : (panelOf s p).st = .host) :
    bs.zipIdx.all (fun x => barWritable s (65536 * p + o + x.2)) = true :=
  List.all_eq_true.mpr fun x hx => by
    rw [barWritable_of_mem_zipIdx hp hn x hx, hst]
    rfl

theorem barCells_of_host (hp : p < s.window.size) (hn : o + bs.length ≤ 65536) (hst : (panelOf s p).st = .host) :
    barCells s (65536 * p + o) bs = bs.zipIdx.map (fun x => ((panelOf s p).backing + o + x.2, x.1)) := by
  rw [barCells, List.filter_eq_self.mpr (List.all_eq_true.mp (all_barWritable_of_host hp hn hst))]
  refine List.map_congr_left fun x hx => ?_
  have hlt : x.2 < bs.length := List.snd_lt_of_mem_zipIdx hx
  rw [backingAddr_within s p (by omega)]

theorem barCells_of_ne_host (hp : p < s.window.size) (hn : o + bs.length ≤ 65536) (hst : (panelOf s p).st ≠ .host) :
    barCells s (65536 * p + o) bs = [] := by
  have hnone : ∀ x ∈ bs.zipIdx, ¬ barWritable s (65536 * p + o + x.2) = true := fun x hx => by
    rw [barWritable_of_mem_zipIdx hp hn x hx]
    simpa using hst
  rw [barCells, List.filter_eq_nil_iff.mpr hnone, List.map_nil]

/-- A HOST panel takes the whole write as one run of bytes on its backing. -/
theorem barWrite_of_host (hp : p < s.window.size) (hn : o + bs.length ≤ 65536) (hst : (panelOf s p).st = .host) :
    barWrite (65536 * p + o) bs s = hostWrite ((panelOf s p).backing + o) bs s := by
  rw [barWrite, if_pos (all_barWritable_of_host hp hn hst), barCells_of_host hp hn hst, hostWrote, writeCells_zipIdx,
    Nat.add_zero, hostWrite]

/-- Any other panel drops the whole write, which counts once. -/
theorem barWrite_of_ne_host (hp : p < s.window.size) (hn : o + bs.length ≤ 65536) (hbs : bs ≠ [])
    (hst : (panelOf s p).st ≠ .host) :
    barWrite (65536 * p + o) bs s = { s with rings := { s.rings with dropped := satInc 16 s.rings.dropped } } := by
  have hsome : ¬ bs.zipIdx.all (fun x => barWritable s (65536 * p + o + x.2)) = true := fun hall => by
    obtain ⟨x, hx⟩ := List.exists_mem_of_ne_nil _ (mt List.zipIdx_eq_nil_iff.mp hbs)
    have hw := List.all_eq_true.mp hall x hx
    rw [barWritable_of_mem_zipIdx hp hn x hx] at hw
    exact hst (by simpa using hw)
  rw [barWrite, if_neg hsome, barCells_of_ne_host hp hn hst]
  rfl

end

theorem exec_bar2Access_read {s : State} (hl : linkUp s = true) (off n : Nat) :
    exec (.bar2Access (.read off n)) s =
      .next { s with out := { s.out with bytes := (List.range n).map (fun k => barByte s (off + k)) } } := by
  change execBar2Access (.read off n) s = _
  rw [execBar2Access, if_pos hl]

theorem exec_bar2Access_write {s : State} (hl : linkUp s = true) (off : Nat) (bs : List Byte) :
    exec (.bar2Access (.write off bs)) s = .next (barWrite off bs s) := by
  change execBar2Access (.write off bs) s = _
  rw [execBar2Access, if_pos hl]

theorem withOut_changes (o : Out) (s : State) : changesOnly [.out] s { s with out := o } := by
  intro p hp
  cases p
  case out => exact absurd (by decide) hp
  all_goals rfl

theorem withDropped_changes (n : Nat) (s : State) :
    changesOnly [.ringRegs] s { s with rings := { s.rings with dropped := n } } := by
  intro p hp
  cases p
  case ringRegs => exact absurd (by decide) hp
  all_goals rfl

/-- A counter below its largest value rises by 1. -/
theorem satInc_of_lt {w n : Nat} (h : n < 2 ^ w - 1) : satInc w n = n + 1 :=
  Nat.min_eq_left h

/-- Settles O23: within one panel every offset has the panel's state and lies on its backing (`barByte_within`,
`barWritable_within`), so a read shows one run of bytes and a write is taken or dropped as a whole (`barWrite_of_host`,
`barWrite_of_ne_host`). -/
theorem barTwoAccessesFollowThePanel : Obligations.BarTwoAccessesFollowThePanel := by
  unfold Obligations.BarTwoAccessesFollowThePanel
  refine ⟨fun s p o n hl hp hn => ?read, fun s p o bs hl hp hn hst => ?taken, fun s p o bs hl hp hn hbs hst => ?dropped⟩
  case read =>
    exact ⟨_, exec_bar2Access_read hl _ n, withOut_changes _ s, map_barByte_of_ne_free hp hn, map_barByte_of_free hp hn⟩
  case taken =>
    refine ⟨_, exec_bar2Access_write hl _ bs, ?_⟩
    rw [barWrite_of_host hp hn hst]
    exact ⟨hostWrite_changes _ bs s, readBytes_hostWrite _ bs s, hostWrite_hostBut _ bs s⟩
  case dropped =>
    refine ⟨_, exec_bar2Access_write hl _ bs, ?_⟩
    rw [barWrite_of_ne_host hp hn hbs hst]
    exact ⟨withDropped_changes _ s, fun hlt => satInc_of_lt hlt⟩

end Sys2Proof.Machine
end

section
/-! Proofs: CLEAR of a package that is not stopped (R352). -/

namespace Sys2Proof.Machine

/-! ## INFO of a record (Table 13-6) -/

@[simp] theorem length_leBytes (n v : Nat) : (leBytes n v).length = n := by
  induction n generalizing v with
  | zero => rfl
  | succ n ih => simp [leBytes, ih]

/-- Bytes 16 to 31 of a record that does not carry the count are its INFO. -/
theorem drop_recBytes {c : Rec} (hc : c.countInfo = false) (s : State) : (recBytes s c).drop 16 = padTo 16 c.info := by
  simp only [recBytes, hc, Bool.false_eq_true, if_false]
  exact List.drop_left' (by simp)

/-! ## CLEAR -/

/-- A well-formed CLEAR of a package that is not stopped fails no check and clears nothing: it leaves its record alone. -/
theorem exec_clear_of_not_stopped {s : State} {d : BitVec 512} (hs : canStart s = true) (hop : dOp d = 0x0B)
    (hd : bareOk d = true) (hrun : s.stop.stopped = false) :
    exec (.clear d) s = .next (complete (recOf d (sqNext s) true 0 []) (takeDesc s)) := by
  have hrun' : (takeDesc s).stop.stopped = false := hrun
  change execClear d s = _
  simp [execClear, onDesc_of_canStart hop hs, checked, firstFailure, finish, hd, hrun']

/-- Settles O47: with the checks passed the command is its record alone (`exec_clear_of_not_stopped`), and the record's INFO
is the padding of no bytes (`drop_recBytes`). -/
theorem clearOfARunningPackage : Obligations.ClearOfARunningPackage := by
  unfold Obligations.ClearOfARunningPackage
  intro s d hs hop hd hrun
  exact ⟨_, exec_clear_of_not_stopped hs hop hd hrun, complete_takeDesc_changes _ s, ⟨rfl, rfl⟩, rfl, drop_recBytes rfl s⟩

end Sys2Proof.Machine
end

section
/-! Proofs: what every command keeps. `Steady` says it for one operation, and these lemmas say it of the shared operations. -/

namespace Sys2Proof.Machine

/-! ## What sparse data lists -/

section
variable {α : Type} {d : α} {k : Nat} {m : Sparse α} {P : α → Prop}

theorem mem_of_find? {v : α} (h : find? k m = some v) : (k, v) ∈ m := by
  induction m with
  | nil => simp [find?] at h
  | cons y m ih =>
    obtain ⟨j, w⟩ := y
    by_cases hk : k = j
    · subst hk
      simp only [find?, if_pos, Option.some.injEq] at h
      simp [h]
    · rw [find?, if_neg hk] at h
      exact List.mem_cons_of_mem _ (ih h)

theorem find?_of_mem {v : α} (hr : risingKeys m = true) (h : (k, v) ∈ m) : find? k m = some v := by
  induction m with
  | nil => simp at h
  | cons y m ih =>
    obtain ⟨habove, hm⟩ := (risingKeys_cons _ _).mp hr
    rcases List.mem_cons.mp h with rfl | h
    · simp [find?]
    · have hlt : y.1 < k := habove _ h
      rw [find?, if_neg (by omega), ih hm h]

/-- What holds of the default and of every entry holds of what is read at any key. -/
theorem look_of_forall_mem (hd : P d) (h : ∀ x ∈ m, P x.2) (k : Nat) : P (look d k m) := by
  cases e : find? k m with
  | none => simpa [look, e] using hd
  | some v => simpa [look, e] using h _ (mem_of_find? e)

theorem forall_mem_of_look (hr : risingKeys m = true) (h : ∀ k, P (look d k m)) : ∀ x ∈ m, P x.2 := by
  intro x hx
  simpa [look, find?_of_mem hr hx] using h x.1

/-- What holds of every value that is read, a store of another such value keeps. -/
theorem look_store_of_forall [DecidableEq α] {v : α} (hv : P v) (h : ∀ j, P (look d j m)) (j : Nat) :
    P (look d j (store d k v m)) := by
  by_cases e : j = k
  · rw [e, look_store_self]
    exact hv
  · rw [look_store_other e]
    exact h j

theorem look_mapVals_of_forall [DecidableEq α] {f : α → α} (hr : risingKeys m = true) (hd : P d) (hf : ∀ v, P v → P (f v))
    (h : ∀ j, P (look d j m)) : ∀ j, P (look d j (mapVals d f m)) := by
  refine look_of_forall_mem hd fun x hx => ?_
  obtain ⟨y, hy, rfl⟩ := List.mem_map.mp (List.mem_of_mem_filter hx)
  exact hf _ (forall_mem_of_look hr h y hy)

theorem canonical_iff [DecidableEq α] : canonical d m = true ↔ risingKeys m = true ∧ ∀ x ∈ m, x.2 ≠ d := by
  simp [canonical]

/-- Part of canonical data is canonical. -/
theorem canonical_filter [DecidableEq α] (p : Nat × α → Bool) (h : canonical d m = true) : canonical d (m.filter p) = true := by
  obtain ⟨hr, hd⟩ := canonical_iff.mp h
  exact canonical_iff.mpr ⟨risingKeys_sublist List.filter_sublist hr, fun x hx => hd x (List.mem_of_mem_filter hx)⟩

end

/-! ## What every command keeps -/

/-- The lines of a tile are in canonical form. -/
def Tile.formOk (t : Tile) : Prop := canonical LineSt.zero t.lines = true

/-- The selectors and the written marks of a stack are in canonical form. -/
def Stack.formOk (m : Stack) : Prop := canonical false m.mark = true ∧ canonical false m.sel = true

/-- What every operation keeps: the queue of commands, the canonical form of host memory and that of the tables. -/
def KeepsForms (s t : State) : Prop :=
  t.pending = s.pending ∧ keepsHost s t ∧ (sparseOk s → sparseOk t)

/-- What every operation but a cold start keeps: the identity as well. -/
def Steady (s t : State) : Prop := t.ident = s.ident ∧ KeepsForms s t

/-- The command completes in a state that keeps what every operation keeps. -/
def EndsSteady (s : State) (o : Host.Outcome State Fault Refusal) : Prop := ∃ t, o = .next t ∧ Steady s t

/-- The parts that `Steady` speaks of, host memory apart. -/
def formParts : List Part := [.ident, .pending, .tiles, .mems, .ports]

section
variable {s t u : State}

theorem Steady.refl (s : State) : Steady s s := ⟨rfl, rfl, id, id⟩

theorem Steady.trans (h : Steady s t) (k : Steady t u) : Steady s u := by
  obtain ⟨hi, hp, hh, hs⟩ := h
  obtain ⟨ki, kp, kh, ks⟩ := k
  exact ⟨ki.trans hi, kp.trans hp, hh.trans kh, fun x => ks (hs x)⟩

theorem Steady.ite {c : Prop} [Decidable c] (h : Steady s t) (k : Steady s u) : Steady s (if c then t else u) := by
  split
  · exact h
  · exact k

theorem Steady.foldl {α : Type} {f : State → α → State} (h : ∀ a x, Steady a (f a x)) :
    ∀ (l : List α) (s : State), Steady s (l.foldl f s)
  | [], s => .refl s
  | x :: l, s => (h s x).trans (Steady.foldl h l (f s x))

/-- A change that spares the identity, the queue and the tables is steady where it keeps the form of host memory. -/
theorem Steady.of_keeps {A : List Part} (h : changesOnly A s t) (hk : keepsHost s t) (hA : ∀ p ∈ formParts, p ∉ A) :
    Steady s t := by
  have same : ∀ p ∈ formParts, p.same s t := fun p hp => h p (hA p hp)
  have ht : t.tiles = s.tiles := same .tiles (by decide)
  have hm : t.mems = s.mems := same .mems (by decide)
  have hp : t.ports = s.ports := same .ports (by decide)
  refine ⟨same .ident (by decide), same .pending (by decide), hk, fun hs => ?_⟩
  simpa only [sparseOk, tileOf, memOf, ht, hm, hp] using hs

/-- A change that spares host memory as well is steady. -/
theorem Steady.of_changes {A : List Part} (h : changesOnly A s t) (hA : ∀ p ∈ Part.host :: formParts, p ∉ A) : Steady s t :=
  .of_keeps h (h.keepsHost (hA .host (by decide))) fun p hp => hA p (List.mem_cons_of_mem _ hp)

/-- Whatever else changes, a state that has all of this as before is steady. -/
theorem Steady.same (h : (t.ident, t.pending, t.window.hostMem, t.tiles, t.mems, t.ports) =
    (s.ident, s.pending, s.window.hostMem, s.tiles, s.mems, s.ports)) : Steady s t := by
  simp only [Prod.mk.injEq] at h
  obtain ⟨hi, hp, hh, ht, hm, hpo⟩ := h
  refine ⟨hi, hp, fun h => ?_, fun h => ?_⟩
  · simpa only [hostMem, hh] using h
  · simpa only [sparseOk, tileOf, memOf, ht, hm, hpo] using h

theorem EndsSteady.next (h : Steady s t) : EndsSteady s (.next t) := ⟨t, rfl, h⟩

theorem EndsSteady.ite {c : Prop} [Decidable c] {o r : Host.Outcome State Fault Refusal} (h : EndsSteady s o)
    (k : EndsSteady s r) : EndsSteady s (if c then o else r) := by
  split
  · exact h
  · exact k

/-- A command that may act or leave everything as it is. -/
theorem EndsSteady.next_ite {c : Prop} [Decidable c] (h : Steady s t) : EndsSteady s (.next (if c then t else s)) :=
  .next (.ite h (.refl s))

theorem EndsSteady.ite_next {c : Prop} [Decidable c] (h : Steady s t) :
    EndsSteady s (if c then .next t else .next s) := .ite (.next h) (.next (.refl s))

end

/-! ## The tables -/

theorem setTile_steady (u : Nat) {v : Tile} {s : State} (hv : (∀ j, (tileOf s j).formOk) → v.formOk) :
    Steady s (setTile u v s) := by
  refine ⟨rfl, rfl, id, fun ⟨ht, hm, hp, hl, hk⟩ => ⟨canonical_store _ u v _ ht, hm, hp, ?_, hk⟩⟩
  exact look_store_of_forall (P := Tile.formOk) (hv hl) hl

theorem updTile_steady (u : Nat) {f : Tile → Tile} (s : State) (hf : ∀ t, t.formOk → (f t).formOk) :
    Steady s (updTile u f s) := setTile_steady u fun h => hf _ (h u)

theorem setPort_steady (p : Nat) (v : Port) (s : State) : Steady s (setPort p v s) :=
  ⟨rfl, rfl, id, fun ⟨ht, hm, hp, hl, hk⟩ => ⟨ht, hm, canonical_store _ p v _ hp, hl, hk⟩⟩

theorem updPort_steady (p : Nat) (f : Port → Port) (s : State) : Steady s (updPort p f s) := setPort_steady p _ s

theorem setMem_steady (k : Nat) {v : Stack} {s : State} (hv : (∀ j, (memOf s j).formOk) → v.formOk) :
    Steady s (setMem k v s) := by
  refine ⟨rfl, rfl, id, fun ⟨ht, hm, hp, hl, hk⟩ => ⟨ht, canonical_store _ k v _ hm, hp, hl, ?_⟩⟩
  exact look_store_of_forall (P := Stack.formOk) (hv hk) hk

theorem updMem_steady (k : Nat) {f : Stack → Stack} (s : State) (hf : ∀ m, m.formOk → (f m).formOk) :
    Steady s (updMem k f s) := setMem_steady k fun h => hf _ (h k)

theorem mapPorts_steady (f : Port → Port) (s : State) : Steady s { s with ports := mapVals Port.off f s.ports } :=
  ⟨rfl, rfl, id, fun ⟨ht, hm, hp, hl, hk⟩ => ⟨ht, hm, canonical_mapVals _ f _ hp, hl, hk⟩⟩

theorem mapTiles_steady {f : Tile → Tile} (s : State) (hf : ∀ t, t.formOk → (f t).formOk) :
    Steady s { s with tiles := mapVals Tile.clear f s.tiles } := by
  refine ⟨rfl, rfl, id, fun ⟨ht, hm, hp, hl, hk⟩ => ⟨canonical_mapVals _ f _ ht, hm, hp, ?_, hk⟩⟩
  exact look_mapVals_of_forall (P := Tile.formOk) (canonical_iff.mp ht).1 rfl hf hl

theorem mapMems_steady {f : Stack → Stack} (s : State) (hf : ∀ m, m.formOk → (f m).formOk) :
    Steady s { s with mems := mapVals Stack.off f s.mems } := by
  refine ⟨rfl, rfl, id, fun ⟨ht, hm, hp, hl, hk⟩ => ⟨ht, canonical_mapVals _ f _ hm, hp, hl, ?_⟩⟩
  exact look_mapVals_of_forall (P := Stack.formOk) (canonical_iff.mp hm).1 ⟨rfl, rfl⟩ hf hk

theorem noTiles_steady (s : State) : Steady s { s with tiles := [] } :=
  ⟨rfl, rfl, id, fun ⟨_, hm, hp, _, hk⟩ => ⟨rfl, hm, hp, fun _ => rfl, hk⟩⟩

theorem noMems_steady (s : State) : Steady s { s with mems := [] } :=
  ⟨rfl, rfl, id, fun ⟨ht, _, hp, hl, _⟩ => ⟨ht, rfl, hp, hl, fun _ => ⟨rfl, rfl⟩⟩⟩

theorem noPorts_steady (s : State) : Steady s { s with ports := [] } :=
  ⟨rfl, rfl, id, fun ⟨ht, hm, _, hl, hk⟩ => ⟨ht, hm, rfl, hl, hk⟩⟩

theorem eachPort_steady {f : Nat → State → State} (hf : ∀ p a, Steady a (f p a)) (s : State) : Steady s (eachPort f s) :=
  .foldl (fun a p => hf p a) _ s

theorem flipPair_steady (k b : Nat) (s : State) : Steady s (flipPair k b s) :=
  updMem_steady k s fun _ ⟨hmark, hsel⟩ => ⟨hmark, canonical_store _ _ _ _ hsel⟩

theorem Tile.formOk_flipLine (ln : Nat) (t : Tile) (h : t.formOk) : (flipLine ln t).formOk := canonical_store _ _ _ _ h

theorem Tile.formOk_setLine (ln : Nat) (v : LineSt) (t : Tile) (h : t.formOk) : (setLine ln v t).formOk :=
  canonical_store _ _ _ _ h

theorem Tile.formOk_rewound (t : Tile) (h : t.formOk) : t.rewound.formOk := canonical_mapVals _ _ _ h

theorem Tile.formOk_stopped (vs : List Nat) (slot : Nat) (t : Tile) (h : t.formOk) : (t.stopped vs slot).formOk :=
  canonical_mapVals _ _ _ h

theorem Tile.formOk_tellTile (s : State) (u code w : Nat) (t : Tile) (h : t.formOk) : (tellTile s u code w t).formOk := by
  unfold tellTile
  split <;> exact h

/-! ## Events, records and detections -/

section
variable (s : State)

theorem post_steady (code : BitVec 16) (info : List Byte) : Steady s (post code info s) :=
  .of_keeps (post_changes code info s) (post_keeps code info s) (by decide)

theorem postAt_steady (code : BitVec 16) (loc : Bool) (n : Nat) (info : List Byte) : Steady s (postAt code loc n info s) :=
  .of_keeps (postAt_changes code loc n info s) (postAt_keeps code loc n info s) (by decide)

theorem complete_steady (c : Rec) : Steady s (complete c s) :=
  .of_keeps (complete_changes c s) (complete_keeps c s) (by decide)

theorem flushDue_steady : Steady s (flushDue s) := .of_keeps (flushDue_changes s) (flushDue_keeps s) (by decide)

theorem syncDoorbell_steady : Steady s (syncDoorbell s) :=
  .of_keeps (syncDoorbell_changes s) (syncDoorbell_keeps s) (by decide)

theorem hostWrote_steady (cs : List (Nat × Byte)) : Steady s (hostWrote cs s) :=
  .of_keeps (hostWrote_changes cs s) (hostWrote_keeps cs s) (by decide)

theorem hostActs_steady (h : HostSide) : Steady s (hostActs h s) :=
  .of_keeps (hostActs_changes h s) (hostWrote_keeps h.wrote s) (by decide)

theorem updSet_steady (f : Settings → Settings) : Steady s (updSet f s) := .of_changes (updSet_changes f s) (by decide)

theorem updTotals_steady (f : Totals → Totals) : Steady s (updTotals f s) := .of_changes (updTotals_changes f s) (by decide)

theorem updHealth_steady (i : Nat) (f : Health → Health) : Steady s (updHealth i f s) :=
  .of_changes (updHealth_changes i f s) (by decide)

theorem setUnit_steady (i : Nat) (e : UnitEntry) : Steady s (setUnit i e s) := .of_changes (setUnit_changes i e s) (by decide)

theorem setPanel_steady (p : Nat) (v : Panel) : Steady s (setPanel p v s) := .of_changes (setPanel_changes p v s) (by decide)

theorem appendLog_steady (kind code arg : Nat) : Steady s (appendLog kind code arg s) :=
  .of_changes (appendLog_changes kind code arg s) (by decide)

theorem appendHistory_steady (e : List Byte) : Steady s (appendHistory e s) :=
  .of_changes (appendHistory_changes e s) (by decide)

theorem capSpacing_steady : Steady s (capSpacing s) := .of_changes (capSpacing_changes s) (by decide)

theorem writeFsr_steady (c : Nat) (path : List Nat) (u : Option Nat) (l : Option Loc) (q : Option Nat) :
    Steady s (writeFsr c path u l q s) :=
  .of_keeps (writeFsr_changes c path u l q s) (writeFsr_keeps c path u l q s) (by decide)

theorem enterWatch_steady (c i : Nat) : Steady s (enterWatch c i s) :=
  .of_keeps (enterWatch_changes c i s) (enterWatch_keeps c i s) (by decide)

theorem advise_steady (c i : Nat) : Steady s (advise c i s) := .of_keeps (advise_changes c i s) (advise_keeps c i s) (by decide)

theorem judge_steady (c i : Nat) : Steady s (judge c i s) := .of_keeps (judge_changes c i s) (judge_keeps c i s) (by decide)

theorem score_steady (c i : Nat) : Steady s (score c i s) := .of_keeps (score_changes c i s) (score_keeps c i s) (by decide)

theorem settle_steady (i : Nat) : Steady s (settle i s) := .of_keeps (settle_changes i s) (settle_keeps i s) (by decide)

theorem kaPass_steady (i : Nat) : Steady s (kaPass i s) := .of_keeps (kaPass_changes i s) (kaPass_keeps i s) (by decide)

theorem kaFail_steady (i ka q : Nat) (r : KaOutcome) : Steady s (kaFail i ka q r s) :=
  .of_keeps (kaFail_changes i ka q r s) (kaFail_keeps i ka q r s) (by decide)

theorem scoreRun_steady (u k p : Nat) (r : KaOutcome) : Steady s (scoreRun u k p r s) :=
  .of_keeps (scoreRun_changes u k p r s) (scoreRun_keeps u k p r s) (by decide)

theorem endWindowTest_steady : Steady s (endWindowTest s) :=
  .of_keeps (endWindowTest_changes s) (endWindowTest_keeps s) (by decide)

theorem closeWindow_steady : Steady s (closeWindow s) := .ite (.refl s) (endWindowTest_steady s)

theorem takeNotice_steady (n : Notice) : Steady s (takeNotice n s) := .of_changes (takeNotice_changes n s) (by decide)

theorem countDetect_steady (c : Nat) (i : Option Nat) : Steady s (countDetect c i s) :=
  .of_keeps (countDetect_changes c i s) (countDetect_keeps c i s) (by decide)

theorem uncountDetect_steady (c i : Nat) (x : Bool × Bool) : Steady s (uncountDetect c i x s) :=
  .of_changes (uncountDetect_changes c i x s) (by decide)

theorem raiseDetect_steady (c : Nat) (n : UnitField) (k w : Nat) : Steady s (raiseDetect c n k w s) :=
  .of_keeps (raiseDetect_changes c n k w s) (raiseDetect_keeps c n k w s) (by decide)

theorem raiseFaultLoc_steady (l : Loc) : Steady s (raiseFaultLoc l s) := .of_changes (raiseFaultLoc_changes l s) (by decide)

theorem raiseFault_steady (c : Nat) (n : UnitField) (k w : Nat) : Steady s (raiseFault c n k w s) := raiseFaultLoc_steady s _

theorem retract_steady (u w : Nat) : Steady s (retract u w s) := by
  unfold retract
  split
  · exact .ite (.refl s) ((uncountDetect_steady s _ u _).trans (updTile_steady u _ fun _ h => h))
  · exact .refl s

theorem takeMoves_steady (u : Nat) : Steady s (takeMoves u s) :=
  (updTile_steady (f := fun t => { t with moves := [] }) u s fun _ h => h).trans (.foldl (fun a c => judge_steady a c u) _ _)

theorem takeAllMoves_steady : Steady s (takeAllMoves s) := .foldl (fun a u => takeMoves_steady a u) _ s

theorem tileFault_steady (c u k w : Nat) : Steady s (tileFault c u k w s) := by
  unfold tileFault
  exact .ite (((retract_steady s u w).trans (updTile_steady u _ (Tile.formOk_tellTile _ u c w))).trans (raiseFault_steady _ _ _ _ _))
    (.refl s)

theorem tileDetect_steady (c u k w : Nat) : Steady s (tileDetect c u k w s) := by
  unfold tileDetect
  exact .ite (((retract_steady s u w).trans (updTile_steady u _ (Tile.formOk_tellTile _ u c w))).trans (raiseDetect_steady _ _ _ _ _))
    (.refl s)

/-! ## The end of a job, and units that leave service -/

theorem unsealStep_steady : Steady s (unsealStep s) := by
  unfold unsealStep
  split
  · exact .refl s
  · rename_i x _
    have h1 : Steady s (x.lines.foldl (fun a p => updTile p.1 (flipLine p.2) a) s) :=
      .foldl (fun a (p : Nat × Nat) => updTile_steady p.1 a (Tile.formOk_flipLine p.2)) _ s
    have h2 := h1.trans (.foldl (fun a (p : Nat × Nat) => flipPair_steady p.1 p.2 a) x.pairs _)
    exact h2.trans (.foldl (fun a (p : Nat × BitVec 8) => updTile_steady (f := fun t => { t with savedFlags := p.2, flags := p.2 })
      p.1 a fun _ h => h) x.flags _)

theorem dropTest_steady : Steady s (dropTest s) := .of_keeps (dropTest_changes s) (dropTest_keeps s) (by decide)

theorem dropTestOf_steady (i : Nat) : Steady s (dropTestOf i s) := .ite (dropTest_steady s) (.refl s)

theorem dropPort_steady (p : Nat) : Steady s (dropPort p s) := .ite (setPort_steady p _ s) (updPort_steady p _ s)

theorem dropPorts_steady : Steady s (dropPorts s) := eachPort_steady (fun p a => dropPort_steady a p) s

theorem tileLeaves_steady (u : Nat) : Steady s (tileLeaves u s) :=
  .ite (.same rfl) (.trans (.same (by rfl)) (.foldl (fun a v => setTile_steady (v := Tile.clear) (s := a) v fun _ => rfl) _ _))

theorem unitLeaves_steady (i : Nat) : Steady s (unitLeaves i s) := by
  unfold unitLeaves
  refine .ite (tileLeaves_steady s i) (.ite (.ite (setPort_steady _ _ s) (updPort_steady _ _ s))
    (.ite (setMem_steady _ fun _ => ⟨rfl, rfl⟩) (updMem_steady _ s fun m h => ?_)))
  split <;> exact h

theorem leaveService_steady (i : Nat) : Steady s (leaveService i s) := (dropTestOf_steady s i).trans (unitLeaves_steady _ i)

theorem wakeQuad_steady (p : Nat) : Steady s (wakeQuad p s) := .ite (dropPort_steady s p) (.refl s)

theorem wakeQuads_steady : Steady s (wakeQuads s) := .foldl (fun a p => wakeQuad_steady a p) _ s

theorem dropReel_steady : Steady s (dropReel s) := .of_changes (dropReel_changes s) (by decide)

theorem unloadReel_steady : Steady s (unloadReel s) :=
  ((dropReel_steady s).trans (mapPorts_steady retrainAfter _)).trans (wakeQuads_steady _)

theorem releaseHeld_steady (i : Nat) (e : UnitEntry) : Steady s (releaseHeld i e s) := by
  unfold releaseHeld
  extract_lets s1 s2
  have h2 : Steady s s2 := (setUnit_steady s _ _).trans (updSet_steady s1 _)
  exact (h2.trans (.ite (appendLog_steady s2 _ _ _) (.refl s2))).trans (leaveService_steady _ i)

theorem releaseAll_steady : Steady s (releaseAll s) :=
  .foldl (fun a (x : Nat × UnitEntry) => releaseHeld_steady a x.1 x.2) _ s

theorem jobBoundary_steady : Steady s (jobBoundary s) := by
  unfold jobBoundary
  extract_lets s1
  have h1 : Steady s s1 := releaseAll_steady s
  split
  · exact h1.trans ((unloadReel_steady s1).trans (post_steady _ _ _))
  · exact h1

theorem clearJob_steady (f : Bool) : Steady s (clearJob f s) :=
  ((mapTiles_steady s (Tile.formOk_stopped s.job.vetoes s.job.slot)).trans (mapPorts_steady portAfterJob _)).trans (.same rfl)

theorem finishJob_steady (n : Nat) (f : Bool) : Steady s (finishJob n f s) := by
  unfold finishJob
  extract_lets l s1
  have h1 : Steady s s1 := ((unsealStep_steady s).trans (endWindowTest_steady _)).trans (clearJob_steady _ f)
  exact (h1.trans (complete_steady s1 _)).trans (jobBoundary_steady _)

theorem disarm_steady : Steady s (disarm s) := .ite (finishJob_steady s _ _) (.refl s)

theorem endByFault_steady (l : Loc) : Steady s (endByFault l s) := by
  unfold endByFault
  extract_lets f s1 s2 s3
  have h1 : Steady s s1 := (unsealStep_steady s).trans (updTotals_steady _ _)
  have h3 : Steady s1 s3 := (writeFsr_steady s1 _ _ _ _ _).trans (postAt_steady _ _ _ _ _)
  exact (h1.trans h3).trans (finishJob_steady _ _ _)

end

end Sys2Proof.Machine
end

section
/-! Proofs: stops, resets, the time base and start-up keep what every command keeps. -/

namespace Sys2Proof.Machine

section
variable (s : State)

/-! ## Stops and resets -/

theorem stopPort_steady (p : Nat) : Steady s (stopPort p s) := .ite (setPort_steady p _ s) (.ite (.refl s) (setPort_steady p _ s))

theorem stopJob_steady (c : StopCause) : Steady s (stopJob c s) :=
  .ite (.trans (t := { s with job := { s.job with ownFault := none } }) (.same (by rfl)) (endByFault_steady _ _))
    ((disarm_steady s).trans (writeFsr_steady _ _ _ _ _ _))

theorem Stack.formOk_unmarked (m : Stack) (h : m.formOk) : m.unmarked.formOk := ⟨rfl, h.2⟩

theorem Stack.formOk_resting (m : Stack) (h : m.formOk) : m.resting.formOk := ⟨rfl, h.2⟩

theorem stopUnits_steady : Steady s (stopUnits s) :=
  (((unloadReel_steady s).trans (noTiles_steady _)).trans (mapMems_steady _ Stack.formOk_resting)).trans (.same rfl)

theorem postStopped_steady (c : StopCause) : Steady s (postStopped c s) := (post_steady s _ _).trans (appendLog_steady _ _ _ _)

theorem stopPackage_steady (c : StopCause) : Steady s (stopPackage c s) := by
  unfold stopPackage
  extract_lets y tray z s1
  have h1 : Steady s s1 := .same rfl
  have h2 := (h1.trans (eachPort_steady (fun p a => stopPort_steady a p) s1)).trans (stopJob_steady _ c)
  exact .ite (.same rfl) (((h2.trans (dropTest_steady _)).trans (stopUnits_steady _)).trans (postStopped_steady _ c))

theorem quietFsr_steady (l : Loc) : Steady s (quietFsr l s) :=
  .of_changes ((keepFsr_changes _ none s).both (C := [.fsrs, .health, .alerts]) (pushAlert_changes _ _ _ _) (by decide) (by decide))
    (by decide)

theorem resetJob_steady (code : Nat) : Steady s (resetJob code s) :=
  .ite (((unsealStep_steady s).trans (updTotals_steady _ _)).trans (quietFsr_steady _ _)) (.refl s)

theorem unpowered_steady (mv : Nat) : Steady s (unpowered mv s) :=
  (((noTiles_steady s).trans (noMems_steady _)).trans (noPorts_steady _)).trans (.same rfl)

theorem resetShared_steady (link : LinkInfo) : Steady s (resetShared link s) := by
  unfold resetShared
  extract_lets s1
  have hc : changesOnly [.reel, .far, .det, .ldr, .power, .ports] s s1 :=
    (dropReel_changes s).both (wakeQuads_changes _) (by decide) (by decide)
  have hh : s.window.hostMem = s1.window.hostMem := (hc .host (by decide)).symm
  have h1 : Steady s s1 := (dropReel_steady s).trans (wakeQuads_steady _)
  have h2 : Steady s1 { s1 with tiles := [], window := { Window.reset with hostMem := s.window.hostMem } } :=
    (noTiles_steady s1).trans (.same (by rw [← hh]))
  exact ((h1.trans h2).trans (.same rfl)).trans (releaseAll_steady _)

theorem takeSnapshot_steady : Steady s (takeSnapshot s) := .foldl (fun a e => appendHistory_steady a e) _ s

theorem clearCounters_steady : Steady s (clearCounters s) := .same rfl

theorem fundamentalReset_steady : Steady s (fundamentalReset s) := by
  unfold fundamentalReset
  extract_lets s1 s2 boot s3 s4
  have h1 : Steady s s1 :=
    (((Steady.same rfl : Steady s (haltPacer s)).trans (resetJob_steady _ _)).trans (takeSnapshot_steady _)).trans
      (clearCounters_steady _)
  have h3 : Steady s1 s3 :=
    (((resetShared_steady s1 _).trans (noMems_steady s2)).trans (mapPorts_steady portReset _)).trans (.same rfl)
  exact ((h1.trans h3).trans (dropPorts_steady s3)).trans (appendLog_steady s4 _ _ _)

theorem hotResetAll_steady : Steady s (hotResetAll s) := by
  unfold hotResetAll
  extract_lets s1 bridle pacer boot s2
  have h1 : Steady s s1 := (resetJob_steady s _).trans (resetShared_steady _ _)
  have h2 : Steady s1 s2 := ((mapMems_steady s1 Stack.formOk_unmarked).trans (mapPorts_steady portKept _)).trans (.same rfl)
  exact (h1.trans h2).trans (appendLog_steady s2 _ _ _)

/-! ## The time base -/

theorem updTb_steady (f : TimeBase → TimeBase) : Steady s (updTb f s) := .same rfl

theorem postMissed_steady (n k : Nat) : Steady s (postMissed n k s) := post_steady s _ _

theorem loseRef10m_steady : Steady s (loseRef10m s) := (updTb_steady s _).trans (post_steady _ _ _)

theorem stepOut_steady (old new n : Nat) : Steady s (stepOut old new n s) := by
  unfold stepOut
  extract_lets r s1
  have h1 : Steady s s1 := .same rfl
  split
  · exact h1.trans (postMissed_steady s1 _ _)
  · exact h1

theorem acceptStep_steady (off : Int) : Steady s (acceptStep off s) := (updTb_steady s _).trans (post_steady _ _ _)

theorem takeStep_steady : Steady s (takeStep s) := by
  unfold takeStep
  split
  · extract_lets t
    exact .trans (t := { s with tb := t }) (.same (by rfl)) (.foldl (fun a n => stepOut_steady a _ _ n) _ _)
  · exact .refl s

theorem timeCycle_steady : Steady s (timeCycle s) := (takeStep_steady s).trans (updTb_steady _ _)

theorem toutGo_steady (n : Nat) (v : Word32) : Steady s (toutGo n v s) :=
  .ite (.ite (.ite ((updTb_steady s _).trans (postMissed_steady _ _ _)) (updTb_steady s _)) (updTb_steady s _)) (.refl s)

theorem tbStepGo_steady (v : Word32) : Steady s (tbStepGo v s) :=
  .ite (.ite (updTb_steady s _) (.ite (updTb_steady s _) ((updTb_steady s _).trans (acceptStep_steady _ _)))) (.refl s)

theorem tbCivilSetGo_steady (v : Word32) : Steady s (tbCivilSetGo v s) := by
  unfold tbCivilSetGo
  refine .ite ?_ (.refl s)
  extract_lets t
  split
  · exact updTb_steady s _
  · exact updTb_steady s _
  · exact .ite (updTb_steady s _) ((updTb_steady s _).trans (acceptStep_steady _ _))

theorem tbModeGo_steady (v : Word32) : Steady s (tbModeGo v s) :=
  .ite (.ite (updTb_steady s _) (updTb_steady s _)) (.refl s)

theorem tbRateGo_steady (v : Word32) : Steady s (tbRateGo v s) :=
  .ite (.ite (updTb_steady s _) (updTb_steady s _)) (.refl s)

theorem tbSlewGo_steady (v : Word32) : Steady s (tbSlewGo v s) :=
  .ite (.ite (updTb_steady s _) (.ite (updTb_steady s _) (.ite (updTb_steady s _) (updTb_steady s _)))) (.refl s)

theorem tbCivilGo_steady (v : Word32) : Steady s (tbCivilGo v s) := .ite (updTb_steady s _) (.refl s)

theorem capPopGo_steady (c : Nat) (v : Word32) : Steady s (capPopGo c v s) := .ite (updTb_steady s _) (.refl s)

theorem exec_ref10mLoss_steady : EndsSteady s (exec .ref10mLoss s) :=
  .next (.ite (.trans (t := { s with tray := { s.tray with ref10m := false } }) (.same (by rfl)) (loseRef10m_steady _)) (.same rfl))

theorem exec_ref10mReturn_steady : EndsSteady s (exec .ref10mReturn s) :=
  .next (.ite (.trans (t := updTb _ { s with tray := { s.tray with ref10m := true } }) (.same (by rfl)) (post_steady _ _ _)) (.same rfl))

theorem exec_captureEdge_steady (c : Nat) (rising : Bool) : EndsSteady s (exec (.captureEdge c rising) s) :=
  .next (.ite (.ite (.ite (updTb_steady s _) ((updTb_steady s _).trans (post_steady _ _ _)))
    (.ite ((updTb_steady s _).trans (postAt_steady _ _ _ _ _)) (updTb_steady s _))) (.refl s))

/-! ## Start-up -/

theorem coldStart_forms (mv : Nat) (straps : BitVec 6) (okA okB : Bool) :
    Steady { s with ident := { s.ident with slotId := straps } } (coldStart mv straps okA okB s) := by
  unfold coldStart
  extract_lets ident c vol s1 boot store s2 s3
  have h2 : Steady { s with ident := { s.ident with slotId := straps } } s2 :=
    (unpowered_steady { s with ident := { s.ident with slotId := straps } } mv).trans (.same rfl)
  have h3 : Steady _ s3 := h2.trans (appendLog_steady s2 _ _ _)
  exact .ite h3 (h3.trans (loseRef10m_steady s3))

theorem exec_serviceBootEnd_steady : EndsSteady s (exec .serviceBootEnd s) :=
  .next_ite (.trans (t := { s with boot := _ }) (.same (by rfl)) (dropPorts_steady _))

theorem exec_perstNRise_steady : EndsSteady s (exec .perstNRise s) := .next (.ite (.same rfl) (.same rfl))

theorem exec_perstNFall_steady : EndsSteady s (exec .perstNFall s) := by
  change EndsSteady s (execPerstNFall s)
  unfold execPerstNFall
  extract_lets tray s1
  have h1 : Steady s s1 := .same rfl
  have h2 := h1.trans (fundamentalReset_steady s1)
  refine .next ?_
  split
  · exact h2
  · exact h2
  · exact h2
  · exact h2
  · exact h1

theorem exec_memoryInitEnd_steady : EndsSteady s (exec .memoryInitEnd s) := by
  have hk : ∀ k, (initStack s k).formOk := by
    intro k
    unfold initStack
    split <;> exact ⟨rfl, rfl⟩
  exact .next_ite ((Steady.foldl (fun a k => setMem_steady k fun _ => hk k) _ s).trans (.same rfl))

theorem restFenced_steady (k : Nat) : Steady s (restFenced k s) := by
  unfold restFenced
  refine .ite (updMem_steady k s fun m h => ?_) (.refl s)
  exact h

theorem potFail_steady (x : Nat × BitVec 8 × KaOutcome) : Steady s (potFail x s) :=
  .ite (.refl s) (.trans (t := { s with boot := _ }) (.same (by rfl)) (kaFail_steady _ _ _ _ _))

theorem exec_selfTestEnd_steady (fails : List (Nat × BitVec 8 × KaOutcome)) : EndsSteady s (exec (.selfTestEnd fails) s) := by
  change EndsSteady s (execSelfTestEnd fails s)
  unfold execSelfTestEnd
  extract_lets s1 boot s2
  have h1 : Steady s s1 :=
    (Steady.foldl (fun a x => potFail_steady a x) _ s).trans (.foldl (fun a i => kaPass_steady a i) _ _)
  have h2 : Steady s s2 := h1.trans (.same rfl)
  exact .next_ite ((h2.trans (.foldl (fun a k => restFenced_steady a k) _ _)).trans (dropPorts_steady _))

theorem exec_stageOverrun_steady : EndsSteady s (exec .stageOverrun s) :=
  .next_ite (.trans (t := { s with boot := _ }) (.same (by rfl)) (writeFsr_steady _ _ _ _ _ _))

end

end Sys2Proof.Machine
end

section
/-! Proofs: the cold start (R33, R45). -/

namespace Sys2Proof.Machine

/-! ## Reading a frame -/

section
variable {A : List Part} {s t : State}

/-- A change that spares the settings and the banks spares the whole store. -/
theorem changesOnly.store_eq (h : changesOnly A s t) (hs : Part.settings ∉ A) (hb : Part.banks ∉ A) : t.store = s.store := by
  have e1 : t.store.set = s.store.set := h .settings hs
  have e2 : { t.store with set := s.store.set } = s.store := h .banks hb
  rw [← e1] at e2
  exact e2

/-- The rings keep their committed settings under a change that spares their registers. -/
theorem changesOnly.ringCfg_eq (h : changesOnly A s t) (hr : Part.ringRegs ∉ A) : t.rings.committed = s.rings.committed := by
  have e := h .ringRegs hr
  simp only [Part.same] at e
  have e2 := congrArg Rings.committed e
  exact e2

end

/-! ## The time base without its reference -/

theorem setOut_outs (n : Nat) (o : Tout) (t : TimeBase) : setOut n o t = { t with outs := (setOut n o t).outs } := rfl

/-- The end of the pulses changes the outputs alone. -/
theorem endPulses_outs (t : TimeBase) : endPulses t = { t with outs := (endPulses t).outs } := by
  have h : ∀ (l : List Nat) (a : TimeBase), l.foldl (fun a n => setOut n (endPulse (outOf a n)) a) a =
      { a with outs := (l.foldl (fun a n => setOut n (endPulse (outOf a n)) a) a).outs } := by
    intro l
    induction l with
    | nil => intro a; rfl
    | cons n l ih => intro a; rw [List.foldl_cons, ih]; rfl
  exact h _ t

theorem updTb_changes (f : TimeBase → TimeBase) (s : State) : changesOnly [.tb] s (updTb f s) := by
  intro p hp
  cases p
  case tb => exact absurd (by decide) hp
  all_goals rfl

theorem loseRef10m_changes (s : State) : changesOnly (.tb :: posts) s (loseRef10m s) :=
  (updTb_changes _ s).both (post_changes _ _ _) (by decide) (by decide)

theorem loseRef10m_tb (s : State) : (loseRef10m s).tb = { s.tb with
    outs := (endPulses s.tb).outs, refLost := true, events := s.tb.events ||| 2, valid := false, stepUsed := false,
    slewRem := 0 } := by
  have h : (loseRef10m s).tb = { endPulses s.tb with
      refLost := true, events := s.tb.events ||| 2, valid := false, stepUsed := false, slewRem := 0 } :=
    post_changes _ _ _ .tb (by decide)
  rw [h, endPulses_outs]

/-! ## The bank that a cold start loads -/

theorem chooseBank_of_a {t : Store} {a b : Bool} (ha : a = true ∧ t.bankA.intact = true)
    (hb : b = true ∧ t.bankB.intact = true → t.bankB.generation < t.bankA.generation) : chooseBank t a b = some false := by
  have hle : b = true ∧ t.bankB.intact = true → ¬ t.bankA.generation < t.bankB.generation := fun h => Nat.not_lt_of_gt (hb h)
  cases hbi : b && t.bankB.intact
  · simp [chooseBank, ha, hbi]
  · simp [chooseBank, ha, hbi, hle (by simpa using hbi)]

theorem chooseBank_of_b {t : Store} {a b : Bool} (hb : b = true ∧ t.bankB.intact = true)
    (ha : a = true ∧ t.bankA.intact = true → t.bankA.generation < t.bankB.generation) : chooseBank t a b = some true := by
  cases hai : a && t.bankA.intact
  · simp [chooseBank, hb, hai]
  · simp [chooseBank, hb, hai, ha (by simpa using hai)]

theorem chooseBank_of_none {t : Store} {a b : Bool} (ha : ¬ (a = true ∧ t.bankA.intact = true))
    (hb : ¬ (b = true ∧ t.bankB.intact = true)) : chooseBank t a b = none := by
  have ha' : (a && t.bankA.intact) = false := by simpa using ha
  have hb' : (b && t.bankB.intact) = false := by simpa using hb
  simp [chooseBank, ha', hb']

/-- Settles O6: the loss of the reference changes the time base and the event's parts alone (`loseRef10m_changes`), and
`chooseBank` names the valid bank of the higher generation. -/
theorem coldStartLoadsABank : Obligations.ColdStartLoadsABank := by
  unfold Obligations.ColdStartLoadsABank
  intro s mv straps a b hoff hmv
  refine ⟨coldStart mv straps a b s, congrArg _ (if_pos ⟨hoff, hmv⟩), ?_⟩
  unfold coldStart
  extract_lets c vol s1 ident boot store s2 s3
  generalize ht : (if s.tray.ref10m = true then s3 else loseRef10m s3) = t
  have hc : changesOnly (.tb :: posts) s3 t := ht ▸ .ite (.refl _ s3) (loseRef10m_changes s3)
  have htb : t.tb.sec = 0 ∧ t.tb.ns = 0 ∧ t.tb.valid = false := by
    rw [← ht]
    split
    · exact ⟨rfl, rfl, rfl⟩
    · rw [loseRef10m_tb]
      exact ⟨rfl, rfl, rfl⟩
  have hstore : t.store = s3.store := hc.store_eq (by decide) (by decide)
  have hboot : t.boot = s3.boot := hc .boot (by decide)
  have hrings : t.rings.committed = s3.rings.committed := hc.ringCfg_eq (by decide)
  have hstop : t.stop = s3.stop := hc .stop (by decide)
  have htray : t.tray = s3.tray := hc .tray (by decide)
  rw [hstore, hboot, hrings, hstop, htray]
  refine ⟨rfl, rfl, hc .ident (by decide), rfl, htb.1, htb.2.1, htb.2.2, hc .reel (by decide), hc .job (by decide),
    hc .tiles (by decide), hc .mems (by decide), hc .ports (by decide), hc .bridle (by decide), hc .totals (by decide),
    hc .health (by decide), hc .work (by decide), rfl, rfl, rfl, rfl, rfl, fun ha hb => ?_, fun hb ha => ?_, fun ha hb => ?_⟩
  · have e : c = some false := chooseBank_of_a ha hb
    simp [s3, s2, appendLog, vol, store, e, loadedSet, Settings.unheld]
  · have e : c = some true := chooseBank_of_b hb ha
    simp [s3, s2, appendLog, vol, store, e, loadedSet, Settings.unheld]
  · have e : c = none := chooseBank_of_none ha hb
    simp [s3, s2, appendLog, vol, store, e, loadedSet, Settings.unheld, Settings.defaults, mapVals]

end Sys2Proof.Machine
end

section
/-! Proofs: single fields of the state, tables that are written key by key, and what units and ports depend on. -/

namespace Sys2Proof.Machine

/-! ## One field of the state -/

section
variable (s : State)

theorem withTray_changes (x : Tray) : changesOnly [.tray] s { s with tray := x } := by
  intro p hp
  cases p
  case tray => exact absurd (by decide) hp
  all_goals rfl

theorem withBoot_changes (x : Boot) : changesOnly [.boot] s { s with boot := x } := by
  intro p hp
  cases p
  case boot => exact absurd (by decide) hp
  all_goals rfl

theorem withStop_changes (x : Stop) : changesOnly [.stop] s { s with stop := x } := by
  intro p hp
  cases p
  case stop => exact absurd (by decide) hp
  all_goals rfl

theorem withPorts_changes (x : Sparse Port) : changesOnly [.ports] s { s with ports := x } := by
  intro p hp
  cases p
  case ports => exact absurd (by decide) hp
  all_goals rfl

theorem withMems_changes (x : Sparse Stack) : changesOnly [.mems] s { s with mems := x } := by
  intro p hp
  cases p
  case mems => exact absurd (by decide) hp
  all_goals rfl

theorem withTiles_changes (x : Sparse Tile) : changesOnly [.tiles] s { s with tiles := x } := by
  intro p hp
  cases p
  case tiles => exact absurd (by decide) hp
  all_goals rfl

theorem withPacer_changes (x : Pacer) : changesOnly [.pacer] s { s with pacer := x } := by
  intro p hp
  cases p
  case pacer => exact absurd (by decide) hp
  all_goals rfl

theorem withBridle_changes (x : Bridle) : changesOnly [.bridle] s { s with bridle := x } := by
  intro p hp
  cases p
  case bridle => exact absurd (by decide) hp
  all_goals rfl

theorem withJob_changes (x : Job) : changesOnly [.job] s { s with job := x } := by
  intro p hp
  cases p
  case job => exact absurd (by decide) hp
  all_goals rfl

theorem withPower_changes (x : Power) : changesOnly [.power] s { s with power := x } := by
  intro p hp
  cases p
  case power => exact absurd (by decide) hp
  all_goals rfl

theorem withLink_changes (x : LinkInfo) : changesOnly [.ringRegs] s { s with rings := { s.rings with link := x } } := by
  intro p hp
  cases p
  case ringRegs => exact absurd (by decide) hp
  all_goals rfl

end

/-! ## Tables written key by key -/

section
variable {α : Type} [DecidableEq α] {d : α} (g : Nat → α → α) (m : Sparse α)

/-- Each of the first `n` keys gets its new value, made from its old one. -/
def storeEach (d : α) (n : Nat) : Sparse α := (List.range n).foldl (fun a k => store d k (g k (look d k a)) a) m

theorem look_storeEach (n k : Nat) : look d k (storeEach g m d n) = if k < n then g k (look d k m) else look d k m := by
  induction n with
  | zero => rfl
  | succ n ih =>
    have hstep : storeEach g m d (n + 1) =
        store d n (g n (look d n (storeEach g m d n))) (storeEach g m d n) := by
      simp [storeEach, List.range_succ]
    by_cases hk : k = n
    · subst hk
      have hself : look d k (storeEach g m d k) = look d k m := by simpa using ih
      rw [hstep, look_store_self, hself, if_pos (Nat.lt_succ_self k)]
    · rw [hstep, look_store_other hk, ih]
      by_cases hlt : k < n
      · simp [hlt, Nat.lt_succ_of_lt hlt]
      · simp [hlt, show ¬ k < n + 1 by omega]

end

/-- An operation that writes port `p` alone, from the port and from nothing else that such operations change, writes every populated
port in turn. -/
theorem eachPort_eq {f : Nat → State → State} (s : State) (g : Nat → Port → Port)
    (hf : ∀ (p : Nat) (l : Sparse Port),
      f p { s with ports := l } = { s with ports := store Port.off p (g p (look Port.off p l)) l }) :
    eachPort f s = { s with ports := storeEach g s.ports Port.off (portCount s) } := by
  have h : ∀ (l : List Nat) (ps : Sparse Port), l.foldl (fun a p => f p a) { s with ports := ps } =
      { s with ports := l.foldl (fun a p => store Port.off p (g p (look Port.off p a)) a) ps } := by
    intro l
    induction l with
    | nil => intro ps; rfl
    | cons p l ih => intro ps; rw [List.foldl_cons, hf, ih]; rfl
  exact h _ s.ports

/-! ## Dropped ports -/

/-- A port as `dropPort` leaves it. -/
def droppedPort (s : State) (p : Nat) (v : Port) : Port :=
  if unitSt s (1024 + p) = .off then { v with st := .off, sends := .none } else portDown (idleSignal s p) v

theorem dropPort_eq (s : State) (p : Nat) : dropPort p s = setPort p (droppedPort s p (portOf s p)) s := by
  unfold dropPort droppedPort
  split <;> rfl

theorem dropPorts_eq (s : State) :
    dropPorts s = { s with ports := storeEach (droppedPort s) s.ports Port.off (portCount s) } :=
  eachPort_eq s (droppedPort s) fun p l => dropPort_eq { s with ports := l } p

theorem portOf_dropPorts {s : State} {p : Nat} (hp : portPop s p = true) :
    portOf (dropPorts s) p = droppedPort s p (portOf s p) := by
  have hlt : p < portCount s := of_decide_eq_true hp
  rw [dropPorts_eq, portOf, look_storeEach, if_pos hlt]
  rfl

theorem droppedPort_sends {s : State} {p : Nat} (hu : unitSt s (1024 + p) ≠ .off) (v : Port) :
    (droppedPort s p v).sends = idleSignal s p := by
  rw [droppedPort, if_neg hu]
  rfl

/-- Before READY a port that has its unit and its reference sends NOT_READY (R40). -/
theorem idleSignal_notReady {s : State} {p : Nat} (hoff : s.boot.stage ≠ .off) (hboot : s.boot.stage ≠ .serviceBoot)
    (hready : s.boot.stage ≠ .ready) (hu : unitSt s (1024 + p) ≠ .off) (hl : lrefOn s (p / 16) = true) :
    idleSignal s p = .notReady := by
  simp [idleSignal, hoff, hboot, hready, hu, hl]

/-! ## What a unit's entry depends on -/

section
variable {A : List Part} {s t : State}

theorem unitPop_of_ident (h : t.ident = s.ident) : unitPop t = unitPop s := by
  funext i
  unfold unitPop portPop portCount stackPop
  rw [h]

theorem unitEntry_of_units (hi : t.ident = s.ident) (hu : t.store.set.units = s.store.set.units) : unitEntry t = unitEntry s := by
  funext i
  unfold unitEntry
  rw [unitPop_of_ident hi, hu]

theorem unitSt_of_units (hi : t.ident = s.ident) (hu : t.store.set.units = s.store.set.units) : unitSt t = unitSt s := by
  funext i
  simp only [unitSt, unitEntry_of_units hi hu]

theorem changesOnly.unitEntry_eq (h : changesOnly A s t) (hi : Part.ident ∉ A) (hs : Part.settings ∉ A) :
    unitEntry t = unitEntry s := by
  have e : t.store.set = s.store.set := h .settings hs
  exact unitEntry_of_units (h .ident hi) (congrArg Settings.units e)

theorem changesOnly.unitSt_eq (h : changesOnly A s t) (hi : Part.ident ∉ A) (hs : Part.settings ∉ A) : unitSt t = unitSt s := by
  have e : t.store.set = s.store.set := h .settings hs
  exact unitSt_of_units (h .ident hi) (congrArg Settings.units e)

theorem changesOnly.healthOf_eq (h : changesOnly A s t) (hh : Part.health ∉ A) : healthOf t = healthOf s := by
  have e : t.sec.health = s.sec.health := h .health hh
  funext i
  rw [healthOf, healthOf, e]

theorem changesOnly.memOf_eq (h : changesOnly A s t) (hh : Part.mems ∉ A) : memOf t = memOf s := by
  have e : t.mems = s.mems := h .mems hh
  funext k
  rw [memOf, memOf, e]

theorem changesOnly.portOf_eq (h : changesOnly A s t) (hh : Part.ports ∉ A) : portOf t = portOf s := by
  have e : t.ports = s.ports := h .ports hh
  funext k
  rw [portOf, portOf, e]

theorem changesOnly.tileOf_eq (h : changesOnly A s t) (hh : Part.tiles ∉ A) : tileOf t = tileOf s := by
  have e : t.tiles = s.tiles := h .tiles hh
  funext k
  rw [tileOf, tileOf, e]

end

end Sys2Proof.Machine
end

section
/-! Proofs: the stages of start-up hand over to one another (Table 3-1). -/

namespace Sys2Proof.Machine

theorem next_if_pos {c : Prop} [Decidable c] {a b : State} (h : c) :
    (Host.Outcome.next (if c then a else b) : Host.Outcome State Fault Refusal) = .next a := by rw [if_pos h]

theorem next_if_neg {c : Prop} [Decidable c] {a b : State} (h : ¬ c) :
    (Host.Outcome.next (if c then a else b) : Host.Outcome State Fault Refusal) = .next b := by rw [if_neg h]

/-! ## A run over a list, seen at one key -/

section
variable {α β : Type} {f : State → α → State} {v : State → β} {i : α}

/-- What every element keeps, a run over a list keeps. -/
theorem foldl_keeps {P : State → Prop} (h : ∀ a x, P a → P (f a x)) (l : List α) {s : State} (hs : P s) : P (l.foldl f s) := by
  induction l generalizing s with
  | nil => exact hs
  | cons x l ih => exact ih (h s x hs)

/-- What no element but `i` touches is the same after a run over a list without `i`. -/
theorem foldl_view_of_not_mem (h : ∀ a x, x ≠ i → v (f a x) = v a) {l : List α} (hi : i ∉ l) (s : State) :
    v (l.foldl f s) = v s := by
  induction l generalizing s with
  | nil => rfl
  | cons x l ih =>
    obtain ⟨hx, hl⟩ := not_or.mp (mt List.mem_cons.mpr hi)
    rw [List.foldl_cons, ih hl, h s x (Ne.symm hx)]

/-- What no element but `i` touches is seen by `i` as it was, and is left as `i` leaves it, in a run over a list that has `i` once. -/
theorem foldl_view_of_mem (h : ∀ a x, x ≠ i → v (f a x) = v a) {l : List α} (hl : l.Nodup) (hi : i ∈ l) (s : State) :
    ∃ a, v a = v s ∧ v (l.foldl f s) = v (f a i) := by
  obtain ⟨l₁, l₂, rfl⟩ := List.append_of_mem hi
  obtain ⟨-, h₂, hd⟩ := List.nodup_append.mp hl
  have hi₁ : i ∉ l₁ := fun hm => hd i hm i (List.mem_cons_self ..) rfl
  have hi₂ : i ∉ l₂ := (List.nodup_cons.mp h₂).1
  refine ⟨l₁.foldl f s, foldl_view_of_not_mem h hi₁ s, ?_⟩
  rw [List.foldl_append, List.foldl_cons, foldl_view_of_not_mem h hi₂]

end

/-! ## Unit entries and known-answer passes -/

section
variable {s : State} {i j : Nat}

theorem unitEntry_setUnit_other (h : j ≠ i) (e : UnitEntry) (s : State) : unitEntry (setUnit i e s) j = unitEntry s j := by
  by_cases he : unitEntry s i = e
  · rw [setUnit, if_pos he]
  · have hl := look_store_other h { st := .active, held := false } e s.store.set.units
    rw [setUnit, if_neg he]
    change (if unitPop s j then look _ j (store _ i e s.store.set.units) else _) = _
    rw [hl]
    rfl

theorem unitEntry_setUnit_self (h : unitPop s i = true) (e : UnitEntry) : unitEntry (setUnit i e s) i = e := by
  by_cases he : unitEntry s i = e
  · rw [setUnit, if_pos he, he]
  · have hl := look_store_self { st := .active, held := false } i e s.store.set.units
    rw [setUnit, if_neg he]
    change (if unitPop s i then look _ i (store _ i e s.store.set.units) else _) = _
    rw [hl, if_pos h]

theorem healthOf_updHealth_other (h : j ≠ i) (f : Health → Health) (s : State) : healthOf (updHealth i f s) j = healthOf s j :=
  healthOf_setHealth_other h _ s

/-- The entry and the health of one unit. -/
def unitView (j : Nat) (s : State) : UnitEntry × Health := (unitEntry s j, healthOf s j)

theorem unitSt_of_unitView {t : State} (h : unitView j t = unitView j s) : unitSt t j = unitSt s j :=
  congrArg (fun x : UnitEntry × Health => shownSt x.1) h

theorem unitView_updHealth_other (h : j ≠ i) (f : Health → Health) (s : State) : unitView j (updHealth i f s) = unitView j s :=
  Prod.ext rfl (healthOf_updHealth_other h f s)

theorem unitView_post (j : Nat) (code : BitVec 16) (info : List Byte) (s : State) : unitView j (post code info s) = unitView j s := by
  have hc := post_changes code info s
  rw [unitView, unitView, hc.unitEntry_eq (by decide) (by decide), hc.healthOf_eq (by decide)]

theorem unitView_setUnit_other (h : j ≠ i) (e : UnitEntry) (s : State) : unitView j (setUnit i e s) = unitView j s := by
  have hc := setUnit_changes i e s
  rw [unitView, unitView, unitEntry_setUnit_other h, hc.healthOf_eq (by decide)]

theorem unitView_settle_other (h : j ≠ i) (s : State) : unitView j (settle i s) = unitView j s := by
  unfold settle
  extract_lets h0 s1 s2
  split
  · rw [unitView_post, unitView_updHealth_other h, unitView_setUnit_other h]
  · rfl

theorem unitView_kaPass_other (h : j ≠ i) (s : State) : unitView j (kaPass i s) = unitView j s := by
  unfold kaPass
  split
  · rw [unitView_settle_other h, unitView_updHealth_other h]
  · rfl

/-- A unit in service. -/
def inService (s : State) (i : Nat) : Prop := unitSt s i = .active ∨ unitSt s i = .watch

theorem portPop_of_ident {t : State} (h : t.ident = s.ident) : portPop t = portPop s := by
  funext p
  unfold portPop portCount
  rw [h]

theorem ne_off_of_inService (h : inService s i) : unitSt s i ≠ .off := by
  rcases h with h | h <;> simp [h]

theorem ne_fenced_of_inService (h : inService s i) : unitSt s i ≠ .fenced := by
  rcases h with h | h <;> simp [h]

/-- In READY a port in service with its reference sends WAKE (R112). -/
theorem idleSignal_wake {p : Nat} (hready : s.boot.stage = .ready) (hstop : s.stop.stopped = false)
    (hu : inService s (1024 + p)) (hl : lrefOn s (p / 16) = true) : idleSignal s p = .wake := by
  simp [idleSignal, hready, hstop, ne_off_of_inService hu, ne_fenced_of_inService hu, fencedOut, hl]

theorem unitPop_of_inService (h : inService s i) : unitPop s i = true := by
  by_contra hp
  simp [inService, unitSt, unitEntry, hp, shownSt] at h

theorem inService_of_unitView {t : State} (h : unitView j t = unitView j s) : inService t j ↔ inService s j := by
  rw [inService, inService, unitSt_of_unitView h]

theorem inService_setUnit {e : UnitEntry} (he : shownSt e = .active ∨ shownSt e = .watch) (h : inService s j) (i : Nat) :
    inService (setUnit i e s) j := by
  by_cases hj : j = i
  · subst hj
    have hs := unitEntry_setUnit_self (unitPop_of_inService h) e
    simpa only [inService, unitSt, hs] using he
  · exact (inService_of_unitView (unitView_setUnit_other hj e s)).mpr h

theorem inService_updHealth (h : inService s j) (i : Nat) (f : Health → Health) : inService (updHealth i f s) j := h

/-- A pass takes no unit out of service. -/
theorem inService_kaPass (i : Nat) (h : inService s j) : inService (kaPass i s) j := by
  unfold kaPass settle
  extract_lets h0 s1 s2
  split
  · split
    · have hset : inService (setUnit i { st := .active, held := false } (updHealth i _ s)) j :=
        inService_setUnit (.inl rfl) (inService_updHealth h i (fun h => { h with passes := h.passes + 1 })) i
      exact (inService_of_unitView (unitView_post j _ _ s2)).mpr hset
    · exact h
  · exact h

theorem kaPass_of_ne_watch (h : unitSt s i ≠ .watch) : kaPass i s = s := if_neg h

/-- A pass of a unit in WATCH whose score is not 0 counts, and the unit stays (R207). -/
theorem kaPass_of_score (h : unitSt s i = .watch) (hs : (healthOf s i).score ≠ 0) :
    kaPass i s = updHealth i (fun h => { h with passes := h.passes + 1 }) s := by
  have hs' : ¬ (healthOf (updHealth i (fun h => { h with passes := h.passes + 1 }) s) i).score = 0 := by simpa using hs
  rw [kaPass, if_pos h, settle]
  exact if_neg fun hc => hs' hc.2.1

end

theorem keys_nodup {α : Type} {m : Sparse α} (h : risingKeys m = true) : (m.map (fun x => x.1)).Nodup := by
  induction m with
  | nil => exact List.nodup_nil
  | cons x m ih =>
    obtain ⟨habove, hm⟩ := (risingKeys_cons x m).mp h
    refine List.nodup_cons.mpr ⟨fun hx => ?_, ih hm⟩
    obtain ⟨y, hy, he⟩ := List.mem_map.mp hx
    exact absurd (habove y hy) (by simp only [he]; omega)

/-- A unit that is not ACTIVE, of a populated position, is listed. -/
theorem listed_of_watch {s : State} {i : Nat} (h : unitSt s i = .watch) : i ∈ s.store.set.units.map (fun x => x.1) := by
  by_cases hp : unitPop s i = true
  · cases e : find? i s.store.set.units with
    | some v => exact List.mem_map.mpr ⟨_, mem_of_find? e, rfl⟩
    | none => simp [unitSt, unitEntry, hp, look, e, shownSt] at h
  · simp [unitSt, unitEntry, hp, shownSt] at h

theorem mem_potPassed_nil {s : State} {i : Nat} : i ∈ potPassed [] s ↔ i < 1072 ∧ unitSt s i = .watch := by
  simp only [potPassed, List.mem_filter, List.any_nil, Bool.not_false, Bool.and_true, Bool.and_eq_true, decide_eq_true_eq,
    beq_iff_eq]
  exact ⟨fun h => h.2, fun h => ⟨listed_of_watch h.2, h⟩⟩

theorem potPassed_nodup {s : State} (fails : List (Nat × BitVec 8 × KaOutcome)) (h : risingKeys s.store.set.units = true) :
    (potPassed fails s).Nodup := (keys_nodup h).filter _

theorem kaPasses_changes (l : List Nat) (s : State) : changesOnly moves s (l.foldl (fun a i => kaPass i a) s) :=
  .foldl (fun a i => kaPass_changes i a) l s

/-- Passes leave the view of a unit that is not in WATCH. -/
theorem unitView_kaPasses {s : State} {j : Nat} {l : List Nat} (h : j ∉ l) :
    unitView j (l.foldl (fun a i => kaPass i a) s) = unitView j s :=
  foldl_view_of_not_mem (v := unitView j) (fun a _ hx => unitView_kaPass_other (Ne.symm hx) a) h s

/-! ## Ballast buffers -/

theorem length_ballastImage : ballastImage.length = 16384 := by rw [ballastImage, List.length_map, List.length_range]

theorem find?_map_const {α : Type} (c : α) (k : Nat) (l : List Nat) :
    find? k (l.map (fun u => (u, c))) = if k ∈ l then some c else none := by
  induction l with
  | nil => rfl
  | cons x l ih =>
    by_cases hk : k = x
    · simp [find?, hk]
    · simp [find?, hk, ih]

theorem mem_groupTiles_self (u : Nat) : u ∈ groupTiles (u / 8) :=
  List.mem_map.mpr ⟨u % 8, List.mem_range.mpr (Nat.mod_lt u (by decide)), Nat.div_add_mod u 8⟩

theorem groupKept_of_unitSt {s : State} {u : Nat} (h : unitSt s u ≠ .off) : groupKept s (u / 8) = true :=
  List.any_eq_true.mpr ⟨u, mem_groupTiles_self u, by simpa using h⟩

/-- A tile of a group with power has its buffer loaded (R246). -/
theorem bufferOf_loadBuffers {s : State} {u : Nat} (hu : u < 1024) (hg : groupOn s (u / 8) = true) :
    bufferOf (loadBuffers s) u = ballastImage := by
  have hm : u ∈ (List.range 1024).filter (fun u => groupOn s (u / 8)) := List.mem_filter.mpr ⟨List.mem_range.mpr hu, hg⟩
  simp only [bufferOf, loadBuffers, look, find?_map_const, if_pos hm, Option.getD_some]

theorem loadBuffers_changes (s : State) : changesOnly [.power] s (loadBuffers s) := withPower_changes s _

theorem loadBuffers_power (s : State) : (loadBuffers s).power = { s.power with buffers := (loadBuffers s).power.buffers } := by
  have h : ∃ l, loadBuffers s = { s with power := { s.power with buffers := l } } := ⟨_, rfl⟩
  obtain ⟨l, hl⟩ := h
  rw [hl]

theorem loadBuffers_of_stopped {s : State} (h : s.stop.stopped = true) : (loadBuffers s).power.buffers = [] := by
  simp [loadBuffers, groupOn, h]

/-! ## The stages -/

theorem initStacks_eq (s : State) : (List.range 8).foldl (fun a k => setMem k (initStack s k) a) s =
    { s with mems := storeEach (fun k _ => initStack s k) s.mems Stack.off 8 } := by
  have h : ∀ (l : List Nat) (ms : Sparse Stack), l.foldl (fun a k => setMem k (initStack s k) a) { s with mems := ms } =
      { s with mems := l.foldl (fun a k => store Stack.off k (initStack s k) a) ms } := by
    intro l
    induction l with
    | nil => intro ms; rfl
    | cons k l ih => intro ms; rw [List.foldl_cons, List.foldl_cons, ← ih]; rfl
  exact h _ s.mems

theorem memOf_initStacks (s : State) {k : Nat} (hk : k < 8) :
    look Stack.off k (storeEach (fun k _ => initStack s k) s.mems Stack.off 8) = initStack s k := by
  rw [look_storeEach, if_pos hk]

theorem initStack_of_service {s : State} {k : Nat} (hp : stackPop s k = true)
    (hu : unitSt s (1072 + k) = .active ∨ unitSt s (1072 + k) = .watch) :
    initStack s k = { Stack.off with st := if s.stop.stopped then .selfRefresh else .trained } := by
  have ho : outOfService s (1072 + k) = false := by
    rcases hu with h | h <;> simp [outOfService, h]
  simp [initStack, hp, ho]

theorem initStack_of_out {s : State} {k : Nat} (hu : unitSt s (1072 + k) = .fenced ∨ unitSt s (1072 + k) = .off) :
    initStack s k = Stack.off := by
  have ho : outOfService s (1072 + k) = true := by
    rcases hu with h | h <;> simp [outOfService, h]
  simp [initStack, ho]

theorem restFenced_changes (k : Nat) (s : State) : changesOnly [.mems] s (restFenced k s) := by
  unfold restFenced
  exact .ite (updMem_changes k _ s) (.refl _ s)

theorem memOf_restFenced_other {j k : Nat} (h : j ≠ k) (s : State) : memOf (restFenced k s) j = memOf s j := by
  unfold restFenced
  split
  · exact memOf_updMem_other h _ s
  · rfl

theorem memOf_restFenced_self (k : Nat) (s : State) : memOf (restFenced k s) k =
    if unitSt s (1072 + k) = .fenced then { memOf s k with st := if (memOf s k).st = .off then .selfRefresh else (memOf s k).st }
    else memOf s k := by
  unfold restFenced
  split
  · exact memOf_updMem_self k _ s
  · rfl

/-- Every stack after the FENCED ones have gone to self-refresh (R330). -/
theorem memOf_restAll {s : State} {k : Nat} (hk : k < 8) :
    memOf ((List.range 8).foldl (fun a k => restFenced k a) s) k =
      if unitSt s (1072 + k) = .fenced then { memOf s k with st := if (memOf s k).st = .off then .selfRefresh else (memOf s k).st }
      else memOf s k := by
  have hv : ∀ a x, x ≠ k → (unitSt (restFenced x a) (1072 + k), memOf (restFenced x a) k) = (unitSt a (1072 + k), memOf a k) :=
    fun a x hx => by rw [(restFenced_changes x a).unitSt_eq (by decide) (by decide), memOf_restFenced_other (Ne.symm hx)]
  obtain ⟨a, ha, he⟩ := foldl_view_of_mem (f := fun a k => restFenced k a) (v := fun a => (unitSt a (1072 + k), memOf a k)) hv
    List.nodup_range (List.mem_range.mpr hk) s
  obtain ⟨hu, hm⟩ := Prod.mk.inj ha
  rw [(Prod.mk.inj he).2, memOf_restFenced_self, hu, hm]

theorem dropPorts_after (s : State) (g : Stage) (p : Nat) (hp : portPop s p = true) :
    portOf (dropPorts { s with boot := { s.boot with stage := g } }) p =
      droppedPort { s with boot := { s.boot with stage := g } } p (portOf s p) :=
  portOf_dropPorts (s := { s with boot := { s.boot with stage := g } }) hp

theorem serviceBootEnd_hands_over {s : State} (hst : s.boot.stage = .serviceBoot) (hov : s.boot.overrunHold = false) :
    ∃ t : State, exec .serviceBootEnd s = .next t ∧ changesOnly [.boot, .ports] s t ∧
      t.boot = { s.boot with stage := if s.tray.perstN then .rails else .held } ∧
      ∀ p, portPop s p = true → unitSt s (1024 + p) ≠ .off → lrefOn s (p / 16) = true → (portOf t p).sends = .notReady := by
  have hin : inStage .serviceBoot s = true := by simp [inStage, hst, hov]
  have hb := withBoot_changes s { s.boot with stage := if s.tray.perstN then .rails else .held }
  refine ⟨_, next_if_pos hin, hb.both (dropPorts_changes _) (by decide) (by decide), dropPorts_changes _ .boot (by decide),
    fun p hp hu hl => ?_⟩
  rw [dropPorts_after s _ p hp, droppedPort_sends (by exact hu)]
  refine idleSignal_notReady ?_ ?_ ?_ hu hl
  all_goals cases h : s.tray.perstN <;> simp

theorem railsEnd_hands_over {s : State} (l : LinkInfo) (hst : s.boot.stage = .rails) (hov : s.boot.overrunHold = false) :
    ∃ t : State, exec (.railsEnd l) s = .next t ∧ changesOnly [.boot, .ringRegs, .pacer] s t ∧
      t.boot = { s.boot with stage := .memoryInit } ∧ t.rings = { s.rings with link := trainLink l } ∧
      t.pacer = { s.pacer with running := !s.stop.stopped } := by
  have hin : inStage .rails s = true := by simp [inStage, hst, hov]
  refine ⟨_, next_if_pos hin, ?_, rfl, rfl, rfl⟩
  exact ((withBoot_changes s _).both (C := [.boot, .ringRegs, .pacer]) (withLink_changes _ (trainLink l)) (by decide) (by decide)).next
    (withPacer_changes _ _) (by decide)

theorem memoryInitEnd_hands_over {s : State} (hst : s.boot.stage = .memoryInit) (hov : s.boot.overrunHold = false) :
    ∃ t : State, exec .memoryInitEnd s = .next t ∧ changesOnly [.boot, .mems] s t ∧
      t.boot = { s.boot with stage := .selfTest } ∧ ∀ k, k < 8 → memOf t k = initStack s k := by
  have hin : inStage .memoryInit s = true := by simp [inStage, hst, hov]
  refine ⟨_, next_if_pos hin, ?_⟩
  rw [initStacks_eq]
  have hm := fun k hk => memOf_initStacks s (k := k) hk
  generalize storeEach (fun k _ => initStack s k) s.mems Stack.off 8 = ms at hm ⊢
  exact ⟨(withMems_changes s ms).both (withBoot_changes { s with mems := ms } _) (by decide) (by decide), rfl, hm⟩

/-- The state in which SELF_TEST ends when no kernel has failed. -/
def selfTested (s : State) : State :=
  let s1 := (potPassed [] s).foldl (fun a i => kaPass i a) s
  dropPorts ((List.range 8).foldl (fun a k => restFenced k a) (loadBuffers { s1 with boot := { s1.boot with stage := .ready } }))

/-- Between the passes and the stacks only the stage and the buffers change. -/
theorem loadBuffers_ready_changes (s : State) :
    changesOnly [.boot, .power] s (loadBuffers { s with boot := { s.boot with stage := .ready } }) :=
  (withBoot_changes s _).both (loadBuffers_changes _) (by decide) (by decide)

theorem exec_selfTestEnd_nil {s : State} (hst : s.boot.stage = .selfTest) (hov : s.boot.overrunHold = false) :
    exec (.selfTestEnd []) s = .next (selfTested s) := by
  have hin : inStage .selfTest s = true := by simp [inStage, hst, hov]
  exact next_if_pos hin

/-- After the passes have counted only the stage, the buffers, the stacks and the ports change. -/
theorem selfTested_changes (s : State) :
    changesOnly [.boot, .ports, .mems, .power] ((potPassed [] s).foldl (fun a i => kaPass i a) s) (selfTested s) := by
  unfold selfTested
  extract_lets s1 boot
  have h2 : changesOnly [.boot, .ports, .mems, .power] s1 _ := (loadBuffers_ready_changes s1).mono (by decide)
  exact (h2.trans (.foldl (fun a k => (restFenced_changes k a).mono (by decide)) _ _)).next (dropPorts_changes _) (by decide)

theorem selfTested_boot (s : State) : (selfTested s).boot =
    { ((potPassed [] s).foldl (fun a i => kaPass i a) s).boot with stage := .ready } := by
  have h1 : ∀ a : State, (dropPorts a).boot = a.boot := fun a => dropPorts_changes a .boot (by decide)
  have h2 : ∀ a : State, ((List.range 8).foldl (fun a k => restFenced k a) a).boot = a.boot := fun a =>
    changesOnly.foldl (A := [.mems]) (fun a k => restFenced_changes k a) _ a .boot (by decide)
  unfold selfTested
  extract_lets s1 boot
  rw [h1, h2]
  rfl

theorem selfTested_power (s : State) : (selfTested s).power =
    (loadBuffers { (potPassed [] s).foldl (fun a i => kaPass i a) s with
      boot := { ((potPassed [] s).foldl (fun a i => kaPass i a) s).boot with stage := .ready } }).power := by
  have h1 : ∀ a : State, (dropPorts a).power = a.power := fun a => dropPorts_changes a .power (by decide)
  have h2 : ∀ a : State, ((List.range 8).foldl (fun a k => restFenced k a) a).power = a.power := fun a =>
    changesOnly.foldl (A := [.mems]) (fun a k => restFenced_changes k a) _ a .power (by decide)
  unfold selfTested
  extract_lets s1 boot
  rw [h1, h2]

theorem selfTested_memOf (s : State) {k : Nat} (hk : k < 8) : memOf (selfTested s) k =
    if unitSt ((potPassed [] s).foldl (fun a i => kaPass i a) s) (1072 + k) = .fenced then
      { memOf s k with st := if (memOf s k).st = .off then .selfRefresh else (memOf s k).st }
    else memOf s k := by
  have hm : memOf ((potPassed [] s).foldl (fun a i => kaPass i a) s) = memOf s := (kaPasses_changes _ s).memOf_eq (by decide)
  unfold selfTested
  extract_lets s1 boot
  have hb := loadBuffers_ready_changes s1
  rw [(dropPorts_changes _).memOf_eq (by decide), memOf_restAll hk, hb.memOf_eq (by decide),
    hb.unitSt_eq (by decide) (by decide), hm]

theorem selfTested_portOf (s : State) {p : Nat} (hp : portPop s p = true) (hs : s.stop.stopped = false)
    (hu : unitSt s (1024 + p) = .active ∨ unitSt s (1024 + p) = .watch) (hl : lrefOn s (p / 16) = true) :
    (portOf (selfTested s) p).sends = .wake := by
  have hk := kaPasses_changes (potPassed [] s) s
  have hin : inService ((potPassed [] s).foldl (fun a i => kaPass i a) s) (1024 + p) :=
    foldl_keeps (P := fun a => inService a (1024 + p)) (fun a i => inService_kaPass i) _ hu
  unfold selfTested
  extract_lets s1 boot
  have hb := loadBuffers_ready_changes s1
  have hm : changesOnly [.mems] (loadBuffers { s1 with boot := { s1.boot with stage := .ready } }) _ :=
    .foldl (fun a k => restFenced_changes k a) (List.range 8) _
  generalize (List.range 8).foldl (fun a k => restFenced k a) _ = b at hm ⊢
  have hid : b.ident = s.ident := (hm .ident (by decide)).trans ((hb .ident (by decide)).trans (hk .ident (by decide)))
  have hpb : portPop b p = true := portPop_of_ident hid ▸ hp
  have hstop : b.stop = s.stop := (hm .stop (by decide)).trans ((hb .stop (by decide)).trans (hk .stop (by decide)))
  have htray : b.tray = s.tray := (hm .tray (by decide)).trans ((hb .tray (by decide)).trans (hk .tray (by decide)))
  have hboot : b.boot = { s1.boot with stage := .ready } := hm .boot (by decide)
  have hinb : inService b (1024 + p) := by
    rw [inService, hm.unitSt_eq (by decide) (by decide), hb.unitSt_eq (by decide) (by decide)]
    exact hin
  rw [portOf_dropPorts hpb, droppedPort_sends (ne_off_of_inService hinb)]
  exact idleSignal_wake (by rw [hboot]) (by rw [hstop, hs]) hinb (by simpa only [lrefOn, htray] using hl)

/-- Which links train (Table 13-1). -/
theorem linkTrains_iff {l : LinkInfo} : linkTrains l = true ↔
    ((l.flit = true ∧ l.speed = 6) ∨ (l.flit = false ∧ (l.speed = 4 ∨ l.speed = 5))) ∧
      (l.width = 4 ∨ l.width = 8 ∨ l.width = 16) := by
  cases hf : l.flit <;> simp [linkTrains, hf, or_assoc]

/-- A unit in WATCH with a score has one pass more at the end of SELF_TEST. -/
theorem selfTested_passes {s : State} {i : Nat} (hr : risingKeys s.store.set.units = true) (hi : i < 1072)
    (hw : unitSt s i = .watch) (hsc : (healthOf s i).score ≠ 0) :
    healthOf (selfTested s) i = { healthOf s i with passes := (healthOf s i).passes + 1 } := by
  obtain ⟨a, ha, he⟩ := foldl_view_of_mem (f := fun a i => kaPass i a) (v := unitView i)
    (fun a x hx => unitView_kaPass_other (Ne.symm hx) a) (potPassed_nodup [] hr) (mem_potPassed_nil.mpr ⟨hi, hw⟩) s
  have hh : healthOf a i = healthOf s i := (Prod.mk.inj ha).2
  have hwa : unitSt a i = .watch := (unitSt_of_unitView ha).trans hw
  rw [(selfTested_changes s).healthOf_eq (by decide), (Prod.mk.inj he).2, kaPass_of_score hwa (by rw [hh]; exact hsc),
    healthOf_updHealth_self, hh]

/-- With no tile or port in WATCH no pass counts. -/
theorem potPassed_nil_of_none {s : State} (h : ∀ i, i < 1072 → unitSt s i ≠ .watch) : potPassed [] s = [] :=
  List.eq_nil_iff_forall_not_mem.mpr fun i hi => h i (mem_potPassed_nil.mp hi).1 (mem_potPassed_nil.mp hi).2

theorem selfTested_buffers {s : State} (hs : s.stop.stopped = false) {u : Nat} (hu : u < 1024) (hact : inService s u) :
    (bufferOf (selfTested s) u).length = 16384 := by
  have hk := kaPasses_changes (potPassed [] s) s
  have hin : inService ((potPassed [] s).foldl (fun a i => kaPass i a) s) u :=
    foldl_keeps (P := fun a => inService a u) (fun a i => inService_kaPass i) _ hact
  have hstop : ((potPassed [] s).foldl (fun a i => kaPass i a) s).stop = s.stop := hk .stop (by decide)
  have hkept := groupKept_of_unitSt (ne_off_of_inService hin)
  rw [bufferOf, selfTested_power, ← bufferOf, bufferOf_loadBuffers hu, length_ballastImage]
  simp only [groupOn, railsUp, hstop, hs]
  exact hkept

/-- Settles O7: each stage's end is worked out on its own (`serviceBootEnd_hands_over`, `railsEnd_hands_over`,
`memoryInitEnd_hands_over`, `exec_selfTestEnd_nil`); at the end of SELF_TEST the passes count for the units in WATCH alone
(`mem_potPassed_nil`) and each of them once (`potPassed_nodup`). -/
theorem stagesEndInOrder : Obligations.StagesEndInOrder := by
  unfold Obligations.StagesEndInOrder
  refine ⟨fun s => serviceBootEnd_hands_over, fun s hst => ?_, fun s l hst hov => ?_, fun s hst hov => ?_, fun s hst hov => ?_⟩
  · exact ⟨_, next_if_pos hst, (withTray_changes s _).both (withBoot_changes _ _) (by decide) (by decide), rfl, rfl⟩
  · obtain ⟨t, he, hc, hb, hr, hp⟩ := railsEnd_hands_over l hst hov
    refine ⟨t, he, hc, hb, fun hl => ?_, fun hl => ?_, hp⟩
    · rw [hr, trainLink, if_pos (linkTrains_iff.mpr hl)]
    · rw [hr, trainLink, if_neg (mt linkTrains_iff.mp hl)]
  · obtain ⟨t, he, hc, hb, hm⟩ := memoryInitEnd_hands_over hst hov
    refine ⟨t, he, hc, hb, fun k hp hu => ?_, fun k hk hu => ?_⟩
    · have hk : k < 8 := by
        simp only [stackPop, Bool.and_eq_true, decide_eq_true_eq] at hp
        exact hp.1
      rw [hm k hk, initStack_of_service hp hu]
      exact ⟨rfl, rfl, rfl, rfl⟩
    · rw [hm k hk, initStack_of_out hu]
  · have hk := kaPasses_changes (potPassed [] s) s
    have hc := selfTested_changes s
    have hboot : ((potPassed [] s).foldl (fun a i => kaPass i a) s).boot = s.boot := hk .boot (by decide)
    have hstop : ((potPassed [] s).foldl (fun a i => kaPass i a) s).stop = s.stop := hk .stop (by decide)
    have hpow : ((potPassed [] s).foldl (fun a i => kaPass i a) s).power = s.power := hk .power (by decide)
    refine ⟨_, exec_selfTestEnd_nil hst hov, hk.both hc (by decide) (by decide), fun hnone => ?_, ?_, fun hs u hu hact => ?_,
      fun hs => ?_, fun hr _ i hi hw hsc => selfTested_passes hr hi hw hsc, ?_,
      fun hs p hp hu hl => selfTested_portOf s hp hs hu hl⟩
    · rw [potPassed_nil_of_none hnone] at hc
      have hmem := fun k hk => selfTested_memOf s (k := k) hk
      rw [potPassed_nil_of_none hnone] at hmem
      exact ⟨hc, fun k hk hf => (hmem k hk).trans (if_neg hf), fun k hk hf => (hmem k hk).trans (if_pos hf)⟩
    · rw [selfTested_power, ← hpow]
      exact loadBuffers_power _
    · exact selfTested_buffers hs hu (.inl hact)
    · rw [selfTested_power, loadBuffers_of_stopped]
      exact (congrArg Stop.stopped hstop).trans hs
    · rw [← hboot]
      exact selfTested_boot s

end Sys2Proof.Machine
end

section
/-! Proofs: failures at start-up (R33, R36, R210). -/

namespace Sys2Proof.Machine

/-! ## Failure Signature Records (R219, R221) -/

section
variable {s : State} {i j : Nat}

theorem post_fsrs (code : BitVec 16) (info : List Byte) (s : State) :
    (post code info s).sec.fsrs = s.sec.fsrs ∧ (post code info s).sec.fsrSeq = s.sec.fsrSeq :=
  Prod.mk.inj (post_changes code info s .fsrs (by decide))

theorem keepFsr_fsrs (b : List Byte) (u : Option Nat) (s : State) :
    (keepFsr b u s).sec.fsrs = keepLast 64 (s.sec.fsrs ++ [{ seq := nextSeq s.sec.fsrSeq, bytes := b }]) ∧
      (keepFsr b u s).sec.fsrSeq = nextSeq s.sec.fsrSeq := by
  cases u <;> exact ⟨rfl, rfl⟩

theorem writeFsr_fsrs (c : Nat) (path : List Nat) (u : Option Nat) (l : Option Loc) (q : Option Nat) (s : State) :
    ∃ b, (writeFsr c path u l q s).sec.fsrs = keepLast 64 (s.sec.fsrs ++ [{ seq := nextSeq s.sec.fsrSeq, bytes := b }]) := by
  refine ⟨fsrBytes s (nextSeq s.sec.fsrSeq) c path u l q, ?_⟩
  unfold writeFsr
  extract_lets b s1
  rw [(post_fsrs _ _ s1).1]
  exact (keepFsr_fsrs b u s).1

/-- A record takes the next sequence number. -/
theorem writeFsr_seq (c : Nat) (path : List Nat) (u : Option Nat) (l : Option Loc) (q : Option Nat) (s : State) :
    (writeFsr c path u l q s).sec.fsrSeq = nextSeq s.sec.fsrSeq := by
  unfold writeFsr
  extract_lets b s1
  rw [(post_fsrs _ _ s1).2]
  exact (keepFsr_fsrs b u s).2

theorem getLast?_keepLast {α : Type} (n : Nat) (l : List α) (x : α) : (keepLast (n + 1) (l ++ [x])).getLast? = some x := by
  have h : (l ++ [x]).length - (n + 1) ≤ l.length := by simp
  rw [keepLast, List.drop_append_of_le_length h, List.getLast?_append]
  rfl

/-- The newest record is the one with the latest sequence number. -/
theorem writeFsr_last (c : Nat) (path : List Nat) (u : Option Nat) (l : Option Loc) (q : Option Nat) (s : State) :
    (writeFsr c path u l q s).sec.fsrs.getLast?.map (fun f => f.seq) = some (nextSeq s.sec.fsrSeq) := by
  obtain ⟨b, hb⟩ := writeFsr_fsrs c path u l q s
  rw [hb, getLast?_keepLast]
  rfl

theorem unitFsr_seq (c i : Nat) (q : Option Nat) (s : State) : (unitFsr c i q s).sec.fsrSeq = nextSeq s.sec.fsrSeq :=
  writeFsr_seq _ _ _ _ _ s

/-- A unit's record is noted in its health. -/
theorem healthOf_unitFsr_self (c i : Nat) (q : Option Nat) (s : State) :
    healthOf (unitFsr c i q s) i = { healthOf s i with fsrSeq := nextSeq s.sec.fsrSeq } := by
  unfold unitFsr writeFsr
  extract_lets b s1
  rw [(post_changes _ _ s1).healthOf_eq (by decide)]
  exact healthOf_updHealth_self i _ _

theorem unitView_unitFsr_other (h : j ≠ i) (c : Nat) (q : Option Nat) (s : State) :
    unitView j (unitFsr c i q s) = unitView j s := by
  unfold unitFsr writeFsr
  extract_lets b s1
  rw [unitView_post]
  exact unitView_updHealth_other h _ _

theorem unitEntry_unitFsr (c i : Nat) (q : Option Nat) (s : State) : unitEntry (unitFsr c i q s) = unitEntry s :=
  (unitFsr_changes c i q s).unitEntry_eq (by decide) (by decide)

theorem nextSeq_cases (n : Nat) : nextSeq n = 1 ∧ n + 1 = 2 ^ 32 ∨ nextSeq n = n + 1 ∧ n + 1 ≠ 2 ^ 32 := by
  unfold nextSeq
  split
  · exact .inl ⟨rfl, ‹_›⟩
  · exact .inr ⟨rfl, ‹_›⟩

theorem nextSeq_ne (n : Nat) : nextSeq n ≠ n := by
  have h := nextSeq_cases n
  omega

/-- Two or three records in a row do not come back to the sequence number before them. -/
theorem nextSeq_nextSeq_ne (n : Nat) : nextSeq (nextSeq n) ≠ n ∧ nextSeq (nextSeq (nextSeq n)) ≠ n := by
  have h := nextSeq_cases n
  have h2 := nextSeq_cases (nextSeq n)
  have h3 := nextSeq_cases (nextSeq (nextSeq n))
  omega

/-! ## WATCH and failed known-answer runs (R207, R210) -/

/-- The six counters of a unit. -/
def Health.counters (h : Health) : List Nat := [h.c0, h.c1, h.c2, h.c3, h.c4, h.c5]

/-- One unit's counters in a state. -/
def countersOf (i : Nat) (s : State) : List Nat := (healthOf s i).counters

theorem countersOf_updHealth (i j : Nat) (f : Health → Health) (s : State) (hf : ∀ h, (f h).counters = h.counters) :
    countersOf j (updHealth i f s) = countersOf j s := by
  by_cases h : j = i
  · rw [h, countersOf, healthOf_updHealth_self, hf, countersOf]
  · rw [countersOf, healthOf_updHealth_other h, countersOf]

theorem countersOf_post (j : Nat) (code : BitVec 16) (info : List Byte) (s : State) :
    countersOf j (post code info s) = countersOf j s := congrArg (fun x => x.2.counters) (unitView_post j code info s)

theorem countersOf_unitFsr (c i j : Nat) (q : Option Nat) (s : State) : countersOf j (unitFsr c i q s) = countersOf j s := by
  by_cases h : j = i
  · rw [h, countersOf, healthOf_unitFsr_self]
    rfl
  · exact congrArg (fun x => x.2.counters) (unitView_unitFsr_other h c q s)

theorem countersOf_setUnit (i j : Nat) (e : UnitEntry) (s : State) : countersOf j (setUnit i e s) = countersOf j s := by
  rw [countersOf, (setUnit_changes i e s).healthOf_eq (by decide), countersOf]

theorem countersOf_enterWatch (c i j : Nat) (s : State) : countersOf j (enterWatch c i s) = countersOf j s := by
  unfold enterWatch
  extract_lets due s1 s2
  have h2 : countersOf j s2 = countersOf j s1 := countersOf_updHealth i j _ s1 fun _ => rfl
  rw [countersOf_unitFsr, countersOf_post, h2, countersOf_setUnit]

theorem unitView_enterWatch_other (h : j ≠ i) (c : Nat) (s : State) : unitView j (enterWatch c i s) = unitView j s := by
  unfold enterWatch
  extract_lets due s1 s2
  rw [unitView_unitFsr_other h, unitView_post, unitView_updHealth_other h, unitView_setUnit_other h]

theorem unitEntry_enterWatch_self (hp : unitPop s i = true) (c : Nat) :
    unitEntry (enterWatch c i s) i = { st := .watch, held := false } := by
  unfold enterWatch
  extract_lets due s1 s2
  rw [unitEntry_unitFsr, (post_changes _ _ s2).unitEntry_eq (by decide) (by decide)]
  exact unitEntry_setUnit_self hp _

theorem enterWatch_seq (c i : Nat) (s : State) : (enterWatch c i s).sec.fsrSeq = nextSeq s.sec.fsrSeq := by
  unfold enterWatch
  extract_lets due s1 s2
  have h1 : s1.sec.fsrSeq = s.sec.fsrSeq := (Prod.mk.inj (setUnit_changes i _ s .fsrs (by decide))).2
  rw [unitFsr_seq, (post_fsrs _ _ s2).2]
  exact congrArg nextSeq h1

theorem countersOf_advise (c i j : Nat) (s : State) : countersOf j (advise c i s) = countersOf j s := by
  unfold advise
  extract_lets h s1
  split
  · have h1 : countersOf j s1 = countersOf j s := countersOf_updHealth i j _ s fun _ => rfl
    rw [countersOf_unitFsr, countersOf_post, h1]
  · rfl

theorem unitView_advise_other (h : j ≠ i) (c : Nat) (s : State) : unitView j (advise c i s) = unitView j s := by
  unfold advise
  extract_lets h0 s1
  split
  · rw [unitView_unitFsr_other h, unitView_post, unitView_updHealth_other h]
  · rfl

theorem unitEntry_advise (c i : Nat) (s : State) : unitEntry (advise c i s) = unitEntry s :=
  (advise_changes c i s).unitEntry_eq (by decide) (by decide)

theorem advise_seq (c i : Nat) (s : State) :
    (advise c i s).sec.fsrSeq = s.sec.fsrSeq ∨ (advise c i s).sec.fsrSeq = nextSeq s.sec.fsrSeq := by
  unfold advise
  extract_lets h s1
  split
  · right
    rw [unitFsr_seq, (post_fsrs _ _ s1).2]
    rfl
  · exact .inl rfl

section
variable (ka q : Nat) (r : KaOutcome)

theorem unitEntry_appendHistory (e : List Byte) (s : State) : unitEntry (appendHistory e s) = unitEntry s := by
  have h : (appendHistory e s).store.set.units = s.store.set.units := by
    simp [appendHistory]
  exact unitEntry_of_units (appendHistory_changes e s .ident (by decide)) h

theorem healthOf_appendHistory (e : List Byte) (s : State) : healthOf (appendHistory e s) = healthOf s :=
  (appendHistory_changes e s).healthOf_eq (by decide)

theorem unitView_appendHistory (j : Nat) (e : List Byte) (s : State) : unitView j (appendHistory e s) = unitView j s := by
  rw [unitView, unitView, unitEntry_appendHistory, healthOf_appendHistory]

theorem unitView_bumpCtr_other (h : j ≠ i) (k : Nat) (s : State) : unitView j (bumpCtr k i s) = unitView j s :=
  unitView_updHealth_other h _ s

/-- A failed run is a matter of its own unit. -/
theorem unitView_kaFail_other (h : j ≠ i) (s : State) : unitView j (kaFail i ka q r s) = unitView j s := by
  have ht : ∀ (f : Totals → Totals) (a : State), unitView j (updTotals f a) = unitView j a := fun _ _ => rfl
  unfold kaFail
  extract_lets s1 s2 s3 s4 s5
  have h3 : unitView j s3 = unitView j s2 := by
    unfold s3
    split
    · exact unitView_enterWatch_other h _ s2
    · rfl
  rw [unitView_appendHistory, unitView_unitFsr_other h, unitView_advise_other h, h3, unitView_updHealth_other h, ht,
    unitView_bumpCtr_other h]

/-- A unit in service that fails a known-answer run counts it. -/
theorem countersOf_kaFail (s : State) :
    countersOf i (kaFail i ka q r s) = ((healthOf s i).mapCtr (katPlace i) (satInc (ctrWidth i))).counters := by
  unfold kaFail
  extract_lets s1 s2 s3 s4 s5
  have h3 : countersOf i s3 = countersOf i s2 := by
    unfold s3
    split
    · exact countersOf_enterWatch _ i i s2
    · rfl
  have h2 : countersOf i s2 = countersOf i s1 := countersOf_updHealth i i _ s1 fun _ => rfl
  have h1 : countersOf i s1 = countersOf i (bumpCtr (katPlace i) i s) := by
    unfold s1
    rfl
  rw [countersOf, healthOf_appendHistory, ← countersOf, countersOf_unitFsr, countersOf_advise, h3, h2, h1, countersOf, bumpCtr, healthOf_updHealth_self]

/-- An ACTIVE unit that fails a known-answer run is in WATCH, whatever its score (R210). -/
theorem unitEntry_kaFail_self (hu : unitSt s i = .active) : unitEntry (kaFail i ka q r s) i = { st := .watch, held := false } := by
  have hp : unitPop s i = true := unitPop_of_inService (.inl hu)
  unfold kaFail
  extract_lets s1 s2 s3 s4 s5
  have h2 : unitSt s2 i = .active := hu
  have h3 : s3 = enterWatch (kaClass r) i s2 := if_pos h2
  rw [unitEntry_appendHistory, unitEntry_unitFsr, unitEntry_advise, h3]
  exact unitEntry_enterWatch_self (s := s2) hp _

theorem kaFail_totals (s : State) : (kaFail i ka q r s).sec.totals = { s.sec.totals with kat := s.sec.totals.kat + 1 } := by
  unfold kaFail
  extract_lets s1 s2 s3 s4 s5
  have h3 : changesOnly moves s2 s3 := .ite (enterWatch_changes _ _ s2) (.refl _ s2)
  have h4 : changesOnly moves s3 s4 := (advise_changes _ _ s3).mono (by decide)
  have h5 : changesOnly moves s4 s5 := (unitFsr_changes _ _ _ s4).mono (by decide)
  exact (((h3.trans h4).trans h5).next (appendHistory_changes _ s5) (by decide)) .totals (by decide)

/-- The unit's latest record is the package's, and it is a new one. -/
theorem kaFail_fsr (hu : unitSt s i = .active) :
    (healthOf (kaFail i ka q r s) i).fsrSeq = (kaFail i ka q r s).sec.fsrSeq ∧
      (kaFail i ka q r s).sec.fsrSeq ≠ s.sec.fsrSeq := by
  unfold kaFail
  extract_lets s1 s2 s3 s4 s5
  have h2 : unitSt s2 i = .active := hu
  have h3 : s3 = enterWatch (kaClass r) i s2 := if_pos h2
  have hseq : s5.sec.fsrSeq = nextSeq s4.sec.fsrSeq := unitFsr_seq _ _ _ s4
  have hself : (healthOf s5 i).fsrSeq = nextSeq s4.sec.fsrSeq := congrArg Health.fsrSeq (healthOf_unitFsr_self _ i _ s4)
  have hs3 : s3.sec.fsrSeq = nextSeq s.sec.fsrSeq := by
    rw [h3, enterWatch_seq]
    rfl
  have h6 : ∀ e, (appendHistory e s5).sec.fsrSeq = s5.sec.fsrSeq := fun e =>
    (Prod.mk.inj (appendHistory_changes e s5 .fsrs (by decide))).2
  rw [healthOf_appendHistory, h6]
  refine ⟨hself.trans hseq.symm, ?_⟩
  rw [hseq]
  rcases advise_seq (kaClass r) i s3 with h4 | h4
  · rw [h4, hs3]
    exact (nextSeq_nextSeq_ne _).1
  · rw [h4, hs3]
    exact (nextSeq_nextSeq_ne _).2

end

end

/-! ## SELF_TEST_END with a failure -/

/-- POT_FAIL set. -/
def withPotFail (s : State) : State := { s with boot := { s.boot with potFail := true } }

theorem withPotFail_changes (s : State) : changesOnly [.boot] s (withPotFail s) := withBoot_changes s _

theorem unitView_withPotFail (j : Nat) (s : State) : unitView j (withPotFail s) = unitView j s := rfl

theorem potFail_eq {s : State} {i : Nat} {ka : BitVec 8} {r : KaOutcome} (hi : i < 1072) (hu : unitSt s i = .active)
    (hr : r ≠ .pass) : potFail (i, ka, r) s = kaFail i ka.toNat 0 r (withPotFail s) := by
  have ho : outOfService s i = false := by simp [outOfService, hu]
  have hn : ¬ 1072 ≤ i := by omega
  simp [potFail, withPotFail, ho, hr, hn]

theorem not_mem_potPassed {s : State} {j : Nat} (fails : List (Nat × BitVec 8 × KaOutcome)) (h : unitSt s j ≠ .watch) :
    j ∉ potPassed fails s := fun hm => by
  simp [potPassed, h] at hm

/-- A pass writes no record and counts in no total. -/
theorem kaPass_changes_few (i : Nat) (s : State) :
    changesOnly [.settings, .unitGen, .health, .ringOut, .host, .alerts] s (kaPass i s) := by
  unfold kaPass settle
  extract_lets h s1 s2
  refine .ite (((updHealth_changes i _ s).mono (by decide)).trans (.ite ?_ (.refl _ _))) (.refl _ s)
  exact ((setUnit_changes i _ _).both (updHealth_changes i _ s1) (by decide) (by decide)).next (post_changes _ _ s2) (by decide)

theorem kaPasses_changes_few (l : List Nat) (s : State) :
    changesOnly [.settings, .unitGen, .health, .ringOut, .host, .alerts] s (l.foldl (fun a i => kaPass i a) s) :=
  .foldl (fun a i => kaPass_changes_few i a) l s

/-- The end of SELF_TEST after the kernels have counted. -/
def readied (s : State) : State :=
  dropPorts ((List.range 8).foldl (fun a k => restFenced k a) (loadBuffers { s with boot := { s.boot with stage := .ready } }))

theorem readied_changes (s : State) : changesOnly [.boot, .ports, .mems, .power] s (readied s) :=
  (((loadBuffers_ready_changes s).mono (by decide)).trans
    (.foldl (fun a k => (restFenced_changes k a).mono (by decide)) _ _)).next (dropPorts_changes _) (by decide)

theorem readied_boot (s : State) : (readied s).boot = { s.boot with stage := .ready } := by
  have h1 : ∀ a : State, (dropPorts a).boot = a.boot := fun a => dropPorts_changes a .boot (by decide)
  have h2 : ∀ a : State, ((List.range 8).foldl (fun a k => restFenced k a) a).boot = a.boot := fun a =>
    changesOnly.foldl (A := [.mems]) (fun a k => restFenced_changes k a) _ a .boot (by decide)
  rw [readied, h1, h2]
  rfl

/-- A run of SELF_TEST with one failure: the unit's failure, then the passes of the units in WATCH. -/
def afterFailure (s : State) (i : Nat) (ka : BitVec 8) (r : KaOutcome) : State :=
  (potPassed [(i, ka, r)] s).foldl (fun a j => kaPass j a) (kaFail i ka.toNat 0 r (withPotFail s))

theorem exec_selfTestEnd_fail {s : State} {i : Nat} {ka : BitVec 8} {r : KaOutcome} (hst : s.boot.stage = .selfTest)
    (hov : s.boot.overrunHold = false) (hi : i < 1072) (hu : unitSt s i = .active) (hr : r ≠ .pass) :
    exec (.selfTestEnd [(i, ka, r)]) s = .next (readied (afterFailure s i ka r)) := by
  have hin : inStage .selfTest s = true := by simp [inStage, hst, hov]
  have hf : [(i, ka, r)].foldl (fun a x => potFail x a) s = kaFail i ka.toNat 0 r (withPotFail s) := potFail_eq hi hu hr
  change execSelfTestEnd [(i, ka, r)] s = _
  rw [execSelfTestEnd, hf, if_pos hin]
  rfl

section
variable {s : State} {i : Nat} {ka : BitVec 8} {r : KaOutcome}

theorem afterFailure_changes (s : State) (i : Nat) (ka : BitVec 8) (r : KaOutcome) :
    changesOnly (.boot :: .totals :: moves) s (afterFailure s i ka r) :=
  ((withPotFail_changes s).both (kaFail_changes _ _ _ _ _) (by decide) (by decide)).next (kaPasses_changes _ _) (by decide)

theorem afterFailure_boot (s : State) (i : Nat) (ka : BitVec 8) (r : KaOutcome) :
    (afterFailure s i ka r).boot = (withPotFail s).boot :=
  ((kaFail_changes _ _ _ _ (withPotFail s)).next (kaPasses_changes (potPassed [(i, ka, r)] s) _) (by decide)) .boot (by decide)

theorem unitView_afterFailure_self (hu : unitSt s i = .active) :
    unitView i (afterFailure s i ka r) = unitView i (kaFail i ka.toNat 0 r (withPotFail s)) :=
  unitView_kaPasses (not_mem_potPassed _ (by simp [hu]))

theorem unitEntry_afterFailure_other {j : Nat} (hj : j ≠ i) (hw : unitSt s j ≠ .watch) :
    unitEntry (afterFailure s i ka r) j = unitEntry s j := by
  have h1 := unitView_kaPasses (s := kaFail i ka.toNat 0 r (withPotFail s)) (not_mem_potPassed [(i, ka, r)] hw)
  have h2 := unitView_kaFail_other ka.toNat 0 r hj (withPotFail s)
  exact congrArg Prod.fst (h1.trans h2)

theorem afterFailure_totals (s : State) (i : Nat) (ka : BitVec 8) (r : KaOutcome) :
    (afterFailure s i ka r).sec.totals = { s.sec.totals with kat := s.sec.totals.kat + 1 } := by
  have h : (afterFailure s i ka r).sec.totals = _ := kaPasses_changes_few _ _ .totals (by decide)
  rw [h, kaFail_totals]
  rfl

theorem afterFailure_fsrSeq (s : State) (i : Nat) (ka : BitVec 8) (r : KaOutcome) :
    (afterFailure s i ka r).sec.fsrSeq = (kaFail i ka.toNat 0 r (withPotFail s)).sec.fsrSeq :=
  (Prod.mk.inj (kaPasses_changes_few _ _ .fsrs (by decide))).2

/-- The known-answer counter of a tile is its fourth, that of a port its fifth. -/
theorem afterFailure_counter (hi : i < 1072) (hu : unitSt s i = .active) :
    if i < 1024 then (healthOf (afterFailure s i ka r) i).c3 = satInc 16 (healthOf s i).c3
    else (healthOf (afterFailure s i ka r) i).c4 = satInc 32 (healthOf s i).c4 := by
  have h := countersOf_kaFail (i := i) ka.toNat 0 r (withPotFail s)
  have hh : healthOf (afterFailure s i ka r) i = healthOf (kaFail i ka.toNat 0 r (withPotFail s)) i :=
    congrArg Prod.snd (unitView_afterFailure_self hu)
  have hs : healthOf (withPotFail s) i = healthOf s i := congrArg Prod.snd (unitView_withPotFail i s)
  rw [countersOf, ← hh, hs] at h
  by_cases ht : i < 1024
  · simp only [katPlace, ctrWidth, ht, if_true, Health.mapCtr, Health.counters, List.cons.injEq] at h
    rw [if_pos ht, h.2.2.2.1]
  · simp only [katPlace, ctrWidth, ht, hi, if_true, if_false, Health.mapCtr, Health.counters, List.cons.injEq] at h
    rw [if_neg ht, h.2.2.2.2.1]

end

/-- Settles O8: the failure is `kaFail`'s (`unitEntry_kaFail_self`, `countersOf_kaFail`, `kaFail_fsr`), which touches its own unit
alone, and the passes that follow touch units in WATCH alone (`not_mem_potPassed`); an overrun holds every stage (`inStage`). -/
theorem startUpFailuresAreKept : Obligations.StartUpFailuresAreKept := by
  unfold Obligations.StartUpFailuresAreKept
  refine ⟨fun s i ka r hst hov hi _ hu hr => ?_, fun s hst hov => ?_, fun s l fs hov => ?_⟩
  · have hc := readied_changes (afterFailure s i ka r)
    have hent := hc.unitEntry_eq (by decide) (by decide)
    have hhealth := hc.healthOf_eq (by decide)
    have hboot := readied_boot (afterFailure s i ka r)
    have hfsrs := Prod.mk.inj (hc .fsrs (by decide))
    have htot : (readied (afterFailure s i ka r)).sec.totals = (afterFailure s i ka r).sec.totals := hc .totals (by decide)
    obtain ⟨hentry, hself⟩ := Prod.mk.inj (unitView_afterFailure_self (ka := ka) (r := r) hu)
    have hu' : unitSt (withPotFail s) i = .active := (unitSt_of_unitView (unitView_withPotFail i s)).trans hu
    obtain ⟨hseq, hnew⟩ := kaFail_fsr ka.toNat 0 r hu'
    refine ⟨_, exec_selfTestEnd_fail hst hov hi hu hr, by rw [hboot], ?_, ?_, fun j hj hw => ?_, ?_, ?_, ?_, ?_, ?_⟩
    · rw [hboot, afterFailure_boot]
      rfl
    · rw [unitSt, hent, hentry, unitEntry_kaFail_self _ _ _ hu']
      rfl
    · rw [hent, unitEntry_afterFailure_other hj hw]
    · rw [htot, afterFailure_totals]
    · rw [hhealth]
      exact afterFailure_counter hi hu
    · rw [hhealth, hfsrs.2, afterFailure_fsrSeq, hself, hseq]
    · rw [hfsrs.2, afterFailure_fsrSeq]
      exact hnew
    · exact (afterFailure_changes s i ka r).both hc (by decide) (by decide)
  · have hg : (timedStage s.boot.stage && !s.boot.overrunHold) = true := by
      rcases hst with h | h | h | h <;> simp [timedStage, h, hov]
    have hw := writeFsr_changes 0x0A84 [7, stageCode s.boot.stage] none none none
      { s with boot := { s.boot with stageOverrun := true, overrunHold := true } }
    exact ⟨_, next_if_pos hg, (withBoot_changes s _).both hw (by decide) (by decide), hw .boot (by decide),
      writeFsr_seq _ _ _ _ _ _, writeFsr_last _ _ _ _ _ _⟩
  · have hn : ∀ g, ¬ inStage g s = true := fun g => by simp [inStage, hov]
    exact ⟨next_if_neg (hn _), next_if_neg (hn _), next_if_neg (hn _), next_if_neg (hn _)⟩

end Sys2Proof.Machine
end

section
/-! Proofs: a fundamental reset does not silence a port that a held SET_OFF releases (R328, R331, R40). -/

namespace Sys2Proof.Machine

/-- A package in RAILS in which SET_OFF holds port 0 until the job boundary: the entry is OFF and HELD, and shows FENCED (R331). -/
def portHeldOff : State :=
  { State.reset with
      boot := { State.reset.boot with stage := .rails }
      store := { State.reset.store with set := { State.reset.store.set with units := [(1024, { st := .off, held := true })] } } }

/-- The reset releases the unit: port 0 is OFF afterwards and sends nothing. -/
theorem fundamentalReset_of_portHeldOff :
    (portOf (fundamentalReset { portHeldOff with tray := { portHeldOff.tray with perstN := false } }) 0).sends = .none := by
  decide +kernel

/-- Refutes O9: a port that SET_OFF holds shows FENCED, not OFF, before the reset; the reset releases it (R328), so that it is OFF and
sends nothing where the statement has it send NOT_READY. -/
theorem not_fundamentalResetReturnsToHeld : ¬ Obligations.FundamentalResetReturnsToHeld := by
  unfold Obligations.FundamentalResetReturnsToHeld
  intro h
  obtain ⟨t, he, -, -, -, -, -, -, -, -, -, -, -, -, -, -, -, -, -, -, -, -, -, -, -, -, -, -, -, -, hsends⟩ :=
    h.1 portHeldOff (.inl rfl)
  have ht : fundamentalReset { portHeldOff with tray := { portHeldOff.tray with perstN := false } } = t :=
    Host.Outcome.next.inj he
  have hs := hsends 0 (by decide) (by decide) (by decide)
  rw [← ht, fundamentalReset_of_portHeldOff] at hs
  exact absurd hs (by decide)

end Sys2Proof.Machine
end

section
/-! Proofs: the hot reset (R37, Table 3-2). -/

namespace Sys2Proof.Machine

/-! ## Tables under a function -/

theorem find?_mapVals {α : Type} [DecidableEq α] {d : α} (f : α → α) {m : Sparse α} (hr : risingKeys m = true) (k : Nat) :
    look d k (mapVals d f m) = ((find? k m).map f).getD d := by
  induction m with
  | nil => rfl
  | cons x m ih =>
    obtain ⟨j, w⟩ := x
    obtain ⟨habove, hm⟩ := (risingKeys_cons _ _).mp hr
    by_cases hk : k = j
    · subst hk
      have hnone : find? k m = none := by
        cases e : find? k m with
        | none => rfl
        | some v => exact absurd (habove _ (mem_of_find? e)) (Nat.lt_irrefl _)
      have ih' := ih hm
      rw [hnone] at ih'
      by_cases hd : f w = d
      · have he : mapVals d f ((k, w) :: m) = mapVals d f m := by simp [mapVals, hd]
        simpa [he, find?, hd] using ih'
      · have he : mapVals d f ((k, w) :: m) = (k, f w) :: mapVals d f m := by simp [mapVals, hd]
        simp [he, look, find?]
    · by_cases hd : f w = d
      · have he : mapVals d f ((j, w) :: m) = mapVals d f m := by simp [mapVals, hd]
        simpa [he, find?, hk] using ih hm
      · have he : mapVals d f ((j, w) :: m) = (j, f w) :: mapVals d f m := by simp [mapVals, hd]
        simpa [he, look, find?, hk] using ih hm

/-- A function that keeps the default acts on every value that is read. -/
theorem look_mapVals {α : Type} [DecidableEq α] {d : α} {f : α → α} {m : Sparse α} (hr : risingKeys m = true) (hd : f d = d)
    (k : Nat) : look d k (mapVals d f m) = f (look d k m) := by
  rw [find?_mapVals f hr]
  cases e : find? k m <;> simp [look, e, hd]

/-- A store keeps the keys rising. -/
theorem risingKeys_store {α : Type} [DecidableEq α] (d : α) (k : Nat) (v : α) {m : Sparse α} (h : risingKeys m = true) :
    risingKeys (store d k v m) = true := by
  unfold store
  split
  · exact risingKeys_erase k m h
  · exact risingKeys_put k v m h

/-! ## Units that a reset releases, when no test runs and no tile holds anything -/

section
variable {s : State}

theorem dropTestOf_of_noTest (h : s.sec.test = none) (i : Nat) : dropTestOf i s = s := by
  simp [dropTestOf, h]

theorem tileLeaves_of_noTiles (h : s.tiles = []) (u : Nat) : (tileLeaves u s).tiles = [] := by
  unfold tileLeaves
  extract_lets w s1
  split
  · exact h
  · refine foldl_keeps (P := fun a => a.tiles = []) (fun a v ha => ?_) _ h
    simp [ha, store, erase]

theorem unitLeaves_of_noTiles (h : s.tiles = []) (i : Nat) :
    changesOnly [.power, .ports, .mems] s (unitLeaves i s) := by
  by_cases hi : i < 1024
  · have hc : changesOnly [.power, .tiles] s (unitLeaves i s) := by
      rw [unitLeaves, if_pos hi]
      exact tileLeaves_changes i s
    intro p hp
    by_cases ht : p = .tiles
    · subst ht
      change (unitLeaves i s).tiles = s.tiles
      rw [unitLeaves, if_pos hi, tileLeaves_of_noTiles h, h]
    · refine hc p fun hm => ?_
      rcases List.mem_cons.mp hm with rfl | hm
      · exact hp (by decide)
      · exact ht (List.mem_singleton.mp hm)
  · rw [unitLeaves, if_neg hi]
    split
    · split
      · exact (setPort_changes _ _ s).mono (by decide)
      · exact (updPort_changes _ _ s).mono (by decide)
    · split
      · exact (setMem_changes _ _ s).mono (by decide)
      · exact (updMem_changes _ _ s).mono (by decide)

/-- What the release of a held unit may change when no test runs and no tile holds anything. -/
theorem releaseHeld_of_idle (ht : s.sec.test = none) (hl : s.tiles = []) (i : Nat) (e : UnitEntry) :
    changesOnly [.settings, .unitGen, .power, .ports, .mems] s (releaseHeld i e s) := by
  unfold releaseHeld
  extract_lets s1 s2
  have h2 : changesOnly [.settings, .unitGen] s s2 := (setUnit_changes _ _ s).next (updSet_changes _ s1) (by decide)
  have h3 : changesOnly [.settings, .unitGen] s (if e.st = .off then logUnit i (reasonOf s2 i) s2 else s2) := by
    refine h2.trans (.ite ?_ (.refl _ s2))
    unfold logUnit
    exact (appendLog_changes _ _ _ _).mono (by decide)
  have ht3 := h3 .test (by decide)
  have hl3 := h3 .tiles (by decide)
  rw [leaveService, dropTestOf_of_noTest (ht3.trans ht)]
  exact h3.both (unitLeaves_of_noTiles (hl3.trans hl) i) (by decide) (by decide)

theorem releaseAll_of_idle (ht : s.sec.test = none) (hl : s.tiles = []) :
    changesOnly [.settings, .unitGen, .power, .ports, .mems] s (releaseAll s) := by
  have h : ∀ (l : List (Nat × UnitEntry)) (a : State), a.sec.test = none → a.tiles = [] →
      changesOnly [.settings, .unitGen, .power, .ports, .mems] a (l.foldl (fun a x => releaseHeld x.1 x.2 a) a) := by
    intro l
    induction l with
    | nil => exact fun a _ _ => .refl _ a
    | cons x l ih =>
      intro a hta hla
      have hc := releaseHeld_of_idle hta hla x.1 x.2
      exact hc.trans (ih _ ((hc .test (by decide)).trans hta) ((hc .tiles (by decide)).trans hla))
  exact h _ s ht hl

theorem releaseAll_of_noneHeld (h : ∀ x ∈ s.store.set.units, x.2.held = false) : releaseAll s = s := by
  have he : s.store.set.units.filter (fun x => x.2.held) = [] :=
    List.filter_eq_nil_iff.mpr fun x hx => by simp [h x hx]
  rw [releaseAll, he]
  rfl

end

/-! ## No unit is held after a release -/

section
variable {s : State} {i j : Nat}

theorem unitEntry_leaveService (i : Nat) (s : State) : unitEntry (leaveService i s) = unitEntry s :=
  (leaveService_changes i s).unitEntry_eq (by decide) (by decide)

/-- The release of a unit changes its own entry alone. -/
theorem unitEntry_releaseHeld_other (h : j ≠ i) (e : UnitEntry) (s : State) :
    unitEntry (releaseHeld i e s) j = unitEntry s j := by
  unfold releaseHeld
  extract_lets s1 s2
  have h3 : unitEntry (if e.st = .off then logUnit i (reasonOf s2 i) s2 else s2) = unitEntry s1 := by
    split
    · exact unitEntry_of_units rfl rfl
    · exact unitEntry_of_units rfl rfl
  rw [unitEntry_leaveService, h3]
  exact unitEntry_setUnit_other h _ s

theorem held_releaseHeld_self (e : UnitEntry) (s : State) : (unitEntry (releaseHeld i e s) i).held = false := by
  unfold releaseHeld
  extract_lets s1 s2
  have h3 : unitEntry (if e.st = .off then logUnit i (reasonOf s2 i) s2 else s2) = unitEntry s1 := by
    split
    · exact unitEntry_of_units rfl rfl
    · exact unitEntry_of_units rfl rfl
  rw [unitEntry_leaveService, h3]
  by_cases hp : unitPop s i = true
  · exact congrArg UnitEntry.held (unitEntry_setUnit_self hp _)
  · have hp1 : unitPop s1 = unitPop s := unitPop_of_ident (setUnit_changes i _ s .ident (by decide))
    rw [unitEntry, hp1, if_neg hp]

/-- After the release no unit is HELD (R325, R328). -/
theorem held_releaseAll (i : Nat) : (unitEntry (releaseAll s) i).held = false := by
  have hother : ∀ (a : State) (x : Nat × UnitEntry), x.1 ≠ i → unitEntry (releaseHeld x.1 x.2 a) i = unitEntry a i :=
    fun a x hx => unitEntry_releaseHeld_other (Ne.symm hx) x.2 a
  by_cases hh : (unitEntry s i).held = true
  · have hm : ∃ x ∈ s.store.set.units.filter (fun x => x.2.held), x.1 = i := by
      by_cases hp : unitPop s i = true
      · rw [unitEntry, if_pos hp, look] at hh
        cases e : find? i s.store.set.units with
        | none => simp [e] at hh
        | some v => exact ⟨(i, v), List.mem_filter.mpr ⟨mem_of_find? e, by simpa [e] using hh⟩, rfl⟩
      · rw [unitEntry, if_neg hp] at hh
        cases hh
    have h : ∀ (l : List (Nat × UnitEntry)) (a : State), ((∃ x ∈ l, x.1 = i) ∨ (unitEntry a i).held = false) →
        (unitEntry (l.foldl (fun a x => releaseHeld x.1 x.2 a) a) i).held = false := by
      intro l
      induction l with
      | nil => simp
      | cons x l ih =>
        intro a ha
        refine ih _ ?_
        by_cases hx : x.1 = i
        · right
          rw [← hx]
          exact held_releaseHeld_self x.2 a
        · rcases ha with ⟨y, hy, hyi⟩ | ha
          · rcases List.mem_cons.mp hy with rfl | hy
            · exact absurd hyi hx
            · exact .inl ⟨y, hy, hyi⟩
          · right
            rw [hother a x hx]
            exact ha
    exact h _ s (.inl hm)
  · have h : ∀ (l : List (Nat × UnitEntry)) (a : State), (unitEntry a i).held = false →
        (unitEntry (l.foldl (fun a x => releaseHeld x.1 x.2 a) a) i).held = false := by
      intro l
      induction l with
      | nil => exact fun a ha => ha
      | cons x l ih =>
        intro a ha
        refine ih _ ?_
        by_cases hx : x.1 = i
        · rw [← hx]
          exact held_releaseHeld_self x.2 a
        · rw [hother a x hx]
          exact ha
    exact h _ s (by simpa using hh)

end

/-! ## The hot reset -/

section
variable (s : State)

/-- A reset that ends a job changes what the end of the sealed step, the count of the fault and its record change. -/
theorem resetJob_changes (code : Nat) :
    changesOnly [.tiles, .mems, .job, .totals, .fsrs, .alerts] s (resetJob code s) := by
  unfold resetJob
  split
  · let f : Totals → Totals := fun t => { t with faults := t.faults + 1 }
    refine ((unsealStep_changes s).both (updTotals_changes f _) (by decide) (by decide)).trans ?_
    intro p hp
    cases p
    case fsrs => exact absurd (by decide) hp
    case alerts => exact absurd (by decide) hp
    all_goals rfl
  · exact .refl _ s

theorem resetJob_of_idle (code : Nat) (h : running s = false) : resetJob code s = s := if_neg (by simp [h])

/-- The job that a reset ends counts one fault and makes one record (R348). -/
theorem resetJob_of_running (code : Nat) (h : running s = true) :
    (resetJob code s).sec.totals = { s.sec.totals with faults := s.sec.totals.faults + 1 } ∧
      (resetJob code s).sec.fsrSeq = nextSeq s.sec.fsrSeq := by
  have hu := unsealStep_changes s
  have ht : (unsealStep s).sec.totals = s.sec.totals := hu .totals (by decide)
  have hf : (unsealStep s).sec.fsrSeq = s.sec.fsrSeq := congrArg Prod.snd (hu .fsrs (by decide))
  rw [resetJob, if_pos h]
  refine ⟨?_, ?_⟩
  · rw [← ht]
    rfl
  · rw [← hf]
    rfl

/-- The state of a hot reset before the held units leave service. -/
def beforeRelease (link : LinkInfo) (s : State) : State :=
  let s1 := wakeQuads (dropReel s)
  { s1 with store := s.store.afterReset, sec := s.sec.afterReset, tiles := [], localq := [], transits := [],
            shadowed := [], job := Job.none, work := { s.work with parcelsProv := 0, storesProv := 0, windowProv := 0 },
            window := { Window.reset with hostMem := s.window.hostMem }, det := Det.reset,
            ldr := { s1.ldr with debug := false },
            power := s1.power.afterReset s.store.set.capMax, rings := Rings.reset link, latches := [] }

theorem resetShared_eq (link : LinkInfo) : resetShared link s = releaseAll (beforeRelease link s) := rfl

theorem resetShared_changes (link : LinkInfo) :
    changesOnly [.settings, .unitGen, .power, .ports, .mems] (beforeRelease link s) (resetShared link s) :=
  releaseAll_of_idle rfl rfl

/-- What a reset's own writes leave as it was. -/
theorem beforeRelease_keeps (link : LinkInfo) :
    changesOnly [.ports, .banks, .secRegs, .test, .tiles, .localq, .transits, .shadowed, .job, .work, .windowSize, .panels, .stage,
      .gaccs, .trees, .waiting, .takes, .det, .ldr, .power, .ringRegs, .ringOut, .latches, .reel, .far] s
      (beforeRelease link s) := by
  have h : changesOnly [.ports, .reel, .far, .det, .ldr, .power] s (wakeQuads (dropReel s)) :=
    (dropReel_changes s).both (wakeQuads_changes _) (by decide) (by decide)
  intro p hp
  cases p
  case tray => exact h .tray (by decide)
  case ident => exact h .ident (by decide)
  case boot => exact h .boot (by decide)
  case stop => exact h .stop (by decide)
  case unitGen => exact h .unitGen (by decide)
  case mems => exact h .mems (by decide)
  case bridle => exact h .bridle (by decide)
  case pacer => exact h .pacer (by decide)
  case tb => exact h .tb (by decide)
  case alerts => exact h .alerts (by decide)
  case mgmtRegs => exact h .mgmtRegs (by decide)
  case tap => exact h .tap (by decide)
  case out => exact h .out (by decide)
  case entropy => exact h .entropy (by decide)
  case pending => exact h .pending (by decide)
  case settings => rfl
  case totals => rfl
  case health => rfl
  case fsrs => rfl
  case host => rfl
  all_goals exact absurd (by decide) hp

/-- A port that is not off is not touched by the quads that come back. -/
theorem portOf_wakeQuads_of_on {p : Nat} (h : (portOf s p).st ≠ .off) : portOf (wakeQuads s) p = portOf s p := by
  refine (foldl_keeps (P := fun a => portOf a p = portOf s p) (fun a q ha => ?_) _ rfl)
  unfold wakeQuad
  split
  · rename_i hq
    by_cases he : p = q
    · subst he
      exact absurd hq.1 (ha ▸ h)
    · exact (by rw [dropPort_eq, portOf_setPort_other he]; exact ha)
  · exact ha

theorem risingKeys_wakeQuads (h : risingKeys s.ports = true) : risingKeys (wakeQuads s).ports = true := by
  refine foldl_keeps (P := fun a => risingKeys a.ports = true) (fun a q ha => ?_) _ h
  unfold wakeQuad
  split
  · rw [dropPort_eq]
    exact risingKeys_store _ _ _ ha
  · exact ha

end

end Sys2Proof.Machine
end

section
/-! Proofs: the hot reset settles its obligation. -/

namespace Sys2Proof.Machine

section
variable {A : List Part} {s t : State}

/-- A change that spares the window's parts spares the whole window. -/
theorem changesOnly.window_eq (h : changesOnly A s t)
    (hA : ∀ p ∈ [Part.windowSize, .panels, .stage, .gaccs, .trees, .waiting, .takes, .host], p ∉ A) : t.window = s.window := by
  have same : ∀ p ∈ [Part.windowSize, .panels, .stage, .gaccs, .trees, .waiting, .takes, .host], p.same s t :=
    fun p hp => h p (hA p hp)
  simp only [List.mem_cons, List.not_mem_nil, or_false, forall_eq_or_imp, forall_eq, Part.same] at same
  obtain ⟨h1, h2, h3, h4, h5, h6, h7, h8⟩ := same
  cases hs : s.window
  cases ht : t.window
  simp_all

theorem changesOnly.rings_eq (h : changesOnly A s t) (hr : Part.ringRegs ∉ A) (ho : Part.ringOut ∉ A) : t.rings = s.rings := by
  have e := h .ringRegs hr
  have e2 := h .ringOut ho
  simp only [Part.same, Prod.mk.injEq] at e e2
  obtain ⟨h1, h2, h3, h4, h5, h6, h7, h8, h9, h10⟩ := e2
  rw [← e]
  simp only [← h1, ← h2, ← h3, ← h4, ← h5, ← h6, ← h7, ← h8, ← h9, ← h10]

theorem changesOnly.banks_eq (h : changesOnly A s t) (hb : Part.banks ∉ A) :
    t.store.bankA = s.store.bankA ∧ t.store.bankB = s.store.bankB := by
  have e : { t.store with set := s.store.set } = s.store := h .banks hb
  have ea := congrArg Store.bankA e
  have eb := congrArg Store.bankB e
  exact ⟨ea, eb⟩

theorem unitEntry_appendLog (kind code arg : Nat) (u : State) : unitEntry (appendLog kind code arg u) = unitEntry u := by
  have hu : (appendLog kind code arg u).store.set.units = u.store.set.units := by simp only [appendLog, updSet]
  exact unitEntry_of_units (appendLog_changes _ _ _ _ .ident (by decide)) hu

end

section
variable (s : State)

/-- What a hot reset writes after the shared part of the resets, the settings log apart. -/
def hotKept (s u : State) : State :=
  { u with mems := mapVals Stack.off Stack.unmarked u.mems, ports := mapVals Port.off portKept u.ports,
           bridle := { Bridle.reset with count := s.bridle.count },
           pacer := { u.pacer with hist := [], head := 0 }, boot := { s.boot with lastReset := .hot } }

theorem hotResetAll_eq :
    hotResetAll s = appendLog 1 2 (bootFlags { s.boot with lastReset := .hot })
      (hotKept s (resetShared s.rings.link (resetJob 0x0D03 s))) := rfl

theorem hotKept_changes (u : State) : changesOnly [.mems, .ports, .bridle, .pacer, .boot] u (hotKept s u) := by
  intro p hp
  cases p
  case mems => exact absurd (by decide) hp
  case ports => exact absurd (by decide) hp
  case bridle => exact absurd (by decide) hp
  case pacer => exact absurd (by decide) hp
  case boot => exact absurd (by decide) hp
  all_goals rfl

/-- What a hot reset leaves as the reset's own writes make it. -/
theorem hotResetAll_changes :
    changesOnly [.settings, .unitGen, .power, .ports, .mems, .bridle, .pacer, .boot]
      (beforeRelease s.rings.link (resetJob 0x0D03 s)) (hotResetAll s) := by
  rw [hotResetAll_eq]
  exact ((resetShared_changes _ _).both (hotKept_changes s _) (by decide) (by decide)).next (appendLog_changes _ _ _ _) (by decide)

/-- The parts that neither the end of the job nor the reset touches. -/
theorem hotResetAll_keeps :
    changesOnly [.settings, .unitGen, .power, .ports, .mems, .bridle, .pacer, .boot, .tiles, .job, .totals, .fsrs, .alerts, .banks,
      .secRegs, .test, .localq, .transits, .shadowed, .work, .windowSize, .panels, .stage, .gaccs, .trees, .waiting, .takes, .det,
      .ldr, .ringRegs, .ringOut, .latches, .reel, .far] s (hotResetAll s) :=
by
  have h1 := resetJob_changes s 0x0D03
  have h2 := beforeRelease_keeps (resetJob 0x0D03 s) s.rings.link
  have h3 := hotResetAll_changes s
  exact ((h1.mono (by decide)).trans (h2.mono (by decide))).trans (h3.mono (by decide))

/-- With no unit held a hot reset leaves each stack's state, blocks and selectors, and no mark. -/
theorem memOf_hotResetAll (hrun : running s = false) (hu : ∀ x ∈ s.store.set.units, x.2.held = false)
    (hr : risingKeys s.mems = true) (k : Nat) : memOf (hotResetAll s) k = (memOf s k).unmarked := by
  have hb : resetShared s.rings.link s = beforeRelease s.rings.link s := releaseAll_of_noneHeld hu
  have hm : (beforeRelease s.rings.link s).mems = s.mems := beforeRelease_keeps s s.rings.link .mems (by decide)
  rw [hotResetAll_eq, resetJob_of_idle s _ hrun, hb]
  change look Stack.off k (mapVals Stack.off Stack.unmarked (beforeRelease s.rings.link s).mems) = _
  rw [hm, look_mapVals hr rfl]
  rfl

/-- With no unit held a hot reset leaves a port that is on as it is kept outside a job. -/
theorem portOf_hotResetAll (hu : ∀ x ∈ s.store.set.units, x.2.held = false) (hr : risingKeys s.ports = true) {p : Nat}
    (hon : (portOf s p).st ≠ .off) : portOf (hotResetAll s) p = portKept (portOf s p) := by
  have hj := resetJob_changes s 0x0D03
  have hset : (resetJob 0x0D03 s).store.set = s.store.set := hj .settings (by decide)
  have hports : (dropReel (resetJob 0x0D03 s)).ports = s.ports := hj .ports (by decide)
  have hpo : portOf (dropReel (resetJob 0x0D03 s)) = portOf s := congrArg (fun m k => look Port.off k m) hports
  have hb : resetShared s.rings.link (resetJob 0x0D03 s) = beforeRelease s.rings.link (resetJob 0x0D03 s) :=
    releaseAll_of_noneHeld fun x hx => hu x (hset ▸ hx)
  have hw := risingKeys_wakeQuads (dropReel (resetJob 0x0D03 s)) (hports ▸ hr)
  have hp : portOf (wakeQuads (dropReel (resetJob 0x0D03 s))) p = portOf s p := by
    rw [portOf_wakeQuads_of_on _ (hpo ▸ hon), hpo]
  rw [hotResetAll_eq, hb]
  change look Port.off p (mapVals Port.off portKept (wakeQuads (dropReel (resetJob 0x0D03 s))).ports) = _
  rw [look_mapVals hw rfl]
  exact congrArg portKept hp

end

/-- Settles O10: what the end of the job and the reset leave alone is read from their frames (`hotResetAll_keeps`), and stacks and
ports are read through the tables that the reset maps. -/
theorem hotResetKeepsMemoryAndTraining : Obligations.HotResetKeepsMemoryAndTraining := by
  unfold Obligations.HotResetKeepsMemoryAndTraining
  refine ⟨fun s h => next_if_neg (by simp [h]), fun s h => ⟨hotResetAll s, next_if_pos h, ?_⟩⟩
  have hc := hotResetAll_changes s
  have hk := hotResetAll_keeps s
  have hj := resetJob_changes s 0x0D03
  have hhost : (resetJob 0x0D03 s).window.hostMem = s.window.hostMem := hj .host (by decide)
  have hpacer : (resetShared s.rings.link (resetJob 0x0D03 s)).pacer = s.pacer := by
    have h1 := resetShared_changes (resetJob 0x0D03 s) s.rings.link .pacer (by decide)
    have h2 := beforeRelease_keeps (resetJob 0x0D03 s) s.rings.link .pacer (by decide)
    exact (h1.trans h2).trans (hj .pacer (by decide))
  have hwin : (hotResetAll s).window = { Window.reset with hostMem := s.window.hostMem } :=
    (hc.window_eq (by decide)).trans (congrArg (fun m => { Window.reset with hostMem := m }) hhost)
  have hrings : (hotResetAll s).rings = Rings.reset s.rings.link := hc.rings_eq (by decide) (by decide)
  have hbanks := hc.banks_eq (by decide)
  have hjb := hj.banks_eq (by decide)
  refine ⟨rfl, rfl, ?_, hrings, hc .job (by decide), (hc .reel (by decide)).trans (wakeQuads_changes _ .reel (by decide)), hc .tiles (by decide), hwin, fun hrun => ?_, fun hrun => ?_,
    fun hu => ⟨fun hrun hr k => ?_, fun hr p hon => ?_⟩, fun _ => ?_, hk .health (by decide), hk .tb (by decide),
    hk .ident (by decide), hk .stop (by decide), hbanks.1.trans hjb.1, hbanks.2.trans hjb.2⟩
  · exact congrArg (fun x : Pacer => { x with hist := [], head := 0 }) hpacer
  · have ht : (hotResetAll s).sec.totals = (resetJob 0x0D03 s).sec.totals := hc .totals (by decide)
    have hf : (hotResetAll s).sec.fsrs = (resetJob 0x0D03 s).sec.fsrs := congrArg Prod.fst (hc .fsrs (by decide))
    rw [ht, hf, resetJob_of_idle s _ hrun]
    exact ⟨rfl, rfl⟩
  · have ht : (hotResetAll s).sec.totals = (resetJob 0x0D03 s).sec.totals := hc .totals (by decide)
    have hf : (hotResetAll s).sec.fsrSeq = (resetJob 0x0D03 s).sec.fsrSeq := congrArg Prod.snd (hc .fsrs (by decide))
    rw [ht, hf]
    exact resetJob_of_running s _ hrun
  · rw [memOf_hotResetAll s hrun hu hr k]
    exact ⟨rfl, rfl, rfl, rfl⟩
  · rw [portOf_hotResetAll s hu hr hon]
    refine ⟨rfl, rfl, fun h => ?_, fun h1 h2 => ?_⟩
    · have ha : (portOf s p).remeasure = true → (portOf s p).st ≠ .trained := fun h1 h2 => h ⟨h1, h2⟩
      constructor <;> simp +contextual [portKept, portAfterJob, portUnheard, ha]
    · simp [portKept, portAfterJob, portUnheard, h1, h2]
  · intro i
    have hu : unitEntry (hotResetAll s) = unitEntry (resetShared s.rings.link (resetJob 0x0D03 s)) := by
      rw [hotResetAll_eq, unitEntry_appendLog]
      exact (hotKept_changes s _).unitEntry_eq (by decide) (by decide)
    rw [hu]
    exact held_releaseAll i

end Sys2Proof.Machine
end

section
/-! Proofs: stop conditions, the loss of power, and references that come and go (R21 to R29). -/

namespace Sys2Proof.Machine

/-! ## A stop condition in a running package -/

/-- A package that runs a job on a trained port 0, whose table of units lists port 0 twice: ACTIVE, then OFF and HELD. -/
def portListedTwice : State :=
  { State.reset with
      boot := { State.reset.boot with stage := .ready }
      ports := [(0, { Port.off with st := .trained })]
      job := { Job.none with st := .running }
      store := { State.reset.store with set := { State.reset.store.set with
        units := [(1024, { st := .active, held := false }), (1024, { st := .off, held := true })] } } }

/-- The stop ends the job, whose boundary releases the second entry: the port goes OFF and sends nothing. -/
theorem portListedTwice_stopped :
    (portOf (stopPackage .clock { portListedTwice with tray := { portListedTwice.tray with lref0 := false } }) 0).sends = .none := by
  decide +kernel

/-- Refutes O11: the statement asks no form of the table of units. Where that lists a port that is ACTIVE a second time as OFF and
HELD, the job boundary of the stop takes the port out of service, and it sends nothing where the statement has it send STOPPED. -/
theorem not_stopConditionsStopThePackage : ¬ Obligations.StopConditionsStopThePackage := by
  unfold Obligations.StopConditionsStopThePackage
  rintro ⟨-, -, -, -, hclock⟩
  obtain ⟨t, he, ⟨-, -, -, -, -, -, -, -, -, -, -, -, -, -, hsends, -⟩, -⟩ := hclock portListedTwice (by decide) (by decide)
  have ht : stopPackage .clock { portListedTwice with tray := { portListedTwice.tray with lref0 := false } } = t :=
    Host.Outcome.next.inj he
  have hs := hsends 0 (by decide) (by decide) (by decide)
  rw [← ht, portListedTwice_stopped] at hs
  exact absurd hs (by decide)

/-! ## A stop condition in a stopped package -/

section
variable {s : State}

theorem stopPackage_of_stopped (c : StopCause) (h : s.stop.stopped = true) :
    stopPackage c s = { s with stop := markCause c s.stop,
                               tray := if thermal c then { s.tray with thermTripN := false } else s.tray } := if_pos h

/-- In a stopped package a cause is recorded, and a thermal one lowers THERM_TRIP_N (R29, log 69). -/
theorem stopPackage_causeAdded (c : StopCause) (h : s.stop.stopped = true) : causeAdded c s (stopPackage c s) := by
  rw [stopPackage_of_stopped c h]
  cases c <;> simp [causeAdded, markCause, thermal]

theorem stopPackage_changes_of_stopped (c : StopCause) (h : s.stop.stopped = true) :
    changesOnly [.stop, .tray] s (stopPackage c s) := by
  rw [stopPackage_of_stopped c h]
  intro p hp
  cases p
  case stop => exact absurd (by decide) hp
  case tray => exact absurd (by decide) hp
  all_goals rfl

/-- A supply or clock cause moves no signal of the tray. -/
theorem stopPackage_supply_changes (h : s.stop.stopped = true) : changesOnly [.stop] s (stopPackage .supply s) := by
  rw [stopPackage_of_stopped _ h]
  exact withStop_changes s _

end

/-- Settles O12: a stopped package takes the one branch of `stopPackage` that records a cause. -/
theorem furtherCausesAreRecorded : Obligations.FurtherCausesAreRecorded := by
  unfold Obligations.FurtherCausesAreRecorded
  refine ⟨fun s mv hon hst hmv h30 => ?_, fun s r hst hr => ?_, fun s hon hst hc hcount => ?_, fun s c hon hst hc => ?_,
    fun s hon hst => ?_⟩
  · let s1 := { s with tray := { s.tray with vin48 := mv } }
    have hin : (svcOn s && (decide (mv < 38000) || decide (60500 < mv)) && decide (30000 ≤ mv)) = true := by simp [hon, hmv, h30]
    exact ⟨stopPackage .supply s1, next_if_pos hin, stopPackage_causeAdded (s := s1) .supply hst,
      (withTray_changes s _).both (stopPackage_changes_of_stopped (s := s1) .supply hst) (by decide) (by decide)⟩
  · let s1 := writeFsr 0x0A85 [4, r] none none none s
    have hf : changesOnly records s s1 := writeFsr_changes _ _ _ _ _ s
    have hst1 : s1.stop = s.stop := hf .stop (by decide)
    have htray : s1.tray = s.tray := hf .tray (by decide)
    have hadd : causeAdded .supply s1 (stopPackage .supply s1) := stopPackage_causeAdded _ (hst1 ▸ hst)
    refine ⟨stopPackage .supply s1, next_if_pos hr, ?_,
      hf.both (stopPackage_supply_changes (hst1 ▸ hst)) (by decide) (by decide)⟩
    rwa [causeAdded, hst1, htray] at hadd
  · let s1 := { s with boot := { s.boot with coolCount := false } }
    have hin : (svcOn s && !s.tray.coolFlowN && s.boot.coolCount) = true := by simp [hon, hc, hcount]
    exact ⟨stopPackage .cool s1, next_if_pos hin, stopPackage_causeAdded (s := s1) .cool hst,
      (withBoot_changes s _).both (stopPackage_changes_of_stopped (s := s1) .cool hst) (by decide) (by decide)⟩
  · let s1 := { s with tray := { s.tray with tMax := max s.tray.tMax c } }
    have hin : (svcOn s && decide (105 ≤ c)) = true := by simp [hon, hc]
    exact ⟨stopPackage .therm s1, next_if_pos hin, stopPackage_causeAdded (s := s1) .therm hst,
      (withTray_changes s _).both (stopPackage_changes_of_stopped (s := s1) .therm hst) (by decide) (by decide)⟩
  · let s1 := { s with tray := { s.tray with lref0 := false } }
    exact ⟨stopPackage .clock s1, next_if_pos hon, stopPackage_causeAdded (s := s1) .clock hst,
      (withTray_changes s _).both (stopPackage_changes_of_stopped (s := s1) .clock hst) (by decide) (by decide)⟩

/-! ## The loss of power -/

/-- Settles O13: the unpowered part holds the reset values but for identity, host memory and the banks, of which `spoilBank` marks the
target of a running store. -/
theorem powerLossKeepsOnlyTheBanks : Obligations.PowerLossKeepsOnlyTheBanks := by
  unfold Obligations.PowerLossKeepsOnlyTheBanks
  intro s mv hon hmv
  have hin : (svcOn s && decide (mv < 30000)) = true := by simp [svcOn, hon, hmv]
  refine ⟨powerLost mv s, next_if_pos hin, rfl, rfl, rfl, rfl, rfl, rfl, rfl, rfl, rfl, rfl, rfl, rfl, rfl, rfl, fun h => ?_,
    fun r h hb => ?_, fun r h hb => ?_⟩
  · simp [powerLost, unpowered, spoilBank, h]
  · simp [powerLost, unpowered, spoilBank, h, hb]
  · simp [powerLost, unpowered, spoilBank, h, hb]

end Sys2Proof.Machine
end

section
/-! Proofs: references that come and go (R24, R27, R29, R169). -/

namespace Sys2Proof.Machine

/-! ## The ports of a line die -/

/-- The ports of a line die. -/
def diePorts (n : Nat) : List Nat := (List.range 16).map (16 * n + ·)

theorem mem_diePorts {n p : Nat} : p ∈ diePorts n ↔ p / 16 = n := by
  simp only [diePorts, List.mem_map, List.mem_range]
  constructor
  · rintro ⟨i, hi, rfl⟩
    omega
  · intro h
    exact ⟨p % 16, Nat.mod_lt _ (by decide), by omega⟩

theorem diePorts_nodup (n : Nat) : (diePorts n).Nodup :=
  List.Nodup.map (fun a b h => by simpa using h) List.nodup_range

theorem foldl_diePorts (f : State → Nat → State) (n : Nat) (s : State) :
    (List.range 16).foldl (fun a i => f a (16 * n + i)) s = (diePorts n).foldl f s := by
  rw [diePorts, List.foldl_map]

/-! ## A port without its reference -/

section
variable {s : State}

theorem portOf_dropPort_other {p q : Nat} (h : q ≠ p) (s : State) : portOf (dropPort p s) q = portOf s q := by
  rw [dropPort_eq, portOf_setPort_other h]

/-- Whether a port is in MEASURING, TRAINED or a relock. -/
def portLinked (v : Port) : Bool := portUp v || v.st == .relock

theorem portLinked_iff {v : Port} : portLinked v = true ↔ v.st = .trained ∨ v.st = .measuring ∨ v.st = .relock := by
  simp [portLinked, portUp, or_assoc]

/-- Whether the loss of a port faults the running job. -/
def lossFaults (s : State) (p : Nat) : Bool := portLinked (portOf s p) && running s && reelPort s p

theorem losePort_eq (p : Nat) (s : State) :
    losePort p s = dropPort p (if lossFaults s p then raiseFault 0x0601 (portUnit p) 0xFF 0 s else s) := rfl

theorem losePort_changes (p : Nat) (s : State) : changesOnly [.ports, .job, .settings, .test] s (losePort p s) := by
  rw [losePort_eq]
  exact (changesOnly.ite ((raiseFault_changes _ _ _ _ s).mono (by decide)) (.refl _ s)).next (dropPort_changes p _) (by decide)

/-- The fault of a lost port moves no port. -/
theorem portOf_losePort (p q : Nat) (s : State) :
    portOf (losePort p s) q = if q = p then droppedPort (if lossFaults s p then raiseFault 0x0601 (portUnit p) 0xFF 0 s else s) p (portOf s p)
      else portOf s q := by
  rw [losePort_eq]
  generalize ha : (if lossFaults s p then raiseFault 0x0601 (portUnit p) 0xFF 0 s else s) = a
  have hc : changesOnly [.settings, .test, .job] s a := ha ▸ .ite (raiseFault_changes _ _ _ _ s) (.refl _ s)
  have hp : portOf a = portOf s := hc.portOf_eq (by decide)
  rw [dropPort_eq]
  by_cases h : q = p
  · rw [h, portOf_setPort_self, hp, if_pos rfl]
  · rw [portOf_setPort_other h, hp, if_neg h]

theorem holdNotice_job (n : Notice) (s : State) :
    (holdNotice n s).job.faulted = s.job.faulted ∧ (holdNotice n s).job.st = s.job.st := by
  unfold holdNotice
  split
  · split <;> exact ⟨rfl, rfl⟩
  · exact ⟨rfl, rfl⟩

theorem takeNotice_job (n : Notice) (s : State) :
    (takeNotice n s).job.faulted = s.job.faulted ∧ (takeNotice n s).job.st = s.job.st := by
  unfold takeNotice
  split
  · have h : (abortWindowTest n.step (holdNotice n s)).job = (holdNotice n s).job :=
      abortWindowTest_changes _ _ .job (by decide)
    rw [h]
    exact holdNotice_job n s
  · exact ⟨rfl, rfl⟩

/-- A fault of a running job: it has faulted, and it still runs until its notice applies (R355). -/
theorem raiseFault_job (c : Nat) (u : UnitField) (i w : Nat) (h : running s = true) :
    (raiseFault c u i w s).job.faulted = true ∧ running (raiseFault c u i w s) = true := by
  unfold raiseFault raiseFaultLoc
  rw [if_pos h]
  extract_lets job s1
  have ht := takeNotice_job (ownNotice s1 (locHere s c u i w) true) s1
  exact ⟨ht.1, by simpa only [running, ht.2] using h⟩

theorem losePort_job (p : Nat) (hrun : running s = true) :
    running (losePort p s) = true ∧ (losePort p s).job.faulted = (s.job.faulted || lossFaults s p) := by
  rw [losePort_eq]
  have hj : ∀ a : State, (dropPort p a).job = a.job := fun a => dropPort_changes p a .job (by decide)
  split
  · rename_i h
    obtain ⟨hf, hr⟩ := raiseFault_job 0x0601 (portUnit p) 0xFF 0 hrun
    rw [running, hj, hf, h]
    exact ⟨hr, by simp⟩
  · rename_i h
    rw [running, hj]
    exact ⟨hrun, by simp [h]⟩

/-- The loss of one port leaves what the loss of another would do. -/
theorem lossFaults_losePort {p q : Nat} (h : q ≠ p) (hrun : running s = true) : lossFaults (losePort p s) q = lossFaults s q := by
  have hr : (losePort p s).reel = s.reel := losePort_changes p s .reel (by decide)
  rw [lossFaults, lossFaults, portOf_losePort, if_neg h, (losePort_job p hrun).1, hrun, reelPort, reelPort, hr]

/-- A running job faults in the loss of a list of ports where one of them was up and in its Reel. -/
theorem losePorts_faulted {l : List Nat} (hl : l.Nodup) (hrun : running s = true) :
    (l.foldl (fun a p => losePort p a) s).job.faulted = (s.job.faulted || l.any (lossFaults s)) := by
  induction l generalizing s with
  | nil => simp
  | cons p l ih =>
    obtain ⟨hp, hl⟩ := List.nodup_cons.mp hl
    obtain ⟨hrun', hf⟩ := losePort_job p hrun
    have hany : l.any (lossFaults (losePort p s)) = l.any (lossFaults s) := by
      have heq : ∀ q ∈ l, lossFaults (losePort p s) q = lossFaults s q :=
        fun q hq => lossFaults_losePort (fun e => hp (e ▸ hq)) hrun
      rw [Bool.eq_iff_iff, List.any_eq_true, List.any_eq_true]
      exact exists_congr fun q => and_congr_right fun hq => by rw [heq q hq]
    rw [List.foldl_cons, ih hl hrun', hf, hany, List.any_cons, Bool.or_assoc]

/-- A dropped port whose reference is gone is out of the trained state and silent. -/
theorem droppedPort_silent {p : Nat} (hl : lrefOn s (p / 16) = false) (v : Port) :
    portLinked (droppedPort s p v) = false ∧ (droppedPort s p v).sends = .none := by
  unfold droppedPort
  split
  · exact ⟨rfl, rfl⟩
  · refine ⟨rfl, ?_⟩
    simp [portDown, idleSignal, hl]

theorem lrefOn_of_tray {s t : State} (h : t.tray = s.tray) : lrefOn t = lrefOn s := by
  funext n
  rw [lrefOn, lrefOn, h]

/-- Every port of a die without its reference ends out of the trained state and silent. -/
theorem losePorts_silent {n p : Nat} (hp : p / 16 = n) (hl : lrefOn s n = false) :
    portLinked (portOf ((diePorts n).foldl (fun a q => losePort q a) s) p) = false ∧
      (portOf ((diePorts n).foldl (fun a q => losePort q a) s) p).sends = .none := by
  have hkeep : ∀ (l : List Nat) (a : State), lrefOn a n = false → lrefOn (l.foldl (fun a q => losePort q a) a) n = false := by
    intro l a ha
    refine foldl_keeps (P := fun a => lrefOn a n = false) (fun b q hb => ?_) l ha
    rw [lrefOn_of_tray (losePort_changes q b .tray (by decide))]
    exact hb
  obtain ⟨l₁, l₂, hsplit⟩ := List.append_of_mem (mem_diePorts.mpr hp)
  have h₂ : p ∉ l₂ := by
    have hd := diePorts_nodup n
    rw [hsplit] at hd
    exact (List.nodup_cons.mp (List.nodup_append.mp hd).2.1).1
  rw [hsplit, List.foldl_append, List.foldl_cons,
    foldl_view_of_not_mem (v := fun a => portOf a p) (fun a q hq => (portOf_losePort q p a).trans (if_neg (Ne.symm hq))) h₂]
  rw [portOf_losePort, if_pos rfl]
  refine droppedPort_silent ?_ _
  have ha := hkeep l₁ s hl
  generalize l₁.foldl (fun a q => losePort q a) s = a at ha ⊢
  rw [hp]
  split
  · rw [lrefOn_of_tray (raiseFault_changes _ _ _ _ a .tray (by decide))]
    exact ha
  · exact ha

end

/-! ## The obligation -/

/-- The tray with a line reference set, as `lrefLineLoss` and `lrefReturn` set it. -/
def withLref (n : Nat) (on : Bool) (s : State) : State :=
  if n = 1 then { s with tray := { s.tray with lref1 := on } }
  else if n = 2 then { s with tray := { s.tray with lref2 := on } } else s

theorem withLref_changes (n : Nat) (on : Bool) (s : State) : changesOnly [.tray] s (withLref n on s) :=
  .ite (withTray_changes s _) (.ite (withTray_changes s _) (.refl _ s))

theorem lrefOn_withLref {n : Nat} (h : n = 1 ∨ n = 2) (on : Bool) (s : State) : lrefOn (withLref n on s) n = on := by
  rcases h with rfl | rfl <;> rfl

theorem lineLoss_spec {s : State} {n : Nat} (hn : n = 1 ∨ n = 2) (hdie : n < s.ident.lineDies) (hup : mgmtUp s = true) :
    ∃ t : State, exec (.lrefLineLoss n) s = .next t ∧ lrefOn t n = false ∧
      changesOnly [.tray, .ports, .job, .settings, .test] s t ∧
      (∀ p, p / 16 = n → (portOf t p).st ≠ .trained ∧ (portOf t p).st ≠ .measuring ∧ (portOf t p).st ≠ .relock ∧
        (portOf t p).sends = .none) ∧
      (∀ p, p / 16 ≠ n → portOf t p = portOf s p) ∧
      (running s = true → s.job.faulted = false →
        (t.job.faulted = true ↔ ∃ p, p / 16 = n ∧ reelPort s p = true ∧
          ((portOf s p).st = .trained ∨ (portOf s p).st = .measuring ∨ (portOf s p).st = .relock))) := by
  have h0 := withLref_changes n false s
  have hc := changesOnly.foldl (A := [.ports, .job, .settings, .test]) (fun a p => losePort_changes p a) (diePorts n)
    (withLref n false s)
  have hports : portOf (withLref n false s) = portOf s := h0.portOf_eq (by decide)
  refine ⟨(diePorts n).foldl (fun a p => losePort p a) (withLref n false s), ?_, ?_, h0.both hc (by decide) (by decide),
    fun p hp => ?_, fun p hp => ?_, fun hrun hf => ?_⟩
  · rw [← foldl_diePorts (fun a p => losePort p a)]
    exact next_if_pos ⟨hn, hdie, hup⟩
  · rw [lrefOn_of_tray (hc .tray (by decide))]
    exact lrefOn_withLref hn false s
  · obtain ⟨hs, hsil⟩ := losePorts_silent hp (lrefOn_withLref hn false s)
    have hst := mt portLinked_iff.mpr (Bool.eq_false_iff.mp hs)
    simp only [not_or] at hst
    exact ⟨hst.1, hst.2.1, hst.2.2, hsil⟩
  · rw [foldl_view_of_not_mem (v := fun a => portOf a p)
      (fun a q hq => (portOf_losePort q p a).trans (if_neg (Ne.symm hq))) (mt mem_diePorts.mp hp), hports]
  · have hjob : (withLref n false s).job = s.job := h0 .job (by decide)
    have hreel : (withLref n false s).reel = s.reel := h0 .reel (by decide)
    have hrun' : running (withLref n false s) = true := by rw [running, hjob]; exact hrun
    rw [losePorts_faulted (diePorts_nodup n) hrun', hjob, hf, Bool.false_or, List.any_eq_true]
    refine exists_congr fun p => ?_
    rw [mem_diePorts, lossFaults, hports, hrun', reelPort, hreel, Bool.and_true, Bool.and_eq_true, portLinked_iff, reelPort]
    exact and_congr_right fun _ => And.comm

theorem lrefReturn_spec {s : State} {n : Nat} (hn : n = 1 ∨ n = 2) (hdie : n < s.ident.lineDies) (hup : mgmtUp s = true)
    (hoff : lrefOn s n = false) :
    ∃ t : State, exec (.lrefReturn n) s = .next t ∧ lrefOn t n = true ∧ changesOnly [.tray, .ports] s t ∧
      (∀ p, p / 16 ≠ n → portOf t p = portOf s p) ∧
      (s.boot.stage = .ready → s.stop.stopped = false → ∀ p, p / 16 = n →
        unitSt s (1024 + p) = .active ∨ unitSt s (1024 + p) = .watch → (portOf t p).sends = .wake) := by
  have h0 := withLref_changes n true s
  have hd : ∀ (l : List Nat) (a : State), changesOnly [.ports] a (l.foldl (fun a p => dropPort p a) a) :=
    fun l a => changesOnly.foldl (fun a p => dropPort_changes p a) l a
  have hother : ∀ (p : Nat) (a : State) (q : Nat), q ≠ p → portOf (dropPort q a) p = portOf a p :=
    fun p a q hq => portOf_dropPort_other (Ne.symm hq) a
  have hc := hd (diePorts n) (withLref n true s)
  have hports : portOf (withLref n true s) = portOf s := h0.portOf_eq (by decide)
  refine ⟨(diePorts n).foldl (fun a p => dropPort p a) (withLref n true s), ?_, ?_, h0.both hc (by decide) (by decide),
    fun p hp => ?_, fun hready hstop p hp hu => ?_⟩
  · rw [← foldl_diePorts (fun a p => dropPort p a)]
    have hn0 : n ≠ 0 := by omega
    exact (next_if_neg hn0).trans (next_if_pos ⟨hn, hdie, hup, by simp [hoff]⟩)
  · rw [lrefOn_of_tray (hc .tray (by decide))]
    exact lrefOn_withLref hn true s
  · rw [foldl_view_of_not_mem (v := fun a => portOf a p) (hother p) (mt mem_diePorts.mp hp), hports]
  · obtain ⟨l₁, l₂, hsplit⟩ := List.append_of_mem (mem_diePorts.mpr hp)
    have h₂ : p ∉ l₂ := by
      have hdn := diePorts_nodup n
      rw [hsplit] at hdn
      exact (List.nodup_cons.mp (List.nodup_append.mp hdn).2.1).1
    rw [hsplit, List.foldl_append, List.foldl_cons, foldl_view_of_not_mem (v := fun a => portOf a p) (hother p) h₂]
    have hk : changesOnly [.tray, .ports] s (l₁.foldl (fun a p => dropPort p a) (withLref n true s)) :=
      h0.both (hd l₁ _) (by decide) (by decide)
    have htray := hd l₁ (withLref n true s) .tray (by decide)
    generalize l₁.foldl (fun a p => dropPort p a) (withLref n true s) = a at hk htray ⊢
    have hua : inService a (1024 + p) := by
      rw [inService, hk.unitSt_eq (by decide) (by decide)]
      exact hu
    have hboot : a.boot = s.boot := hk .boot (by decide)
    have hstp : a.stop = s.stop := hk .stop (by decide)
    rw [dropPort_eq, portOf_setPort_self, droppedPort_sends (ne_off_of_inService hua)]
    refine idleSignal_wake (hboot ▸ hready) (hstp ▸ hstop) hua ?_
    rw [lrefOn_of_tray htray, hp]
    exact lrefOn_withLref hn true s

end Sys2Proof.Machine
end

section
/-! Proofs: the time base's outputs and captures as tables, and the references' obligation (R24 to R29, R169). -/

namespace Sys2Proof.Machine

/-! ## Outputs and captures as tables -/

section
variable {t : TimeBase} {n k : Nat}

theorem outOf_setOut_self (n : Nat) (o : Tout) (t : TimeBase) : outOf (setOut n o t) n = o := look_store_self _ _ _ _

theorem outOf_setOut_other (h : k ≠ n) (o : Tout) (t : TimeBase) : outOf (setOut n o t) k = outOf t k := look_store_other h _ _ _

theorem capOf_setCap_self (n : Nat) (c : Capture) (t : TimeBase) : capOf (setCap n c t) n = c := look_store_self _ _ _ _

theorem capOf_setCap_other (h : k ≠ n) (c : Capture) (t : TimeBase) : capOf (setCap n c t) k = capOf t k := look_store_other h _ _ _

/-- Each of the four outputs changed on its own. -/
def eachOut (g : Tout → Tout) (t : TimeBase) : TimeBase := (List.range 4).foldl (fun a n => setOut n (g (outOf a n)) a) t

theorem eachOut_eq (g : Tout → Tout) (t : TimeBase) :
    eachOut g t = { t with outs := storeEach (fun _ => g) t.outs Tout.reset 4 } := by
  have h : ∀ (l : List Nat) (o : Sparse Tout), l.foldl (fun a n => setOut n (g (outOf a n)) a) { t with outs := o } =
      { t with outs := l.foldl (fun a n => store Tout.reset n (g (look Tout.reset n a)) a) o } := by
    intro l
    induction l with
    | nil => exact fun o => rfl
    | cons n l ih => exact fun o => ih _
  exact h _ t.outs

theorem outOf_eachOut (g : Tout → Tout) (t : TimeBase) (n : Nat) :
    outOf (eachOut g t) n = if n < 4 then g (outOf t n) else outOf t n := by
  rw [eachOut_eq]
  exact look_storeEach _ _ _ _

theorem endPulses_eq (t : TimeBase) : endPulses t = eachOut endPulse t := rfl

theorem endPulse_pulse (o : Tout) : (endPulse o).pulse = false := by
  unfold endPulse
  split
  · rfl
  · rename_i h
    simpa using h

theorem pulse_endPulses (t : TimeBase) {n : Nat} (hn : n < 4) : (look Tout.reset n (endPulses t).outs).pulse = false := by
  have h : look Tout.reset n (endPulses t).outs = endPulse (outOf t n) := (outOf_eachOut endPulse t n).trans (if_pos hn)
  rw [h, endPulse_pulse]

end

theorem postAt_seq (code : BitVec 16) (loc : Bool) (n : Nat) (info : List Byte) (s : State) :
    (postAt code loc n info s).rings.seq = nextSeq s.rings.seq := by
  have h : ∀ a : State, (pushAlert code n info a).rings = a.rings := by
    intro a
    unfold pushAlert
    split <;> rfl
  rw [postAt, ringEvent_seq, h]

theorem post_seq (code : BitVec 16) (info : List Byte) (s : State) : (post code info s).rings.seq = nextSeq s.rings.seq :=
  postAt_seq _ _ _ _ _

/-- Settles O14: a line die's ports are lost one by one (`losePorts_faulted`, `losePorts_silent`), and the loss of REF10M is
`loseRef10m_tb`. -/
theorem referencesComeAndGo : Obligations.ReferencesComeAndGo := by
  unfold Obligations.ReferencesComeAndGo
  refine ⟨⟨fun s n hn hdie hup => lineLoss_spec hn hdie hup, fun s n hn hdie hup hoff => lrefReturn_spec hn hdie hup hoff,
    fun s => rfl, fun s high h => next_if_neg h⟩, fun s hon href => ?_, fun s hon href => ?_, fun s hlost => ?_⟩
  · let s1 := { s with tray := { s.tray with ref10m := false } }
    have hin : tbRuns s = true := by simp [tbRuns, hon, href]
    have hc : changesOnly (.tb :: posts) s1 (loseRef10m s1) := loseRef10m_changes s1
    have htb := loseRef10m_tb s1
    have htray : changesOnly [.tray] s s1 := withTray_changes s _
    have hseq : (loseRef10m s1).rings.seq = nextSeq s.rings.seq := post_seq _ _ _
    have htr : (loseRef10m s1).tray = s1.tray := hc .tray (by decide)
    have he : exec .ref10mLoss s = .next (loseRef10m s1) := next_if_pos hin
    have hall := htray.both hc (C := ([.tray, .tb] : List Part) ++ posts) (by decide) (by decide)
    generalize loseRef10m s1 = t at htb hseq htr he hall
    refine ⟨t, he, htr, ?_⟩
    rw [htb]
    refine ⟨rfl, rfl, rfl, rfl, rfl, rfl, rfl, rfl, fun n hn => ?_, hall, hseq⟩
    have h := pulse_endPulses s.tb hn
    generalize endPulses s.tb = e at h ⊢
    exact h
  · let s1 := { s with tray := { s.tray with ref10m := true } }
    let f : TimeBase → TimeBase := fun t => { t with refLost := false, events := t.events ||| 4 }
    have hin : (svcOn s && s.tb.refLost) = true := by simp [hon, href]
    have hp : changesOnly posts (updTb f s1) (post 0x08A3 [] (updTb f s1)) := post_changes _ _ _
    have hu : changesOnly [.tb] s1 (updTb f s1) := updTb_changes f s1
    have htray : changesOnly [.tray] s s1 := withTray_changes s _
    have hall := (htray.both hu (C := [.tray, .tb]) (by decide) (by decide)).both hp (C := ([.tray, .tb] : List Part) ++ posts)
      (by decide) (by decide)
    have he : exec .ref10mReturn s = .next (post 0x08A3 [] (updTb f s1)) := next_if_pos hin
    have htr : (post 0x08A3 [] (updTb f s1)).tray = s1.tray := hp .tray (by decide)
    have htb : (post 0x08A3 [] (updTb f s1)).tb = f s.tb := hp .tb (by decide)
    exact ⟨_, he, htr, htb, hall⟩
  · have hoff : tbRuns s = false := by simp [tbRuns, hlost]
    exact ⟨next_if_neg (by simp [hoff]), next_if_neg (by simp [hoff])⟩

end Sys2Proof.Machine
end

section
/-! Proofs: how the time base counts (R157, R158, R163, R168). -/

namespace Sys2Proof.Machine

section
variable (t : TimeBase) (u : Nat)

/-- The time base at a number of units is that number, wrapped at 2^48 seconds (R158). -/
theorem tbUnits_tbOfUnits : tbUnits (tbOfUnits u t) = u % (2 ^ 48 * 10 ^ 9 * 2 ^ 48) := by
  have h1 : u % (2 ^ 48 * (10 ^ 9 * 2 ^ 48)) = u % 2 ^ 48 + 2 ^ 48 * (u / 2 ^ 48 % (10 ^ 9 * 2 ^ 48)) := Nat.mod_mul
  have h2 : u / 2 ^ 48 % (10 ^ 9 * 2 ^ 48) = u / 2 ^ 48 % 10 ^ 9 + 10 ^ 9 * (u / 2 ^ 48 / 10 ^ 9 % 2 ^ 48) := Nat.mod_mul
  have h3 : 2 ^ 48 * 10 ^ 9 * 2 ^ 48 = 2 ^ 48 * (10 ^ 9 * 2 ^ 48) := by ring
  rw [h3, h1, h2]
  change (u / 2 ^ 48 / 10 ^ 9 % 2 ^ 48 * 10 ^ 9 + u / 2 ^ 48 % 10 ^ 9) * 2 ^ 48 + u % 2 ^ 48 = _
  ring

theorem tbOfUnits_bounds :
    (tbOfUnits u t).sec < 2 ^ 48 ∧ (tbOfUnits u t).ns < 10 ^ 9 ∧ (tbOfUnits u t).frac < 2 ^ 48 :=
  ⟨Nat.mod_lt _ (by decide), Nat.mod_lt _ (by decide), Nat.mod_lt _ (by decide)⟩

/-- An output's committed POL acts (log 50). -/
def polActs (o : Tout) : Tout := { o with polNow := o.committed.pol }

/-- What a TIME cycle puts into effect. -/
theorem actNow_eq : actNow t = { t with
    modeNow := t.committed.mode, slewRem := if t.committed.mode then t.slewRem else 0, civilNow := t.committed.civil,
    outs := (eachOut polActs t).outs } := by
  have h : actNow t = eachOut polActs { t with
      modeNow := t.committed.mode, slewRem := if t.committed.mode then t.slewRem else 0, civilNow := t.committed.civil } := by
    unfold actNow eachOut polActs
    rfl
  rw [h, eachOut_eq, eachOut_eq]

theorem outOf_eachOut_outs (g : Tout → Tout) {n : Nat} (hn : n < 4) : look Tout.reset n (eachOut g t).outs = g (outOf t n) :=
  (outOf_eachOut g t n).trans (if_pos hn)

/-- The slew term as the statements write it. -/
theorem slewTerm_eq {q : Int} (hq : t.slewRem = q) :
    slewTerm t = if q.natAbs ≤ t.committed.slewBound.toNat * 2 ^ 48 / 10 ^ 6 then q
      else if 0 < q then ((t.committed.slewBound.toNat * 2 ^ 48 / 10 ^ 6 : Nat) : Int)
      else -((t.committed.slewBound.toNat * 2 ^ 48 / 10 ^ 6 : Nat) : Int) := by
  subst hq
  unfold slewTerm fracUnit
  extract_lets m
  rw [show m.natAbs = t.committed.slewBound.toNat * 2 ^ 48 / 10 ^ 6 from Int.natAbs_natCast _]

end

/-- One TIME cycle of a time base that nothing waits for: what it adds, what wraps, and what stays (R157, R158, R168). -/
theorem tbTick_actNow {a : TimeBase} {q d : Int} {m c : Nat} (hm : m = a.committed.slewBound.toNat * 2 ^ 48 / 10 ^ 6)
    (hq : q = if a.committed.mode then a.slewRem else 0)
    (hd : d = if q.natAbs ≤ m then q else if 0 < q then (m : Int) else -(m : Int)) (hc : c = tbUnits a) :
    slewTerm (actNow a) = d ∧ tickUnits (actNow a) = (2 ^ 48 + a.committed.rate.toInt + d).toNat ∧ tbUnits (actNow a) = c := by
  have hact := actNow_eq a
  have hs : slewTerm (actNow a) = d := by
    have h := slewTerm_eq (actNow a) (q := q) (by rw [hact, hq])
    rw [h, hd, hm, hact]
  refine ⟨hs, ?_, ?_⟩
  · rw [tickUnits, hs, hact]
    rfl
  · rw [hact, hc]
    rfl

/-- The fields of the time base after a tick by a known number of units. -/
theorem tbTick_fields {a : TimeBase} {w c : Nat} {d : Int} (hc : tbUnits a = c) (hw : tickUnits a = w) (hd : slewTerm a = d) :
    tbTick a = { tbOfUnits (c + w) a with
      slewRem := a.slewRem - d, valid := a.valid && !decide (2 ^ 48 * 10 ^ 9 * 2 ^ 48 ≤ c + w),
      events := if 2 ^ 48 * 10 ^ 9 * 2 ^ 48 ≤ c + w then a.events ||| 8 else a.events } := by
  subst hc hw hd
  unfold tbTick secMax fracUnit
  simp only [decide_eq_true_eq]

theorem takeStep_of_none {s : State} (h : s.tb.stepDue = none) : takeStep s = s := by
  rw [takeStep, h]

theorem tbAtEnd_iff {a : TimeBase} {c w : Nat} (hc : tbUnits a = c) (hw : tickUnits a = w) :
    tbAtEnd a = true ↔ 2 ^ 48 * 10 ^ 9 * 2 ^ 48 ≤ c + w := by
  subst hc hw
  exact decide_eq_true_iff

/-! ## A step that waits -/

/-- What is not an output is the same in two time bases. -/
def sameButOuts (a b : TimeBase) : Prop := { b with outs := a.outs } = a

theorem stepOut_changes (old new n : Nat) (s : State) : changesOnly (.tb :: posts) s (stepOut old new n s) := by
  unfold stepOut
  extract_lets r s1
  have h : changesOnly [.tb] s s1 := updTb_changes _ s
  split
  · exact h.both (post_changes _ _ _) (by decide) (by decide)
  · exact h.mono (by decide)

/-- A step follows one output at a time. -/
theorem stepOut_tb (old new n : Nat) (s : State) :
    (stepOut old new n s).tb = setOut n (outStepped old new (outOf s.tb n)).1 s.tb := by
  unfold stepOut
  extract_lets r s1
  split
  · exact post_changes _ _ s1 .tb (by decide)
  · rfl

theorem foldl_stepOut_tb (old new : Nat) (l : List Nat) (s : State) :
    (l.foldl (fun a n => stepOut old new n a) s).tb =
      l.foldl (fun a n => setOut n (outStepped old new (outOf a n)).1 a) s.tb := by
  induction l generalizing s with
  | nil => rfl
  | cons n l ih => rw [List.foldl_cons, List.foldl_cons, ih, stepOut_tb]

/-- The step that waits is taken: the time moves, and each output follows it (R163, R174). -/
theorem takeStep_of_some {s : State} {off : Int} (h : s.tb.stepDue = some off) :
    (takeStep s).tb = eachOut (fun o => (outStepped (tbNs s.tb) (tbNs (tbMoved off s.tb)) o).1) (tbMoved off s.tb) := by
  rw [takeStep, h]
  exact foldl_stepOut_tb _ _ _ _

theorem takeStep_changes (s : State) : changesOnly (.tb :: posts) s (takeStep s) := by
  unfold takeStep
  split
  · rename_i off _
    have h1 : changesOnly [.tb] s { s with tb := tbMoved off s.tb } := updTb_changes (fun _ => tbMoved off s.tb) s
    exact (h1.mono (by decide)).trans (.foldl (fun a n => stepOut_changes _ _ n a) _ _)
  · exact .refl _ s

/-- A step within range moves the time by exactly its offset; the hidden fraction stays (R163). -/
theorem tbUnits_tbMoved {t : TimeBase} {off x : Int} (hx : x = (tbUnits t / 2 ^ 16 : Nat) + off) (h0 : 0 ≤ x)
    (h1 : x < 2 ^ 48 * 10 ^ 9 * 2 ^ 32) : tbUnits (tbMoved off t) = x.toNat * 2 ^ 16 + t.frac % 2 ^ 16 := by
  have hu : tbUnits (tbMoved off t) = (((tbVisible t : Int) + off).toNat * 2 ^ 16 + t.frac % 2 ^ 16) % (2 ^ 48 * 10 ^ 9 * 2 ^ 48) :=
    tbUnits_tbOfUnits t _
  have hv : (tbVisible t : Int) + off = x := hx.symm
  rw [hu, hv, Nat.mod_eq_of_lt]
  have hn : x.toNat < 2 ^ 48 * 10 ^ 9 * 2 ^ 32 := by omega
  have hf : t.frac % 2 ^ 16 < 2 ^ 16 := Nat.mod_lt _ (by decide)
  omega

/-- The whole nanoseconds after a step within range. -/
theorem tbNs_tbMoved {t : TimeBase} {off x : Int} (hx : x = (tbUnits t / 2 ^ 16 : Nat) + off) (h0 : 0 ≤ x)
    (h1 : x < 2 ^ 48 * 10 ^ 9 * 2 ^ 32) : tbNs (tbMoved off t) = x.toNat / 2 ^ 32 := by
  have hu := tbUnits_tbMoved hx h0 h1
  have hb : (tbMoved off t).frac < 2 ^ 48 := (tbOfUnits_bounds t _).2.2
  have hf : t.frac % 2 ^ 16 < 2 ^ 16 := Nat.mod_lt _ (by decide)
  have hdef : tbUnits (tbMoved off t) = tbNs (tbMoved off t) * 2 ^ 48 + (tbMoved off t).frac := rfl
  rw [hdef] at hu
  omega

end Sys2Proof.Machine
end

section
/-! Proofs: the TIME cycle settles its obligation. -/

namespace Sys2Proof.Machine

theorem execTimeCycle_of_runs {s : State} (hon : svcOn s = true) (href : s.tb.refLost = false) :
    exec .timeCycle s = .next (timeCycle s) := next_if_pos (by simp [tbRuns, hon, href])

theorem timeCycle_tb (s : State) : (timeCycle s).tb = tbTick (actNow (takeStep s).tb) := rfl

theorem timeCycle_changes (s : State) : changesOnly (.tb :: posts) s (timeCycle s) :=
  (takeStep_changes s).next (updTb_changes _ (takeStep s)) (by decide)

theorem timeCycle_changes_of_none {s : State} (h : s.tb.stepDue = none) : changesOnly [.tb] s (timeCycle s) := by
  rw [timeCycle, takeStep_of_none h]
  exact updTb_changes _ s

theorem tbUnits_eq (t : TimeBase) : tbUnits t = (t.sec * 10 ^ 9 + t.ns) * 2 ^ 48 + t.frac := by
  unfold tbUnits fracUnit
  rfl

/-- A cycle that starts from time base `a`, in units and by field. -/
theorem cycled_fields {a : TimeBase} {c w : Nat} {q d : Int} (hc : tbUnits (actNow a) = c) (hw : tickUnits (actNow a) = w)
    (hd : slewTerm (actNow a) = d) (hq : q = if a.committed.mode then a.slewRem else 0) :
    tbTick (actNow a) = { tbOfUnits (c + w) a with
      slewRem := q - d, valid := a.valid && !decide (2 ^ 48 * 10 ^ 9 * 2 ^ 48 ≤ c + w),
      events := if 2 ^ 48 * 10 ^ 9 * 2 ^ 48 ≤ c + w then a.events ||| 8 else a.events,
      modeNow := a.committed.mode, civilNow := a.committed.civil, outs := (eachOut polActs a).outs } := by
  rw [tbTick_fields hc hw hd, actNow_eq, hq]
  generalize (eachOut polActs a).outs = o
  generalize c + w = u
  simp only [tbOfUnits]

/-- What a cycle leaves: the time by which it has moved, the slew that remains, and what was committed in effect. -/
structure Cycled (a b : TimeBase) (u : Nat) (r : Int) : Prop where
  time : (b.sec * 10 ^ 9 + b.ns) * 2 ^ 48 + b.frac = u % (2 ^ 48 * 10 ^ 9 * 2 ^ 48)
  sec : b.sec < 2 ^ 48
  ns : b.ns < 10 ^ 9
  frac : b.frac < 2 ^ 48
  slewRem : b.slewRem = r
  valid : b.valid = (a.valid && !decide (2 ^ 48 * 10 ^ 9 * 2 ^ 48 ≤ u))
  events : b.events = if 2 ^ 48 * 10 ^ 9 * 2 ^ 48 ≤ u then a.events ||| 8 else a.events
  stepDue : b.stepDue = a.stepDue
  committed : b.committed = a.committed
  staged : b.staged = a.staged
  caps : b.caps = a.caps
  modeNow : b.modeNow = a.committed.mode
  civilNow : b.civilNow = a.committed.civil
  outs : b.outs = (eachOut polActs a).outs

theorem cycled_of_fields {a b : TimeBase} {u : Nat} {r : Int} {v : Bool} {e : BitVec 4} {o : Sparse Tout}
    (hv : v = (a.valid && !decide (2 ^ 48 * 10 ^ 9 * 2 ^ 48 ≤ u)))
    (he : e = if 2 ^ 48 * 10 ^ 9 * 2 ^ 48 ≤ u then a.events ||| 8 else a.events) (ho : o = (eachOut polActs a).outs)
    (hb : b = { tbOfUnits u a with slewRem := r, valid := v, events := e, modeNow := a.committed.mode,
                                   civilNow := a.committed.civil, outs := o }) : Cycled a b u r := by
  subst hb
  obtain ⟨h1, h2, h3⟩ := tbOfUnits_bounds a u
  have h := tbUnits_tbOfUnits a u
  rw [tbUnits_eq] at h
  exact ⟨h, h1, h2, h3, rfl, hv, he, rfl, rfl, rfl, rfl, rfl, rfl, ho⟩

/-- A cycle, from what the statements know of the time base that it starts from. -/
theorem cycled {a : TimeBase} {q d : Int} {m c : Nat} (hm : m = a.committed.slewBound.toNat * 2 ^ 48 / 10 ^ 6)
    (hq : q = if a.committed.mode then a.slewRem else 0)
    (hd : d = if q.natAbs ≤ m then q else if 0 < q then (m : Int) else -(m : Int)) (hc : c = tbUnits a) :
    Cycled a (tbTick (actNow a)) (c + (2 ^ 48 + a.committed.rate.toInt + d).toNat) (q - d) := by
  obtain ⟨hslew, htick, hunits⟩ := tbTick_actNow hm hq hd hc
  exact cycled_of_fields rfl rfl rfl (cycled_fields hunits htick hslew hq)

theorem eachOut_outs (g : Tout → Tout) (m : TimeBase) : eachOut g m = { m with outs := (eachOut g m).outs } := by
  rw [eachOut_eq]

/-- The time base once the waiting step is taken: the time has moved, no step waits, and only outputs differ besides. -/
theorem takeStep_time {s : State} {o x : Int} (hdue : s.tb.stepDue = some o) (hx : x = (tbUnits s.tb / 2 ^ 16 : Nat) + o)
    (h0 : 0 ≤ x) (h1 : x < 2 ^ 48 * 10 ^ 9 * 2 ^ 32) :
    (takeStep s).tb = { s.tb with sec := (takeStep s).tb.sec, ns := (takeStep s).tb.ns, frac := (takeStep s).tb.frac,
                                  stepDue := none, outs := (takeStep s).tb.outs } ∧
      tbUnits (takeStep s).tb = x.toNat * 2 ^ 16 + s.tb.frac % 2 ^ 16 := by
  have hu := tbUnits_tbMoved hx h0 h1
  have hfix : tbMoved o s.tb = { s.tb with sec := (tbMoved o s.tb).sec, ns := (tbMoved o s.tb).ns,
                                           frac := (tbMoved o s.tb).frac, stepDue := none } := by simp only [tbMoved, tbOfUnits]
  have hout := eachOut_outs (fun o' => (outStepped (tbNs s.tb) (tbNs (tbMoved o s.tb)) o').1) (tbMoved o s.tb)
  rw [← takeStep_of_some hdue] at hout
  generalize (takeStep s).tb = a at hout ⊢
  generalize tbMoved o s.tb = m at hu hfix hout
  have hsec : a.sec = m.sec ∧ a.ns = m.ns ∧ a.frac = m.frac := by
    rw [hout]
    exact ⟨rfl, rfl, rfl⟩
  obtain ⟨h2, h3, h4⟩ := hsec
  refine ⟨?_, ?_⟩
  · rw [h2, h3, h4]
    exact hout.trans (congrArg (fun b : TimeBase => { b with outs := a.outs }) hfix)
  · rw [tbUnits, h2, h3, h4]
    exact hu

/-- Settles O15: a cycle is the tick of the committed settings (`cycled`) on the time base that the waiting step leaves
(`takeStep_time`). -/
theorem timeBaseCounts : Obligations.TimeBaseCounts := by
  unfold Obligations.TimeBaseCounts
  refine ⟨fun s d q m hon href hdue hm hq hd => ?_, fun s d q o x m hon href hdue hm hq hd hx h0 h1 => ?_⟩
  · obtain ⟨-, htick, hunits⟩ := tbTick_actNow hm hq hd (tbUnits_eq s.tb).symm
    have h := cycled hm hq hd (tbUnits_eq s.tb).symm
    have hend := tbAtEnd_iff hunits htick
    have hruns : tbRuns s = true := by simp [tbRuns, hon, href]
    have htb : (timeCycle s).tb = tbTick (actNow s.tb) := by rw [timeCycle_tb, takeStep_of_none hdue]
    have hch := timeCycle_changes_of_none hdue
    have hexec := execTimeCycle_of_runs hon href
    have hwrap : tbAtEnd (actNow s.tb) = true → exec .tbWrap s = .next (timeCycle s) :=
      fun h => next_if_pos (by rw [takeStep_of_none hdue, hruns, h]; rfl)
    have hstay : ¬ tbAtEnd (actNow s.tb) = true → exec .tbWrap s = .next s :=
      fun h => next_if_neg (by rw [takeStep_of_none hdue, hruns, Bool.true_and]; exact h)
    rw [hend] at hwrap hstay
    rw [← htb] at h
    generalize timeCycle s = t at h hch hwrap hexec
    refine ⟨t, hexec, hch, h.time, h.sec, h.ns, h.frac, h.slewRem, fun hw => ⟨?_, ?_, hwrap hw⟩,
      fun hw => ⟨?_, ?_, hstay (Nat.not_le_of_lt hw)⟩, h.committed, h.staged, h.caps, fun n hn => ?_, h.modeNow, h.civilNow,
      h.stepDue.trans hdue⟩
    · rw [h.valid, decide_eq_true hw, Bool.not_true, Bool.and_false]
    · rw [h.events, if_pos hw]
    · rw [h.valid, decide_eq_false (Nat.not_le_of_lt hw), Bool.not_false, Bool.and_true]
    · rw [h.events, if_neg (Nat.not_le_of_lt hw)]
    · rw [outOf, h.outs, outOf_eachOut_outs _ _ hn]
      rfl
  · rw [← tbUnits_eq] at hx
    obtain ⟨hsame, hunits⟩ := takeStep_time hdue hx h0 h1
    have hch := timeCycle_changes s
    have hexec := execTimeCycle_of_runs hon href
    have htb := timeCycle_tb s
    generalize timeCycle s = t at htb hch hexec
    generalize (takeStep s).tb = a at hsame hunits htb
    have hcom : a.committed = s.tb.committed := by rw [hsame]
    have hrem : a.slewRem = s.tb.slewRem := by rw [hsame]
    have h := cycled (a := a) (by rw [hcom]; exact hm) (by rw [hcom, hrem]; exact hq) hd hunits.symm
    rw [← htb, hcom] at h
    exact ⟨t, hexec, hch, h.time, h.sec, h.ns, h.frac, h.slewRem, h.stepDue.trans (by rw [hsame]), h.committed.trans hcom,
      h.staged.trans (by rw [hsame]), h.caps.trans (by rw [hsame]), by rw [h.modeNow, hcom], by rw [h.civilNow, hcom]⟩

end Sys2Proof.Machine
end

section
/-! Proofs: time outputs and captures (R170 to R176). -/

namespace Sys2Proof.Machine

/-! ## The grid of a periodic output (R172) -/

section
variable (c : ToutCfg) (t : Nat)

theorem gridAfter_gt (hp : 0 < c.period.toNat) : t < gridAfter c t := by
  unfold gridAfter
  split
  · rename_i h
    exact h
  · rename_i h
    have h1 := Nat.lt_div_mul_add hp (a := t - startNs c)
    have h2 : ((t - startNs c) / c.period.toNat + 1) * c.period.toNat =
        (t - startNs c) / c.period.toNat * c.period.toNat + c.period.toNat := by ring
    omega

theorem gridAfter_onGrid : ∃ k, gridAfter c t = startNs c + k * c.period.toNat := by
  unfold gridAfter
  split
  · exact ⟨0, by rw [Nat.zero_mul, Nat.add_zero]⟩
  · exact ⟨(t - startNs c) / c.period.toNat + 1, rfl⟩

theorem gridAfter_le (hp : 0 < c.period.toNat) {k : Nat} (h : t < startNs c + k * c.period.toNat) :
    gridAfter c t ≤ startNs c + k * c.period.toNat := by
  unfold gridAfter
  split
  · omega
  · have h1 : (t - startNs c) / c.period.toNat < k := (Nat.div_lt_iff_lt_mul hp).mpr (by omega)
    have h2 : ((t - startNs c) / c.period.toNat + 1) * c.period.toNat ≤ k * c.period.toNat := Nat.mul_le_mul_right _ h1
    omega

/-- A grid point lies after one time and not after another exactly where the first one after it does. -/
theorem gridAfter_le_iff (hp : 0 < c.period.toNat) (new : Nat) :
    gridAfter c t ≤ new ↔ ∃ k, t < startNs c + k * c.period.toNat ∧ startNs c + k * c.period.toNat ≤ new := by
  constructor
  · intro h
    obtain ⟨k, hk⟩ := gridAfter_onGrid c t
    have hgt := gridAfter_gt c t hp
    rw [hk] at h hgt
    exact ⟨k, hgt, h⟩
  · rintro ⟨k, h1, h2⟩
    exact (gridAfter_le c t hp h1).trans h2

end

/-! ## Pulses -/

section
variable (o : Tout)

theorem endPulse_eq : endPulse o = { o with pulse := false, armed := (endPulse o).armed } := by
  unfold endPulse
  split
  · rfl
  · rename_i h
    rw [Bool.not_eq_true] at h
    exact congrArg (fun b => { o with pulse := b }) h

theorem endPulse_of_idle (h : o.pulse = false) : endPulse o = o := if_neg (by simp [h])

theorem endPulse_armed_periodic (h : o.committed.mode = 2) : (endPulse o).armed = o.armed := by
  unfold endPulse
  split
  · simp [h]
  · rfl

theorem endPulse_armed_fired (hp : o.pulse = true) (h : o.committed.mode = 1) (hl : o.nextLead = 0) :
    (endPulse o).armed = false := by
  rw [endPulse, if_pos hp]
  simp [h, hl]

/-- An output whose pulse has ended, under a step from one time to another, with the grid points after both (R174). -/
def steppedBy (e : Tout) (old new gOld gNew : Nat) : Tout × Option Nat :=
  if !e.armed then (e, none)
  else if e.committed.mode = 1 then
    if old < e.nextLead ∧ e.nextLead ≤ new then ({ e with armed := false, missed := true, nextLead := 0 }, some 0)
    else (e, none)
  else if e.committed.mode = 2 then
    if gOld ≤ new then ({ e with nextLead := gNew, skipped := true }, some 1) else ({ e with nextLead := gNew }, none)
  else (e, none)

theorem outStepped_eq (old new : Nat) : outStepped old new o =
    steppedBy (endPulse o) old new (gridAfter (endPulse o).committed old) (gridAfter (endPulse o).committed new) := rfl

theorem steppedBy_keeps (e : Tout) (old new g g' : Nat) :
    (steppedBy e old new g g').1.pulse = e.pulse ∧ (steppedBy e old new g g').1.committed = e.committed := by
  unfold steppedBy
  split
  · exact ⟨rfl, rfl⟩
  · split
    · split <;> exact ⟨rfl, rfl⟩
    · split
      · split <;> exact ⟨rfl, rfl⟩
      · exact ⟨rfl, rfl⟩

/-- A step ends the pulse and leaves what was committed. -/
theorem outStepped_keeps (old new : Nat) :
    (outStepped old new o).1.pulse = false ∧ (outStepped old new o).1.committed = o.committed := by
  obtain ⟨hp, hc⟩ := steppedBy_keeps (endPulse o) old new (gridAfter (endPulse o).committed old)
    (gridAfter (endPulse o).committed new)
  rw [outStepped_eq]
  exact ⟨hp.trans (endPulse_pulse o), hc.trans (by rw [endPulse_eq])⟩

theorem outStepped_unarmed (old new : Nat) (hp : o.pulse = false) (ha : o.armed = false) : outStepped old new o = (o, none) := by
  rw [outStepped_eq, endPulse_of_idle o hp]
  simp [steppedBy, ha]

theorem outStepped_oneShot (old new : Nat) (hp : o.pulse = false) (ha : o.armed = true) (hm : o.committed.mode = 1) :
    outStepped old new o = if old < o.nextLead ∧ o.nextLead ≤ new then
      ({ o with armed := false, missed := true, nextLead := 0 }, some 0) else (o, none) := by
  rw [outStepped_eq, endPulse_of_idle o hp]
  simp [steppedBy, ha, hm]

theorem steppedBy_periodic (e : Tout) (old new g g' : Nat) (ha : e.armed = true) (hm : e.committed.mode = 2) :
    (steppedBy e old new g g').1 = { e with nextLead := g', skipped := if g ≤ new then true else e.skipped } := by
  have h2 : ¬ (2 : BitVec 2) = 1 := by decide
  simp only [steppedBy, ha, hm, h2, Bool.not_true, Bool.false_eq_true, if_false, if_true]
  split <;> rfl

/-- A periodic output under a step is armed for the grid point after the new time (R174). -/
theorem outStepped_periodic (old new : Nat) (ha : o.armed = true) (hm : o.committed.mode = 2) :
    (outStepped old new o).1 = { o with pulse := false, nextLead := gridAfter o.committed new,
                                        skipped := if gridAfter o.committed old ≤ new then true else o.skipped } := by
  have he : endPulse o = { o with pulse := false } := by
    rw [endPulse_eq, endPulse_armed_periodic o hm]
  rw [outStepped_eq, he]
  exact steppedBy_periodic _ _ _ _ _ ha hm

end

end Sys2Proof.Machine
end

section
/-! Proofs: outputs and captures settle their obligation. -/

namespace Sys2Proof.Machine

/-! ## Commits of an output -/

section
variable {s : State} {n : Nat} {v : Word32} {c : ToutCfg}

theorem toutInRange_iff : toutInRange c = true ↔ c.mode ≠ 3 ∧ c.startNs.toNat ≤ 999999999 ∧
    (c.width ≠ 1 ∧ c.width ≠ 2 ∧ c.width ≠ 3) ∧ (c.mode = 2 → pulseNs c + 4 ≤ c.period.toNat) := by
  simp [toutInRange, and_assoc, imp_iff_not_or]

/-- The part's state after an accepted commit of an output. -/
theorem toutGo_inRange (hn : n < 4) (hopen : barOpen s = true) (hv : bit v 0 = true)
    (hc : toutInRange (outOf s.tb n).staged = true) :
    ∃ t : State, exec (.toutCommit n v) s = .next t ∧ changesOnly (.tb :: posts) s t ∧
      t.tb = tbResult 1 (8 + n) (setOut n (toutTaken (tbNs s.tb) (outOf s.tb n)) s.tb) := by
  refine ⟨toutGo n v s, rfl, ?_⟩
  have hin : (commits v s && decide (n < 4)) = true := by simp [commits, hopen, hv, hn]
  let s1 := updTb (fun t => tbResult 1 (8 + n) (setOut n (toutTaken (tbNs t) (outOf s.tb n)) t)) s
  have h1 : changesOnly [.tb] s s1 := updTb_changes _ s
  rw [toutGo, if_pos hin]
  simp only [hc, if_true]
  split
  · have hp : changesOnly posts s1 (postMissed n 0 s1) := post_changes _ _ s1
    exact ⟨h1.both hp (by decide) (by decide), hp .tb (by decide)⟩
  · exact ⟨h1.mono (by decide), rfl⟩

theorem toutGo_outOfRange (hn : n < 4) (hopen : barOpen s = true) (hv : bit v 0 = true)
    (hc : toutInRange (outOf s.tb n).staged = false) :
    exec (.toutCommit n v) s = .next { s with tb := { s.tb with result := 2, sub := 8 + n } } := by
  have hin : (commits v s && decide (n < 4)) = true := by simp [commits, hopen, hv, hn]
  have h : toutGo n v s = updTb (tbResult 2 (8 + n)) s := by
    rw [toutGo, if_pos hin]
    simp only [hc, Bool.false_eq_true, if_false]
  exact congrArg Host.Outcome.next h

theorem toutTaken_keeps (now : Nat) (o : Tout) :
    (toutTaken now o).committed = o.staged ∧ (toutTaken now o).pulse = o.pulse ∧ (toutTaken now o).polNow = o.polNow ∧
      (toutTaken now o).trail = o.trail ∧ (toutTaken now o).pulsePol = o.pulsePol := by
  unfold toutTaken
  extract_lets cfg o1
  generalize gridAfter cfg (now + 64) = g
  split
  · split <;> exact ⟨rfl, rfl, rfl, rfl, rfl⟩
  · split <;> exact ⟨rfl, rfl, rfl, rfl, rfl⟩

theorem toutTaken_oneShot_ahead {now : Nat} {o : Tout} (hm : o.staged.mode = 1) (h : now + 64 < startNs o.staged) :
    (toutTaken now o).armed = true ∧ (toutTaken now o).nextLead = startNs o.staged ∧ (toutTaken now o).missed = o.missed := by
  have hn : ¬ startNs o.staged ≤ now + 64 := Nat.not_le_of_lt h
  rw [toutTaken, if_pos hm, if_neg hn]
  exact ⟨rfl, rfl, rfl⟩

theorem toutTaken_oneShot_past {now : Nat} {o : Tout} (hm : o.staged.mode = 1) (h : startNs o.staged ≤ now + 64) :
    (toutTaken now o).armed = false ∧ (toutTaken now o).missed = true := by
  rw [toutTaken, if_pos hm, if_pos h]
  exact ⟨rfl, rfl⟩

theorem toutTaken_periodic {now : Nat} {o : Tout} (hm : o.staged.mode = 2) :
    (toutTaken now o).armed = true ∧ (toutTaken now o).nextLead = gridAfter o.staged (now + 64) := by
  have h1 : ¬ o.staged.mode = 1 := by rw [hm]; decide
  rw [toutTaken, if_neg h1, if_pos hm]
  exact ⟨rfl, rfl⟩

theorem toutTaken_off {now : Nat} {o : Tout} (hm : o.staged.mode = 0) (hp : o.pulse = false) : (toutTaken now o).armed = false := by
  have h1 : ¬ o.staged.mode = 1 := by rw [hm]; decide
  have h2 : ¬ o.staged.mode = 2 := by rw [hm]; decide
  rw [toutTaken, if_neg h1, if_neg h2, hp]
  exact Bool.and_false _

end

/-! ## Edges -/

section
variable {s : State} {n : Nat}

theorem exec_toutLeadingEdge (hn : n < 4) (hon : svcOn s = true) (href : s.tb.refLost = false)
    (ha : (outOf s.tb n).armed = true) (hl : (outOf s.tb n).nextLead ≠ 0) (hnow : (outOf s.tb n).nextLead ≤ tbNs s.tb) :
    exec (.toutLeadingEdge n) s = .next (updTb (setOut n (leadEdge (outOf s.tb n))) s) :=
  next_if_pos ⟨hn, by simp [tbRuns, hon, href], ha, hl, hnow⟩

theorem exec_toutTrailingEdge (hn : n < 4) (hon : svcOn s = true) (href : s.tb.refLost = false)
    (hp : (outOf s.tb n).pulse = true) (hnow : (outOf s.tb n).trail ≤ tbNs s.tb) :
    exec (.toutTrailingEdge n) s = .next (updTb (setOut n (endPulse (outOf s.tb n))) s) :=
  next_if_pos ⟨hn, by simp [tbRuns, hon, href], hp, hnow⟩

end

/-! ## Outputs under a TIME cycle that takes a step -/

theorem tbTick_outs (a : TimeBase) : (tbTick a).outs = a.outs := by
  unfold tbTick tbOfUnits
  with_reducible rfl

/-- Each output follows the step, and its committed POL acts (R162, R174). -/
theorem outOf_timeCycle {s : State} {off x : Int} {n : Nat} (hdue : s.tb.stepDue = some off)
    (hx : x = (tbUnits s.tb / 2 ^ 16 : Nat) + off) (h0 : 0 ≤ x) (h1 : x < 2 ^ 48 * 10 ^ 9 * 2 ^ 32) (hn : n < 4) :
    outOf (timeCycle s).tb n = polActs (outStepped (tbNs s.tb) (x.toNat / 2 ^ 32) (outOf s.tb n)).1 := by
  have hns := tbNs_tbMoved hx h0 h1
  have htb := timeCycle_tb s
  rw [takeStep_of_some hdue, hns] at htb
  have hmoved : (tbMoved off s.tb).outs = s.tb.outs := rfl
  generalize hg : (fun o => (outStepped (tbNs s.tb) (x.toNat / 2 ^ 32) o).1) = g at htb
  have h := outOf_eachOut g (tbMoved off s.tb) n
  rw [if_pos hn, outOf, outOf, hmoved] at h
  generalize eachOut g (tbMoved off s.tb) = a at htb h
  have hact : (actNow a).outs = (eachOut polActs a).outs := by rw [actNow_eq]
  have houts : (timeCycle s).tb.outs = (eachOut polActs a).outs := by rw [htb, tbTick_outs, hact]
  rw [outOf, houts, outOf_eachOut_outs _ _ hn, outOf, h, ← hg]
  rfl

/-! ## Captures -/

section
variable {s : State} {c : Nat} {rising : Bool}

theorem edgeSelected_eq (e : BitVec 2) (r : Bool) : edgeSelected e r = bit e (if r then 0 else 1) := by
  cases r <;> rfl

theorem exec_captureEdge_of_unselected (h : bit (capOf s.tb c).edge (if rising then 0 else 1) = false) :
    exec (.captureEdge c rising) s = .next s := next_if_neg (by rw [edgeSelected_eq, h, Bool.and_false]; decide)

/-- A capture channel written, and an event where one is due. -/
theorem withCap_spec (k : Capture) (b : Bool) (code : BitVec 16) (n : Nat) (info : List Byte) {t : State}
    (ht : t = if b then postAt code false n info (updTb (setCap c k) s) else updTb (setCap c k) s) :
    changesOnly (.tb :: posts) s t ∧ capOf t.tb c = k ∧ (b = true → t.rings.seq = nextSeq s.rings.seq) ∧
      (b = false → changesOnly [.tb] s t) ∧ ∀ j, j ≠ c → capOf t.tb j = capOf s.tb j := by
  have hu : changesOnly [.tb] s (updTb (setCap c k) s) := updTb_changes _ s
  have htb : t.tb = setCap c k s.tb := by
    rw [ht]
    split
    · exact postAt_changes _ _ _ _ _ .tb (by decide)
    · rfl
  refine ⟨?_, by rw [htb, capOf_setCap_self], fun h => ?_, fun h => ?_, fun j hj => by rw [htb, capOf_setCap_other hj]⟩
  · rw [ht]
    exact .ite (hu.both (postAt_changes _ _ _ _ _) (by decide) (by decide)) (hu.mono (by decide))
  · rw [ht, if_pos h, postAt_seq]
    rfl
  · rw [ht, if_neg (by simp [h])]
    exact hu

end

end Sys2Proof.Machine
end

section
/-! Proofs: outputs and captures, assembled (R170 to R176). -/

namespace Sys2Proof.Machine

/-- Settles O16: each command writes one output or one channel (`toutTaken`, `leadEdge`, `endPulse`, `withCap_spec`), and a step acts
on each output by `outStepped`. -/
theorem timeOutputsAndCaptures : Obligations.TimeOutputsAndCaptures := by
  unfold Obligations.TimeOutputsAndCaptures
  refine ⟨⟨fun s n v c hn hopen hv hc hm hns hw hper => ?_, fun s n v c hn hopen hv hc hbad => ?_,
    fun s n o hn hon href ho ha hl hnow => ?_, fun s n o hn hon href ho hp hnow => ?_,
    fun s off x old new n o hon href hdue hx h0 h1 hold hnew hn ho => ?_⟩,
    fun s c rising k hc hon hk hsel hlen => ?_, fun s c rising k hc hon hk hsel hlen => ?_,
    fun s c rising h => exec_captureEdge_of_unselected h, fun s c v hc hopen hv => ?_⟩
  · subst hc
    have hin := toutInRange_iff.mpr ⟨hm, hns, hw, hper⟩
    obtain ⟨t, he, hch, htb⟩ := toutGo_inRange hn hopen hv hin
    obtain ⟨k1, k2, k3, k4, k5⟩ := toutTaken_keeps (tbNs s.tb) (outOf s.tb n)
    have hself : outOf t.tb n = toutTaken (tbNs s.tb) (outOf s.tb n) := by
      rw [htb]
      exact outOf_setOut_self _ _ _
    have hother : ∀ k, k ≠ n → outOf t.tb k = outOf s.tb k := fun k hk => by
      rw [htb]
      exact outOf_setOut_other hk _ _
    refine ⟨t, he, hch, by rw [htb]; rfl, by rw [htb]; rfl, ?_⟩
    rw [hself]
    refine ⟨k1, k2, k3, k4, k5, hother, fun h1 h2 => toutTaken_oneShot_ahead h1 h2, fun h1 h2 => toutTaken_oneShot_past h1 h2,
      fun h2 => ?_, fun h0 hp => toutTaken_off h0 hp⟩
    obtain ⟨ha, hl⟩ := toutTaken_periodic (now := tbNs s.tb) h2
    have hpos : 0 < (outOf s.tb n).staged.period.toNat := by have := hper h2; omega
    rw [hl]
    exact ⟨ha, gridAfter_gt _ _ hpos, gridAfter_onGrid _ _, fun k hk => gridAfter_le _ _ hpos hk⟩
  · subst hc
    refine toutGo_outOfRange hn hopen hv (Bool.eq_false_iff.mpr fun h => ?_)
    obtain ⟨h1, h2, ⟨h3, h4, h5⟩, h6⟩ := toutInRange_iff.mp h
    rcases hbad with h | h | h | h | h | ⟨hm, h⟩
    · exact h1 h
    · omega
    · exact h3 h
    · exact h4 h
    · exact h5 h
    · have := h6 hm
      omega
  · subst ho
    refine ⟨_, exec_toutLeadingEdge hn hon href ha hl hnow, updTb_changes _ s, ?_⟩
    have hself : outOf (updTb (setOut n (leadEdge (outOf s.tb n))) s).tb n = leadEdge (outOf s.tb n) := outOf_setOut_self _ _ _
    rw [hself]
    refine ⟨?_, fun hp => ?_, fun hp => ?_, fun hm => ?_, fun k hk => outOf_setOut_other hk _ _⟩
    · by_cases hp : (outOf s.tb n).pulse = true <;> simp [leadEdge, hp]
    · simp [leadEdge, hp, pulseNs]
    · simp [leadEdge, hp]
    · by_cases hp : (outOf s.tb n).pulse = true <;> simp [leadEdge, hp, hm]
  · subst ho
    refine ⟨_, exec_toutTrailingEdge hn hon href hp hnow, updTb_changes _ s, ?_⟩
    have hself : outOf (updTb (setOut n (endPulse (outOf s.tb n))) s).tb n = endPulse (outOf s.tb n) := outOf_setOut_self _ _ _
    rw [hself]
    exact ⟨endPulse_pulse _, by rw [endPulse_eq], fun hm hl => endPulse_armed_fired _ hp hm hl,
      fun k hk => outOf_setOut_other hk _ _⟩
  · rw [← tbUnits_eq] at hx
    have hout := outOf_timeCycle hdue hx h0 h1 hn
    have hold' : tbNs s.tb = old := by rw [hold]; rfl
    rw [hold', ← hnew, ← ho] at hout
    obtain ⟨hp, hc⟩ := outStepped_keeps o old new
    refine ⟨timeCycle s, execTimeCycle_of_runs hon href, ?_⟩
    rw [hout]
    refine ⟨hp, hc, congrArg ToutCfg.pol hc, fun hp ha => ?_, fun hp ha hm => ⟨fun hlt hle => ?_, fun hno => ?_⟩,
      fun ha hm hper => ?_⟩
    · rw [outStepped_unarmed o old new hp ha]
      rfl
    · rw [outStepped_oneShot o old new hp ha hm, if_pos ⟨hlt, hle⟩]
      exact ⟨rfl, rfl⟩
    · rw [outStepped_oneShot o old new hp ha hm, if_neg hno]
      rfl
    · rw [outStepped_periodic o old new ha hm]
      refine ⟨ha, gridAfter_gt _ _ hper, gridAfter_onGrid _ _, fun k hk => gridAfter_le _ _ hper hk, fun h => ?_, fun h => ?_⟩
      · have hle := (gridAfter_le_iff o.committed old hper new).mpr h
        simp only [polActs, if_pos hle]
      · have hle : ¬ gridAfter o.committed old ≤ new := by
          rw [gridAfter_le_iff o.committed old hper new]
          rintro ⟨k, h1, h2⟩
          rcases h k with h | h <;> omega
        simp only [polActs, if_neg hle]
  · subst hk
    have hin : (svcOn s && decide (c < 3) && edgeSelected (capOf s.tb c).edge rising) = true := by
      simp [hon, hc, edgeSelected_eq, hsel]
    have hlen' : ¬ 16 ≤ (capOf s.tb c).queue.length := by omega
    exact ⟨_, (next_if_pos hin).trans (congrArg Host.Outcome.next (if_neg hlen')), withCap_spec _ _ _ _ _ rfl⟩
  · subst hk
    have hin : (svcOn s && decide (c < 3) && edgeSelected (capOf s.tb c).edge rising) = true := by
      simp [hon, hc, edgeSelected_eq, hsel]
    let k := capOf s.tb c
    let k' : Capture := { k with overflow := true, dropped := min 65535 (k.dropped + 1), episode := true }
    have hflip : (if k.episode then updTb (setCap c k') s else post 0x08A5 (leBytes 1 c) (updTb (setCap c k') s)) =
        if !k.episode then postAt 0x08A5 false (cnt (updTb (setCap c k') s)) (leBytes 1 c) (updTb (setCap c k') s)
        else updTb (setCap c k') s := by
      cases k.episode <;> rfl
    obtain ⟨h1, h2, h3, h4, h5⟩ := withCap_spec k' (!k.episode) 0x08A5 (cnt (updTb (setCap c k') s)) (leBytes 1 c) hflip
    exact ⟨_, (next_if_pos hin).trans (congrArg Host.Outcome.next (if_pos hlen)), h1, h2, fun h => h4 (by simp [k, h]),
      fun h => h3 (by simp [k, h]), h5⟩
  · have hin : (commits v s && decide (c < 3)) = true := by simp [commits, hopen, hv, hc]
    have hself : capOf (setCap c (popped (capOf s.tb c)) s.tb) c = popped (capOf s.tb c) := capOf_setCap_self _ _ _
    refine ⟨updTb (setCap c (popped (capOf s.tb c))) s, next_if_pos hin, updTb_changes _ s, ?_⟩
    change (capOf (setCap c (popped (capOf s.tb c)) s.tb) c).queue = _ ∧ (capOf (setCap c (popped (capOf s.tb c)) s.tb) c).dropped = _ ∧ _
    rw [hself]
    exact ⟨rfl, rfl, fun j hj => capOf_setCap_other hj _ _⟩

end Sys2Proof.Machine
end

section
/-! Proofs: commits of the time base (R162 to R168, R177, R179). -/

namespace Sys2Proof.Machine

section
variable {s : State} {v : Word32}

theorem commits_of (hopen : barOpen s = true) (hv : bit v 0 = true) : commits v s = true := by simp [commits, hopen, hv]

/-! ## Steps -/

theorem stepUnits_eq (c : TbCfg) :
    stepUnits c = (c.stepSec.toInt * 10 ^ 9 + c.stepNs.toNat) * 2 ^ 32 + c.stepFrac.toNat := rfl

theorem stepBase_eq (t : TimeBase) : stepBase t = (tbUnits t / 2 ^ 16 : Nat) + t.stepDue.getD 0 := rfl

theorem visibleEnd_eq : visibleEnd = 2 ^ 48 * 10 ^ 9 * 2 ^ 32 := rfl

theorem stepInRange_iff {t : TimeBase} {o x : Int} (hx : x = stepBase t + o) :
    stepInRange t o = true ↔ 0 ≤ x ∧ x < 2 ^ 48 * 10 ^ 9 * 2 ^ 32 := by
  subst hx
  rw [stepInRange, Bool.and_eq_true, decide_eq_true_iff, decide_eq_true_iff, visibleEnd_eq]
  norm_num

/-- The mode allows a step (R165, R166). -/
theorem stepMode_allowed {t : TimeBase} (h1 : t.modeNow = true → t.valid = false) (h2 : t.modeNow = false → t.stepUsed = false) :
    stepMode t = 1 := by
  cases hm : t.modeNow
  · simp [stepMode, hm, h2 hm]
  · simp [stepMode, hm, h1 hm]

theorem stepMode_mismatch {t : TimeBase} (h1 : t.modeNow = true) (h2 : t.valid = true) : stepMode t = 5 := by
  simp [stepMode, h1, h2]

theorem stepMode_refused {t : TimeBase} (h1 : t.modeNow = false) (h2 : t.stepUsed = true) : stepMode t = 6 := by
  simp [stepMode, h1, h2]

/-- An accepted step posts its event, and changes the time base alone besides. -/
theorem acceptStep_spec (off : Int) (f : TimeBase → TimeBase) (s : State) :
    changesOnly (.tb :: posts) s (acceptStep off (updTb f s)) ∧
      (acceptStep off (updTb f s)).rings.seq = nextSeq s.rings.seq ∧
      (acceptStep off (updTb f s)).tb = { f s.tb with
        stepDue := some ((f s.tb).stepDue.getD 0 + off), valid := true, stepUsed := (f s.tb).stepUsed || !(f s.tb).modeNow,
        events := (f s.tb).events ||| 1 } := by
  let g : TimeBase → TimeBase := fun t => { t with
    stepDue := some (t.stepDue.getD 0 + off), valid := true, stepUsed := t.stepUsed || !t.modeNow, events := t.events ||| 1 }
  have h : changesOnly [.tb] s (updTb g (updTb f s)) := (updTb_changes f s).next (updTb_changes g _) (by decide)
  have hp : changesOnly posts (updTb g (updTb f s)) (acceptStep off (updTb f s)) := post_changes _ _ _
  exact ⟨h.both hp (by decide) (by decide), post_seq _ _ _, hp .tb (by decide)⟩

theorem tbStepGo_accepted (hc : commits v s = true) (hns : s.tb.staged.stepNs.toNat ≤ 999999999)
    (hin : stepInRange s.tb (stepUnits s.tb.staged) = true) (hm : stepMode s.tb = 1) :
    tbStepGo v s = acceptStep (stepUnits s.tb.staged) (updTb (fun t => tbResult 1 1 { t with
        committed := { t.committed with stepSec := t.staged.stepSec, stepNs := t.staged.stepNs,
                                        stepFrac := t.staged.stepFrac } }) s) := by
  have h1 : ¬ ((999999999 < s.tb.staged.stepNs.toNat : Bool) || !stepInRange s.tb (stepUnits s.tb.staged)) = true := by
    simp [hin, hns]
  have h2 : ¬ stepMode s.tb ≠ 1 := not_not.mpr hm
  rw [tbStepGo, if_pos hc, if_neg h1, if_neg h2]

theorem tbStepGo_outOfRange (hc : commits v s = true)
    (h : 999999999 < s.tb.staged.stepNs.toNat ∨ ¬ stepInRange s.tb (stepUnits s.tb.staged) = true) :
    tbStepGo v s = { s with tb := { s.tb with result := 2, sub := 1 } } := by
  have h1 : ((999999999 < s.tb.staged.stepNs.toNat : Bool) || !stepInRange s.tb (stepUnits s.tb.staged)) = true := by
    simpa using h
  rw [tbStepGo, if_pos hc, if_pos h1]
  rfl

theorem tbStepGo_refused (hc : commits v s = true) (hns : s.tb.staged.stepNs.toNat ≤ 999999999)
    (hin : stepInRange s.tb (stepUnits s.tb.staged) = true) {k : Nat} (hm : stepMode s.tb = k) (hk : k ≠ 1) :
    tbStepGo v s = { s with tb := { s.tb with result := k, sub := 1 } } := by
  have h1 : ¬ ((999999999 < s.tb.staged.stepNs.toNat : Bool) || !stepInRange s.tb (stepUnits s.tb.staged)) = true := by
    simp [hin, hns]
  have h2 : stepMode s.tb ≠ 1 := by rw [hm]; exact hk
  rw [tbStepGo, if_pos hc, if_neg h1, if_pos h2, hm]
  rfl

/-! ## Civil sets -/

theorem tbCivilSetGo_accepted (hc : commits v s = true) {n : Nat}
    (hn : civilSeconds s.tb.staged.setDate s.tb.staged.setTime (sgn s.tb.committed.civil) = .secs n) (hm : stepMode s.tb = 1) :
    tbCivilSetGo v s = acceptStep ((n * 10 ^ 9 * 2 ^ 32 : Nat) - stepBase s.tb) (updTb (fun t => tbResult 1 5 { t with
          committed := { t.committed with setDate := t.staged.setDate, setTime := t.staged.setTime } }) s) := by
  have h2 : ¬ stepMode s.tb ≠ 1 := not_not.mpr hm
  rw [tbCivilSetGo, if_pos hc]
  simp only [hn, if_neg h2]

theorem tbCivilSetGo_refused (hc : commits v s = true) {n : Nat}
    (hn : civilSeconds s.tb.staged.setDate s.tb.staged.setTime (sgn s.tb.committed.civil) = .secs n) {k : Nat}
    (hm : stepMode s.tb = k) (hk : k ≠ 1) :
    tbCivilSetGo v s = { s with tb := { s.tb with result := k, sub := 5 } } := by
  have h2 : stepMode s.tb ≠ 1 := by rw [hm]; exact hk
  rw [tbCivilSetGo, if_pos hc]
  simp only [hn]
  rw [if_pos h2, hm]
  rfl

end

/-- Settles O17: each commit is one branch of its function, taken apart by what the statement assumes; a step is accepted as
`acceptStep_spec` says. -/
theorem timeBaseCommits : Obligations.TimeBaseCommits := by
  unfold Obligations.TimeBaseCommits
  refine ⟨fun s v hopen hv hb => ?_, fun s v hopen hv hm hb => ?_, fun s v hopen hv => ?_, fun s v hopen hv => ?_,
    fun s v o x hopen hv ho hx => ?_, fun s v hopen hv => ?_, fun s v c hopen hv hcs => ?_⟩
  all_goals have hc := commits_of hopen hv
  · have hin : ¬ (s.tb.staged.mode && (s.tb.staged.slewBound == 0 || (500 < s.tb.staged.slewBound.toNat : Bool))) = true := by
      simp only [Bool.and_eq_true, Bool.or_eq_true, beq_iff_eq, decide_eq_true_eq, not_and, not_or]
      intro hm
      obtain ⟨h1, h2⟩ := hb hm
      exact ⟨fun h => by simp [h] at h1, by omega⟩
    exact ⟨_, (next_if_pos hc).trans (congrArg Host.Outcome.next (if_neg hin)), updTb_changes _ s, rfl⟩
  · have hin : (s.tb.staged.mode && (s.tb.staged.slewBound == 0 || (500 < s.tb.staged.slewBound.toNat : Bool))) = true := by
      simpa [hm] using hb
    exact (next_if_pos hc).trans (congrArg Host.Outcome.next (if_pos hin))
  · refine (next_if_pos hc).trans (congrArg Host.Outcome.next ?_)
    by_cases h : s.tb.staged.rate.toInt.natAbs ≤ 562949953421
    · rw [if_neg (show ¬ 562949953421 < (sgn s.tb.staged.rate).natAbs from Nat.not_lt_of_le h), if_pos h]
      rfl
    · rw [if_pos (show 562949953421 < (sgn s.tb.staged.rate).natAbs from Nat.lt_of_not_le h), if_neg h]
      rfl
  · refine (next_if_pos hc).trans (congrArg Host.Outcome.next ?_)
    simp only [sgn, Bool.not_eq_true', fracUnit]
    split
    · rfl
    · split
      · rfl
      · split <;> rfl
  · rw [← tbUnits_eq, ← stepBase_eq] at hx
    rw [← stepUnits_eq] at ho
    subst ho
    have hin := stepInRange_iff hx
    refine ⟨fun hns h0 h1 hm1 hm2 => ?_, fun hbad => ?_, fun hns h0 h1 hm hval => ?_, fun hns h0 h1 hm hus => ?_⟩
    · obtain ⟨h2, h3, h4⟩ := acceptStep_spec (stepUnits s.tb.staged) (fun t => tbResult 1 1 { t with
        committed := { t.committed with stepSec := t.staged.stepSec, stepNs := t.staged.stepNs,
                                        stepFrac := t.staged.stepFrac } }) s
      exact ⟨_, congrArg Host.Outcome.next (tbStepGo_accepted hc hns (hin.mpr ⟨h0, h1⟩) (stepMode_allowed hm1 hm2)), h2, h3, h4⟩
    · refine congrArg Host.Outcome.next (tbStepGo_outOfRange hc ?_)
      rw [hin]
      rcases hbad with h | h | h
      · exact .inl h
      · exact .inr fun h' => absurd h'.1 (not_le_of_gt h)
      · exact .inr fun h' => absurd h'.2 (not_lt_of_ge h)
    · exact congrArg Host.Outcome.next
        (tbStepGo_refused hc hns (hin.mpr ⟨h0, h1⟩) (stepMode_mismatch hm hval) (by decide))
    · exact congrArg Host.Outcome.next
        (tbStepGo_refused hc hns (hin.mpr ⟨h0, h1⟩) (stepMode_refused hm hus) (by decide))
  · exact next_if_pos hc
  · subst hcs
    refine ⟨fun n hn hm1 hm2 => ?_, fun hn => ?_, fun hn => ?_, fun n hn hm hval => ?_, fun n hn hm hus => ?_⟩
    · obtain ⟨h2, h3, h4⟩ := acceptStep_spec ((n * 10 ^ 9 * 2 ^ 32 : Nat) - stepBase s.tb) (fun t => tbResult 1 5 { t with
          committed := { t.committed with setDate := t.staged.setDate, setTime := t.staged.setTime } }) s
      have hoff : s.tb.stepDue.getD 0 + (((n * 10 ^ 9 * 2 ^ 32 : Nat) : Int) - stepBase s.tb) =
          ((n * 10 ^ 9 * 2 ^ 32 : Nat) : Int) - (tbUnits s.tb / 2 ^ 16 : Nat) := by
        rw [stepBase_eq]
        ring
      refine ⟨_, congrArg Host.Outcome.next (tbCivilSetGo_accepted hc hn (stepMode_allowed hm1 hm2)), h2, h3, ?_⟩
      rw [← tbUnits_eq, ← hoff]
      exact h4
    · refine congrArg Host.Outcome.next ?_
      rw [tbCivilSetGo, if_pos hc]
      simp only [sgn, hn]
      rfl
    · refine congrArg Host.Outcome.next ?_
      rw [tbCivilSetGo, if_pos hc]
      simp only [sgn, hn]
      rfl
    · exact congrArg Host.Outcome.next (tbCivilSetGo_refused hc hn (stepMode_mismatch hm hval) (by decide))
    · exact congrArg Host.Outcome.next (tbCivilSetGo_refused hc hn (stepMode_refused hm hus) (by decide))

end Sys2Proof.Machine
end

section
/-! Proofs: what the instruction words, the checks and the block commits keep. -/

namespace Sys2Proof.Machine

section
variable (s : State)

/-! ## Issue -/

/-- Whether the issue of an opcode's words is steady. -/
def OpRule.Steady (rule : OpRule) : Prop := ∀ (s : State) (r : Reel) (u : Nat) (t : Tile) (w : Rec128), Machine.Steady s (rule.go s r u t w)

variable {s} in
theorem issue_steady (op : Nat) {rule : OpRule} (h : rule.Steady) (u : Nat) : Steady s (issue op rule u s) := by
  unfold issue
  split
  · refine .ite ?_ (.refl s)
    unfold issueWord
    extract_lets src t s1 legal
    have h1 : Steady s s1 := updTile_steady (f := fun t => { t with todo := _ }) u s fun _ h => h
    split
    · exact h1.trans (h _ _ _ _ _)
    · exact .ite (h1.trans (tileFault_steady _ _ _ _ _)) ((h1.trans (h _ _ _ _ _)).trans (tileDetect_steady _ _ _ _ _))
  · exact .refl s

theorem fly_steady (u : Nat) (f : Flight) : Steady s (fly u f s) := updTile_steady u s fun _ h => h

theorem flyAfter_steady {t : State} (h : Steady s t) (u : Nat) (f : Flight) : Steady s (fly u f t) := h.trans (fly_steady t u f)

theorem enqueueMove_steady (u : Nat) (q : MoveReq) : Steady s (enqueueMove u q s) := updTile_steady u s fun _ h => h

theorem nopRule_steady : OpRule.Steady { evs := noEvs, go := fun s r u _ w => justFly s r u w } :=
  fun s _ _ _ _ => fly_steady s _ _

theorem ewaitRule_steady : ewaitRule.Steady := by
  intro s _ _ _ _
  refine flyAfter_steady s (.ite (.refl s) (updTile_steady _ s ?_)) _ _
  exact fun _ h => h

theorem esigRule_steady : esigRule.Steady := fun s _ _ _ _ => fly_steady s _ _

theorem rdflgRule_steady : rdflgRule.Steady := fun s _ _ _ _ => fly_steady s _ _

theorem exitRule_steady : exitRule.Steady := by
  intro s _ _ _ _
  refine flyAfter_steady s (.ite (updTile_steady _ s ?_) (.refl s)) _ _
  exact fun _ h => h

theorem recvRule_steady : recvRule.Steady := fun s _ _ _ _ => fly_steady s _ _

theorem sendRule_steady : sendRule.Steady := by
  intro s r u t w
  simp only [sendRule]
  split
  · exact .refl s
  · refine flyAfter_steady s (updTile_steady _ s ?_) _ _
    exact fun _ h => h

theorem bldRule_steady : bldRule.Steady := by
  intro s r u t w
  simp only [bldRule]
  split
  · exact .refl s
  · exact flyAfter_steady s (.ite (.refl s) (enqueueMove_steady s _ _)) _ _

theorem bstRule_steady : bstRule.Steady := by
  intro s r u t w
  simp only [bstRule]
  split
  · exact .refl s
  · exact flyAfter_steady s (enqueueMove_steady s _ _) _ _

theorem windowRule_steady (kind : MoveKind) : (windowRule kind).Steady := by
  intro s r u t w
  simp only [windowRule]
  split
  · exact .refl s
  · exact flyAfter_steady s (enqueueMove_steady s _ _) _ _

/-! ## Deadlines and checks -/

theorem Tile.formOk_writeLine (rg : Nat × Nat × Nat) (l : Nat) (v : LineVal) (t : Tile) (h : t.formOk) :
    (writeLine rg l v t).formOk := Tile.formOk_setLine _ _ _ h

theorem Tile.formOk_clearCdue (slot ln : Nat) (t : Tile) (h : t.formOk) : (clearCdue slot ln t).formOk :=
  Tile.formOk_setLine _ _ _ h

theorem Tile.formOk_foldl {α : Type} {f : Tile → α → Tile} (hf : ∀ t x, t.formOk → (f t x).formOk) :
    ∀ (l : List α) (t : Tile), t.formOk → (l.foldl f t).formOk
  | [], _, h => h
  | x :: l, t, h => Tile.formOk_foldl hf l (f t x) (hf t x h)

theorem doEffect_steady (u : Nat) (f : Flight) : Steady s (doEffect u f s) := by
  unfold doEffect
  split
  · exact .refl s
  · exact updTile_steady u s fun _ h => h
  · exact updTile_steady u s fun _ h => h
  · exact .same rfl
  · exact updTile_steady u s fun _ h => h

theorem keepShadow_steady (u : Nat) (w : Rec128) (ls : List (Nat × LineVal)) : Steady s (keepShadow u w ls s) := by
  unfold keepShadow
  split
  · exact .ite (.same rfl) (.refl s)
  · exact .refl s

theorem completeOp_steady (u : Nat) (f : Flight) (x : List (Nat × LineBits)) : Steady s (completeOp u f x s) := by
  unfold completeOp
  extract_lets ls check write s1
  have h1 : Steady s s1 :=
    updTile_steady u s fun t h => Tile.formOk_foldl (fun t x h => Tile.formOk_writeLine _ x.1 x.2 t h) ls t h
  exact (h1.trans (.ite (keepShadow_steady _ _ _ _) (.refl _))).trans (doEffect_steady _ _ _)

theorem lateOp_steady (u : Nat) (f : Flight) : Steady s (lateOp u f s) := by
  unfold lateOp
  exact (updTile_steady (f := fun t => { t with flight := none, lateOp := true }) u s fun _ h => h).trans (tileDetect_steady _ _ _ _ _)

theorem exec_opDeadline_steady (u : Nat) (res : OpEnd) : EndsSteady s (exec (.opDeadline u res) s) := by
  refine .next ?_
  split
  · split
    · exact .ite (completeOp_steady s _ _ _) (.refl s)
    · exact .ite (lateOp_steady s _ _) (.refl s)
  · exact .refl s

theorem exec_residueCheckComplete_steady (u : Nat) (b : Bool) : EndsSteady s (exec (.residueCheckComplete u b) s) := by
  change EndsSteady s (execResidueCheckComplete u b s)
  unfold execResidueCheckComplete
  extract_lets t cs
  refine .next ?_
  split
  case isFalse => exact .refl s
  rename_i lines badLines cleared s1 _
  have h1 : Steady s s1 :=
    setTile_steady u fun h => Tile.formOk_foldl (fun t l h => Tile.formOk_clearCdue _ l t h) lines t (h u)
  exact .ite h1 (h1.trans (tileDetect_steady _ _ _ _ _))

theorem bumpCtr_steady (k i : Nat) : Steady s (bumpCtr k i s) := updHealth_steady s i _

theorem shadowMiss_steady (p q : Nat) : Steady s (shadowMiss p q s) :=
  ((tileDetect_steady s _ _ _ _).trans (bumpCtr_steady _ _ _)).trans (score_steady _ _ _)

theorem exec_shadowCompare_steady (g i : Nat) : EndsSteady s (exec (.shadowCompare g i) s) := by
  refine .next ?_
  split
  · split
    · exact .refl s
    · extract_lets p q
      split
      · exact .ite (shadowMiss_steady s _ _) (.refl s)
      · exact .refl s
  · exact .refl s

/-! ## Commits -/

theorem bridleGo_steady (v : Word32) : Steady s (bridleGo v s) := by
  unfold bridleGo
  refine .ite (.ite (.same rfl) ?_) (.refl s)
  extract_lets s1
  have h1 : Steady s s1 := .same rfl
  exact .ite h1 (h1.trans (mapPorts_steady _ _))

theorem secGo_steady (v : Word32) : Steady s (secGo v s) := .ite (.ite (.same rfl) (.same rfl)) (.refl s)

theorem pwrGo_steady (v : Word32) : Steady s (pwrGo v s) := .ite (.ite (.same rfl) (.same rfl)) (.refl s)

theorem hostGo_steady (v : Word32) : Steady s (hostGo v s) := by
  unfold hostGo
  have h1 : Steady s { s with rings := ringsStarted s.rings } := .same rfl
  exact .ite (.ite (.ite ((h1.trans (syncDoorbell_steady _)).trans (flushDue_steady _)) (.same rfl)) (.same rfl)) (.refl s)

theorem askRetrain_steady (p : Nat) : Steady s (askRetrain p s) := by
  unfold askRetrain
  refine .ite (.refl s) ?_
  extract_lets s1
  have h1 : Steady s s1 := updPort_steady p _ s
  exact .ite h1 (h1.trans (updPort_steady p _ s1))

theorem retrainGo_steady (hi : Bool) (v : Word32) : Steady s (retrainGo hi v s) := by
  unfold retrainGo
  exact .ite (.foldl (fun a k => askRetrain_steady a _) _ s) (.refl s)

end

end Sys2Proof.Machine
end

section
/-! Proofs: what reads, links, the count, frames, slots and the gather keep. -/

namespace Sys2Proof.Machine

section
variable (s : State)

/-! ## Reads -/

theorem answerRead_steady (v : Nat) : Steady s (answerRead v s) := .same rfl

theorem latchAt_steady (off : Nat) : Steady s (latchAt off s) := by
  unfold latchAt
  refine .ite (.same rfl) (.ite (.same rfl) ?_)
  split
  · exact .same rfl
  · exact .refl s

theorem latchRead_steady (off : Nat) : Steady s (latchRead off s) := by
  unfold latchRead
  exact .ite ((latchAt_steady s off).trans (answerRead_steady _ _)) (answerRead_steady s _)

theorem latchRead64_steady (off : Nat) : Steady s (latchRead64 off s) := by
  unfold latchRead64
  exact ((latchRead_steady s off).trans (latchRead_steady _ _)).trans (answerRead_steady _ _)

theorem barRead_steady (r : BarRead) : Steady s (barRead r s) :=
  .ite (latchRead_steady s _) (.ite (latchRead64_steady s _) (answerRead_steady s _))

/-! ## Frames -/

theorem transmit_steady (p : Nat) : Steady s (transmit p s) := by
  unfold transmit
  extract_lets v
  exact .ite (.ite (setPort_steady p _ s) (setPort_steady p _ s)) (.ite (setPort_steady p _ s) (.refl s))

theorem transmitAll_steady : Steady s (transmitAll s) := .foldl (fun a p => transmit_steady a p) _ s

/-! ## The count -/

theorem updBridle_steady (f : Bridle → Bridle) : Steady s (updBridle f s) := .same rfl

theorem bridleFault_steady (c i : Nat) : Steady s (bridleFault c i s) := raiseFault_steady s _ _ _ _

theorem toUnsynced_steady : Steady s (toUnsynced s) := by
  unfold toUnsynced
  refine .ite (.refl s) ?_
  extract_lets s1
  have h1 : Steady s s1 := .ite (bridleFault_steady s _ _) (.refl s)
  have h2 : Steady s1 { updBridle bridleLost s1 with ports := mapVals Port.off (unheardBut (selfId s1)) s1.ports } :=
    (updBridle_steady s1 bridleLost).trans (mapPorts_steady _ (updBridle bridleLost s1))
  exact h1.trans h2

theorem toAcquiring_steady (p : Nat) (r : BitVec 11) (n : Nat) : Steady s (toAcquiring p r n s) :=
  .ite (bridleFault_steady s _ _) (updBridle_steady s _)

theorem reacquire_steady : Steady s (reacquire s) := by
  unfold reacquire
  split
  · exact toAcquiring_steady s _ _ _
  · exact toUnsynced_steady s

theorem leaveSynced_steady : Steady s (leaveSynced s) := by
  unfold leaveSynced
  split
  · split
    · exact toAcquiring_steady s _ _ _
    · exact updBridle_steady s _
  · exact .refl s

theorem toHoldover_steady : Steady s (toHoldover s) := .ite (.refl s) (updBridle_steady s _)

theorem keepParent_steady (x : Nat × BitVec 992) : Steady s (keepParent x s) := updBridle_steady s _

theorem followBest_steady : Steady s (followBest s) := by
  unfold followBest
  extract_lets b
  split
  · split
    · exact .ite (toUnsynced_steady s) (toHoldover_steady s)
    · exact .ite (toUnsynced_steady s) (.refl s)
    · exact toUnsynced_steady s
    · exact .refl s
  · exact .ite (keepParent_steady s _) (.ite (keepParent_steady s _)
      (.ite ((keepParent_steady s _).trans (updBridle_steady _ _)) (toAcquiring_steady s _ _ _)))

theorem rootPlace_steady : Steady s (rootPlace s) := by
  unfold rootPlace
  extract_lets b
  split
  · exact .ite (.refl s) (toUnsynced_steady s)
  · split
    · exact toAcquiring_steady s _ _ _
    · exact .refl s
    · exact .ite (.refl s) (toUnsynced_steady s)
  · exact toUnsynced_steady s
  · split
    · exact toAcquiring_steady s _ _ _
    · exact .refl s

theorem elect_steady : Steady s (elect s) := by
  unfold elect clashed
  exact .ite (toUnsynced_steady s) (.ite ((updBridle_steady s _).trans (toUnsynced_steady _))
    (.ite ((updBridle_steady s _).trans (followBest_steady _)) (.ite (rootPlace_steady s) (followBest_steady s))))

theorem addTrim_steady (k : Int) : Steady s (addTrim k s) := .same rfl

theorem syncSlot_steady : Steady s (syncSlot s) := by
  unfold syncSlot
  split
  · exact .ite (addTrim_steady s _) (.refl s)
  · split
    · exact .refl s
    · extract_lets s1
      have h1 : Steady s s1 := (updBridle_steady s _).trans (addTrim_steady _ _)
      exact .ite (h1.trans (reacquire_steady s1)) h1

theorem adopt_steady (c p : Nat) : Steady s (adopt c p s) := by
  unfold adopt
  extract_lets lvl n s1 b src1 src2 src3 s2
  have h1 : Steady s s1 := (disarm_steady s).trans (updPort_steady p _ _)
  have h2 : Steady s1 s2 := .same rfl
  exact (h1.trans h2).trans (capSpacing_steady s2)

theorem exec_syncedEntry_steady : EndsSteady s (exec .syncedEntry s) := .next_ite (updBridle_steady s _)

theorem exec_countAdopt_steady (c : Nat) : EndsSteady s (exec (.countAdopt c) s) := by
  refine .next ?_
  split
  · exact .ite (bridleFault_steady s _ _) (adopt_steady s _ _)
  · exact .refl s

theorem exec_rootSeedLoad_steady : EndsSteady s (exec .rootSeedLoad s) := .next_ite (.same rfl)

theorem exec_parentLost_steady : EndsSteady s (exec .parentLost s) := by
  refine .next ?_
  split
  · exact .ite (elect_steady s) (.refl s)
  · exact .refl s

theorem exec_bridleMarkFire_steady : EndsSteady s (exec .bridleMarkFire s) := by
  change EndsSteady s (execBridleMarkFire s)
  unfold execBridleMarkFire
  extract_lets b
  let s1 := { s with bridle := { b with markArmed := false, markSec := s.tb.sec, markNs := s.tb.ns, events := b.events ||| 4 } }
  have h1 : Steady s s1 := .same rfl
  exact .next_ite (h1.trans (post_steady s1 _ _))

/-! ## The PACE field -/

theorem foldRequest_steady (p : Nat) (t : BitVec 992) : Steady s (foldRequest p t s) := by
  unfold foldRequest
  split
  · exact .ite (.same rfl) (.refl s)
  · exact .refl s

theorem jobDecision_steady (p : Nat) (d : Decision) : Steady s (jobDecision p d s) :=
  .ite (raiseFault_steady s _ _ _ _) (.ite (.refl s) (.ite (bridleFault_steady s _ _) (.ite (.same rfl) (.refl s))))

theorem idleDecision_steady (d : Decision) : Steady s (idleDecision d s) := by
  unfold idleDecision
  extract_lets s1 s2
  have h1 : Steady s s1 := .same rfl
  have h2 : Steady s s2 := h1.trans (leaveSynced_steady s1)
  have h3 : Steady s2 { s2 with power := { holdDecision d s2.power with decision := some { d with applyAt := cnt s1 + 1 } } } := .same rfl
  have h4 : Steady s1 { s1 with power := holdDecision d s1.power } := .same rfl
  exact .ite h1 (.ite (h2.trans h3) (.ite (h1.trans h4) h1))

theorem hearPace_steady (p : Nat) (t : BitVec 992) : Steady s (hearPace p t s) := by
  unfold hearPace
  extract_lets s1
  have h1 : Steady s s1 := foldRequest_steady s p t
  split
  · exact .ite (h1.trans (jobDecision_steady s1 _ _)) (h1.trans (idleDecision_steady s1 _))
  · exact h1

/-! ## Arrivals and deliveries -/

theorem collide_steady (a : Arrival) (e : InEntry) : Steady s (collide a e s) := by
  unfold collide
  exact (updTile_steady (f := fun t => { t with inbox := put a.entry { e with at_ := cnt s } t.inbox }) a.dst s
    fun _ h => h).trans (tileFault_steady _ _ _ _ _)

theorem fillEntry_steady (a : Arrival) : Steady s (fillEntry a s) := by
  unfold fillEntry
  split
  · exact collide_steady s _ _
  · exact updTile_steady _ s fun _ h => h

theorem countEvent_steady (d k : Nat) : Steady s (countEvent d k s) :=
  .ite (tileFault_steady s _ _ _ _) (updTile_steady _ s fun _ h => h)

theorem gatherRx_steady (a : Arrival) : Steady s (gatherRx a s) := by
  unfold gatherRx
  refine .ite (.refl s) ?_
  extract_lets b s1
  have h1 : Steady s s1 := updTile_steady _ s fun _ h => h
  exact .ite (.ite h1 (h1.trans (tileDetect_steady _ _ _ _ _))) (updTile_steady _ s fun _ h => h)

theorem arrive_steady (a : Arrival) : Steady s (arrive a s) := by
  unfold arrive
  refine .ite ?_ (.refl s)
  extract_lets s1
  have h1 : Steady s s1 := ((fillEntry_steady s a).trans (countEvent_steady _ _ _)).trans (gatherRx_steady _ _)
  have h2 : Steady s1 { s1 with work := { s1.work with parcelsProv := s1.work.parcelsProv + 1 } } := .same rfl
  exact .ite h1 (h1.trans h2)

theorem arriveLocal_steady (m : LocalMsg) : Steady s (arriveLocal m s) := by
  unfold arriveLocal
  split
  · exact .ite (countEvent_steady s _ _) (.refl s)
  · exact arrive_steady s _

theorem deliverLocal_steady : Steady s (deliverLocal s) := by
  unfold deliverLocal
  extract_lets due s1
  have h1 : Steady s s1 := .same rfl
  exact .ite (h1.trans (.foldl (fun a m => arriveLocal_steady a m) _ s1)) h1

theorem portEvent_steady (p : Nat) (evs : List Ev) : Steady s (portEvent p evs s) := by
  unfold portEvent
  split
  · exact .refl s
  · exact .ite (raiseFault_steady s _ _ _ _) (raiseDetect_steady s _ _ _ _)

theorem noteVeto_steady (evs : List Ev) : Steady s (noteVeto evs s) := .ite (.same rfl) (.refl s)

theorem keepTransit_steady (p : Nat) (e : BitVec 256) (x : Option (BitVec 2304)) : Steady s (keepTransit p e x s) := .same rfl

theorem takePosition_steady (p : Nat) (e : BitVec 256) (x : Option (BitVec 2304)) : Steady s (takePosition p e x s) := by
  unfold takePosition
  refine .ite (keepTransit_steady s _ _ _) ?_
  split
  · exact .ite (arrive_steady s _) (.refl s)
  · exact .refl s

theorem recordProv_steady (p : Nat) (f : Frame) (g : Reading) : Steady s (recordProv p f g s) :=
  .ite (.refl s) (updPort_steady p _ s)

theorem takePositions_steady (p : Nat) (f : Frame) (g : Reading) : Steady s (takePositions p f g s) := by
  unfold takePositions
  exact (Steady.foldl (fun a e => takePosition_steady a p e _) _ s).trans (recordProv_steady _ _ _ _)

theorem loseTransits_steady (p : Nat) (es : List (BitVec 256)) : Steady s (loseTransits p es s) :=
  .foldl (fun a e => .ite (keepTransit_steady a p e none) (.refl a)) _ s

theorem dropRecords_steady (p : Nat) : Steady s (dropRecords p s) := updPort_steady p _ s

theorem checkPositions_steady (p : Nat) (f : Frame) (evs : List Ev) : Steady s (checkPositions p f evs s) := by
  unfold checkPositions
  split <;> exact portEvent_steady s _ _

theorem deliverPositions_steady (p : Nat) (f : Frame) (held : Bool) (evs : List Ev) :
    Steady s (deliverPositions p f held evs s) := by
  unfold deliverPositions
  extract_lets es due s1 s2
  have h1 : Steady s s1 := dropRecords_steady s p
  refine .ite (h1.trans (checkPositions_steady _ _ _ _)) (.ite (h1.trans (portEvent_steady _ _ _)) ?_)
  cases f.slotStart.filter slotStartOk with
  | none =>
    have h2 : Steady s s2 := h1.trans (portEvent_steady _ _ _)
    exact .ite h2 (h2.trans (loseTransits_steady _ _ _))
  | some x =>
    have h2 (conf evs : List Ev) : Steady s (portEvent p evs (noteVeto conf s1)) :=
      (h1.trans (noteVeto_steady _ _)).trans (portEvent_steady _ _ _)
    exact .ite (h2 _ _) ((h2 _ _).trans (takePositions_steady _ _ _ _))

theorem compareCount_steady (p : Nat) (t : BitVec 992) : Steady s (compareCount p t s) :=
  .ite (.ite (.ite (bridleFault_steady s _ _) (updBridle_steady s _)) (.ite (reacquire_steady s) (updBridle_steady s _))) (.refl s)

theorem hearNotice_steady (p : Nat) (t : BitVec 992) : Steady s (hearNotice p t s) := by
  unfold hearNotice
  split
  · exact .ite (.refl s) (.ite (bridleFault_steady s _ _) (takeNotice_steady s _))
  · exact .refl s

theorem hearTail_steady (p : Nat) (f : Frame) (t : BitVec 992) : Steady s (hearTail p f t s) := by
  unfold hearTail
  have h1 : Steady s (keepTail p f t s) := updPort_steady p _ s
  exact (((h1.trans (compareCount_steady _ p t)).trans (elect_steady _)).trans (hearNotice_steady _ p t)).trans
    (hearPace_steady _ p t)

theorem countFec_steady (p n : Nat) : Steady s (countFec p n s) := by
  unfold countFec
  exact .ite (.refl s) ((updHealth_steady s _ _).trans (updTotals_steady _ _))

theorem deliverFrame_steady (p : Nat) (f : Frame) : Steady s (deliverFrame p f s) := by
  unfold deliverFrame
  extract_lets s0
  have h0 : Steady s s0 := countFec_steady s _ _
  have h1 : Steady s (dropRecords p s0) := h0.trans (dropRecords_steady _ _)
  refine .ite (.ite (h1.trans (raiseFault_steady _ _ _ _ _)) h1) ?_
  split
  · exact (h0.trans (hearTail_steady _ _ _ _)).trans (deliverPositions_steady _ _ _ _ _)
  · exact h0.trans (deliverPositions_steady _ _ _ _ _)

theorem deliverSilence_steady (p : Nat) : Steady s (deliverSilence p s) := by
  unfold deliverSilence
  extract_lets es due s1
  have hd : Steady s (dropRecords p s) := dropRecords_steady s p
  have h1 : Steady s s1 := hd.trans (portEvent_steady _ _ _)
  exact .ite (.ite h1 (h1.trans (loseTransits_steady _ _ _))) (hd.trans (portEvent_steady _ _ _))

theorem exec_frameDelivery_steady (p : Nat) (f : Frame) : EndsSteady s (exec (.frameDelivery p f) s) :=
  .next_ite (.ite (deliverFrame_steady s p f) (deliverSilence_steady s p))

/-! ## The engines -/

theorem engineRule_steady (f : Tile → Rec128 → Result) : (engineRule f).Steady := fun s _ _ _ _ => fly_steady s _ _

theorem cvtRule_steady : cvtRule.Steady := fun s _ _ _ _ => flyAfter_steady s (.same rfl) _ _

theorem cpyRule_steady : cpyRule.Steady := fun s _ _ _ _ => fly_steady s _ _

/-! ## Slots -/

theorem Tile.formOk_beginTile (ws : List Rec128) (slot : Nat) (t : Tile) (h : t.formOk) : (beginTile ws slot t).formOk :=
  canonical_mapVals _ _ _ h

/-- What is listed by key, without defaults, is in canonical form. -/
theorem canonical_listed {α : Type} [DecidableEq α] (d : α) (f : Nat → α) (n : Nat) :
    canonical d (((List.range n).map (fun u => (u, f u))).filter (fun x => decide (x.2 ≠ d))) = true := by
  have hr : risingKeys ((List.range n).map (fun u => (u, f u))) = true := by
    induction n with
    | zero => rfl
    | succ n ih =>
      have happ : ∀ m : Sparse α, risingKeys m = true → (∀ x ∈ m, x.1 < n) → risingKeys (m ++ [(n, f n)]) = true := by
        intro m
        induction m with
        | nil => exact fun _ _ => rfl
        | cons y m ihm =>
          intro hm hlt
          obtain ⟨ha, hm⟩ := (risingKeys_cons _ _).mp hm
          refine (risingKeys_cons _ _).mpr ⟨fun x hx => ?_, ihm hm fun x hx => hlt x (List.mem_cons_of_mem _ hx)⟩
          rcases List.mem_append.mp hx with hx | hx
          · exact ha x hx
          · rw [List.mem_singleton.mp hx]
            exact hlt y (List.mem_cons_self ..)
      rw [List.range_succ, List.map_append]
      exact happ _ ih (by simp)
  refine canonical_iff.mpr ⟨risingKeys_sublist List.filter_sublist hr, fun x hx => ?_⟩
  exact of_decide_eq_true (List.mem_filter.mp hx).2

theorem beginTiles_form (r : Reel) (phase pattern : Nat) (h : ∀ j, (tileOf s j).formOk) :
    canonical Tile.clear (beginTiles r phase pattern s) = true ∧ ∀ j, (look Tile.clear j (beginTiles r phase pattern s)).formOk := by
  refine ⟨canonical_listed _ _ _, look_of_forall_mem rfl fun x hx => ?_⟩
  obtain ⟨u, -, rfl⟩ := List.mem_map.mp (List.mem_of_mem_filter hx)
  exact Tile.formOk_beginTile _ _ _ (h u)

variable {s} in
theorem withTiles_steady {m : Sparse Tile}
    (h : (∀ j, (tileOf s j).formOk) → canonical Tile.clear m = true ∧ ∀ j, (look Tile.clear j m).formOk) :
    Steady s { s with tiles := m } :=
  ⟨rfl, rfl, id, fun ⟨_, hm, hp, hl, hk⟩ => ⟨(h hl).1, hm, hp, (h hl).2, hk⟩⟩

theorem beginStep_steady (r : Reel) (n k : Nat) : Steady s (beginStep r n k s) := by
  unfold beginStep
  split
  · rename_i pattern phase _
    have h := beginTiles_form s r phase pattern
    generalize beginTiles r phase pattern s = m at h ⊢
    have h1 : Steady s { s with tiles := m } := withTiles_steady h
    exact h1.trans (.same rfl)
  · exact .refl s

theorem advanceJob_steady : Steady s (advanceJob s) := by
  unfold advanceJob
  split
  · exact .ite ((beginStep_steady s _ _ _).trans (closeWindow_steady _)) (.same rfl)
  · exact .refl s

theorem leaveLocal_steady : Steady s (leaveLocal s) := by
  unfold leaveLocal
  split
  · rename_i r _ _
    let s1 := { s with localq := s.localq ++ s.tiles.flatMap (fun (x : Nat × Tile) => leavingOf s r x.1 x.2) }
    have h1 : Steady s s1 := .same rfl
    exact h1.trans (mapTiles_steady (f := dropLeaving s.job.slot) s1 fun _ h => h)
  · exact .refl s

theorem slotBegin_steady : Steady s (slotBegin s) := by
  unfold slotBegin
  extract_lets s1
  have h1 : Steady s s1 :=
    (((takeAllMoves_steady s).trans (leaveLocal_steady _)).trans (syncSlot_steady _)).trans (updBridle_steady _ _)
  have h2 : Steady s1 (ageTransits s1) := .same rfl
  exact ((((h1.trans h2).trans (advanceJob_steady _)).trans (deliverLocal_steady _)).trans (capSpacing_steady _)).trans
    (transmitAll_steady _)

theorem fire_steady (r : Reel) : Steady s (fire r s) := by
  unfold fire
  extract_lets s1
  have h0 : Steady s (enterJob r s) := .same rfl
  have h1 : Steady s s1 := (h0.trans (beginStep_steady _ _ _ _)).trans (capSpacing_steady _)
  split
  · exact h1.trans (raiseFault_steady _ _ _ _ _)
  · exact h1

theorem exec_launchFire_steady : EndsSteady s (exec .launchFire s) := by
  refine .next ?_
  split
  · exact fire_steady s _
  · exact .refl s

/-! ## The gather and the hazard detector -/

theorem stage_steady (p k : Nat) (x : BitVec 2304) (b : Bool) (src : Option (Nat × Nat)) : Steady s (stage p k x b src s) :=
  updPort_steady p _ s

theorem missingParcel_steady (c : Bool) (p : Nat) (e : BitVec 256) (m : BitVec 2304) : Steady s (missingParcel c p e m s) :=
  .ite (raiseFault_steady s _ _ _ _) (stage_steady s _ _ _ _ _)

theorem gatherTile_steady (r : Reel) (f p : Nat) (e : BitVec 256) : Steady s (gatherTile r f p e s) := by
  unfold gatherTile
  extract_lets u t check
  split
  · exact missingParcel_steady s _ _ _ _
  · split
    · split
      · exact (setTile_steady (v := { t with outbox := erase _ t.outbox }) u fun h => h u).trans (stage_steady _ _ _ _ _ _)
      · exact .refl s
    · exact missingParcel_steady s _ _ _ _

theorem gatherTransit_steady (r : Reel) (p : Nat) (e : BitVec 256) : Steady s (gatherTransit r p e s) := by
  unfold gatherTransit
  extract_lets hit
  split
  · have h1 : Steady s { s with transits := s.transits.filter (fun y => !hit y) } := .same rfl
    exact h1.trans (stage_steady _ _ _ _ _ _)
  · exact missingParcel_steady s _ _ _ _

theorem gatherEntry_steady (r : Reel) (f p : Nat) (e : BitVec 256) : Steady s (gatherEntry r f p e s) :=
  .ite (gatherTile_steady s _ _ _ _) (.ite (gatherTransit_steady s _ _ _) (stage_steady s _ _ _ _ _))

theorem gatherPort_steady (x : Reel × Nat × Nat × Nat) (p : Nat) : Steady s (gatherPort x p s) :=
  .foldl (fun a e => gatherEntry_steady a _ _ _ e) _ s

theorem orphanCheck_steady (r : Reel) (f n : Nat) (b : State) : Steady s (orphanCheck r f n b s) := by
  unfold orphanCheck
  refine .foldl (fun a x => ?_) _ s
  split
  · exact .ite (tileFault_steady a _ _ _ _) (.refl a)
  · exact .refl a

theorem exec_crosspointGather_steady (n : Nat) : EndsSteady s (exec (.crosspointGather n) s) := by
  change EndsSteady s (execCrosspointGather n s)
  unfold execCrosspointGather
  refine .next ?_
  split
  · extract_lets s1
    have h1 : Steady s s1 := .foldl (fun a k => gatherPort_steady a _ _) _ s
    exact .ite (h1.trans (orphanCheck_steady _ _ _ _ _)) h1
  · exact .refl s

theorem hazFault_steady (u : Nat) (x : Nat × Nat × Nat × Nat) : Steady s (hazFault u x s) := by
  unfold hazFault
  extract_lets
  exact Steady.trans (t := { s with ldr := _ }) (.same (by rfl)) (tileFault_steady _ _ _ _ _)

theorem exec_hazardCheck_steady : EndsSteady s (exec .hazardCheck s) := by
  refine .next ?_
  split
  · refine .ite (.refl s) (.ite (.same rfl) (.ite (.refl s) ?_))
    split
    · exact hazFault_steady s _ _
    · exact .refl s
  · exact .refl s

end

end Sys2Proof.Machine
end

section
/-! Proofs: what the life of a link keeps. -/

namespace Sys2Proof.Machine

section
variable (s : State)

theorem gateQuads_steady : Steady s (gateQuads s) :=
  .ite (.refl s) (.foldl (fun a p => .ite (.refl a) (updPort_steady p _ a)) _ s)

theorem exec_trainingDone_steady (p : Nat) (x : TrainInfo) : EndsSteady s (exec (.trainingDone p x) s) :=
  .next_ite ((updPort_steady p _ s).trans (gateQuads_steady _))

theorem exec_trainingTimeout_steady (p : Nat) : EndsSteady s (exec (.trainingTimeout p) s) :=
  .next_ite ((((updPort_steady p _ s).trans (bumpCtr_steady _ _ _)).trans (score_steady _ _ _)).trans (gateQuads_steady _))

theorem exec_laneLockLoss_steady (p : Nat) : EndsSteady s (exec (.laneLockLoss p) s) := by
  change EndsSteady s (execLaneLockLoss p s)
  unfold execLaneLockLoss
  extract_lets v
  exact .next_ite (.ite (setPort_steady p _ s) (dropPort_steady s p))

theorem relockFailed_steady (p : Nat) : Steady s (relockFailed p s) := by
  unfold relockFailed
  exact (dropPort_steady s p).trans (updPort_steady p _ _)

theorem exec_relockTimeout_steady (p : Nat) : EndsSteady s (exec (.relockTimeout p) s) := by
  change EndsSteady s (execRelockTimeout p s)
  unfold execRelockTimeout
  extract_lets v
  exact .next_ite (Steady.trans (.ite (raiseFault_steady s _ _ _ _) (.refl s)) (relockFailed_steady _ p))

theorem exec_relockDone_steady (p : Nat) : EndsSteady s (exec (.relockDone p) s) := by
  change EndsSteady s (execRelockDone p s)
  unfold execRelockDone
  extract_lets v
  exact .next_ite (setPort_steady p _ s)

theorem exec_relockMeasureDone_steady (p ps : Nat) : EndsSteady s (exec (.relockMeasureDone p ps) s) := by
  change EndsSteady s (execRelockMeasureDone p ps s)
  unfold execRelockMeasureDone
  extract_lets v s1
  have h1 : Steady s s1 := updPort_steady p _ s
  exact .next_ite (.ite (h1.trans (raiseFault_steady _ _ _ _ _)) h1)

theorem peerGone_steady (p : Nat) : Steady s (peerGone p s) := .ite (portEvent_steady s _ _) (.refl s)

theorem hear_steady (p : Nat) (st : PortSt) : Steady s (hear p st s) := by
  unfold hear
  extract_lets v s1
  exact .ite (((peerGone_steady s p).trans (dropPort_steady _ p)).trans (updPort_steady p _ _)) (updPort_steady p _ s)

end

end Sys2Proof.Machine
end

section
/-! Proofs: what block moves, the far tier, releases, power and tests keep. -/

namespace Sys2Proof.Machine

section
variable (s : State)

/-! ## Host memory and the window -/

theorem hostWrite_steady (a : Nat) (bs : List Byte) : Steady s (hostWrite a bs s) :=
  ⟨rfl, rfl, fun h => Memory.wf_writeBytes bs _ a h, id⟩

theorem writeSlot_steady (n : Nat) (b : Blk) (prov : List Byte) : Steady s (writeSlot n b prov s) :=
  ((hostWrite_steady s _ _).trans (hostWrite_steady _ _ _)).trans (hostWrite_steady _ _ _)

/-! ## Block moves -/

theorem putBlk_steady (k b : Nat) (v : Blk) : Steady s (putBlk k b v s) := updMem_steady k s fun _ h => h

theorem putStored_steady (k b : Nat) (v : Blk) : Steady s (putStored k b v s) :=
  (putBlk_steady s k b v).trans (updMem_steady k _ fun _ h => h)

theorem countTransfer_steady (k : Nat) (r : MoveService) : Steady s (countTransfer k r s) := by
  unfold countTransfer
  extract_lets i s1 s2
  have h2 : Steady s s2 := (updTotals_steady s _).trans (updHealth_steady _ _ _)
  exact .ite h2 (h2.trans (judge_steady _ _ _))

theorem setMove_steady (u i : Nat) (q : MoveReq) : Steady s (updTile u (setMove i q) s) := updTile_steady u s fun _ h => h

theorem serveLoad_steady (u i : Nat) (q : MoveReq) (ok : Bool) (r : MoveService) : Steady s (serveLoad u i q ok r s) :=
  setMove_steady s u i _

theorem serveStore_steady (u i : Nat) (q : MoveReq) (ok : Bool) : Steady s (serveStore u i q ok s) := by
  unfold serveStore
  extract_lets k b n s1
  have h1 : Steady s s1 := setMove_steady s u i _
  cases q.blk with
  | none => exact h1
  | some v =>
    refine .ite ?_ (h1.trans (putStored_steady _ _ _ _))
    extract_lets s2
    have h2 : Steady s s2 := (h1.trans (putStored_steady _ k n v)).trans
      (updMem_steady k _ fun m h => ⟨canonical_store false b true m.mark h.1, h.2⟩)
    exact h2.trans (.same rfl)

theorem serveStage_steady (u i : Nat) (q : MoveReq) : Steady s (serveStage u i q s) := by
  unfold serveStage
  extract_lets s1
  have h1 : Steady s s1 := setMove_steady s u i _
  cases q.blk with
  | none => exact h1
  | some v => exact h1.trans (.same rfl)

theorem serveStack_steady (u i : Nat) (q : MoveReq) (r : MoveService) : Steady s (serveStack u i q r s) := by
  unfold serveStack
  extract_lets k ok s1 s2
  have h1 : Steady s s1 := countTransfer_steady s k r
  have h2 : Steady s s2 := h1.trans (.ite (serveLoad_steady _ _ _ _ _ _) (serveStore_steady _ _ _ _ _))
  exact .ite h2 (h2.trans (tileDetect_steady _ _ _ _ _))

theorem retireLoad_steady (u : Nat) (q : MoveReq) : Steady s (retireLoad u q s) := by
  unfold retireLoad
  split
  · refine .ite (updTile_steady u s fun t h => ?_) (tileDetect_steady s _ _ _ _)
    exact Tile.formOk_foldl (fun t j h => Tile.formOk_writeLine _ _ _ t h) _ t h
  · exact tileDetect_steady s _ _ _ _

theorem exec_blockMoveRetire_steady (u : Nat) : EndsSteady s (exec (.blockMoveRetire u) s) := by
  refine .next ?_
  split
  · rename_i i q _ _
    have h1 : Steady s (updTile u (fun t => { t with mover := t.mover.eraseIdx i }) s) := updTile_steady u s fun _ h => h
    dsimp only
    split
    · exact h1.trans (retireLoad_steady _ _ _)
    · exact .ite h1 (h1.trans (tileDetect_steady _ _ _ _ _))
    · exact h1
  · exact .refl s

theorem exec_stackLost_steady (k : Nat) : EndsSteady s (exec (.stackLost k) s) := by
  refine .next_ite (Steady.trans (updMem_steady k s fun m h => ?_) (raiseFault_steady _ _ _ _ _))
  exact h

/-! ## Releases -/

theorem countWindow_steady : Steady s (countWindow s) := .same rfl

theorem hostFault_steady (c : Nat) : Steady s (hostFault c s) := raiseFault_steady s _ _ _ _

theorem releaseBwr_steady (r : Reel) (b : StageBlk) : Steady s (releaseBwr r b s) :=
  (writeSlot_steady s _ _ _).trans (countWindow_steady _)

theorem keepTree_steady (b : StageBlk) : Steady s (keepTree b s) := .ite (.same rfl) (.same rfl)

theorem releaseLeaf_steady (b : StageBlk) : Steady s (releaseLeaf b s) := by
  unfold releaseLeaf
  extract_lets s1
  have h1 : Steady s s1 := (writeSlot_steady s _ _ _).trans (countWindow_steady _)
  exact .ite (h1.trans (keepTree_steady _ _)) h1

theorem releaseBlk_steady (r : Reel) (b : StageBlk) : Steady s (releaseBlk r b s) := by
  unfold releaseBlk
  refine .ite (hostFault_steady s _) ?_
  split
  · exact .same rfl
  · exact releaseLeaf_steady s b
  · exact releaseBwr_steady s r b

theorem releaseInOrder_steady (r : Reel) (l : List StageBlk) (s : State) : Steady s (releaseInOrder r l s) := by
  induction l generalizing s with
  | nil => exact .refl s
  | cons b l ih => exact .ite (.same rfl) ((releaseBlk_steady s r b).trans (ih _))

theorem releaseWaiting_steady (r : Reel) : Steady s (releaseWaiting r s) :=
  .trans (t := { s with window := _ }) (.same (by rfl)) (releaseInOrder_steady r _ _)

theorem releaseStep_steady (r : Reel) (n : Nat) : Steady s (releaseStep r n s) :=
  .trans (t := { s with window := _ }) (.same (by rfl)) (releaseWaiting_steady _ r)

/-! ## The far tier -/

theorem chainInput_steady (r : Reel) (f : BitVec 256) (b : Blk) : Steady s (chainInput r f b s) :=
  .ite (.refl s) (.trans (t := { s with det := _ }) (.same (by rfl)) (releaseWaiting_steady _ r))

theorem markFill_steady (f : BitVec 256) (w : Bool) : Steady s (markFill f w s) := .same rfl

theorem fillCache_steady (r : Reel) (f : BitVec 256) : Steady s (fillCache r f s) := by
  unfold fillCache
  refine .ite ((markFill_steady s _ _).trans (hostFault_steady _ _)) ?_
  split
  · exact ((putBlk_steady s _ _ _).trans (markFill_steady _ _ _)).trans (chainInput_steady _ _ _ _)
  · exact markFill_steady s _ _

theorem exec_farBlockArrival_steady (home : Nat) (host : HostSide) : EndsSteady s (exec (.farBlockArrival home host) s) := by
  change EndsSteady s (execFarBlockArrival home host s)
  unfold execFarBlockArrival
  extract_lets s1
  have h1 : Steady s s1 := hostActs_steady s host
  refine .next ?_
  split
  · exact .ite (h1.trans (.same rfl)) h1
  · exact h1

/-- A block move either completes or meets a block that no stack has. -/
theorem exec_blockMoveService_cases (u : Nat) (r : MoveService) :
    EndsSteady s (exec (.blockMoveService u r) s) ∨
      ∃ k b, exec (.blockMoveService u r) s = .fault (.absentBlock k b) ∧ 25165824 ≤ b := by
  change EndsSteady s (execBlockMoveService u r s) ∨ ∃ k b, execBlockMoveService u r s = .fault (.absentBlock k b) ∧ 25165824 ≤ b
  unfold execBlockMoveService
  split
  · split
    · split
      · exact .inl (.next (serveStack_steady s _ _ _ _))
      · rename_i hb
        exact .inr ⟨_, _, rfl, not_lt.mp hb⟩
    · exact .inl (.next (serveStage_steady s _ _ _))
  · exact .inl (.next (.refl s))

/-- A far-fill either completes or meets a block that no stack has. -/
theorem exec_farFill_cases (i : Nat) :
    EndsSteady s (exec (.farFill i) s) ∨ ∃ k b, exec (.farFill i) s = .fault (.absentBlock k b) ∧ 25165824 ≤ b := by
  change EndsSteady s (execFarFill i s) ∨ ∃ k b, execFarFill i s = .fault (.absentBlock k b) ∧ 25165824 ≤ b
  unfold execFarFill
  split
  · split
    · split
      · split
        · exact .inl (.next (fillCache_steady s _ _))
        · rename_i hb
          exact .inr ⟨_, _, rfl, not_lt.mp hb⟩
      · exact .inl (.next (.refl s))
    · exact .inl (.next (.refl s))
  · exact .inl (.next (.refl s))

/-! ## Power -/

theorem readStack_steady (t : Int) (k : Nat) : Steady s (readStack t k s) := by
  refine .ite (updMem_steady k s fun m h => ?_) (.refl s)
  split <;> exact h

theorem readSensors_steady (x : Sensors) : Steady s (readSensors x s) :=
  .trans (t := { s with tray := _ }) (.same (by rfl)) (.foldl (fun a (y : Int × Nat) => readStack_steady a y.1 y.2) _ _)

theorem exec_powerSample_steady (x : Sensors) : EndsSteady s (exec (.powerSample x) s) :=
  .next_ite ((readSensors_steady s x).trans (.same rfl))

theorem setSpacing_steady : Steady s (setSpacing s) := .same rfl

theorem noteCap_steady (b : Bool) : Steady s (noteCap b s) := by
  unfold noteCap
  exact .ite (.trans (t := { s with power := _ }) (.same (by rfl)) (post_steady _ _ _)) (.same rfl)

theorem noteHeat_steady : Steady s (noteHeat s) := by
  unfold noteHeat
  exact .ite (.trans (t := { s with power := _ }) (.same (by rfl)) (post_steady _ _ _)) (.same rfl)

theorem beginPeriod_steady (pm : PowerModel) : Steady s (beginPeriod pm s) := .same rfl

theorem controlPeriod_steady (r : Reel) (pm : PowerModel) : Steady s (controlPeriod r pm s) := by
  unfold controlPeriod
  extract_lets s1 w f cap therm up s2
  have h2 : Steady s s2 := ((beginPeriod_steady s pm).trans (noteCap_steady _ _)).trans (noteHeat_steady _)
  exact (h2.trans (.same rfl)).trans (setSpacing_steady _)

theorem exec_controlPeriod_steady (pm : PowerModel) : EndsSteady s (exec (.controlPeriod pm) s) := by
  refine .next ?_
  split
  · exact controlPeriod_steady s _ pm
  · exact .ite (beginPeriod_steady s pm) (.refl s)

theorem exec_ventDecision_steady : EndsSteady s (exec .ventDecision s) := by
  refine .next ?_
  split
  · exact .ite (.same rfl) (.refl s)
  · exact .refl s

theorem exec_ventApply_steady : EndsSteady s (exec .ventApply s) := by
  refine .next ?_
  split
  · exact .ite (.ite (.same rfl) (.same rfl)) (.refl s)
  · exact .refl s

theorem exec_classRailMove_steady (cls : Nat) : EndsSteady s (exec (.classRailMove cls) s) := by
  refine .next ?_
  split
  · exact .ite (.same rfl) (.refl s)
  · exact .refl s

theorem exec_ballastIssue_steady (u : Nat) (ka : BitVec 8) (token : Nat) : EndsSteady s (exec (.ballastIssue u ka token) s) :=
  .next_ite (.same rfl)

theorem exec_ballastResult_steady (u : Nat) (x : BallastEnd) : EndsSteady s (exec (.ballastResult u x) s) :=
  .next_ite (.trans (t := { s with power := _ }) (.same (by rfl)) (scoreRun_steady _ _ _ _ _))

/-! ## Tests -/

theorem halveScores_steady : Steady s (halveScores s) :=
  .trans (t := { s with sec := _ }) (.same (by rfl)) (.foldl (fun a i => settle_steady a i) _ _)

theorem exec_scoreHalving_steady : EndsSteady s (exec .scoreHalving s) := .next_ite (halveScores_steady s)

theorem exec_testOverdue_steady (u : Nat) : EndsSteady s (exec (.testOverdue u) s) :=
  .next_ite ((Steady.trans (t := { s with sec := _ }) (.same (by rfl)) (updHealth_steady _ u _)).trans (post_steady _ _ _))

theorem startTest_steady (u : Nat) (x : Bool) (ka : BitVec 8) (b : TestBy) : Steady s (startTest u x ka b s) := .same rfl

theorem exec_autoStressTest_steady : EndsSteady s (exec .autoStressTest s) := by
  refine .next ?_
  split
  · exact startTest_steady s _ _ _ _
  · exact .refl s

theorem exec_windowTest_steady (u : Nat) : EndsSteady s (exec (.windowTest u) s) := by
  refine .next ?_
  split
  · exact .ite (startTest_steady s _ _ _ _) (.refl s)
  · exact .refl s

theorem exec_stressHeatTimeout_steady : EndsSteady s (exec .stressHeatTimeout s) := by
  refine .next ?_
  split
  · exact .ite (.same rfl) (.refl s)
  · exact .refl s

theorem testRecord_steady (t : TestRun) (n : Nat) : Steady s (testRecord t n s) := by
  unfold testRecord
  split
  · exact complete_steady s _
  · exact .refl s

theorem endKernel_steady (t : TestRun) (r : KaOutcome) : Steady s (endKernel t r s) :=
  Steady.trans (t := { s with sec := _ }) (.same (by rfl)) (testRecord_steady _ t _)

theorem stressKernel_steady (t : TestRun) (ka prof : Nat) (r : KaOutcome) : Steady s (stressKernel t ka prof r s) :=
  .ite (.same rfl) (.trans (t := { s with sec := _ }) (.same (by rfl)) (scoreRun_steady _ _ _ _ _))

theorem exec_knownAnswerDone_steady (u : Nat) (ka : BitVec 8) (prof : Nat) (r : KaOutcome) :
    EndsSteady s (exec (.knownAnswerDone u ka prof r) s) := by
  refine .next ?_
  split
  · refine .ite (.ite (stressKernel_steady s _ _ _ _) ?_) (.refl s)
    exact (scoreRun_steady s _ _ _ _).trans (endKernel_steady _ _ _)
  · exact .refl s

theorem scoreHeld_steady (t : TestRun) : Steady s (scoreHeld t s) := .foldl (fun a _ => scoreRun_steady a _ _ _ _) _ s

theorem setLastTest_steady (t : TestRun) : Steady s (setLastTest t s) := .ite (updHealth_steady s _ _) (.refl s)

theorem endStress_steady (t : TestRun) : Steady s (endStress t s) := by
  unfold endStress
  extract_lets sec s1 prof s2 info
  have h1 : Steady s s1 := .trans (t := { s with sec := _ }) (.same (by rfl)) (setLastTest_steady _ t)
  have h2 : Steady s s2 := h1.trans (appendHistory_steady _ _)
  exact (h2.trans (post_steady _ _ _)).trans (testRecord_steady _ _ _)

theorem exec_stressTestDone_steady : EndsSteady s (exec .stressTestDone s) := by
  refine .next ?_
  split
  · rename_i t _
    have h1 := scoreHeld_steady s t
    exact .ite (.refl s) (.ite (h1.trans (.same rfl)) (h1.trans (endStress_steady _ _)))
  · exact .refl s

end

end Sys2Proof.Machine
end

section
/-! Proofs: what descriptors, the window, the store, the management path, register writes and the end of steps keep. -/

namespace Sys2Proof.Machine

section
variable (s : State)

/-! ## Descriptors -/

theorem finish_steady (d : BitVec 512) (sq st : Nat) (info : List Byte) : Steady s (finish d sq st info s) := complete_steady s _

theorem checked_steady (d : BitVec 512) (sq : Nat) (cs : List (Bool × Nat)) {f : State → State} (hf : Steady s (f s)) :
    Steady s (checked d sq cs f s) := by
  unfold checked
  split
  · exact finish_steady s _ _ _ _
  · exact hf

variable {s} in
theorem EndsSteady.onDesc {op : Nat} {d : BitVec 512} {f : Nat → State → State} (hf : ∀ sq a, Steady a (f sq a)) :
    EndsSteady s (.next (onDesc op d f s)) :=
  .next_ite (.trans (t := takeDesc s) (.same (by rfl)) (hf _ _))

theorem exec_test_steady (d : BitVec 512) : EndsSteady s (exec (.test d) s) :=
  .onDesc fun sq a => checked_steady a d sq _ (startTest_steady a _ _ _ _)

/-! ## LOAD and PATCH -/

theorem refuseLoad_steady (d : BitVec 512) (sq : Nat) (b : Bad) : Steady s (refuseLoad d sq b s) :=
  .trans (t := { s with ldr := _ }) (.same (by rfl)) (finish_steady _ _ _ _ _)

theorem installReel_steady (r : Reel) : Steady s (installReel r s) := by
  unfold installReel
  extract_lets r1 leaves
  exact (noTiles_steady s).trans (.trans (t := { s with reel := some r1, tiles := [], far := _, det := _, ldr := _, power := _, sec := _ })
    (.same (by rfl)) (gateQuads_steady _))

theorem writePlaces_steady (ps : List Placed) : Steady s (writePlaces ps s) :=
  (mapMems_steady s fun _ _ => ⟨rfl, rfl⟩).trans (.foldl (fun a _ => putBlk_steady a _ _ _) ps _)

theorem loadWrites_steady (d : BitVec 512) (sq : Nat) (r : Reel) : Steady s (loadWrites d sq r s) := by
  unfold loadWrites
  extract_lets s1
  have h1 : Steady s s1 := writePlaces_steady s _
  split
  · exact h1.trans (refuseLoad_steady _ _ _ _)
  · exact (h1.trans (installReel_steady _ _)).trans (finish_steady _ _ _ _ _)

theorem endAutoTest_steady : Steady s (endAutoTest s) := by
  unfold endAutoTest
  split
  · exact .ite (.same rfl) (.refl s)
  · exact .refl s

theorem loadReel_steady (d : BitVec 512) (sq : Nat) : Steady s (loadReel d sq s) := by
  unfold loadReel
  extract_lets bs r
  split
  · exact refuseLoad_steady s _ _ _
  · exact loadWrites_steady s _ _ _

theorem exec_load_steady (d : BitVec 512) : EndsSteady s (exec (.load d) s) := by
  refine .onDesc fun sq a => ?_
  have h1 := endAutoTest_steady a
  extract_lets s1
  split
  · exact h1.trans (.trans (t := { s1 with ldr := _ }) (.same (by rfl)) (finish_steady _ _ _ _ _))
  · exact h1.trans (loadReel_steady _ _ _)

theorem patchLoaded_steady (d : BitVec 512) (sq : Nat) : Steady s (patchLoaded d sq s) := by
  unfold patchLoaded
  split
  · exact finish_steady s _ _ _ _
  · exact checked_steady s d sq _ (.trans (t := { s with reel := _ }) (.same (by rfl)) (finish_steady _ _ _ _ _))

theorem exec_patch_steady (d : BitVec 512) : EndsSteady s (exec (.patch d) s) :=
  .onDesc fun sq a => checked_steady a d sq _ (patchLoaded_steady a d sq)

/-! ## CLEAR -/

theorem wakeStack_steady (k : Nat) : Steady s (wakeStack k s) := by
  refine .ite (updMem_steady k s fun m h => ?_) (.refl s)
  split <;> exact h

theorem clearStop_steady : Steady s (clearStop s) := by
  unfold clearStop
  extract_lets causes tray window power pacer boot s1
  have h1 : Steady s s1 := .trans (t := { s with stop := _, tray := _, window := _, power := _, pacer := _, boot := _ }) (.same (by rfl))
    (.foldl (fun a k => wakeStack_steady a k) _ _)
  exact ((h1.trans (dropPorts_steady _)).trans (post_steady _ _ _)).trans (appendLog_steady _ _ _ _)

theorem exec_clear_steady (d : BitVec 512) : EndsSteady s (exec (.clear d) s) :=
  .onDesc fun sq a => checked_steady a d sq _
    (.ite ((clearStop_steady a).trans (finish_steady _ _ _ _ _)) (finish_steady a _ _ _ _))

/-! ## The window -/

theorem abandon_steady (start index step cause : Nat) : Steady s (abandon start index step cause s) :=
  .trans (t := { s with job := _ }) (.same (by rfl)) (post_steady _ _ _)

theorem dropGacc_steady (i : Nat) : Steady s (dropGacc i s) := .same rfl

theorem gaccAdd_steady (i : Nat) (bad : Bool) (b : StageBlk) : Steady s (gaccAdd i bad b s) := by
  unfold gaccAdd
  extract_lets n t s1 x
  have h1 : Steady s s1 := dropGacc_steady s i
  refine .ite (h1.trans (abandon_steady _ _ _ _ _))
    (.ite ((h1.trans (updTotals_steady _ _)).trans (abandon_steady _ _ _ _ _)) ?_)
  exact ((((h1.trans (hostWrite_steady _ _ _)).trans (hostWrite_steady _ _ _)).trans (hostWrite_steady _ _ _)).trans
    (hostWrite_steady _ _ _)).trans (countWindow_steady _)

theorem exec_gaccLockAttempt_steady (i : Nat) (bad : Bool) (host : HostSide) :
    EndsSteady s (exec (.gaccLockAttempt i bad host) s) := by
  change EndsSteady s (execGaccLockAttempt i bad host s)
  unfold execGaccLockAttempt
  extract_lets s1
  have h1 : Steady s s1 := hostActs_steady s host
  refine .next ?_
  split
  · exact .ite (h1.trans (gaccAdd_steady _ _ _ _)) h1
  · exact h1

theorem exec_gaccLockTimeout_steady (i : Nat) : EndsSteady s (exec (.gaccLockTimeout i) s) := by
  refine .next ?_
  split
  · exact (dropGacc_steady s i).trans (abandon_steady _ _ _ _ _)
  · exact .refl s

theorem dropTree_steady (i : Nat) : Steady s (dropTree i s) := .same rfl

theorem finishTree_steady (i : Nat) (t : Tree) : Steady s (finishTree i t s) :=
  (writeSlot_steady s _ _ _).trans (dropTree_steady _ i)

theorem exec_gtreePoll_steady (i : Nat) (host : HostSide) : EndsSteady s (exec (.gtreePoll i host) s) := by
  change EndsSteady s (execGtreePoll i host s)
  unfold execGtreePoll
  extract_lets s1
  have h1 : Steady s s1 := hostActs_steady s host
  refine .next ?_
  split
  · exact .ite (h1.trans (finishTree_steady _ _ _)) h1
  · exact h1

theorem exec_gtreeTimeout_steady (i : Nat) : EndsSteady s (exec (.gtreeTimeout i) s) := by
  change EndsSteady s (execGtreeTimeout i s)
  unfold execGtreeTimeout
  extract_lets n
  refine .next ?_
  split
  · exact (dropTree_steady s i).trans (abandon_steady _ _ _ _ _)
  · exact .trans (t := { s with window := _ }) (.same (by rfl)) (abandon_steady _ _ _ _ _)
  · exact .refl s

theorem settlePanel_steady (p : Nat) : Steady s (settlePanel p s) := .ite (setPanel_steady s p _) (.refl s)

theorem exec_panelMoveDone_steady (i us : Nat) : EndsSteady s (exec (.panelMoveDone i us) s) := by
  refine .next ?_
  split
  · rename_i t _
    have h1 : Steady s ((panelRange t.first t.count).foldl (fun a p => settlePanel p a) s) :=
      .foldl (fun a p => settlePanel_steady a p) _ s
    exact .ite h1 (h1.trans (.trans (t := { (panelRange t.first t.count).foldl (fun a p => settlePanel p a) s with window := _ })
      (.same (by rfl)) (complete_steady _ _)))
  · exact .refl s

theorem exec_bar2Access_steady (a : Bar2Access) : EndsSteady s (exec (.bar2Access a) s) := by
  refine .next_ite ?_
  split
  · exact .same rfl
  · exact .ite (hostWrote_steady s _) ((hostWrote_steady s _).trans (.same rfl))

/-! ## The rings -/

theorem dmaFailed_steady (a : Nat) : Steady s (dmaFailed a s) :=
  (Steady.trans (t := { s with rings := _ }) (.same (by rfl)) (syncDoorbell_steady _)).trans (post_steady _ _ _)

theorem ringOverrun_steady (tail : BitVec 32) : Steady s (ringOverrun tail s) := by
  unfold ringOverrun
  extract_lets rings s1
  have h1 : Steady s s1 := .trans (t := { s with rings := _ }) (.same (by rfl)) (post_steady _ _ _)
  exact h1.trans (.same rfl)

theorem fetchUpTo_steady (bad : Bool) (tail : BitVec 32) : Steady s (fetchUpTo bad tail s) :=
  .ite (.refl s) (.ite (dmaFailed_steady s _) (.trans (t := { s with rings := _ }) (.same (by rfl)) (syncDoorbell_steady _)))

theorem pollRead_steady (bad : Bool) : Steady s (pollRead bad s) := by
  unfold pollRead
  extract_lets db tail r s1 ahead
  have h1 : Steady s s1 := .same rfl
  have h2 := h1.trans (syncDoorbell_steady s1)
  exact .ite (h2.trans (ringOverrun_steady _ _)) ((h2.trans (flushDue_steady _)).trans (fetchUpTo_steady _ _ _))

theorem pollBy_steady (x : PollRead) : Steady s (pollBy x s) := by
  cases x with
  | whole => exact pollRead_steady s false
  | badBlock => exact .trans (t := { s with rings := _ }) (.same (by rfl)) (dmaFailed_steady _ _)
  | badRing => exact pollRead_steady s true

theorem exec_doorbellPoll_steady (host : HostSide) (x : PollRead) : EndsSteady s (exec (.doorbellPoll host x) s) :=
  .next (.ite ((Steady.trans (t := forgetMessages s) (.same (by rfl)) (hostActs_steady _ host)).trans (pollBy_steady _ x))
    (hostActs_steady s host))

theorem exec_nopDescriptor_steady (d : BitVec 512) : EndsSteady s (exec (.nopDescriptor d) s) :=
  .onDesc fun sq a => checked_steady a d sq _ (finish_steady a _ _ _ _)

theorem exec_reservedOpcode_steady (d : BitVec 512) : EndsSteady s (exec (.reservedOpcode d) s) := by
  change EndsSteady s (execReservedOpcode d s)
  unfold execReservedOpcode
  split
  · exact .onDesc fun sq a => finish_steady a _ _ _ _
  · exact .next (.refl s)

theorem exec_unload_steady (d : BitVec 512) : EndsSteady s (exec (.unload d) s) :=
  .onDesc fun sq a => checked_steady a d sq _ ((unloadReel_steady a).trans (finish_steady _ _ _ _ _))

theorem exec_launchAt_steady (d : BitVec 512) : EndsSteady s (exec (.launchAt d) s) := by
  refine .onDesc fun sq a => ?_
  split
  · exact complete_steady a _
  · exact .trans (t := arm d sq a) (.same (by rfl)) (complete_steady _ _)

theorem cancelJob_steady : Steady s (cancelJob s).1 := by
  unfold cancelJob
  split
  · exact disarm_steady s
  · exact finishJob_steady s _ _
  · exact .refl s

theorem exec_cancel_steady (d : BitVec 512) : EndsSteady s (exec (.cancel d) s) :=
  .onDesc fun sq a => checked_steady a d sq _ ((cancelJob_steady a).trans (finish_steady _ _ _ _ _))

theorem eachPanel_steady (d : BitVec 512) (f : Nat → Panel → Panel) : Steady s (eachPanel d f s) :=
  .foldl (fun a p => setPanel_steady a p _) _ s

theorem exec_windowMap_steady (d : BitVec 512) : EndsSteady s (exec (.windowMap d) s) :=
  .onDesc fun sq a => checked_steady a d sq _ ((eachPanel_steady a _ _).trans (finish_steady _ _ _ _ _))

theorem exec_panelGive_steady (d : BitVec 512) : EndsSteady s (exec (.panelGive d) s) :=
  .onDesc fun sq a => checked_steady a d sq _ ((eachPanel_steady a _ _).trans (finish_steady _ _ _ _ _))

theorem takePanels_steady (d : BitVec 512) (sq : Nat) : Steady s (takePanels d sq s) := by
  unfold takePanels
  extract_lets s0 window s1 t
  have h1 : Steady s s1 := (eachPanel_steady s d _).trans (.same rfl)
  exact .ite (h1.trans (.same rfl)) (h1.trans (complete_steady _ _))

theorem exec_panelTake_steady (d : BitVec 512) : EndsSteady s (exec (.panelTake d) s) :=
  .onDesc fun sq a => checked_steady a d sq _ (takePanels_steady a d sq)

/-! ## The settings store and the management path -/

theorem answer_steady (cmd : Nat) (ins : BitVec 8) (code : Nat) (data : List Byte) : Steady s (answer cmd ins code data s) := .same rfl

theorem storeAnswer_steady (q : StoreReq) (n : Nat) : Steady s (storeAnswer q n s) := by
  cases q with
  | ring tag irq sq => exact .trans (t := { s with store := _ }) (.same (by rfl)) (complete_steady _ _)
  | mgmt ins => exact .same rfl
  | lost => exact .same rfl

theorem startStore_steady (q : StoreReq) : Steady s (startStore q s) := by
  unfold startStore
  extract_lets gen s1 run
  have h1 : Steady s s1 := appendLog_steady s _ _ _
  clear_value run s1
  exact h1.trans (.same rfl)

theorem refuseStore_steady (q : StoreReq) : Steady s (refuseStore q s) :=
  .trans (t := { s with store := _ }) (.same (by rfl)) (storeAnswer_steady _ q 3)

theorem requestStore_steady (q : StoreReq) : Steady s (requestStore q s) :=
  .ite (refuseStore_steady s q) (.ite (.same rfl) (startStore_steady s q))

theorem exec_storeSettings_steady (d : BitVec 512) : EndsSteady s (exec (.storeSettings d) s) :=
  .onDesc fun sq a => checked_steady a d sq _ (requestStore_steady a _)

theorem exec_storeStart_steady : EndsSteady s (exec .storeStart s) := by
  refine .next ?_
  split
  · rename_i q l _ _
    have h1 : Steady s { s with store := { s.store with waiting := l } } := .same rfl
    exact .ite (h1.trans (refuseStore_steady _ q)) (h1.trans (startStore_steady _ q))
  · exact .refl s

theorem exec_storeComplete_steady (good : Bool) : EndsSteady s (exec (.storeComplete good) s) := by
  refine .next ?_
  split
  · exact .trans (t := { s with store := _ }) (.same (by rfl)) (storeAnswer_steady _ _ _)
  · exact .refl s

theorem respond_steady (bytes : List Byte) : Steady s (respond bytes s) := .same rfl

variable {s} in
theorem EndsSteady.onControl {f : State → State} (hf : Steady s (f s)) : EndsSteady s (.next (onControl f s)) := .next_ite hf

variable {s} in
theorem EndsSteady.onVendor {f : State → State} (hf : Steady s (f s)) : EndsSteady s (.next (onVendor f s)) := .next_ite hf

variable {s} in
theorem EndsSteady.query {cmd : Nat} {ins : BitVec 8} {ok : Bool} {data : State → List Byte} :
    EndsSteady s (.next (query cmd ins ok data s)) :=
  .onVendor (.ite (answer_steady s _ _ _ _) (answer_steady s _ _ _ _))

variable {s} in
theorem EndsSteady.onUnit {cmd : Nat} {ins : BitVec 8} {unit : UnitField} {f : Nat → State → State}
    (hf : ∀ i, Steady s (f i s)) : EndsSteady s (.next (onUnit cmd ins unit f s)) := by
  refine .onVendor ?_
  split
  · exact answer_steady s _ _ _ _
  · exact .ite (hf _) (answer_steady s _ _ _ _)

theorem logUnit_steady (i n : Nat) : Steady s (logUnit i n s) := appendLog_steady s _ _ _

theorem fenceUnit_steady (i : Nat) (off : Bool) (reason : BitVec 8) : Steady s (fenceUnit i off reason s) := by
  unfold fenceUnit
  extract_lets e changed s1 s2 s3 s4
  have h1 : Steady s s1 := setUnit_steady s i e
  have h2 : Steady s s2 := .ite (h1.trans (leaveService_steady _ _)) h1
  have h3 : Steady s s3 := h2.trans (updSet_steady _ _)
  have h4 : Steady s s4 := .ite (h3.trans (logUnit_steady _ _ _)) h3
  exact h4.trans (post_steady _ _ _)

theorem faultNow_steady (i : Nat) (used : Bool) : Steady s (faultNow i used s) :=
  .ite (.refl s) (.ite (raiseFault_steady s _ _ _ _) (.ite (.same rfl) (.refl s)))

theorem fenceCommand_steady (cmd : Nat) (ins : BitVec 8) (off now : Bool) (reason : BitVec 8) (i : Nat) :
    Steady s (fenceCommand cmd ins off now reason i s) := by
  unfold fenceCommand
  refine .ite (answer_steady s _ _ _ _) ?_
  extract_lets used s1 s2
  have h1 : Steady s s1 := fenceUnit_steady s i off reason
  have h2 : Steady s (if now then faultNow i used s1 else s1) := .ite (h1.trans (faultNow_steady _ _ _)) h1
  have h3 : Steady s s2 := h2.trans (.ite (.refl _) (jobBoundary_steady _))
  exact h3.trans (answer_steady _ _ _ _ _)

theorem Stack.formOk_restored (m : Stack) (h : m.formOk) : (restoreStack s m).formOk := by
  unfold restoreStack
  extract_lets st
  split
  · exact h
  · split
    · exact ⟨rfl, rfl⟩
    · split <;> exact h

theorem wakeBuffers_steady (g : Nat) : Steady s (wakeBuffers g s) :=
  .ite (.foldl (fun a _ => .ite (.same (by rfl)) (.refl a)) _ s) (.refl s)

theorem enterService_steady (i : Nat) : Steady s (enterService i s) :=
  .ite (wakeBuffers_steady s _) (.ite ((dropPort_steady s _).trans (gateQuads_steady _))
    (updMem_steady _ s fun m h => Stack.formOk_restored s m h))

theorem restoreUnit_steady (i : Nat) : Steady s (restoreUnit i s) := by
  unfold restoreUnit
  extract_lets due held s1 s2 s3 s4
  have h1 : Steady s s1 := setUnit_steady s i _
  have h2 : Steady s s2 := .ite h1 (h1.trans (enterService_steady _ _))
  have h3 : Steady s s3 := h2.trans (updHealth_steady _ _ _)
  have h4 : Steady s s4 := (h3.trans (updSet_steady _ _)).trans (logUnit_steady _ _ _)
  exact h4.trans (post_steady _ _ _)

theorem exec_restore_steady (ins : BitVec 8) (unit : UnitField) : EndsSteady s (exec (.restore ins unit) s) :=
  .onUnit fun i => .ite ((restoreUnit_steady s i).trans (answer_steady _ _ _ _ _)) (answer_steady s _ _ _ _)

theorem clampCap_steady (lo hi : Nat) : Steady s (clampCap lo hi s) :=
  .ite (.refl s) (.trans (t := { s with power := _ }) (.same (by rfl)) (post_steady _ _ _))

theorem setLimits_steady (lo hi : Nat) : Steady s (setLimits lo hi s) := by
  unfold setLimits
  exact (((updSet_steady s _).trans (appendLog_steady _ _ _ _)).trans (post_steady _ _ _)).trans (clampCap_steady _ _ _)

theorem exec_setCapLimits_steady (ins : BitVec 8) (lo hi : BitVec 16) : EndsSteady s (exec (.setCapLimits ins lo hi) s) :=
  .onVendor (.ite (answer_steady s _ _ _ _) ((setLimits_steady s _ _).trans (answer_steady _ _ _ _ _)))

theorem exec_readFsr_steady (ins : BitVec 8) (seq : Word32) (off : BitVec 16) : EndsSteady s (exec (.readFsr ins seq off) s) := by
  refine .onVendor ?_
  split <;> exact answer_steady s _ _ _ _

theorem exec_debugRead_steady (ins kind : BitVec 8) (unit : UnitField) (idx : Word32) (chunk : BitVec 8) :
    EndsSteady s (exec (.debugRead ins kind unit idx chunk) s) := by
  refine .onVendor ?_
  split <;> exact answer_steady s _ _ _ _

theorem exec_getAlerts_steady (ins count : BitVec 8) : EndsSteady s (exec (.getAlerts ins count) s) :=
  .onVendor (.ite (.same rfl) (answer_steady s _ _ _ _))

/-! ## Register writes -/

theorem writeBridle_steady (o : Nat) (v : Word32) : Steady s (writeBridle o v s) :=
  .ite (bridleGo_steady s v) (.ite (.same rfl) (.same rfl))

theorem writeTout_steady (n o : Nat) (v : Word32) : Steady s (writeTout n o v s) :=
  .ite (toutGo_steady s n v) (.ite (updTb_steady s _) (updTb_steady s _))

theorem writeCap_steady (c o : Nat) (v : Word32) : Steady s (writeCap c o v s) :=
  .ite (updTb_steady s _) (.ite (capPopGo_steady s c v) (.ite (updTb_steady s _) (.refl s)))

theorem writeTb_steady (o : Nat) (v : Word32) : Steady s (writeTb o v s) :=
  .ite (updTb_steady s _) (.ite (tbModeGo_steady s v) (.ite (tbStepGo_steady s v) (.ite (tbRateGo_steady s v)
    (.ite (tbSlewGo_steady s v) (.ite (tbCivilGo_steady s v) (.ite (tbCivilSetGo_steady s v)
    (.ite (writeTout_steady s _ _ v) (.ite (writeCap_steady s _ _ v) (updTb_steady s _)))))))))

theorem writeSec_steady (o : Nat) (v : Word32) : Steady s (writeSec o v s) :=
  .ite (secGo_steady s v) (.ite (.same rfl) (.ite (.same rfl) (.ite (.same rfl) (.same rfl))))

theorem writePwr_steady (o : Nat) (v : Word32) : Steady s (writePwr o v s) :=
  .ite (pwrGo_steady s v) (.ite (.same rfl) (.same rfl))

theorem writeHost_steady (o : Nat) (v : Word32) : Steady s (writeHost o v s) :=
  .ite (hostGo_steady s v) (.ite (.same rfl) (.ite (.same rfl) (.ite (.same rfl) (.same rfl))))

theorem writeWord_steady (off : Nat) (v : Word32) : Steady s (writeWord off v s) :=
  .ite (.refl s) (.ite (.same rfl) (.ite (retrainGo_steady s _ v) (.ite (retrainGo_steady s _ v) (.ite (writeBridle_steady s _ v)
    (.ite (writeTb_steady s _ v) (.ite (writeSec_steady s _ v) (.ite (writePwr_steady s _ v) (.ite (.same rfl) (.ite (.same rfl)
    (.ite (writeHost_steady s _ v) (.refl s)))))))))))

theorem exec_registerWrite_steady (off width : Nat) (v : Word64) : EndsSteady s (exec (.registerWrite off width v) s) :=
  .next (.ite (writeWord_steady s _ _) (.ite ((writeWord_steady s _ _).trans (writeWord_steady _ _ _)) (.refl s)))

/-! ## Commits, rewinds and the end of a job -/

theorem sealStep_steady : Steady s (sealStep s) := by
  unfold sealStep
  extract_lets x s1 s2 job
  have h1 : Steady s s1 := .foldl (fun a (p : Nat × Nat) => updTile_steady p.1 a (Tile.formOk_flipLine p.2)) _ s
  have h2 : Steady s s2 := h1.trans (.foldl (fun a (p : Nat × Nat) => flipPair_steady p.1 p.2 a) _ _)
  exact (h2.trans (mapMems_steady _ Stack.formOk_unmarked)).trans (.same rfl)

theorem exec_stepSeal_steady : EndsSteady s (exec .stepSeal s) :=
  .next_ite (.ite (sealStep_steady s) (.foldl (fun a (x : Nat × Tile) => tileFault_steady a _ x.1 _ _) _ s))

theorem Tile.formOk_finalLines (r : Reel) (x : Sealed) (t : Tile) (h : t.formOk) :
    ({ t with lines := mapVals LineSt.zero (finalLine r x) t.lines } : Tile).formOk := canonical_mapVals _ _ _ h

theorem finalValues_steady (r : Reel) (x : Sealed) : Steady s (finalValues r x s) :=
  (mapTiles_steady s (Tile.formOk_finalLines r x)).trans (mapMems_steady _ fun _ h => h)

theorem finalise_steady (r : Reel) (x : Sealed) : Steady s (finalise r x s) := by
  unfold finalise
  exact (Steady.trans (t := dropStale { s with job := _, work := _ }) (.same (by rfl)) (finalValues_steady _ r x)).trans
    (releaseStep_steady _ r _)

theorem exec_stepFinal_steady : EndsSteady s (exec .stepFinal s) := by
  refine .next ?_
  split
  · exact .ite (finalise_steady s _ _) (.refl s)
  · exact .refl s

theorem clearAttempt_steady (n : Notice) : Steady s (clearAttempt n s) :=
  (((mapTiles_steady s Tile.formOk_rewound).trans (mapMems_steady _ Stack.formOk_unmarked)).trans (mapPorts_steady portRewound _)).trans
    (.same rfl)

theorem rewindTo_steady (r : Reel) (n : Notice) : Steady s (rewindTo r n s) := by
  unfold rewindTo
  have h1 : Steady s (unsealFor n s) := .ite (unsealStep_steady s) (.refl s)
  exact (((h1.trans (clearAttempt_steady _ n)).trans (beginStep_steady _ r _ _)).trans (closeWindow_steady _)).trans
    (capSpacing_steady _)

theorem exec_rewind_steady : EndsSteady s (exec .rewind s) := by
  refine .next ?_
  split
  · exact .ite (rewindTo_steady s _ _) (.refl s)
  · exact .refl s

theorem exec_jobFaultApply_steady : EndsSteady s (exec .jobFaultApply s) := by
  refine .next ?_
  split
  · exact .ite (.trans (t := { s with job := _ }) (.same (by rfl)) (endByFault_steady _ _)) (.refl s)
  · exact .refl s

theorem exec_jobComplete_steady : EndsSteady s (exec .jobComplete s) := by
  refine .next ?_
  split
  · exact .ite (finishJob_steady s _ _) (.refl s)
  · exact .refl s

/-! ## The TAP -/

theorem tapSet_steady (ir : BitVec 8) (tdo : List Bool) (drive : LandDrive) : Steady s (tapSet ir tdo drive s) := .same rfl

end

end Sys2Proof.Machine
end

section
/-! Proofs: what the commands of the supply and the references keep. -/

namespace Sys2Proof.Machine

section
variable (s : State)

theorem exec_supplyStop_steady (mv : Nat) : EndsSteady s (exec (.supplyStop mv) s) :=
  .next_ite (.trans (t := { s with tray := _ }) (.same (by rfl)) (stopPackage_steady _ .supply))

theorem exec_powerLoss_steady (mv : Nat) : EndsSteady s (exec (.powerLoss mv) s) :=
  .next_ite (.trans (t := { s with store := _ }) (.same (by rfl)) (unpowered_steady _ mv))

theorem exec_regulatorFault_steady (r : Nat) : EndsSteady s (exec (.regulatorFault r) s) :=
  .next_ite ((writeFsr_steady s _ _ _ _ _).trans (stopPackage_steady _ .supply))

theorem exec_coolStop_steady : EndsSteady s (exec .coolStop s) :=
  .next_ite (.trans (t := { s with boot := _ }) (.same (by rfl)) (stopPackage_steady _ .cool))

theorem exec_thermStop_steady (t : Int) : EndsSteady s (exec (.thermStop t) s) :=
  .next_ite (.trans (t := { s with tray := _ }) (.same (by rfl)) (stopPackage_steady _ .therm))

theorem exec_clockStop_steady : EndsSteady s (exec .clockStop s) :=
  .next (.ite (.trans (t := { s with tray := _ }) (.same (by rfl)) (stopPackage_steady _ .clock)) (.same rfl))

theorem losePort_steady (p : Nat) : Steady s (losePort p s) := by
  unfold losePort
  extract_lets up s1
  have h1 : Steady s s1 := .ite (raiseFault_steady s _ _ _ _) (.refl s)
  exact h1.trans (dropPort_steady _ p)

theorem exec_lrefLineLoss_steady (n : Nat) : EndsSteady s (exec (.lrefLineLoss n) s) := by
  change EndsSteady s (execLrefLineLoss n s)
  unfold execLrefLineLoss
  extract_lets tray s1
  have h1 : Steady s s1 := .ite (.same rfl) (.ite (.same rfl) (.same rfl))
  exact .next (.ite (h1.trans (.foldl (fun a i => losePort_steady a _) _ _)) h1)

theorem exec_lrefReturn_steady (n : Nat) : EndsSteady s (exec (.lrefReturn n) s) := by
  change EndsSteady s (execLrefReturn n s)
  unfold execLrefReturn
  refine .next (.ite (.same rfl) ?_)
  extract_lets tray s1
  have h1 : Steady s s1 := .ite (.same rfl) (.ite (.same rfl) (.same rfl))
  exact .ite (h1.trans (.foldl (fun a i => dropPort_steady a _) _ _)) h1

theorem exec_timeCycle_steady : EndsSteady s (exec .timeCycle s) := .next_ite (timeCycle_steady s)

theorem exec_tbWrap_steady : EndsSteady s (exec .tbWrap s) := .next_ite (timeCycle_steady s)

theorem exec_toutLeadingEdge_steady (n : Nat) : EndsSteady s (exec (.toutLeadingEdge n) s) := .next_ite (updTb_steady s _)

theorem exec_toutTrailingEdge_steady (n : Nat) : EndsSteady s (exec (.toutTrailingEdge n) s) := .next_ite (updTb_steady s _)

theorem exec_engine_steady (op u : Nat) (f : Tile → Rec128 → Result) : EndsSteady s (.next (issue op (engineRule f) u s)) :=
  .next (issue_steady op (engineRule_steady f) u)

theorem exec_fenced_steady (cmd : Nat) (ins : BitVec 8) (unit : UnitField) (off now : Bool) (reason : BitVec 8) :
    EndsSteady s (.next (onUnit cmd ins unit (fenceCommand cmd ins off now reason) s)) :=
  .onUnit fun i => fenceCommand_steady s _ _ _ _ _ i

end

/-! ## Every command -/

/-- Commands that complete whatever the state, and keep what every operation keeps; all others are a cold start, a block move at its
service and a far-fill. -/
def Plain : Instr → Prop
  | .vin48Rise .. => False
  | .blockMoveService .. => False
  | .farFill .. => False
  | _ => True

theorem exec_steady (c : Instr) (hc : Plain c) (s : State) : EndsSteady s (exec c s) := by
  cases c with
  | vin48Rise mv straps bankA bankB => exact hc.elim
  | blockMoveService u r => exact hc.elim
  | farFill k => exact hc.elim
  | serviceBootEnd => exact exec_serviceBootEnd_steady s
  | perstNRise => exact exec_perstNRise_steady s
  | perstNFall => exact exec_perstNFall_steady s
  | railsEnd link => exact .next_ite (.same rfl)
  | memoryInitEnd => exact exec_memoryInitEnd_steady s
  | selfTestEnd fails => exact exec_selfTestEnd_steady s fails
  | stageOverrun => exact exec_stageOverrun_steady s
  | hotReset => exact .next_ite (hotResetAll_steady s)
  | supplyStop mv => exact exec_supplyStop_steady s mv
  | powerLoss mv => exact exec_powerLoss_steady s mv
  | regulatorFault r => exact exec_regulatorFault_steady s r
  | coolStop => exact exec_coolStop_steady s
  | thermStop t => exact exec_thermStop_steady s t
  | clockStop => exact exec_clockStop_steady s
  | lrefLineLoss n => exact exec_lrefLineLoss_steady s n
  | ref10mLoss => exact exec_ref10mLoss_steady s
  | ref10mReturn => exact exec_ref10mReturn_steady s
  | timeCycle => exact exec_timeCycle_steady s
  | tbWrap => exact exec_tbWrap_steady s
  | toutLeadingEdge n => exact exec_toutLeadingEdge_steady s n
  | toutTrailingEdge n => exact exec_toutTrailingEdge_steady s n
  | captureEdge c rising => exact exec_captureEdge_steady s c rising
  | tbModeCommit v => exact .next (tbModeGo_steady s v)
  | tbStepCommit v => exact .next (tbStepGo_steady s v)
  | tbRateCommit v => exact .next (tbRateGo_steady s v)
  | tbSlewCommit v => exact .next (tbSlewGo_steady s v)
  | tbCivilCommit v => exact .next (tbCivilGo_steady s v)
  | tbCivilSetCommit v => exact .next (tbCivilSetGo_steady s v)
  | toutCommit n v => exact .next (toutGo_steady s n v)
  | capPop c v => exact .next (capPopGo_steady s c v)
  | tbNowSecLoRead => exact .next (latchRead_steady s _)
  | bridleCommit v => exact .next (bridleGo_steady s v)
  | bridleCountLoRead => exact .next (latchRead_steady s _)
  | detInputsHashedRead => exact .next (latchRead_steady s _)
  | latchingLoRead r => exact .next (barRead_steady s r)
  | secCommit v => exact .next (secGo_steady s v)
  | pwrCommit v => exact .next (pwrGo_steady s v)
  | hostCommit v => exact .next (hostGo_steady s v)
  | fabRetrain hi v => exact .next (retrainGo_steady s hi v)
  | registerWrite off width v => exact exec_registerWrite_steady s off width v
  | bar2Access a => exact exec_bar2Access_steady s a
  | bar2Resize panels => exact .next_ite (.same rfl)
  | slotBoundary => exact .next_ite (slotBegin_steady s)
  | syncedEntry => exact exec_syncedEntry_steady s
  | nop u => exact .next (issue_steady _ nopRule_steady u)
  | ewait u => exact .next (issue_steady _ ewaitRule_steady u)
  | esig u => exact .next (issue_steady _ esigRule_steady u)
  | rdflg u => exact .next (issue_steady _ rdflgRule_steady u)
  | exitIf u => exact .next (issue_steady _ exitRule_steady u)
  | recv u => exact .next (issue_steady _ recvRule_steady u)
  | send u => exact .next (issue_steady _ sendRule_steady u)
  | bld u => exact .next (issue_steady _ bldRule_steady u)
  | bst u => exact .next (issue_steady _ bstRule_steady u)
  | bwr u => exact .next (issue_steady _ (windowRule_steady .bwr) u)
  | gacc u => exact .next (issue_steady _ (windowRule_steady .gacc) u)
  | gtree u => exact .next (issue_steady _ (windowRule_steady .gtree) u)
  | mvd u => exact exec_engine_steady s _ u _
  | mvs u => exact exec_engine_steady s _ u _
  | mmh u => exact exec_engine_steady s _ u _
  | mmq u => exact exec_engine_steady s _ u _
  | mmi u => exact exec_engine_steady s _ u _
  | vfma u => exact exec_engine_steady s _ u _
  | vadd u => exact exec_engine_steady s _ u _
  | vmul u => exact exec_engine_steady s _ u _
  | vmax u => exact exec_engine_steady s _ u _
  | vmin u => exact exec_engine_steady s _ u _
  | vcvt u => exact .next (issue_steady _ cvtRule_steady u)
  | vred u => exact exec_engine_steady s _ u _
  | vcpy u => exact .next (issue_steady _ cpyRule_steady u)
  | opDeadline u res => exact exec_opDeadline_steady s u res
  | residueCheckComplete u parityBad => exact exec_residueCheckComplete_steady s u parityBad
  | shadowCompare g k => exact exec_shadowCompare_steady s g k
  | crosspointGather n => exact exec_crosspointGather_steady s n
  | frameDelivery p f => exact exec_frameDelivery_steady s p f
  | hazardCheck => exact exec_hazardCheck_steady s
  | stepSeal => exact exec_stepSeal_steady s
  | stepFinal => exact exec_stepFinal_steady s
  | rewind => exact exec_rewind_steady s
  | jobFaultApply => exact exec_jobFaultApply_steady s
  | launchFire => exact exec_launchFire_steady s
  | blockMoveRetire u => exact exec_blockMoveRetire_steady s u
  | stackLost k => exact exec_stackLost_steady s k
  | farBlockArrival home host => exact exec_farBlockArrival_steady s home host
  | gaccLockAttempt k adderBad host => exact exec_gaccLockAttempt_steady s k adderBad host
  | gaccLockTimeout k => exact exec_gaccLockTimeout_steady s k
  | gtreePoll k host => exact exec_gtreePoll_steady s k host
  | gtreeTimeout k => exact exec_gtreeTimeout_steady s k
  | panelMoveDone k us => exact exec_panelMoveDone_steady s k us
  | jobComplete => exact exec_jobComplete_steady s
  | countAdopt c => exact exec_countAdopt_steady s c
  | rootSeedLoad => exact exec_rootSeedLoad_steady s
  | parentLost => exact exec_parentLost_steady s
  | holdoverTimeout => exact .next_ite (bridleFault_steady s _ _)
  | bridleMarkFire => exact exec_bridleMarkFire_steady s
  | trainingStart p => exact .next_ite (updPort_steady p _ s)
  | trainingDone p info => exact exec_trainingDone_steady s p info
  | trainingTimeout p => exact exec_trainingTimeout_steady s p
  | trainingRetry p => exact .next_ite (dropPort_steady s p)
  | measuringDone p x => exact .next_ite (updPort_steady p _ s)
  | laneLockLoss p => exact exec_laneLockLoss_steady s p
  | relockTimeout p => exact exec_relockTimeout_steady s p
  | relockDone p => exact exec_relockDone_steady s p
  | relockMeasureDone p ps => exact exec_relockMeasureDone_steady s p ps
  | farNotReady p => exact .next_ite (hear_steady s p _)
  | farStopped p => exact .next_ite (hear_steady s p _)
  | signalLoss p => exact .next_ite (hear_steady s p _)
  | powerSample x => exact exec_powerSample_steady s x
  | controlPeriod pm => exact exec_controlPeriod_steady s pm
  | ventDecision => exact exec_ventDecision_steady s
  | ventApply => exact exec_ventApply_steady s
  | classRailMove cls => exact exec_classRailMove_steady s cls
  | ballastIssue u ka token => exact exec_ballastIssue_steady s u ka token
  | ballastResult u r => exact exec_ballastResult_steady s u r
  | scoreHalving => exact exec_scoreHalving_steady s
  | testOverdue u => exact exec_testOverdue_steady s u
  | autoStressTest => exact exec_autoStressTest_steady s
  | windowTest u => exact exec_windowTest_steady s u
  | stressHeatTimeout => exact exec_stressHeatTimeout_steady s
  | knownAnswerDone u ka prof r => exact exec_knownAnswerDone_steady s u ka prof r
  | stressTestDone => exact exec_stressTestDone_steady s
  | doorbellPoll host read => exact exec_doorbellPoll_steady s host read
  | nopDescriptor d => exact exec_nopDescriptor_steady s d
  | load d => exact exec_load_steady s d
  | patch d => exact exec_patch_steady s d
  | unload d => exact exec_unload_steady s d
  | windowMap d => exact exec_windowMap_steady s d
  | panelGive d => exact exec_panelGive_steady s d
  | panelTake d => exact exec_panelTake_steady s d
  | launchAt d => exact exec_launchAt_steady s d
  | cancel d => exact exec_cancel_steady s d
  | test d => exact exec_test_steady s d
  | storeSettings d => exact exec_storeSettings_steady s d
  | storeStart => exact exec_storeStart_steady s
  | storeComplete good => exact exec_storeComplete_steady s good
  | clear d => exact exec_clear_steady s d
  | setEndpointId eid => exact .onControl (.ite (.same rfl) (.same rfl))
  | getEndpointId => exact .onControl (respond_steady s _)
  | getMctpVersionSupport t => exact .onControl (.ite (respond_steady s _) (respond_steady s _))
  | getMessageTypeSupport => exact .onControl (respond_steady s _)
  | getVendorDefinedMessageSupport => exact .onControl (respond_steady s _)
  | getUnits ins first count => exact .query
  | fence ins unit reason => exact exec_fenced_steady s _ ins unit _ _ reason
  | fenceNow ins unit reason => exact exec_fenced_steady s _ ins unit _ _ reason
  | setOff ins unit reason => exact exec_fenced_steady s _ ins unit _ _ reason
  | restore ins unit => exact exec_restore_steady s ins unit
  | getQlist ins first count => exact .query
  | setCapLimits ins lo hi => exact exec_setCapLimits_steady s ins lo hi
  | mgmtStoreSettings ins => exact .onVendor (requestStore_steady s _)
  | readUnit ins unit => exact .query
  | readTotals ins => exact .query
  | readFsr ins seq off => exact exec_readFsr_steady s ins seq off
  | readHistory ins kind first count => exact .query
  | debugRead ins kind unit idx chunk => exact exec_debugRead_steady s ins kind unit idx chunk
  | getAlerts ins count => exact exec_getAlerts_steady s ins count
  | getStatus ins => exact .query
  | getTid => exact .onVendor (respond_steady s _)
  | setTid tid => exact .onVendor (.ite (.same rfl) (.same rfl))
  | getPldmVersion t => exact .onVendor (.ite (respond_steady s _) (respond_steady s _))
  | getPldmTypes => exact .onVendor (respond_steady s _)
  | getPldmCommands t => exact .onVendor (.ite (respond_steady s _) (respond_steady s _))
  | getPdrRepositoryInfo => exact .onVendor (respond_steady s _)
  | getPdr handle => exact .onVendor (.ite (respond_steady s _) (respond_steady s _))
  | getSensorReading id => exact .onVendor (.ite (respond_steady s _) (respond_steady s _))
  | getStateSensorReadings id => exact .onVendor (.ite (respond_steady s _) (respond_steady s _))
  | pdrSensorRefresh => exact .next_ite (.same rfl)
  | bypass => exact .next (tapSet_steady s _ _ _)
  | idcode => exact .next (tapSet_steady s _ _ _)
  | samplePreload lands preload => exact .next (.same rfl)
  | extest => exact .next (tapSet_steady s _ _ _)
  | clamp => exact .next (tapSet_steady s _ _ _)
  | highz => exact .next (tapSet_steady s _ _ _)
  | trst => exact .next (.same rfl)
  | coolFlowNChange high => exact .next (.ite (.refl s) (.same rfl))
  | lrefReturn n => exact exec_lrefReturn_steady s n
  | reservedOpcode d => exact exec_reservedOpcode_steady s d
  | reservedCommand cmd ins => exact .onVendor (answer_steady s _ _ _ _)
  | badPecPacket => exact .next_ite (.same rfl)

end Sys2Proof.Machine
end

section
/-! Proofs: what every step keeps (O1, O2, O3, O4, O5, O37). -/

namespace Sys2Proof.Machine

section
variable {s t : State} {c : Instr}

theorem Plain.or (c : Instr) : Plain c ∨ (∃ mv straps a b, c = .vin48Rise mv straps a b) ∨
    (∃ u r, c = .blockMoveService u r) ∨ ∃ k, c = .farFill k := by
  cases c
  case vin48Rise mv straps a b => exact .inr (.inl ⟨mv, straps, a, b, rfl⟩)
  case blockMoveService u r => exact .inr (.inr (.inl ⟨u, r, rfl⟩))
  case farFill k => exact .inr (.inr (.inr ⟨k, rfl⟩))
  all_goals exact .inl trivial

theorem exec_vin48Rise_cases (mv : Nat) (straps : BitVec 6) (a b : Bool) (s : State) :
    EndsSteady s (exec (.vin48Rise mv straps a b) s) ∨
      (s.boot.stage = .off ∧ 39000 ≤ mv ∧ ∃ t, exec (.vin48Rise mv straps a b) s = .next t ∧
        Steady { s with ident := { s.ident with slotId := straps } } t) := by
  by_cases h : s.boot.stage = .off ∧ 39000 ≤ mv
  · exact .inr ⟨h.1, h.2, _, next_if_pos h, coldStart_forms s mv straps a b⟩
  · exact .inl ⟨s, next_if_neg h, .refl s⟩

/-- What a command that answers a next state keeps. -/
theorem exec_next (h : exec c s = .next t) : Steady s t ∨
    ∃ mv straps a b, c = .vin48Rise mv straps a b ∧ s.boot.stage = .off ∧ 39000 ≤ mv ∧
      Steady { s with ident := { s.ident with slotId := straps } } t := by
  have ends : EndsSteady s (exec c s) → Steady s t := by
    rintro ⟨u, hu, hs⟩
    obtain rfl : u = t := by simpa [hu] using h
    exact hs
  rcases Plain.or c with hc | ⟨mv, straps, a, b, rfl⟩ | ⟨u, r, rfl⟩ | ⟨k, rfl⟩
  · exact .inl (ends (exec_steady c hc s))
  · rcases exec_vin48Rise_cases mv straps a b s with h1 | ⟨hoff, hmv, u, hu, hs⟩
    · exact .inl (ends h1)
    · obtain rfl : u = t := by simpa [hu] using h
      exact .inr ⟨mv, straps, a, b, rfl, hoff, hmv, hs⟩
  · rcases exec_blockMoveService_cases s u r with h1 | ⟨k, b, hf, -⟩
    · exact .inl (ends h1)
    · simp [hf] at h
  · rcases exec_farFill_cases s k with h1 | ⟨j, b, hf, -⟩
    · exact .inl (ends h1)
    · simp [hf] at h

theorem exec_keepsForms (h : exec c s = .next t) : KeepsForms s t := by
  rcases exec_next h with hs | ⟨mv, straps, a, b, -, -, -, hs⟩
  · exact hs.2
  · exact hs.2

/-- What a step runs on: the state without the command at the front. -/
theorem step_next (h : step s = .next t) : (s.pending = [] ∧ t = s) ∨
    ∃ c rest, s.pending = c :: rest ∧ exec c { s with pending := rest } = .next t := by
  unfold step at h
  split at h
  case h_1 hp => exact .inl ⟨hp, by simpa using h.symm⟩
  case h_2 c rest hp => exact .inr ⟨c, rest, hp, h⟩

end

end Sys2Proof.Machine

open Sys2Proof Sys2Proof.Machine

/-- Settles O1: `step` is defined by the front of the queue. -/
theorem stepTakesTheFrontCommand : Obligations.StepTakesTheFrontCommand := by
  unfold Obligations.StepTakesTheFrontCommand step
  exact ⟨fun s c rest h => by rw [h], fun s h => by rw [h]⟩

/-- Settles O2, each table of the state after reset being empty. -/
theorem resetIsUnpowered : Obligations.ResetIsUnpowered := by
  refine ⟨⟨rfl, rfl, rfl, rfl, rfl, rfl, rfl, rfl, rfl, fun _ => rfl, rfl, rfl, rfl, rfl, rfl, rfl, rfl, rfl, rfl, rfl,
    fun _ => rfl, fun _ => rfl, rfl, rfl⟩, ?_, rfl⟩
  exact ⟨rfl, rfl, rfl, fun _ => rfl, fun _ => ⟨rfl, rfl⟩⟩

/-- Settles O3: only a cold start touches the identity, and there SLOT_ID alone. -/
theorem stepKeepsMakeAndStraps : Obligations.StepKeepsMakeAndStraps := by
  intro s t h
  rcases step_next h with ⟨-, rfl⟩ | ⟨c, rest, hp, h⟩
  · exact ⟨⟨rfl, rfl, rfl, rfl⟩, .inl rfl⟩
  · rcases exec_next h with ⟨hi, -⟩ | ⟨mv, straps, a, b, rfl, hoff, hmv, hi, -⟩
    · exact ⟨by simp only [sameMake, hi, and_self], .inl (by rw [hi])⟩
    · exact ⟨by simp only [sameMake, hi, and_self], .inr ⟨mv, straps, a, b, rest, hp, hoff, hmv, by rw [hi]⟩⟩

/-- Settles O4: every command keeps the form of host memory. -/
theorem stepKeepsHostMemoryForm : Obligations.StepKeepsHostMemoryForm := by
  intro s t hs h
  rcases step_next h with ⟨-, rfl⟩ | ⟨c, rest, -, h⟩
  · exact hs
  · obtain ⟨-, hk, -⟩ := exec_keepsForms h
    exact hk hs

/-- Settles O37: every command keeps the form of the tables. -/
theorem sparseDataStaysCanonical : Obligations.SparseDataStaysCanonical := by
  intro s t hs h
  rcases step_next h with ⟨-, rfl⟩ | ⟨c, rest, -, h⟩
  · exact hs
  · obtain ⟨-, -, hk⟩ := exec_keepsForms h
    exact hk hs

/-- Settles O5: only a block move at its service and a far-fill can answer anything but a next state. -/
theorem commandsNeitherQueueNorStop : Obligations.CommandsNeitherQueueNorStop := by
  have ends : ∀ {s : State} {o : Host.Outcome State Fault Refusal}, EndsSteady s o → (∀ r, o ≠ .refused r) ∧ ∀ f, o ≠ .fault f := by
    rintro s o ⟨t, rfl, -⟩
    exact ⟨fun r => by simp, fun f => by simp⟩
  refine ⟨fun c s t h => (exec_keepsForms h).1, fun c s => ?_⟩
  rcases Plain.or c with hc | ⟨mv, straps, a, b, rfl⟩ | ⟨u, r, rfl⟩ | ⟨k, rfl⟩
  · obtain ⟨hr, hf⟩ := ends (exec_steady c hc s)
    exact ⟨hr, fun f h => absurd h (hf f)⟩
  · rcases exec_vin48Rise_cases mv straps a b s with h | ⟨-, -, t, ht, -⟩
    · exact ⟨(ends h).1, fun f hf => absurd hf ((ends h).2 f)⟩
    · exact ⟨fun r => by simp [ht], fun f hf => by simp [ht] at hf⟩
  · rcases exec_blockMoveService_cases s u r with h | ⟨k, b, he, hb⟩
    · exact ⟨(ends h).1, fun f hf => absurd hf ((ends h).2 f)⟩
    · refine ⟨fun r => by simp [he], fun f hf => ⟨.inl ⟨u, r, rfl⟩, k, b, ?_, hb⟩⟩
      simpa [he, eq_comm] using hf
  · rcases exec_farFill_cases s k with h | ⟨j, b, he, hb⟩
    · exact ⟨(ends h).1, fun f hf => absurd hf ((ends h).2 f)⟩
    · refine ⟨fun r => by simp [he], fun f hf => ⟨.inr ⟨k, rfl⟩, j, b, ?_, hb⟩⟩
      simpa [he, eq_comm] using hf
end

section
/-! Proofs: reads that latch (O18). -/

namespace Sys2Proof.Machine

section
variable (s : State)

theorem withLatches_changes (x : Sparse Word32) : changesOnly [.latches] s { s with latches := x } := by
  intro p hp
  cases p
  case latches => exact absurd (by decide) hp
  all_goals rfl

theorem withTb_changes (x : TimeBase) : changesOnly [.tb] s { s with tb := x } := by
  intro p hp
  cases p
  case tb => exact absurd (by decide) hp
  all_goals rfl

theorem withDet_changes (x : Det) : changesOnly [.det] s { s with det := x } := by
  intro p hp
  cases p
  case det => exact absurd (by decide) hp
  all_goals rfl

theorem answerRead_changes (v : Nat) : changesOnly [.out] s (answerRead v s) := withOut_changes _ s

/-! ## Latching fields -/

/-- No 64-bit field begins at an offset that 8 does not divide. -/
theorem wideAt_eq_none {o : Nat} (h : o % 8 ≠ 0) : wideAt s o = none := by
  unfold wideAt
  repeat rw [if_neg (by omega)]

variable {s} {t : State} {o v : Nat}

theorem wideAt_aligned (h : wideAt s o = some v) : o % 8 = 0 := by
  by_contra hn
  simp [wideAt_eq_none s hn] at h

theorem wideAt_not_apart (h : wideAt s o = some v) : o ≠ 0x6000 ∧ o ≠ 0xA008 :=
  ⟨by rintro rfl; simp [wideAt] at h, by rintro rfl; simp [wideAt] at h⟩

/-- What a read of the LO half of a 64-bit field latches. -/
theorem latchAt_wide (h : wideAt s o = some v) :
    latchAt o s = { s with latches := store 0 (o + 4) (BitVec.ofNat 32 (hi32 v)) s.latches } := by
  obtain ⟨h1, h2⟩ := wideAt_not_apart h
  simp only [latchAt, h1, h2, if_false, h]

theorem barAnswers_of_open (h : barOpen s = true) (o : Nat) : barAnswers s o = true := by simp [barAnswers, h]

theorem latchRead_open (h : barOpen s = true) (ho : o % 4 = 0) : latchRead o s = answerRead (readWord s o) (latchAt o s) := by
  simp [latchRead, barAnswers_of_open h, ho]

theorem readWord_open (h : barOpen s = true) (ho : o % 4 = 0) : readWord s o = regWord s o % 2 ^ 32 := by
  simp [readWord, barAnswers_of_open h, ho]

theorem regWord_wide (h : wideAt s o = some v) : regWord s o = lo32 v := by simp only [regWord, h]

/-- The HI half of a 64-bit field reads what its LO half latched. -/
theorem regWord_above (h : wideAt s o = some v) : regWord s (o + 4) = (look 0 (o + 4) s.latches : Word32).toNat := by
  have hn : wideAt s (o + 4) = none := wideAt_eq_none s (by have := wideAt_aligned h; omega)
  simp [regWord, hn, h]

theorem lo32_lt (n : Nat) : lo32 n < 2 ^ 32 := Nat.mod_lt _ (by decide)

theorem hi32_lt (n : Nat) : hi32 n < 2 ^ 32 := Nat.mod_lt _ (by decide)

theorem lo32_add_hi32 (n : Nat) : lo32 n + 2 ^ 32 * hi32 n = n % 2 ^ 64 := by
  simp only [lo32, hi32]
  omega

theorem toNat_answer (n : Nat) : (answerRead n s).out.readData.toNat = n % 2 ^ 64 := BitVec.toNat_ofNat n 64

/-- A 32-bit read of the LO half of a 64-bit field. -/
theorem latchRead_wide (hb : barOpen s = true) (h : wideAt s o = some v) :
    latchRead o s = answerRead (lo32 v) { s with latches := store 0 (o + 4) (BitVec.ofNat 32 (hi32 v)) s.latches } := by
  have h4 : o % 4 = 0 := by have := wideAt_aligned h; omega
  rw [latchRead_open hb h4, readWord_open hb h4, regWord_wide h, latchAt_wide h, Nat.mod_eq_of_lt (lo32_lt v)]

theorem latchRead_wide_spec (hb : barOpen s = true) (h : wideAt s o = some v) :
    changesOnly [.latches, .out] s (latchRead o s) ∧
      (latchRead o s).out.readData.toNat = v % 2 ^ 32 ∧
      (look (0 : Word32) (o + 4) (latchRead o s).latches).toNat = v / 2 ^ 32 % 2 ^ 32 ∧
      ∀ q, q ≠ o + 4 → look (0 : Word32) q (latchRead o s).latches = look 0 q s.latches := by
  have hv := lo32_lt v
  rw [latchRead_wide hb h]
  refine ⟨(withLatches_changes s _).both (answerRead_changes _ _) (by decide) (by decide), ?_, ?_, fun q hq => ?_⟩
  · rw [toNat_answer, Nat.mod_eq_of_lt (by omega)]
    rfl
  · change (look 0 (o + 4) (store 0 (o + 4) (BitVec.ofNat 32 (hi32 v)) s.latches)).toNat = _
    rw [look_store_self, BitVec.toNat_ofNat, Nat.mod_eq_of_lt (hi32_lt v)]
    rfl
  · exact look_store_other hq _ _ _

theorem latchRead64_eq (o : Nat) (s : State) : latchRead64 o s =
    answerRead ((latchRead o s).out.readData.toNat + 2 ^ 32 * (latchRead (o + 4) (latchRead o s)).out.readData.toNat)
      (latchRead (o + 4) (latchRead o s)) := rfl

/-- A 64-bit read of a 64-bit field answers the whole of it. -/
theorem latchRead64_wide_spec (hb : barOpen s = true) (h : wideAt s o = some v) :
    changesOnly [.latches, .out] s (latchRead64 o s) ∧ (latchRead64 o s).out.readData.toNat = v % 2 ^ 64 := by
  obtain ⟨hc, hlo, hhi, -⟩ := latchRead_wide_spec hb h
  have hw : wideAt (latchRead o s) o = some v := by rw [latchRead_wide hb h]; exact h
  have hba : barOpen (latchRead o s) = true := by rw [latchRead_wide hb h]; exact hb
  have h4 : (o + 4) % 4 = 0 := by have := wideAt_aligned h; omega
  have hn : wideAt (latchRead o s) (o + 4) = none := wideAt_eq_none _ (by have := wideAt_aligned h; omega)
  have ha : latchAt (o + 4) (latchRead o s) = latchRead o s := by
    have h1 : o + 4 ≠ 0x6000 := by have := wideAt_aligned h; omega
    have h2 : o + 4 ≠ 0xA008 := by have := wideAt_aligned h; omega
    simp only [latchAt, h1, h2, if_false, hn]
  have hr : readWord (latchRead o s) (o + 4) = hi32 v := by
    rw [readWord_open hba h4, regWord_above hw, hhi, hi32, Nat.mod_mod]
  have hb2 : latchRead (o + 4) (latchRead o s) = answerRead (hi32 v) (latchRead o s) := by
    rw [latchRead_open hba h4, hr, ha]
  have hi := hi32_lt v
  rw [latchRead64_eq]
  refine ⟨hc.both (C := [.latches, .out]) ?_ (by decide) (by decide) (B := [.out]), ?_⟩
  · rw [hb2]
    exact (answerRead_changes _ _).trans (answerRead_changes _ _)
  · rw [toNat_answer, hb2, toNat_answer, hlo, Nat.mod_eq_of_lt (by omega : hi32 v < 2 ^ 64), ← lo32, lo32_add_hi32, Nat.mod_mod]

/-! ## The time base and the inputs digest -/

theorem regWord_tbSec (s : State) : regWord s 0x6000 = lo32 s.tb.sec := by simp [regWord, wideAt, readTb]

theorem regWord_tbSecHi (s : State) : regWord s 0x6004 = hi32 s.tb.latchSec := by simp [regWord, wideAt, readTb]

theorem regWord_inputs (s : State) : regWord s 0xA008 = s.det.leaves.length := by simp [regWord, wideAt, readDet]

theorem latchRead_tb (hb : barOpen s = true) : latchRead 0x6000 s = answerRead (lo32 s.tb.sec) { s with tb := latchTb s.tb } := by
  rw [latchRead_open hb rfl, readWord_open hb rfl, regWord_tbSec, Nat.mod_eq_of_lt (lo32_lt _)]
  rfl

theorem latchRead_tbHi (hb : barOpen s = true) : latchRead 0x6004 s = answerRead (hi32 s.tb.latchSec) s := by
  have ha : latchAt 0x6004 s = s := by simp [latchAt, wideAt]
  rw [latchRead_open hb rfl, readWord_open hb rfl, regWord_tbSecHi, Nat.mod_eq_of_lt (hi32_lt _), ha]

theorem latchRead_inputs (hb : barOpen s = true) :
    latchRead 0xA008 s = answerRead (s.det.leaves.length % 2 ^ 32) (latchDet s) := by
  rw [latchRead_open hb rfl, readWord_open hb rfl, regWord_inputs]
  rfl

theorem latchRead64_tb (hb : barOpen s = true) : latchRead64 0x6000 s =
    answerRead (s.tb.sec % 2 ^ 64) (answerRead (hi32 s.tb.sec) (latchRead 0x6000 s)) := by
  have hlo := lo32_lt s.tb.sec
  have hhi := hi32_lt s.tb.sec
  have hb2 : latchRead 0x6004 (latchRead 0x6000 s) = answerRead (hi32 s.tb.sec) (latchRead 0x6000 s) := by
    have hba : barOpen (latchRead 0x6000 s) = true := by rw [latchRead_tb hb]; exact hb
    rw [latchRead_tbHi hba, latchRead_tb hb]
    rfl
  rw [latchRead64_eq, hb2, toNat_answer, Nat.mod_eq_of_lt (by omega : hi32 s.tb.sec < 2 ^ 64), latchRead_tb hb, toNat_answer,
    Nat.mod_eq_of_lt (by omega : lo32 s.tb.sec < 2 ^ 64), lo32_add_hi32]

/-! ## Reads that answer 0 -/

theorem latchRead_closed (hb : barOpen s = false) (ho : 0x2000 ≤ o) : latchRead o s = answerRead 0 s := by
  have : ¬ o < 0x2000 := by omega
  simp [latchRead, barAnswers, hb, this]

theorem latchRead_unaligned (ho : o % 4 ≠ 0) : latchRead o s = answerRead 0 s := by simp [latchRead, ho]

theorem barRead_zero {w : Nat} (h : (barOpen s = false ∧ 0x2000 ≤ o) ∨ (w ≠ 32 ∧ w ≠ 64) ∨ (w = 32 ∧ o % 4 ≠ 0) ∨
    (w = 64 ∧ o % 8 ≠ 0)) : barRead ⟨o, w⟩ s = answerRead 0 s := by
  unfold barRead
  rcases h with ⟨hb, ho⟩ | ⟨h32, h64⟩ | ⟨rfl, ho⟩ | ⟨rfl, ho⟩
  · have hb2 : barOpen (answerRead 0 s) = false := hb
    have h64 : latchRead64 o s = answerRead 0 s := by
      simp only [latchRead64, latchRead_closed hb ho, latchRead_closed hb2 (show 0x2000 ≤ o + 4 by omega), toNat_answer]
      rfl
    simp only [latchRead_closed hb ho, h64, ite_self]
  · simp [h32, h64]
  · simp [latchRead_unaligned ho]
  · simp [ho]

end

end Sys2Proof.Machine

open Sys2Proof Sys2Proof.Machine

/-- Settles O18: the 64-bit fields by their one rule, the time base and the inputs digest each by its own. -/
theorem latchingReads : Obligations.LatchingReads := by
  refine ⟨fun s hb => ⟨⟨_, rfl, latchRead_wide_spec hb rfl⟩, ⟨_, rfl, latchRead64_wide_spec (o := 0x5000) hb rfl⟩⟩,
    fun s o v hb h => ⟨⟨_, rfl, latchRead_wide_spec hb h⟩, ?_⟩, fun s => ?_, fun s hb => ?_, fun s hb => ?_,
    fun s o w => ⟨fun hb => ?_, fun h => congrArg _ (barRead_zero h)⟩⟩
  · have h8 := wideAt_aligned h
    have hr : barRead ⟨o, 64⟩ s = latchRead64 o s := by simp [barRead, h8]
    exact ⟨_, congrArg Host.Outcome.next hr, latchRead64_wide_spec hb h⟩
  · refine ⟨⟨rfl, rfl, rfl, rfl, rfl, rfl, rfl⟩, ⟨rfl, rfl, rfl, rfl, rfl, rfl, rfl, rfl, rfl, rfl, rfl, rfl⟩,
      rfl, rfl, fun k hk => ?_, rfl, rfl⟩
    have hd : (0x9200 + 16 * k - 0x9200) / 16 = k := by omega
    unfold wideAt
    repeat rw [if_neg (by omega)]
    rw [if_pos (by omega), hd]
  · have hc : changesOnly [.tb, .out] s (latchRead 0x6000 s) := by
      rw [latchRead_tb hb]
      exact (withTb_changes s _).both (answerRead_changes _ _) (by decide) (by decide)
    refine ⟨⟨_, rfl, rfl, hc, ?_, ?_⟩, ⟨_, rfl, ?_, ?_, ?_⟩⟩
    · have := lo32_lt s.tb.sec
      rw [latchRead_tb hb, toNat_answer, Nat.mod_eq_of_lt (by omega)]
      rfl
    · rw [latchRead_tb hb]
      rfl
    · change changesOnly _ s (latchRead64 0x6000 s)
      rw [latchRead64_tb hb]
      exact hc.both ((answerRead_changes _ _).trans (answerRead_changes _ _)) (by decide) (by decide)
    · change (latchRead64 0x6000 s).out.readData.toNat = _
      rw [latchRead64_tb hb, toNat_answer, Nat.mod_mod]
    · change (latchRead64 0x6000 s).tb.latchNs = _
      rw [latchRead64_tb hb, latchRead_tb hb]
      rfl
  · refine ⟨_, rfl, rfl, ?_⟩
    rw [latchRead_inputs hb]
    have hd : changesOnly [.det] s (latchDet s) := withDet_changes s _
    refine ⟨hd.both (answerRead_changes _ _) (by decide) (by decide), ?_, rfl, rfl, fun hr => ?_, fun hr => ?_⟩
    · rw [toNat_answer]
      omega
    · change (latchDet s).det.latched = _
      simp [latchDet, hr]
    · change (latchDet s).det.latched = _
      simp [latchDet, hr]
  · exact ⟨congrArg _ (latchRead_closed hb (by decide)), congrArg _ (latchRead_closed hb (by decide)),
      congrArg _ (latchRead_closed hb (by decide))⟩
end

section
/-! Proofs: writes of registers (O19). -/

namespace Sys2Proof.Machine

/-! ## Words put into wider fields -/

theorem word_eq (v : Word64) : BitVec.ofNat 32 (lo32 v.toNat) = v.extractLsb' 0 32 := by
  apply BitVec.eq_of_toNat_eq
  simp [lo32]

theorem hiWord_eq (v : Word64) : BitVec.ofNat 32 (hi32 v.toNat) = (v >>> 32).extractLsb' 0 32 := by
  apply BitVec.eq_of_toNat_eq
  simp [hi32, Nat.shiftRight_eq_div_pow]

theorem withLo_eq (v : Word64) (x : Word32) : withLo v x = v.extractLsb' 32 32 ++ x := by
  apply BitVec.eq_of_toNat_eq
  have hx := x.isLt
  have hv := v.isLt
  rw [BitVec.toNat_append, ← Nat.shiftLeft_add_eq_or_of_lt hx]
  simp only [withLo, hi32, BitVec.toNat_ofNat, BitVec.extractLsb'_toNat, Nat.shiftRight_eq_div_pow, Nat.shiftLeft_eq]
  omega

theorem withHi_eq (v : Word64) (x : Word32) : withHi v x = x ++ v.extractLsb' 0 32 := by
  apply BitVec.eq_of_toNat_eq
  have hx := x.isLt
  rw [BitVec.toNat_append, ← Nat.shiftLeft_add_eq_or_of_lt (BitVec.isLt _)]
  simp only [withHi, lo32, BitVec.toNat_ofNat, BitVec.extractLsb'_toNat, Nat.shiftRight_eq_div_pow, Nat.shiftLeft_eq]
  omega

theorem withLo48_eq (v : BitVec 48) (x : Word32) : withLo48 v x = v.extractLsb' 32 16 ++ x := by
  apply BitVec.eq_of_toNat_eq
  have hx := x.isLt
  have hv := v.isLt
  rw [BitVec.toNat_append, ← Nat.shiftLeft_add_eq_or_of_lt hx]
  simp only [withLo48, BitVec.toNat_ofNat, BitVec.extractLsb'_toNat, Nat.shiftRight_eq_div_pow, Nat.shiftLeft_eq]
  omega

theorem withHi48_eq (v : BitVec 48) (x : Word32) : withHi48 v x = x.extractLsb' 0 16 ++ v.extractLsb' 0 32 := by
  apply BitVec.eq_of_toNat_eq
  rw [BitVec.toNat_append, ← Nat.shiftLeft_add_eq_or_of_lt (BitVec.isLt _)]
  simp only [withHi48, fld, BitVec.toNat_ofNat, BitVec.extractLsb'_toNat, Nat.shiftRight_eq_div_pow, Nat.shiftLeft_eq]
  omega

theorem w1c_eq {n : Nat} (old : BitVec n) (v : Word64) (hn : n ≤ 32) : w1c old (v.extractLsb' 0 32) = old &&& ~~~(v.extractLsb' 0 n) := by
  have : (v.extractLsb' 0 32).extractLsb' 0 n = v.extractLsb' 0 n := by
    apply BitVec.eq_of_getElem_eq
    intro i hi
    simp [BitVec.getElem_extractLsb', show i < 32 by omega]
  simp only [w1c, wf, this]

theorem bit_word (v : Word64) {k : Nat} (hk : k < 32) : bit (v.extractLsb' 0 32) k = v.getLsbD k := by
  simp [bit, hk]

/-! ## Which block takes a write -/

section
variable {s : State} {v : Word64} {off : Nat} (x : Word32)

theorem exec_write (ho : off % 4 = 0) : exec (.registerWrite off 32 v) s = .next (writeWord off (v.extractLsb' 0 32) s) := by
  rw [← word_eq]
  exact congrArg _ (if_pos ⟨rfl, ho⟩)

theorem exec_write_unaligned (ho : off % 4 ≠ 0) : exec (.registerWrite off 32 v) s = .next s := by
  refine congrArg Host.Outcome.next ?_
  rw [if_neg fun h => ho h.2, if_neg fun h => absurd h.1 (by decide)]

theorem writeWord_closed (h : barAnswers s off = false) : writeWord off x s = s := by simp [writeWord, h]

theorem exec_write_closed (h : barAnswers s off = false) : exec (.registerWrite off 32 v) s = .next s := by
  by_cases ho : off % 4 = 0
  · rw [exec_write ho, writeWord_closed _ h]
  · exact exec_write_unaligned ho

theorem writeWord_id (h : off < 0x800) : writeWord off x s = s := by
  cases ha : barAnswers s off with
  | false => exact writeWord_closed x ha
  | true =>
    rw [writeWord, ha, if_neg (by decide)]
    repeat rw [if_neg (by omega)]

theorem writeWord_open (hb : barOpen s = true) : (!barAnswers s off) = false := by rw [barAnswers_of_open hb]; rfl

theorem exec_write_bridle (hb : barOpen s = true) (o : Nat) (ho : o < 0x1000) (h4 : o % 4 = 0) :
    exec (.registerWrite (0x5000 + o) 32 v) s = .next (writeBridle o (v.extractLsb' 0 32) s) := by
  rw [exec_write (by omega), writeWord, writeWord_open hb, if_neg Bool.false_ne_true]
  repeat rw [if_neg (by omega)]
  rw [if_pos (by omega), Nat.add_sub_cancel_left]

theorem exec_write_tb (hb : barOpen s = true) (o : Nat) (ho : o < 0x1000) (h4 : o % 4 = 0) :
    exec (.registerWrite (0x6000 + o) 32 v) s = .next (writeTb o (v.extractLsb' 0 32) s) := by
  rw [exec_write (by omega), writeWord, writeWord_open hb, if_neg Bool.false_ne_true]
  repeat rw [if_neg (by omega)]
  rw [if_pos (by omega), Nat.add_sub_cancel_left]

theorem exec_write_sec (hb : barOpen s = true) (o : Nat) (ho : o < 0x1000) (h4 : o % 4 = 0) :
    exec (.registerWrite (0x8000 + o) 32 v) s = .next (writeSec o (v.extractLsb' 0 32) s) := by
  rw [exec_write (by omega), writeWord, writeWord_open hb, if_neg Bool.false_ne_true]
  repeat rw [if_neg (by omega)]
  rw [if_pos (by omega), Nat.add_sub_cancel_left]

theorem exec_write_pwr (hb : barOpen s = true) (o : Nat) (ho : o < 0x1000) (h4 : o % 4 = 0) :
    exec (.registerWrite (0x9000 + o) 32 v) s = .next (writePwr o (v.extractLsb' 0 32) s) := by
  rw [exec_write (by omega), writeWord, writeWord_open hb, if_neg Bool.false_ne_true]
  repeat rw [if_neg (by omega)]
  rw [if_pos (by omega), Nat.add_sub_cancel_left]

theorem exec_write_host (hb : barOpen s = true) (o : Nat) (ho : o < 0x1000) (h4 : o % 4 = 0) :
    exec (.registerWrite (0x10000 + o) 32 v) s = .next (writeHost o (v.extractLsb' 0 32) s) := by
  rw [exec_write (by omega), writeWord, writeWord_open hb, if_neg Bool.false_ne_true]
  repeat rw [if_neg (by omega)]
  rw [if_pos (by omega), Nat.add_sub_cancel_left]

theorem exec_write_tout (hb : barOpen s = true) {n : Nat} (hn : n < 4) (o : Nat) (ho : o < 0x40) (h4 : o % 4 = 0) :
    exec (.registerWrite (0x6200 + o + 0x40 * n) 32 v) s = .next (writeTout n o (v.extractLsb' 0 32) s) := by
  rw [show 0x6200 + o + 0x40 * n = 0x6000 + (0x200 + o + 0x40 * n) by omega, exec_write_tb hb _ (by omega) (by omega), writeTb]
  repeat rw [if_neg (by omega)]
  rw [if_pos (by omega), show (0x200 + o + 0x40 * n - 0x200) / 0x40 = n by omega,
    show (0x200 + o + 0x40 * n - 0x200) % 0x40 = o by omega]

theorem exec_write_cap (hb : barOpen s = true) {c : Nat} (hc : c < 3) (o : Nat) (ho : o < 0x20) (h4 : o % 4 = 0) :
    exec (.registerWrite (0x6300 + o + 0x20 * c) 32 v) s = .next (writeCap c o (v.extractLsb' 0 32) s) := by
  rw [show 0x6300 + o + 0x20 * c = 0x6000 + (0x300 + o + 0x20 * c) by omega, exec_write_tb hb _ (by omega) (by omega), writeTb]
  repeat rw [if_neg (by omega)]
  rw [if_pos (by omega), show (0x300 + o + 0x20 * c - 0x300) / 0x20 = c by omega,
    show (0x300 + o + 0x20 * c - 0x300) % 0x20 = o by omega]

theorem writePwr_pref {k : Nat} (hk : k < 16) : writePwr (0x40 + 4 * k) x s =
    { s with power := { s.power with staged := { s.power.staged with pref := s.power.staged.pref.set k x } } } := by
  have hd : (0x40 + 4 * k - 0x40) / 4 = k := by omega
  rw [writePwr, if_neg (by omega), if_neg (by omega), stagePwr]
  repeat rw [if_neg (by omega)]
  rw [if_pos (by omega), hd]

theorem writeHost_evvec {k : Nat} (hk : k < 4) : writeHost (0x84 + 4 * k) x s =
    { s with rings := { s.rings with evvec := s.rings.evvec.set k x } } := by
  have hd : (0x84 + 4 * k - 0x84) / 4 = k := by omega
  rw [writeHost]
  repeat rw [if_neg (by omega)]
  rw [if_pos (by omega), hd]

end

end Sys2Proof.Machine
end

section
/-! Proofs: what a write of a register leaves committed (O19). -/

namespace Sys2Proof.Machine

section
variable {s t u : State}

/-- No committed copy changes, nor does the job or a tile. -/
def KeepsCommitted (s t : State) : Prop :=
  t.bridle.committed = s.bridle.committed ∧ t.tb.committed = s.tb.committed ∧
    (∀ n, (outOf t.tb n).committed = (outOf s.tb n).committed) ∧ t.sec.committed = s.sec.committed ∧
    t.power.committed = s.power.committed ∧ t.rings.committed = s.rings.committed ∧ t.job = s.job ∧ t.tiles = s.tiles

theorem KeepsCommitted.refl (s : State) : KeepsCommitted s s := ⟨rfl, rfl, fun _ => rfl, rfl, rfl, rfl, rfl, rfl⟩

theorem KeepsCommitted.ite {c : Prop} [Decidable c] (h : c → KeepsCommitted s t) (k : ¬ c → KeepsCommitted s u) :
    KeepsCommitted s (if c then t else u) := by
  split
  · next hc => exact h hc
  · next hc => exact k hc

/-- A change of the time base that keeps its committed settings. -/
theorem keepsCommitted_updTb {f : TimeBase → TimeBase} (hc : (f s.tb).committed = s.tb.committed)
    (ho : ∀ n, (outOf (f s.tb) n).committed = (outOf s.tb n).committed) : KeepsCommitted s (updTb f s) :=
  ⟨rfl, hc, ho, rfl, rfl, rfl, rfl, rfl⟩

theorem keepsCommitted_setOut {n : Nat} {o : Tout} (h : o.committed = (outOf s.tb n).committed) :
    KeepsCommitted s (updTb (setOut n o) s) := by
  refine keepsCommitted_updTb rfl fun k => ?_
  by_cases hk : k = n
  · rw [hk, outOf_setOut_self, h]
  · rw [outOf_setOut_other hk]

theorem retrainGo_eq (hi : Bool) (v : Word32) (s : State) : ∃ x, retrainGo hi v s = { s with ports := x } := by
  have ask : ∀ p (a : State), ∃ x, askRetrain p a = { a with ports := x } := by
    intro p a
    unfold askRetrain
    split
    · exact ⟨a.ports, rfl⟩
    · dsimp only
      split
      · exact ⟨_, rfl⟩
      · exact ⟨_, rfl⟩
  have fold : ∀ (l : List Nat) (lo : Nat) (a : State), ∃ x, l.foldl (fun a k => askRetrain (lo + k) a) a = { a with ports := x } := by
    intro l lo
    induction l with
    | nil => exact fun a => ⟨a.ports, rfl⟩
    | cons k l ih =>
      intro a
      obtain ⟨x, hx⟩ := ask (lo + k) a
      obtain ⟨y, hy⟩ := ih { a with ports := x }
      exact ⟨y, by rw [List.foldl_cons, hx, hy]⟩
  unfold retrainGo
  split
  · exact fold _ _ s
  · exact ⟨s.ports, rfl⟩

theorem retrainGo_keepsCommitted (hi : Bool) (v : Word32) (s : State) : KeepsCommitted s (retrainGo hi v s) := by
  obtain ⟨x, hx⟩ := retrainGo_eq hi v s
  rw [hx]
  exact ⟨rfl, rfl, fun _ => rfl, rfl, rfl, rfl, rfl, rfl⟩

theorem capPopGo_keepsCommitted (c : Nat) (v : Word32) (s : State) : KeepsCommitted s (capPopGo c v s) :=
  .ite (fun _ => ⟨rfl, rfl, fun _ => rfl, rfl, rfl, rfl, rfl, rfl⟩) fun _ => .refl s

theorem writeTb_keepsCommitted {o : Nat} (v : Word32) (s : State) (h1 : o ≠ 0x44) (h2 : o ≠ 0x70) (h3 : o ≠ 0xA8) (h4 : o ≠ 0xC8)
    (h5 : o ≠ 0xE4) (h6 : o ≠ 0x108) (h7 : 0x200 ≤ o → o < 0x300 → (o - 0x200) % 0x40 ≠ 0x1C) :
    KeepsCommitted s (writeTb o v s) := by
  unfold writeTb writeTout writeCap
  refine .ite (fun _ => keepsCommitted_updTb rfl fun _ => rfl) fun _ => ?_
  rw [if_neg h1, if_neg h2, if_neg h3, if_neg h4, if_neg h5, if_neg h6]
  refine .ite (fun h => ?_) fun _ => .ite (fun _ => ?_) fun _ => keepsCommitted_updTb rfl fun _ => rfl
  · rw [if_neg (h7 h.1 h.2)]
    exact .ite (fun _ => keepsCommitted_setOut rfl) fun _ => keepsCommitted_setOut rfl
  · exact .ite (fun _ => keepsCommitted_updTb rfl fun _ => rfl) fun _ => .ite (fun _ => capPopGo_keepsCommitted _ _ s) fun _ =>
      .ite (fun _ => keepsCommitted_updTb rfl fun _ => rfl) fun _ => .refl s

theorem sub_ne_of_ne {off base o n : Nat} (h : off ≠ n) (hn : base + o = n) (hb : base ≤ off) : off - base ≠ o := by omega

theorem KeepsCommitted.of_eq (hb : t.bridle.committed = s.bridle.committed) (ht : t.tb = s.tb)
    (hs : t.sec.committed = s.sec.committed) (hp : t.power.committed = s.power.committed)
    (hr : t.rings.committed = s.rings.committed) (hj : t.job = s.job) (hl : t.tiles = s.tiles) : KeepsCommitted s t :=
  ⟨hb, by rw [ht], fun n => by rw [ht], hs, hp, hr, hj, hl⟩

theorem writeBridle_keepsCommitted {o : Nat} (v : Word32) (s : State) (h : o ≠ 0x24) : KeepsCommitted s (writeBridle o v s) := by
  rw [writeBridle, if_neg h]
  exact .ite (fun _ => .of_eq rfl rfl rfl rfl rfl rfl rfl) fun _ => .of_eq rfl rfl rfl rfl rfl rfl rfl

theorem writeSec_keepsCommitted {o : Nat} (v : Word32) (s : State) (h : o ≠ 0x24) : KeepsCommitted s (writeSec o v s) := by
  rw [writeSec, if_neg h]
  exact .ite (fun _ => .of_eq rfl rfl rfl rfl rfl rfl rfl) fun _ => .ite (fun _ => .of_eq rfl rfl rfl rfl rfl rfl rfl) fun _ =>
    .ite (fun _ => .of_eq rfl rfl rfl rfl rfl rfl rfl) fun _ => .of_eq rfl rfl rfl rfl rfl rfl rfl

theorem writePwr_keepsCommitted {o : Nat} (v : Word32) (s : State) (h : o ≠ 0x80) : KeepsCommitted s (writePwr o v s) := by
  rw [writePwr, if_neg h]
  exact .ite (fun _ => .of_eq rfl rfl rfl rfl rfl rfl rfl) fun _ => .of_eq rfl rfl rfl rfl rfl rfl rfl

theorem writeHost_keepsCommitted {o : Nat} (v : Word32) (s : State) (h : o ≠ 0x3C) : KeepsCommitted s (writeHost o v s) := by
  rw [writeHost, if_neg h]
  exact .ite (fun _ => .of_eq rfl rfl rfl rfl rfl rfl rfl) fun _ => .ite (fun _ => .of_eq rfl rfl rfl rfl rfl rfl rfl) fun _ =>
    .ite (fun _ => .of_eq rfl rfl rfl rfl rfl rfl rfl) fun _ => .of_eq rfl rfl rfl rfl rfl rfl rfl

/-- No write but a commit's changes a committed copy. -/
theorem writeWord_keepsCommitted {off : Nat} (v : Word32) (s : State) (hb : off ≠ 0x5024) (hm : off ≠ 0x6044) (hp : off ≠ 0x6070)
    (hr : off ≠ 0x60A8) (hl : off ≠ 0x60C8) (hc : off ≠ 0x60E4) (hd : off ≠ 0x6108) (h0 : off ≠ 0x621C) (h1 : off ≠ 0x625C)
    (h2 : off ≠ 0x629C) (h3 : off ≠ 0x62DC) (hs : off ≠ 0x8024) (hw : off ≠ 0x9080) (hh : off ≠ 0x1003C) :
    KeepsCommitted s (writeWord off v s) := by
  unfold writeWord
  refine .ite (fun _ => .refl s) fun _ => .ite (fun _ => .of_eq rfl rfl rfl rfl rfl rfl rfl) fun _ =>
    .ite (fun _ => retrainGo_keepsCommitted _ _ s) fun _ => .ite (fun _ => retrainGo_keepsCommitted _ _ s) fun _ =>
    .ite (fun hin => writeBridle_keepsCommitted v s (sub_ne_of_ne hb rfl hin.1)) fun _ => .ite (fun ⟨hlo, _⟩ => ?_) fun _ =>
    .ite (fun hin => writeSec_keepsCommitted v s (sub_ne_of_ne hs rfl hin.1)) fun _ =>
    .ite (fun hin => writePwr_keepsCommitted v s (sub_ne_of_ne hw rfl hin.1)) fun _ =>
    .ite (fun _ => .of_eq rfl rfl rfl rfl rfl rfl rfl) fun _ => .ite (fun _ => .of_eq rfl rfl rfl rfl rfl rfl rfl) fun _ =>
    .ite (fun hin => writeHost_keepsCommitted v s (sub_ne_of_ne hh rfl hin.1)) fun _ => .refl s
  have hout : 0x200 ≤ off - 0x6000 → off - 0x6000 < 0x300 → (off - 0x6000 - 0x200) % 0x40 ≠ 0x1C := by
    clear hb hm hp hr hl hc hd hs hw hh
    omega
  exact writeTb_keepsCommitted v s (sub_ne_of_ne hm rfl hlo) (sub_ne_of_ne hp rfl hlo) (sub_ne_of_ne hr rfl hlo)
    (sub_ne_of_ne hl rfl hlo) (sub_ne_of_ne hc rfl hlo) (sub_ne_of_ne hd rfl hlo) hout

end

end Sys2Proof.Machine

open Sys2Proof Sys2Proof.Machine

/-- Settles O19: each block's words by the block's own rule, with the fields of a word as bit ranges of it. -/
theorem registerWritesStageAndClear : Obligations.RegisterWritesStageAndClear := by
  refine ⟨fun s off v h8 => ?_, fun s off w v h32 h64 => ?_, fun s off v hb ho => exec_write_closed ?_, fun s off v ho => ?_,
    fun s v x hb hx => ?_, fun s v x hb hx => ?_, fun s v hb => ?_, fun s v hl => ?_, fun s v x hb hx => ?_,
    fun s off v hb hm hp hr hl hc hd h0 h1 h2 h3 hs hw hh => ?_⟩
  · refine ⟨writeWord off (v.extractLsb' 0 32) s, _, ?_, exec_write (by omega), ?_⟩
    · rw [exec_write (by omega)]
      congr 2
      apply BitVec.eq_of_toNat_eq
      simp
    · refine congrArg Host.Outcome.next ?_
      rw [if_neg (fun h => absurd h.1 (by decide)), if_pos ⟨rfl, h8⟩, word_eq, hiWord_eq]
  · exact congrArg Host.Outcome.next ((if_neg h32).trans (if_neg h64))
  · simp [barAnswers, hb, show ¬ off < 0x2000 by omega]
  · by_cases h4 : off % 4 = 0
    · rw [exec_write h4, writeWord_id _ ho]
    · exact exec_write_unaligned h4
  · have br := exec_write_bridle (v := v) hb
    have se := exec_write_sec (v := v) hb
    have pw := exec_write_pwr (v := v) hb
    have ho := exec_write_host (v := v) hb
    simp only [← hx] at br se pw ho
    simp only [← withLo_eq, ← withHi_eq]
    exact ⟨br 0x10 (by decide) rfl, br 0x14 (by decide) rfl, br 0x18 (by decide) rfl, br 0x1C (by decide) rfl, br 0x20 (by decide) rfl,
      se 0x10 (by decide) rfl, se 0x14 (by decide) rfl, se 0x18 (by decide) rfl, se 0x1C (by decide) rfl, se 0x20 (by decide) rfl,
      pw 0x20 (by decide) rfl, pw 0x24 (by decide) rfl, pw 0x28 (by decide) rfl, pw 0x2C (by decide) rfl,
      fun k hk => by rw [Nat.add_assoc 0x9000 0x40, pw _ (by omega) (by omega), writePwr_pref _ hk],
      ho 0x10 (by decide) rfl, ho 0x14 (by decide) rfl, ho 0x18 (by decide) rfl, ho 0x1C (by decide) rfl, ho 0x20 (by decide) rfl,
      ho 0x24 (by decide) rfl, ho 0x28 (by decide) rfl, ho 0x2C (by decide) rfl, ho 0x30 (by decide) rfl, ho 0x34 (by decide) rfl,
      ho 0x38 (by decide) rfl⟩
  · have tb := exec_write_tb (v := v) hb
    simp only [← hx] at tb
    simp only [← withLo_eq, ← withHi_eq, ← withLo48_eq, ← withHi48_eq]
    refine ⟨tb 0x40 (by decide) rfl, tb 0x60 (by decide) rfl, tb 0x64 (by decide) rfl, tb 0x68 (by decide) rfl, tb 0x6C (by decide) rfl,
      tb 0xA0 (by decide) rfl, tb 0xA4 (by decide) rfl, tb 0xC0 (by decide) rfl, tb 0xC4 (by decide) rfl, tb 0xE0 (by decide) rfl,
      tb 0x100 (by decide) rfl, tb 0x104 (by decide) rfl, fun n o f hn ho hf => ?_⟩
    subst ho hf
    have out := exec_write_tout (v := v) hb hn
    simp only [← hx] at out
    exact ⟨out 0x00 (by decide) rfl, out 0x04 (by decide) rfl, out 0x08 (by decide) rfl, out 0x0C (by decide) rfl, out 0x10 (by decide) rfl,
      out 0x14 (by decide) rfl, out 0x18 (by decide) rfl⟩
  · have w8 : ∀ old : BitVec 8, _ := fun old => w1c_eq old v (by decide)
    have w4 : ∀ old : BitVec 4, _ := fun old => w1c_eq old v (by decide)
    have w3 : ∀ old : BitVec 3, _ := fun old => w1c_eq old v (by decide)
    simp only [← w8, ← w4, ← w3, ← bit_word v (show 0 < 32 by decide), ← bit_word v (show 2 < 32 by decide),
      ← bit_word v (show 3 < 32 by decide), ← bit_word v (show 8 < 32 by decide)]
    refine ⟨exec_write_bridle hb 0x0C (by decide) rfl, exec_write_tb hb 0x18 (by decide) rfl, exec_write_sec hb 0x0C (by decide) rfl,
      exec_write_pwr hb 0x18 (by decide) rfl, exec_write_host hb 0x70 (by decide) rfl, fun n o hn ho => ?_, fun c k hc hk => ?_⟩
    · subst ho
      exact exec_write_tout hb hn 0x3C (by decide) rfl
    · subst hk
      exact exec_write_cap hb hc 0x1C (by decide) rfl
  · have ha : (!barAnswers s 0x804) = false := by simp [barAnswers, hl]
    rw [exec_write rfl, writeWord, ha, if_neg Bool.false_ne_true, if_pos rfl]
    simp only [← bit_word v (show 0 < 32 by decide), ← bit_word v (show 1 < 32 by decide), ← bit_word v (show 2 < 32 by decide),
      ← bit_word v (show 3 < 32 by decide)]
    rfl
  · subst hx
    refine ⟨exec_write_sec hb 0x04 (by decide) rfl, exec_write_sec hb 0x44 (by decide) rfl, fun c k hc hk => ?_,
      exec_write_host hb 0x80 (by decide) rfl, fun k hk => ?_, ?_, ?_⟩
    · subst hk
      exact exec_write_cap hb hc 0x00 (by decide) rfl
    · rw [Nat.add_assoc 0x10000 0x84, exec_write_host hb _ (by omega) (by omega), writeHost_evvec _ hk]
    · rw [exec_write rfl, writeWord, writeWord_open hb]
      rfl
    · rw [exec_write rfl, writeWord, writeWord_open hb]
      rfl
  · by_cases h4 : off % 4 = 0
    · exact ⟨_, exec_write h4, writeWord_keepsCommitted _ s hb hm hp hr hl hc hd h0 h1 h2 h3 hs hw hh⟩
    · exact ⟨s, exec_write_unaligned h4, KeepsCommitted.refl s⟩
end

section
/-! Proofs: the commits of the BRIDLE, SEC, PWR and HOST blocks (O20). -/

namespace Sys2Proof.Machine

section
variable {s t : State} {v : Word32}

/-! ## BRIDLE_COMMIT -/

theorem sameIdentity_iff (a b : BridleCfg) :
    sameIdentity a b = true ↔ a.id = b.id ∧ a.idValid = b.idValid ∧ a.root = b.root := by
  simp [sameIdentity, and_assoc]

theorem sameIdentity_eq_false {a b : BridleCfg} (h : a.id ≠ b.id ∨ a.idValid ≠ b.idValid ∨ a.root ≠ b.root) :
    sameIdentity a b = false := by
  refine Bool.eq_false_iff.mpr fun hs => ?_
  obtain ⟨h1, h2, h3⟩ := (sameIdentity_iff a b).mp hs
  rcases h with h | h | h
  · exact h h1
  · exact h h2
  · exact h h3

theorem judgeMark_eq (m : Word64) (b : Bridle) : ∃ armed events, judgeMark m b = { b with markArmed := armed, events := events } := by
  unfold judgeMark
  split
  · exact ⟨false, b.events, rfl⟩
  · split
    · exact ⟨false, b.events ||| 8, rfl⟩
    · exact ⟨true, b.events, rfl⟩

/-- The committed settings take effect; the count stays, and the state too where the identity does. -/
theorem bridleTaken_spec (b : Bridle) : (bridleTaken b).committed = b.staged ∧ (bridleTaken b).count = b.count ∧
    (sameIdentity b.staged b.committed = true → (bridleTaken b).st = b.st) := by
  unfold bridleTaken
  extract_lets b1 b2
  have h2 : b2.committed = b.staged ∧ b2.count = b.count ∧ b2.st = b.st := by
    obtain ⟨armed, events, e⟩ := judgeMark_eq b.staged.mark b1
    unfold b2
    split
    · exact ⟨rfl, rfl, rfl⟩
    · rw [e]
      exact ⟨rfl, rfl, rfl⟩
  obtain ⟨hc, hn, hs⟩ := h2
  split
  · exact ⟨hc, hn, fun _ => hs⟩
  · next h => exact ⟨hc, hn, fun hi => absurd hi h⟩

/-! ## SEC_COMMIT and PWR_COMMIT -/

theorem one_le_toNat {n : Nat} (x : BitVec n) : (x != 0) = true ↔ 1 ≤ x.toNat := by
  have h0 : (0 : BitVec n).toNat = 0 := by simp
  rw [bne_iff_ne, ne_eq, ← BitVec.toNat_inj, h0]
  omega

theorem secInRange_iff (c : SecCfg) : secInRange c = true ↔
    1 ≤ c.tileWatch.toNat ∧ c.tileWatch.toNat ≤ c.tileAdvise.toNat ∧ 1 ≤ c.portWatch.toNat ∧
      c.portWatch.toNat ≤ c.portAdvise.toNat ∧ 1 ≤ c.stackWatch.toNat ∧ c.stackWatch.toNat ≤ c.stackAdvise.toNat ∧
      1 ≤ c.watchPasses.toNat ∧ 1 ≤ c.scoreHalfH.toNat ∧ 1 ≤ c.stressActive.toNat ∧ 1 ≤ c.stressWatch.toNat := by
  simp only [secInRange, Bool.and_eq_true, decide_eq_true_eq, one_le_toNat]
  tauto

theorem prefOk_iff (w : Word32) (k : Nat) : prefOk (fld w (8 * k) 8) = true ↔
    (w.extractLsb' (8 * k) 8).toNat ≤ 48 ∨ w.extractLsb' (8 * k) 8 = 0xFF#8 := by
  have e : fld w (8 * k) 8 = (w.extractLsb' (8 * k) 8).toNat := by
    simp [fld, BitVec.extractLsb'_toNat, Nat.shiftRight_eq_div_pow]
  rw [prefOk, Bool.or_eq_true, decide_eq_true_eq, beq_iff_eq, e, ← BitVec.toNat_inj]
  rfl

theorem pwrInRange_iff (lo hi : Nat) (c : PwrCfg) : pwrInRange lo hi c = true ↔
    lo ≤ c.cap.toNat ∧ c.cap.toNat ≤ hi ∧ 1 ≤ c.window.toNat ∧ c.window.toNat ≤ 30 ∧ 20 ≤ c.ramp.toNat ∧ c.ramp.toNat ≤ 2000 ∧
      (∀ w ∈ c.pref, ∀ k < 4, (w.extractLsb' (8 * k) 8).toNat ≤ 48 ∨ w.extractLsb' (8 * k) 8 = 0xFF#8) := by
  simp only [pwrInRange, Bool.and_eq_true, decide_eq_true_eq, List.all_eq_true, List.mem_range, prefOk_iff, and_assoc]

/-! ## HOST_COMMIT -/

theorem sameRings_iff (a b : HostCfg) : sameRings a b = true ↔ a.sq = b.sq ∧ a.cq = b.cq ∧ a.eq = b.eq ∧ a.db = b.db ∧
    a.szSq = b.szSq ∧ a.szCq = b.szCq ∧ a.szEq = b.szEq := by
  simp only [sameRings, Bool.and_eq_true, beq_iff_eq, and_assoc]

theorem hostAccepts_iff {c o : HostCfg} (hc : c = s.rings.staged) (ho : o = s.rings.committed) : hostAccepts s = true ↔
    (c.sq.toNat % 4096 = 0 ∧ c.cq.toNat % 4096 = 0 ∧ c.eq.toNat % 4096 = 0 ∧ c.db.toNat % 4096 = 0 ∧
      6 ≤ c.szSq.toNat ∧ c.szSq.toNat ≤ 16 ∧ 6 ≤ c.szCq.toNat ∧ c.szCq.toNat ≤ 16 ∧ 6 ≤ c.szEq.toNat ∧ c.szEq.toNat ≤ 16 ∧
      1 ≤ c.minUs.toNat ∧ c.minUs.toNat ≤ c.maxUs.toNat ∧ c.maxUs.toNat ≤ 64 ∧
      (o.enable = true → c.enable = true → c.sq = o.sq ∧ c.cq = o.cq ∧ c.eq = o.eq ∧ c.db = o.db ∧ c.szSq = o.szSq ∧
        c.szCq = o.szCq ∧ c.szEq = o.szEq) ∧
      (c.enable = false → jobBusy s = false ∧ s.store.run = none)) := by
  have hkeep : (!(o.enable && c.enable && !sameRings c o)) = true ↔ (o.enable = true → c.enable = true → sameRings c o = true) := by
    cases o.enable <;> cases c.enable <;> simp
  have hoff : (!(!c.enable && (jobBusy s || s.store.run.isSome))) = true ↔
      (c.enable = false → jobBusy s = false ∧ s.store.run = none) := by
    cases c.enable <;> cases jobBusy s <;> simp
  subst hc ho
  rw [sameRings_iff] at hkeep
  simp only [hostAccepts, Bool.and_eq_true, hkeep, hoff, aligned4k, sizeOk, decide_eq_true_eq, and_assoc]

/-- Records that are written leave the event ring's counts as they are. -/
theorem flushDue_events (s : State) : (flushDue s).rings.eqTail = s.rings.eqTail ∧ (flushDue s).rings.eqLost = s.rings.eqLost ∧
    (flushDue s).rings.seq = s.rings.seq := by
  have sync : ∀ a : State, (syncDoorbell a).rings = a.rings := fun a => by unfold syncDoorbell; split <;> rfl
  have go : ∀ (l : List Rec) (a : State), (flushGo l a).rings.eqTail = a.rings.eqTail ∧ (flushGo l a).rings.eqLost = a.rings.eqLost ∧
      (flushGo l a).rings.seq = a.rings.seq := by
    intro l
    induction l with
    | nil => exact fun a => ⟨rfl, rfl, rfl⟩
    | cons c l ih =>
      intro a
      rw [flushGo]
      split
      · obtain ⟨h1, h2, h3⟩ := ih (writeRec c a)
        rw [h1, h2, h3, writeRec, sync]
        dsimp only [setHostMem]
        split <;> exact ⟨rfl, rfl, rfl⟩
      · exact ⟨rfl, rfl, rfl⟩
  exact go _ s

theorem length_partLine (r : Rings) : (partLine r).length = 24 := by simp [partLine]

/-- The part's line of the doorbell block is all that a write of it reaches. -/
theorem syncDoorbell_hostBut (s : State) : hostBut [(s.rings.committed.db.toNat + 0x40, 24)] s (syncDoorbell s) := by
  unfold syncDoorbell
  split
  · rw [← length_partLine s.rings]
    exact hostWrite_hostBut _ _ s
  · exact fun _ _ => rfl

/-- An enabling commit with no record due. -/
theorem flushDue_of_none (h : s.rings.due = []) : (flushDue s).rings.cqTail = s.rings.cqTail ∧ hostMem (flushDue s) = hostMem s := by
  unfold flushDue
  rw [h]
  exact ⟨rfl, rfl⟩

theorem ringRegs_eq (h : changesOnly [.ringOut, .host] s t) : t.rings.committed = s.rings.committed ∧
    t.rings.sqHead = s.rings.sqHead ∧ t.rings.cqHead = s.rings.cqHead ∧ t.rings.eqHead = s.rings.eqHead ∧
    t.rings.heartbeat = s.rings.heartbeat ∧ t.rings.pollUs = s.rings.pollUs := by
  have e := h .ringRegs (by decide)
  simp only [Part.same] at e
  have field := fun {α : Type} (f : Rings → α) => congrArg f e
  exact ⟨field Rings.committed, field Rings.sqHead, field Rings.cqHead, field Rings.eqHead, field Rings.heartbeat,
    field Rings.pollUs⟩

theorem withRings_changes (x : Rings) (s : State) : changesOnly [.ringRegs, .ringOut] s { s with rings := x } := by
  intro p hp
  cases p
  case ringRegs => exact absurd (by decide) hp
  case ringOut => exact absurd (by decide) hp
  all_goals rfl

/-- The rings as an enabling commit leaves them. -/
theorem enableRings_spec (s : State) : ∃ t, t = flushDue (syncDoorbell { s with rings := ringsStarted s.rings }) ∧
    changesOnly [.ringRegs, .ringOut, .host] s t ∧ t.rings.committed = s.rings.staged ∧
    t.rings.sqHead = 0 ∧ t.rings.cqHead = 0 ∧ t.rings.eqTail = 0 ∧ t.rings.eqHead = 0 ∧ t.rings.eqLost = 0 ∧
    t.rings.heartbeat = 0 ∧ t.rings.seq = 0 ∧ t.rings.pollUs = s.rings.staged.minUs.toNat ∧
    (s.rings.due = [] → t.rings.cqTail = 0 ∧ hostBut [(s.rings.staged.db.toNat + 0x40, 24)] s t) := by
  have h1 := withRings_changes (ringsStarted s.rings) s
  have h2 := syncDoorbell_changes { s with rings := ringsStarted s.rings }
  have hb := syncDoorbell_hostBut { s with rings := ringsStarted s.rings }
  have hr : (syncDoorbell { s with rings := ringsStarted s.rings }).rings = ringsStarted s.rings := by
    unfold syncDoorbell
    split <;> rfl
  generalize syncDoorbell { s with rings := ringsStarted s.rings } = a at h2 hb hr
  obtain ⟨hcm, hsq, hcq, heq, hbt, hpl⟩ := ringRegs_eq (flushDue_changes a)
  obtain ⟨htl, hls, hse⟩ := flushDue_events a
  rw [hr] at hcm hsq hcq heq hbt hpl htl hls hse
  refine ⟨flushDue a, rfl, ?_, hcm, hsq, hcq, htl, heq, hls, hbt, hse, hpl, fun hd => ?_⟩
  · exact (h1.both h2 (C := [.ringRegs, .ringOut, .host]) (by decide) (by decide)).both (flushDue_changes a) (by decide) (by decide)
  · obtain ⟨ht, hm⟩ := flushDue_of_none (s := a) (by rw [hr]; exact hd)
    rw [hr] at ht
    refine ⟨ht, fun x hx => ?_⟩
    rw [hm]
    exact hb x hx

end

end Sys2Proof.Machine

open Sys2Proof Sys2Proof.Machine

/-- Settles O20: the range of each block as the spec states it, and what the commit then does. -/
theorem blockCommitsAreAtomic : Obligations.BlockCommitsAreAtomic := by
  refine ⟨fun s v hb hv hi => ?_, fun s v hb hv hr hi => ?_, fun s v hb hv hr hi => ?_, fun s v c hb hv hc => ?_,
    fun s v c hb hv hc => ?_, fun s v c o ok hb hv hc ho hok => ?_⟩
  · have hid := (sameIdentity_iff _ _).mpr hi
    obtain ⟨hcm, hn, hst⟩ := bridleTaken_spec s.bridle
    refine ⟨{ s with bridle := bridleTaken s.bridle }, ?_, withBridle_changes s _, hcm, hst hid, hn⟩
    refine congrArg Host.Outcome.next ?_
    simp [bridleGo, commits_of hb hv, hid]
  · have hid := sameIdentity_eq_false hi
    obtain ⟨hcm, hn, -⟩ := bridleTaken_spec s.bridle
    refine ⟨{ s with bridle := bridleTaken s.bridle, ports := mapVals Port.off portUnheard s.ports }, ?_, ?_, hcm, hn⟩
    · refine congrArg Host.Outcome.next ?_
      simp [bridleGo, commits_of hb hv, hid, hr]
    · exact (withBridle_changes s _).both (withPorts_changes { s with bridle := bridleTaken s.bridle } _) (by decide) (by decide)
  · have hid := sameIdentity_eq_false hi
    refine congrArg Host.Outcome.next ?_
    simp [bridleGo, commits_of hb hv, hid, hr]
  · subst hc
    refine congrArg Host.Outcome.next ?_
    simp only [secGo, commits_of hb hv, if_true, ← secInRange_iff]
    split <;> rfl
  · subst hc
    have hcm := commits_of hb hv
    refine ⟨fun h => congrArg Host.Outcome.next ?_, fun h => congrArg Host.Outcome.next ?_⟩
    · rw [pwrGo, if_pos hcm, if_pos ((pwrInRange_iff _ _ _).mpr h)]
    · rw [pwrGo, if_pos hcm, if_neg fun hr => h ((pwrInRange_iff _ _ _).mp hr)]
  · have hcm := commits_of hb hv
    have hacc : ok ↔ hostAccepts s = true := hok.trans (hostAccepts_iff hc ho).symm
    subst hc ho
    refine ⟨fun h hen hoff => ?_, fun h hne => congrArg Host.Outcome.next ?_, fun h => congrArg Host.Outcome.next ?_⟩
    · obtain ⟨t, ht, hspec⟩ := enableRings_spec s
      refine ⟨t, congrArg Host.Outcome.next ?_, hspec⟩
      rw [hostGo, if_pos hcm, if_pos (hacc.mp h), ht, hen, hoff]
      rfl
    · rw [hostGo, if_pos hcm, if_pos (hacc.mp h), if_neg]
      simpa using hne
    · rw [hostGo, if_pos hcm, if_neg fun ha => h (hacc.mpr ha)]
end

section
/-! Proofs: the size of BAR2 (O22). -/

namespace Sys2Proof.Machine

section
variable {s : State} {n k p : Nat}

theorem barSizes_contains_iff : barSizes.contains n = true ↔ ∃ k ≤ 10, n = 1024 * 2 ^ k := by
  have h : barSizes = (List.range 11).map (fun k => 1024 * 2 ^ k) := by decide
  rw [List.contains_iff_mem, h, List.mem_map]
  exact ⟨fun ⟨k, hk, e⟩ => ⟨k, Nat.le_of_lt_succ (List.mem_range.mp hk), e.symm⟩,
    fun ⟨k, hk, e⟩ => ⟨k, List.mem_range.mpr (Nat.lt_succ_of_le hk), e.symm⟩⟩

theorem rebarCode_of_size (h : s.window.size = 1024 * 2 ^ k) : rebarCode s = 6 + k := by
  have e : bar2Bytes s = 2 ^ (26 + k) := by
    rw [bar2Bytes, h, Nat.pow_add]
    ring
  rw [rebarCode, e, Nat.log2_two_pow]
  omega

theorem allFree_of_panels (h : ∀ x ∈ s.window.panels, x.2.st = .free) : s.window.panels.all (fun x => x.2.st == .free) = true := by
  simpa using h

/-- A panel that is not FREE is listed. -/
theorem not_allFree_of_panelOf (h : (panelOf s p).st ≠ .free) : s.window.panels.all (fun x => x.2.st == .free) = false := by
  refine Bool.eq_false_iff.mpr fun hall => h ?_
  exact look_of_forall_mem (P := fun v : Panel => v.st = .free) rfl (by simpa using hall) p

end

end Sys2Proof.Machine

open Sys2Proof Sys2Proof.Machine

/-- Settles O22: the sizes are the eleven powers of two, and a panel that is not FREE stands in the table. -/
theorem barTwoResizesWhileFree : Obligations.BarTwoResizesWhileFree := by
  refine ⟨⟨by decide, rebarCode_of_size (k := 4) rfl⟩, fun s k hl hp hk => ?_, fun s n h => ?_, fun s n p h => ?_⟩
  · refine ⟨_, next_if_pos ?_, rfl, rebarCode_of_size rfl⟩
    rw [hl, barSizes_contains_iff.mpr ⟨k, hk, rfl⟩, allFree_of_panels hp]
    rfl
  · refine next_if_neg fun hc => ?_
    simp only [Bool.and_eq_true] at hc
    obtain ⟨⟨hl, hb⟩, -⟩ := hc
    obtain ⟨k, hk, rfl⟩ := barSizes_contains_iff.mp hb
    rcases h with h | h
    · rw [hl] at h
      exact Bool.noConfusion h
    · exact h k hk rfl
  · refine next_if_neg fun hc => ?_
    rw [not_allFree_of_panelOf h, Bool.and_false] at hc
    exact Bool.noConfusion hc
end

section
/-! Proofs: a link from WAKE to TRAINED, and its wire meanwhile (O21). -/

namespace Sys2Proof.Machine

/-! ## What a score leaves of a unit's health (R207, R208) -/

section
variable {s : State} {i : Nat}

/-- Two healths of a unit that a move between ACTIVE and WATCH tells apart at most: the same counters, score and tests. -/
def SameTally (h k : Health) : Prop :=
  k = { h with passes := k.passes, advised := k.advised, watchDue := k.watchDue, fsrSeq := k.fsrSeq }

theorem SameTally.refl (h : Health) : SameTally h h := rfl

theorem SameTally.trans {h k l : Health} (hk : SameTally h k) (kl : SameTally k l) : SameTally h l := by
  unfold SameTally at *
  rw [kl, hk]

theorem SameTally.c5_eq {h k : Health} (hk : SameTally h k) : k.c5 = h.c5 := by rw [hk]
theorem SameTally.score_eq {h k : Health} (hk : SameTally h k) : k.score = h.score := by rw [hk]

/-- An event and a record about a unit. -/
theorem sameTally_unitFsr_post (c : Nat) (code : BitVec 16) (info : List Byte) (s : State) :
    SameTally (healthOf s i) (healthOf (unitFsr c i none (post code info s)) i) := by
  rw [healthOf_unitFsr_self, (post_changes code info s).healthOf_eq (by decide)]
  rfl

theorem sameTally_enterWatch (c : Nat) (s : State) : SameTally (healthOf s i) (healthOf (enterWatch c i s) i) := by
  unfold enterWatch
  extract_lets due s1 s2
  have h1 : healthOf s1 i = healthOf s i := by rw [(setUnit_changes i _ s).healthOf_eq (by decide)]
  have h2 : SameTally (healthOf s i) (healthOf s2 i) := by
    rw [← h1, show healthOf s2 i = _ from healthOf_updHealth_self i _ s1]
    rfl
  exact h2.trans (sameTally_unitFsr_post ..)

theorem sameTally_advise (c : Nat) (s : State) : SameTally (healthOf s i) (healthOf (advise c i s) i) := by
  unfold advise
  extract_lets h s1
  split
  · have h1 : SameTally (healthOf s i) (healthOf s1 i) := by
      rw [show healthOf s1 i = _ from healthOf_updHealth_self i _ s]
      rfl
    exact h1.trans (sameTally_unitFsr_post ..)
  · exact .refl _

theorem sameTally_judge (c : Nat) (s : State) : SameTally (healthOf s i) (healthOf (judge c i s) i) := by
  unfold judge
  extract_lets s1
  refine SameTally.trans ?_ (sameTally_advise c s1)
  unfold s1
  split
  · exact sameTally_enterWatch c s
  · exact .refl _

/-- A scoring event adds 1 to the unit's score and keeps its counters. -/
theorem sameTally_score (c : Nat) (s : State) :
    SameTally { healthOf s i with score := min 255 ((healthOf s i).score + 1) } (healthOf (score c i s) i) := by
  have h : healthOf (addScore i s) i = { healthOf s i with score := min 255 ((healthOf s i).score + 1) } :=
    healthOf_updHealth_self i _ s
  rw [← h]
  exact sameTally_judge c _

end

/-! ## FAB_RETRAIN (R131) -/

section
variable {s : State} {p q : Nat}

theorem askRetrain_changes (p : Nat) (s : State) : changesOnly [.ports] s (askRetrain p s) :=
  .ite (.refl _ s) (.ite (updPort_changes _ _ s) ((updPort_changes _ _ s).trans (updPort_changes _ _ _)))

theorem portOf_askRetrain_other (h : q ≠ p) (s : State) : portOf (askRetrain p s) q = portOf s q := by
  unfold askRetrain
  extract_lets s1
  have h1 : portOf s1 q = portOf s q := portOf_updPort_other h _ s
  split
  · rfl
  · split
    · exact h1
    · rw [portOf_updPort_other h, h1]

/-- A port that is asked to train: it waits where the Reel uses it, or where it could not send WAKE. -/
def askedPort (s : State) (p : Nat) (v : Port) : Port :=
  if portPop s p = false then v
  else if reelPort s p = true ∨ idleSignal s p ≠ .wake then { v with retrain := true } else { portDown .wake v with retrain := true }

theorem portOf_askRetrain_self (p : Nat) (s : State) : portOf (askRetrain p s) p = askedPort s p (portOf s p) := by
  unfold askRetrain askedPort
  extract_lets s1
  have h1 : portOf s1 p = { portOf s p with retrain := true } := portOf_updPort_self p _ s
  by_cases hp : portPop s p = true
  · by_cases hr : reelPort s p = true ∨ idleSignal s p ≠ .wake
    · simpa [hp, hr] using h1
    · rw [not_or, not_not] at hr
      obtain ⟨hr, hw⟩ := hr
      rw [if_neg (by simp [hp]), if_neg (by simp [hr, hw]), if_neg (by simp [hp]), if_neg (by simp [hr, hw]), portOf_updPort_self, h1]
      rfl
  · simp [hp]

/-- The ports that a write of FAB_RETRAIN names. -/
def namedPorts (hi : Bool) (v : Word32) : List Nat :=
  ((List.range 32).filter (fun k => bit v k)).map (fun k => (if hi then 32 else 0) + k)

theorem namedPorts_nodup (hi : Bool) (v : Word32) : (namedPorts hi v).Nodup :=
  (List.nodup_range.filter _).map fun _ _ h => Nat.add_left_cancel h

theorem mem_namedPorts {hi : Bool} {v : Word32} {k : Nat} (hk : k < 32) (hp : p = (if hi then 32 else 0) + k) :
    p ∈ namedPorts hi v ↔ v.getLsbD k = true := by
  rw [hp]
  simp [namedPorts, hk, bit]

theorem not_mem_namedPorts {hi : Bool} {v : Word32} (h : p / 32 ≠ (if hi then 1 else 0)) : p ∉ namedPorts hi v := by
  intro hm
  obtain ⟨k, hk, rfl⟩ := List.mem_map.mp hm
  have : k < 32 := List.mem_range.mp (List.mem_filter.mp hk).1
  cases hi
  · exact h (by simp; omega)
  · exact h (by simp; omega)

theorem retrainGo_of_open (hopen : barOpen s = true) (hi : Bool) (v : Word32) :
    retrainGo hi v s = (namedPorts hi v).foldl (fun a p => askRetrain p a) s := by
  rw [retrainGo, if_pos hopen, namedPorts, List.foldl_map]

/-- A port that the write does not name is left as it was. -/
theorem portOf_askAll_of_not_mem {l : List Nat} (h : p ∉ l) (s : State) :
    portOf (l.foldl (fun a p => askRetrain p a) s) p = portOf s p :=
  foldl_view_of_not_mem (v := fun a => portOf a p) (fun a _ hx => portOf_askRetrain_other (Ne.symm hx) a) h s

/-- What a port sends outside training depends on no port. -/
theorem idleSignal_of_ports {t : State} (h : changesOnly [.ports] s t) : idleSignal t = idleSignal s := by
  have hboot : t.boot = s.boot := h .boot (by decide)
  have hstop : t.stop = s.stop := h .stop (by decide)
  have htray : t.tray = s.tray := h .tray (by decide)
  funext p
  unfold idleSignal fencedOut
  rw [hboot, hstop, lrefOn_of_tray htray, h.unitSt_eq (by decide) (by decide), h.unitEntry_eq (by decide) (by decide)]

theorem askedPort_of_ports {t : State} (h : changesOnly [.ports] s t) : askedPort t = askedPort s := by
  have hreel : t.reel = s.reel := h .reel (by decide)
  funext p v
  unfold askedPort reelPort
  rw [idleSignal_of_ports h, portPop_of_ident (h .ident (by decide)), hreel]

/-- A port that the write names is asked to train. -/
theorem portOf_askAll_of_mem {l : List Nat} (hl : l.Nodup) (h : p ∈ l) (s : State) :
    portOf (l.foldl (fun a p => askRetrain p a) s) p = askedPort s p (portOf s p) := by
  obtain ⟨a, ha, hv⟩ := foldl_view_of_mem (f := fun a p => askRetrain p a) (v := fun a => (portOf a p, askedPort a p))
    (fun a x hx => Prod.ext (portOf_askRetrain_other (Ne.symm hx) a) (congrFun (askedPort_of_ports (askRetrain_changes x a)) p)) hl h s
  obtain ⟨hp, hk⟩ := Prod.mk.inj ha
  rw [(Prod.mk.inj hv).1, portOf_askRetrain_self, hp, hk]

theorem retrain_spec (hopen : barOpen s = true) (hi : Bool) (v : Word32) :
    ∃ t : State, exec (.fabRetrain hi v) s = .next t ∧ changesOnly [.ports] s t ∧
      (∀ p, p / 32 ≠ (if hi then 1 else 0) → portOf t p = portOf s p) ∧
      ∀ k p, k < 32 → p = (if hi then 32 else 0) + k →
        (v.getLsbD k = false ∨ portPop s p = false → portOf t p = portOf s p) ∧
        (v.getLsbD k = true → portPop s p = true → (portOf t p).retrain = true) ∧
        (v.getLsbD k = true → portPop s p = true → reelPort s p = true →
          portOf t p = { portOf s p with retrain := true }) ∧
        (v.getLsbD k = true → portPop s p = true → reelPort s p = false → s.boot.stage = .ready → s.stop.stopped = false →
          lrefOn s (p / 16) = true → inService s (1024 + p) →
          (portOf t p).st = .absent ∧ (portOf t p).sends = .wake) := by
  refine ⟨_, congrArg Host.Outcome.next (retrainGo_of_open hopen hi v),
    foldl_keeps (P := fun a => changesOnly [.ports] s a) (fun a p h => h.trans (askRetrain_changes p a)) _ (.refl _ s),
    fun p hp => portOf_askAll_of_not_mem (not_mem_namedPorts hp) s, fun k p hk hp => ?_⟩
  have hmem := mem_namedPorts (v := v) hk hp
  have hasked : v.getLsbD k = true → _ := fun hv => portOf_askAll_of_mem (namedPorts_nodup hi v) (hmem.mpr hv) s
  refine ⟨fun h => ?_, fun hv hpop => ?_, fun hv hpop hr => ?_, fun hv hpop hr hready hstop hl hu => ?_⟩
  · by_cases hv : v.getLsbD k = true
    · have hpop : portPop s p = false := by simpa [hv] using h
      rw [hasked hv, askedPort, if_pos hpop]
    · exact portOf_askAll_of_not_mem (fun hm => hv (hmem.mp hm)) s
  · rw [hasked hv, askedPort, if_neg (by simp [hpop])]
    split <;> rfl
  · rw [hasked hv, askedPort, if_neg (by simp [hpop]), if_pos (.inl hr)]
  · rw [hasked hv, askedPort, if_neg (by simp [hpop]), if_neg (by simp [hr, idleSignal_wake hready hstop hu hl])]
    exact ⟨rfl, rfl⟩

end

/-! ## Training and measuring (R125, R126) -/

section
variable {s : State} {p : Nat}

theorem trainingStart_spec (hpop : portPop s p = true) (hready : isReady s = true) (hw : (portOf s p).sends = .wake) :
    (reelPort s p = true → exec (.trainingStart p) s = .next s) ∧
    (reelPort s p = false → (portOf s p).trainDue = false →
      ∃ t : State, exec (.trainingStart p) s = .next t ∧ changesOnly [.ports] s t ∧ portsBut p s t ∧
        (portOf t p).st = .training ∧ (portOf t p).sends = .train ∧ (portOf t p).staged = [] ∧
        (portOf t p).retrain = false ∧ onWire t p = .training (identityBlocks s p) ∧
        identitySent s p = (s.ident.serial, BitVec.ofNat 6 p, s.ident.slotId,
          if s.bridle.committed.idValid then s.bridle.committed.id else 0x7FF)) := by
  refine ⟨fun hr => next_if_neg (by simp [mayTrain, hr]), fun hr hd => ?_⟩
  have hport : portOf (updPort p inTraining s) p = inTraining (portOf s p) := portOf_updPort_self p _ s
  refine ⟨_, next_if_pos (by simp [mayTrain, hpop, hready, hw, hr, hd]), updPort_changes _ _ s, fun q hq => portOf_updPort_other hq .., ?_⟩
  rw [onWire, hport]
  exact ⟨rfl, rfl, rfl, rfl, rfl, rfl⟩

theorem gateQuads_of_noReel (h : s.reel = none) : gateQuads s = s := if_pos (by simp [h])

theorem gateQuads_changes (s : State) : changesOnly [.ports] s (gateQuads s) :=
  .ite (.refl _ s) (foldl_keeps (P := fun a => changesOnly [.ports] s a)
    (fun a p h => .ite h (h.trans (updPort_changes p _ a))) _ (.refl _ s))

theorem trainingDone_spec (x : TrainInfo) (hpop : portPop s p = true) (hst : (portOf s p).st = .training) (hr : s.reel = none) :
    ∃ t : State, exec (.trainingDone p x) s = .next t ∧ changesOnly [.ports] s t ∧ portsBut p s t ∧
      portOf t p = trained x (portOf s p) := by
  refine ⟨updPort p (trained x) s, ?_, updPort_changes _ _ s, fun q hq => portOf_updPort_other hq .., portOf_updPort_self p _ s⟩
  rw [← gateQuads_of_noReel (s := updPort p (trained x) s) hr]
  exact next_if_pos (by simp [hpop, hst])

/-- A port whose training has run out of time. -/
def trainingFailed (p : Nat) (s : State) : State := updPort p (fun v => { portDown .none v with st := .failed }) s

/-- A link's failure counts and scores. -/
theorem sameTally_linkScored {i : Nat} (hi : 1024 ≤ i) (c : Nat) (s : State) :
    SameTally { healthOf s i with c5 := satInc 32 (healthOf s i).c5, score := min 255 ((healthOf s i).score + 1) }
      (healthOf (score c i (bumpCtr 5 i s)) i) := by
  have h : healthOf (bumpCtr 5 i s) i = { healthOf s i with c5 := satInc 32 (healthOf s i).c5 } := by
    rw [bumpCtr, healthOf_updHealth_self, ctrWidth, if_neg (Nat.not_lt.mpr hi), Health.mapCtr]
    all_goals simp
  have k := sameTally_score (i := i) c (bumpCtr 5 i s)
  rw [h] at k
  exact k

/-- The state after a training that has run out of time, before the quads are gated. -/
def timedOut (p : Nat) (s : State) : State := score 0x0A83 (1024 + p) (bumpCtr 5 (1024 + p) (trainingFailed p s))

theorem timedOut_changes (p : Nat) (s : State) : changesOnly moves (trainingFailed p s) (timedOut p s) :=
  ((bumpCtr_changes 5 (1024 + p) (trainingFailed p s)).mono (by decide)).trans (score_changes _ _ _)

theorem trainingTimeout_spec (hpop : portPop s p = true) (hst : (portOf s p).st = .training) :
    ∃ t : State, exec (.trainingTimeout p) s = .next t ∧ changesOnly (.ports :: moves) s t ∧
      (healthOf t (1024 + p)).c5 = min ((healthOf s (1024 + p)).c5 + 1) (2 ^ 32 - 1) ∧
      (healthOf t (1024 + p)).score = min 255 ((healthOf s (1024 + p)).score + 1) ∧
      (s.reel = none → portsBut p s t ∧ (portOf t p).st = .failed ∧ (portOf t p).sends = .none ∧ onWire t p = .dark) := by
  have hfail : changesOnly [.ports] s (trainingFailed p s) := updPort_changes _ _ s
  have hgate := gateQuads_changes (timedOut p s)
  have htally := sameTally_linkScored (Nat.le_add_right 1024 p) 0x0A83 (trainingFailed p s)
  rw [← timedOut, ← hgate.healthOf_eq (by decide), hfail.healthOf_eq (by decide)] at htally
  refine ⟨gateQuads (timedOut p s), next_if_pos (by simp [hpop, hst]), ?_, htally.c5_eq, htally.score_eq, fun hr => ?_⟩
  · exact (hfail.mono (by decide)).trans (((timedOut_changes p s).mono (by decide)).trans (hgate.mono (by decide)))
  · have hreel : (timedOut p s).reel = none := (timedOut_changes p s .reel (by decide)).trans hr
    have hports : portOf (gateQuads (timedOut p s)) = portOf (trainingFailed p s) := by
      rw [gateQuads_of_noReel hreel, (timedOut_changes p s).portOf_eq (by decide)]
    have hport : portOf (gateQuads (timedOut p s)) p = { portDown .none (portOf s p) with st := .failed } := by
      rw [hports]
      exact portOf_updPort_self p _ s
    refine ⟨fun q hq => by rw [hports]; exact portOf_updPort_other hq _ s, ?_⟩
    rw [onWire, hport]
    exact ⟨rfl, rfl, rfl⟩

theorem trainingRetry_spec (hpop : portPop s p = true) (hst : (portOf s p).st = .failed) :
    ∃ t : State, exec (.trainingRetry p) s = .next t ∧ changesOnly [.ports] s t ∧ portsBut p s t ∧
      (isReady s = true → s.stop.stopped = false → lrefOn s (p / 16) = true → inService s (1024 + p) →
        (portOf t p).st = .absent ∧ (portOf t p).sends = .wake ∧ onWire t p = .pattern 0x66CC3399) := by
  refine ⟨dropPort p s, next_if_pos (by simp [hpop, hst]), dropPort_changes p s, fun q hq => portOf_dropPort_other hq s,
    fun hready hstop hl hu => ?_⟩
  have hport : portOf (dropPort p s) p = portDown .wake (portOf s p) := by
    rw [dropPort_eq, portOf_setPort_self, droppedPort, if_neg (ne_off_of_inService hu),
      idleSignal_wake (by simpa [isReady] using hready) hstop hu hl]
  rw [onWire, hport]
  exact ⟨rfl, rfl, rfl⟩

theorem classOf_spec (ps : Nat) : (128000 < ps → classOf ps = 0) ∧
    (ps ≤ 128000 → 1 ≤ classOf ps ∧ classOf ps ≤ 4 ∧ ps ≤ 32000 * classOf ps ∧ (1 < classOf ps → 32000 * (classOf ps - 1) < ps)) := by
  unfold classOf
  split_ifs <;> omega

theorem measuringDone_spec (x : MeasureInfo) (hpop : portPop s p = true) (hst : (portOf s p).st = .measuring) :
    (s.bridle.st ≠ .synced → exec (.measuringDone p x) s = .next s) ∧
    (s.bridle.st = .synced →
      ∃ t k, exec (.measuringDone p x) s = .next t ∧ changesOnly [.ports] s t ∧ portsBut p s t ∧
        portOf t p = { portOf s p with st := .trained, wirePs := x.ps, cls := k, quadMw := x.quadMw, xpMw := x.xpMw } ∧
        (128000 < x.ps → k = 0) ∧
        (x.ps ≤ 128000 → 1 ≤ k ∧ k ≤ 4 ∧ x.ps ≤ 32000 * k ∧ (1 < k → 32000 * (k - 1) < x.ps))) :=
  ⟨fun hb => next_if_neg (by simp [hb]), fun hb => ⟨_, _, next_if_pos (by simp [hpop, hst, hb]), updPort_changes _ _ s,
    fun _ hq => portOf_updPort_other hq .., portOf_updPort_self p _ s, classOf_spec x.ps⟩⟩

end

end Sys2Proof.Machine

open Sys2Proof Sys2Proof.Machine

/-- Settles O21: what each link command makes of its port, and what `onWire` shows of it. -/
theorem linksTrain : Obligations.LinksTrain := by
  refine ⟨fun s p => ⟨fun h => ?_, fun h => ?_, fun h => ?_⟩, fun _ _ => rfl, fun s hi v hopen => retrain_spec hopen hi v,
    fun s p hpop hready hw => trainingStart_spec hpop hready hw, fun s p x hpop hst hr => ?_,
    fun s p hpop hst => trainingTimeout_spec hpop hst, fun s p hpop hst => trainingRetry_spec hpop hst,
    fun s p x hpop hst => measuringDone_spec x hpop hst⟩
  · rw [onWire, h]
    rfl
  · rw [onWire, h]
    rfl
  · refine ⟨slotBlocks s p, ?_⟩
    rw [onWire, h]
    rfl
  · obtain ⟨t, ht, hc, hb, hp⟩ := trainingDone_spec x hpop hst hr
    refine ⟨t, ht, hc, hb, ?_⟩
    rw [hp]
    exact ⟨rfl, rfl, rfl, rfl, rfl, rfl, rfl, rfl, rfl⟩
end

section
/-! Proofs: what the detections, faults and arrivals of a slot leave alone. -/

namespace Sys2Proof.Machine

variable {s t u : State}

/-- Where a job stands: its step, attempt and slot, the pattern and phase, and the step it has sealed. -/
def Job.place (j : Job) : (JobSt × Nat × LaunchRef) × (Nat × Nat × Nat × Nat × Nat) × Option Sealed × Nat × Nat :=
  ((j.st, j.start, j.launch), (j.step, j.attempt, j.slot, j.pattern, j.phase), j.sealed_, j.rewound, j.final)

/-- The place of the job, the unit state table and when a unit was tested last are as they were. A test in a window may have ended. -/
structure KeepsPlace (s t : State) : Prop where
  ident : t.ident = s.ident
  place : t.job.place = s.job.place
  units : t.store.set.units = s.store.set.units
  test : t.sec.test = s.sec.test ∨ t.sec.test = none
  lastTest : ∀ i, (healthOf t i).lastTest = (healthOf s i).lastTest

/-- What the events of a slot leave alone. -/
structure SamePlace (s t : State) : Prop extends KeepsPlace s t where
  parts : changesOnly (.tiles :: .work :: detects) s t

theorem KeepsPlace.refl (s : State) : KeepsPlace s s := ⟨rfl, rfl, rfl, .inl rfl, fun _ => rfl⟩

theorem KeepsPlace.trans (h : KeepsPlace s t) (k : KeepsPlace t u) : KeepsPlace s u where
  ident := k.ident.trans h.ident
  place := k.place.trans h.place
  units := k.units.trans h.units
  test := k.test.elim (fun e => h.test.imp e.trans e.trans) .inr
  lastTest i := (k.lastTest i).trans (h.lastTest i)

/-- A change of none of what it speaks of. -/
theorem KeepsPlace.of_changes {A : List Part} (h : changesOnly A s t) (hi : Part.ident ∉ A) (hj : Part.job ∉ A)
    (hs : Part.settings ∉ A) (ht : Part.test ∉ A) (hh : Part.health ∉ A) : KeepsPlace s t where
  ident := h .ident hi
  place := by rw [show t.job = s.job from h .job hj]
  units := congrArg Settings.units (h .settings hs)
  test := .inl (h .test ht)
  lastTest i := by rw [h.healthOf_eq hh]

theorem KeepsPlace.unitEntry_eq (h : KeepsPlace s t) : unitEntry t = unitEntry s := unitEntry_of_units h.ident h.units

theorem KeepsPlace.running_eq (h : KeepsPlace s t) : running t = running s := by
  unfold running
  rw [show t.job.st = s.job.st from congrArg (fun x => x.1.1) h.place]

theorem SamePlace.refl (s : State) : SamePlace s s := ⟨.refl s, .refl _ s⟩

theorem SamePlace.trans (h : SamePlace s t) (k : SamePlace t u) : SamePlace s u :=
  ⟨h.toKeepsPlace.trans k.toKeepsPlace, h.parts.trans k.parts⟩

theorem SamePlace.ite {c : Prop} [Decidable c] (h : c → SamePlace s t) (k : ¬ c → SamePlace s u) :
    SamePlace s (if c then t else u) := by
  split
  · next hc => exact h hc
  · next hc => exact k hc

theorem SamePlace.foldl {α : Type} {f : State → α → State} (h : ∀ a x, SamePlace a (f a x)) (l : List α) (s : State) :
    SamePlace s (l.foldl f s) :=
  foldl_keeps (P := fun a => SamePlace s a) (fun a x ha => ha.trans (h a x)) l (.refl s)

/-- A change of tiles, totals and work counters alone. -/
theorem SamePlace.of_changes (h : changesOnly [.tiles, .totals, .work] s t) : SamePlace s t :=
  ⟨.of_changes h (by decide) (by decide) (by decide) (by decide) (by decide), h.mono (by decide)⟩

theorem samePlace_updTile (n : Nat) (f : Tile → Tile) (s : State) : SamePlace s (updTile n f s) :=
  .of_changes ((updTile_changes n f s).mono (by decide))

/-- A change of a unit's health that keeps its last test. -/
theorem samePlace_updHealth (i : Nat) (f : Health → Health) (s : State) (hf : ∀ h, (f h).lastTest = h.lastTest) :
    SamePlace s (updHealth i f s) where
  ident := rfl
  parts := (updHealth_changes i f s).mono (by decide)
  place := rfl
  units := rfl
  test := .inl rfl
  lastTest j := by
    by_cases h : j = i
    · rw [h, healthOf_updHealth_self, hf]
    · rw [healthOf_updHealth_other h]

theorem mapCtr_lastTest (k : Nat) (f : Nat → Nat) (h : Health) : (h.mapCtr k f).lastTest = h.lastTest := by
  unfold Health.mapCtr
  split <;> rfl

/-! ## Notices -/

theorem samePlace_withJob {j : Job} (h : j.place = s.job.place) : SamePlace s { s with job := j } where
  ident := rfl
  parts := (withJob_changes s j).mono (by decide)
  place := h
  units := rfl
  test := .inl rfl
  lastTest _ := rfl

theorem samePlace_holdNotice (n : Notice) (s : State) : SamePlace s (holdNotice n s) := by
  unfold holdNotice
  split
  · exact .ite (fun _ => samePlace_withJob rfl) fun _ => .refl s
  · exact samePlace_withJob rfl

theorem appendHistory_units (e : List Byte) (s : State) : (appendHistory e s).store.set.units = s.store.set.units := by
  simp [appendHistory]
theorem appendHistory_test (e : List Byte) (s : State) : (appendHistory e s).sec.test = s.sec.test :=
  appendHistory_changes e s .test (by decide)

theorem samePlace_abortWindowTest (n : Nat) (s : State) : SamePlace s (abortWindowTest n s) := by
  have hc := (abortWindowTest_changes n s).mono (B := .tiles :: .work :: detects) (by decide)
  have hh : healthOf (abortWindowTest n s) = healthOf s := (abortWindowTest_changes n s).healthOf_eq (by decide)
  refine ⟨⟨hc .ident (by decide), by rw [show (abortWindowTest n s).job = s.job from abortWindowTest_changes n s .job (by decide)],
    ?_, ?_, fun i => by rw [hh]⟩, hc⟩
  · unfold abortWindowTest
    split
    · split
      · rw [appendHistory_units]
      · rfl
    · rfl
  · unfold abortWindowTest
    split
    · split
      · rw [appendHistory_test]
        exact .inr rfl
      · exact .inl rfl
    · exact .inl rfl

theorem samePlace_takeNotice (n : Notice) (s : State) : SamePlace s (takeNotice n s) :=
  .ite (fun _ => (samePlace_holdNotice n s).trans (samePlace_abortWindowTest _ _)) fun _ => .refl s

theorem samePlace_raiseFault (c : Nat) (n : UnitField) (k w : Nat) (s : State) : SamePlace s (raiseFault c n k w s) := by
  unfold raiseFault raiseFaultLoc
  refine .ite (fun _ => ?_) fun _ => .refl s
  exact SamePlace.trans (t := { s with job := _ }) (samePlace_withJob (by rfl)) (samePlace_takeNotice _ _)

/-! ## Detections of tiles -/

theorem unitIndex_tileUnit {n : Nat} (h : n < 1024) : unitIndex (tileUnit n) = some n := by
  have e : (tileUnit n).toNat = n := by
    rw [tileUnit, BitVec.toNat_ofNat]
    omega
  simp [unitIndex, e, h]

theorem samePlace_bumpCtr (k i : Nat) (s : State) : SamePlace s (bumpCtr k i s) :=
  samePlace_updHealth i _ s (mapCtr_lastTest k _)

/-- What a tile tells of counts and scores; its unit moves at the end of the slot alone (log 75). -/
theorem samePlace_countDetect (c : Nat) {i : Nat} (hi : i < 1024) (s : State) : SamePlace s (countDetect c (some i) s) := by
  unfold countDetect
  extract_lets s1
  have h1 : SamePlace s s1 := .of_changes ((updTotals_changes _ s).mono (by decide))
  refine h1.trans ?_
  change SamePlace s1 (countUnit c i s1)
  unfold countUnit
  extract_lets s2
  have h : SamePlace s1 s2 := by
    unfold s2
    split
    · exact samePlace_bumpCtr _ i s1
    · exact .refl s1
  rw [if_pos hi]
  exact .ite (fun _ => h.trans (samePlace_updHealth i _ s2 fun _ => rfl)) fun _ => h

theorem samePlace_raiseDetect (c k w : Nat) {n : Nat} (hn : n < 1024) (s : State) :
    SamePlace s (raiseDetect c (tileUnit n) k w s) := by
  unfold raiseDetect
  extract_lets l s1 s2 m
  have h1 : SamePlace s s1 := by
    unfold s1
    rw [unitIndex_tileUnit hn]
    exact samePlace_countDetect c hn s
  have h2 : SamePlace s s2 := h1.trans (samePlace_withJob rfl)
  exact .ite (fun _ => .ite (fun _ => h2) fun _ => h2.trans (samePlace_takeNotice _ s2)) fun _ => h1

theorem samePlace_retract (n w : Nat) (s : State) : SamePlace s (retract n w s) := by
  unfold retract
  split
  · refine .ite (fun _ => .refl s) fun _ => SamePlace.trans ?_ (samePlace_updTile n _ _)
    refine SamePlace.trans (.of_changes ((updTotals_changes _ s).mono (by decide))) (samePlace_updHealth n _ _ fun h => ?_)
    dsimp only
    split
    · split
      · split
        · exact mapCtr_lastTest _ _ h
        · rfl
      · rfl
    · split
      · split
        · exact mapCtr_lastTest _ _ h
        · rfl
      · rfl
  · exact .refl s

theorem samePlace_tileFault (c n k w : Nat) (s : State) : SamePlace s (tileFault c n k w s) :=
  .ite (fun _ => ((samePlace_retract n w s).trans (samePlace_updTile n _ _)).trans (samePlace_raiseFault _ _ _ _ _)) fun _ => .refl s

theorem samePlace_tileDetect (c k w : Nat) {n : Nat} (hn : n < 1024) (s : State) : SamePlace s (tileDetect c n k w s) :=
  .ite (fun _ => ((samePlace_retract n w s).trans (samePlace_updTile n _ _)).trans (samePlace_raiseDetect _ _ _ hn _)) fun _ => .refl s

/-! ## Arrivals (R73 to R75) -/

theorem samePlace_fillEntry (a : Arrival) (s : State) : SamePlace s (fillEntry a s) := by
  unfold fillEntry
  split
  · exact (samePlace_updTile _ _ s).trans (samePlace_tileFault _ _ _ _ _)
  · exact samePlace_updTile _ _ s

theorem samePlace_countEvent (n k : Nat) (s : State) : SamePlace s (countEvent n k s) :=
  .ite (fun _ => samePlace_tileFault _ _ _ _ s) fun _ => samePlace_updTile _ _ s

theorem samePlace_gatherRx (a : Arrival) (hn : a.dst < 1024) (s : State) : SamePlace s (gatherRx a s) := by
  unfold gatherRx
  extract_lets b s1
  refine .ite (fun _ => .refl s) fun _ => .ite (fun _ => ?_) fun _ => samePlace_updTile _ _ s
  have h1 : SamePlace s s1 := samePlace_updTile _ _ s
  exact .ite (fun _ => h1) fun _ => h1.trans (samePlace_tileDetect _ _ _ hn s1)

theorem withWork_changes (x : Work) : changesOnly [.work] s { s with work := x } := by
  intro p hp
  cases p
  case work => exact absurd (by decide) hp
  all_goals rfl

theorem samePlace_arrive (a : Arrival) (s : State) : SamePlace s (arrive a s) := by
  unfold arrive
  refine .ite (fun hn => ?_) fun _ => .refl s
  have h := ((samePlace_fillEntry a s).trans (samePlace_countEvent a.dst a.event _)).trans (samePlace_gatherRx a hn _)
  exact .ite (fun _ => h) fun _ => h.trans (.of_changes ((withWork_changes _).mono (by decide)))

theorem samePlace_arriveLocal (m : LocalMsg) (s : State) : SamePlace s (arriveLocal m s) := by
  unfold arriveLocal
  split
  · exact .ite (fun _ => samePlace_countEvent _ _ s) fun _ => .refl s
  · exact samePlace_arrive _ s

end Sys2Proof.Machine
end

section
/-! Proofs: the stages of a slot boundary (R134, R140). -/

namespace Sys2Proof.Machine

variable {s t : State}

/-! ## The slot that ends -/

theorem withLocalq_changes (x : List LocalMsg) (s : State) : changesOnly [.localq] s { s with localq := x } := by
  intro p hp
  cases p
  case localq => exact absurd (by decide) hp
  all_goals rfl

theorem withTransits_changes (x : List Transit) (s : State) : changesOnly [.transits] s { s with transits := x } := by
  intro p hp
  cases p
  case transits => exact absurd (by decide) hp
  all_goals rfl

theorem withQueues_changes (x : List LocalMsg) (y : Sparse Tile) (s : State) :
    changesOnly [.localq, .tiles] s { s with localq := x, tiles := y } := by
  intro p hp
  cases p
  case localq => exact absurd (by decide) hp
  case tiles => exact absurd (by decide) hp
  all_goals rfl

theorem withStep_changes (x : Sparse Tile) (y : List (Nat × Nat × Nat × List LineBits)) (z : Job) (s : State) :
    changesOnly [.tiles, .shadowed, .job] s { s with tiles := x, shadowed := y, job := z } := by
  intro p hp
  cases p
  case tiles => exact absurd (by decide) hp
  case shadowed => exact absurd (by decide) hp
  case job => exact absurd (by decide) hp
  all_goals rfl

theorem leaveLocal_changes (s : State) : changesOnly [.localq, .tiles] s (leaveLocal s) := by
  unfold leaveLocal
  split
  · exact withQueues_changes _ _ s
  · exact .refl _ s

theorem leaveLocal_of_idle (h : running s = false) : leaveLocal s = s := by
  unfold leaveLocal
  rw [h]

/-! ## The trim of a slot (R140) -/

theorem natAbs_trimOf (t : Int) : (trimOf t).natAbs ≤ 4 := by
  unfold trimOf
  omega

theorem natAbs_heldTrim (b : Bridle) : (heldTrim b).natAbs ≤ 4 := by
  unfold heldTrim
  omega

theorem bridleFault_same (c k : Nat) (s : State) : SamePlace s (bridleFault c k s) := samePlace_raiseFault _ _ _ _ s

/-- A package that loses its count or aligns to it anew keeps the count it has and its pacer. -/
structure Resync (s t : State) : Prop extends KeepsPlace s t where
  parts : changesOnly [.bridle, .ports, .settings, .test, .job] s t
  idle : running s = false → changesOnly [.bridle, .ports] s t
  count : t.bridle.count = s.bridle.count

theorem bridleFault_changes (c k : Nat) (s : State) : changesOnly [.settings, .test, .job] s (bridleFault c k s) :=
  raiseFault_changes _ _ _ _ s

theorem bridleFault_resync (c k : Nat) (h : running s = true) : Resync s (bridleFault c k s) where
  toKeepsPlace := (bridleFault_same c k s).toKeepsPlace
  parts := (bridleFault_changes c k s).mono (by decide)
  idle hr := by simp [h] at hr
  count := congrArg Bridle.count (bridleFault_changes c k s .bridle (by decide))

/-- A new record of the Bridle unit with the count it had. -/
theorem resync_updBridle (f : Bridle → Bridle) (s : State) (hf : (f s.bridle).count = s.bridle.count) : Resync s (updBridle f s) where
  toKeepsPlace := .of_changes (withBridle_changes s _) (by decide) (by decide) (by decide) (by decide) (by decide)
  parts := (withBridle_changes s _).mono (by decide)
  idle _ := (withBridle_changes s _).mono (by decide)
  count := hf

theorem toAcquiring_resync (p : Nat) (root : BitVec 11) (hops : Nat) (s : State) : Resync s (toAcquiring p root hops s) := by
  unfold toAcquiring
  split
  · next h => exact bridleFault_resync _ _ h
  · exact resync_updBridle _ s rfl

theorem Resync.refl (s : State) : Resync s s := ⟨.refl s, .refl _ s, fun _ => .refl _ s, rfl⟩

theorem Resync.trans {u : State} (h : Resync s t) (k : Resync t u) : Resync s u where
  toKeepsPlace := h.toKeepsPlace.trans k.toKeepsPlace
  parts := h.parts.trans k.parts
  idle hr := (h.idle hr).trans (k.idle (h.running_eq.trans hr))
  count := k.count.trans h.count

theorem resync_withPorts (x : Sparse Port) (s : State) : Resync s { s with ports := x } where
  toKeepsPlace := .of_changes (withPorts_changes s _) (by decide) (by decide) (by decide) (by decide) (by decide)
  parts := (withPorts_changes s _).mono (by decide)
  idle _ := (withPorts_changes s _).mono (by decide)
  count := rfl

theorem toUnsynced_resync (s : State) : Resync s (toUnsynced s) := by
  unfold toUnsynced
  split
  · exact .refl s
  · extract_lets s1
    have h1 : Resync s s1 := by
      unfold s1
      split
      · next h => exact bridleFault_resync _ _ h
      · exact .refl s
    exact (h1.trans (resync_updBridle bridleLost s1 rfl)).trans (resync_withPorts _ _)

theorem reacquire_resync (s : State) : Resync s (reacquire s) := by
  unfold reacquire
  split
  · exact toAcquiring_resync _ _ _ s
  · exact toUnsynced_resync s

theorem addTrim_changes (k : Int) (s : State) : changesOnly [.pacer] s (addTrim k s) := withPacer_changes s _

/-- What SYNC_TRIM leaves: the count and the level, the pacer's phase within 4 steps of what it was. -/
structure Trimmed (s t : State) : Prop extends KeepsPlace s t where
  parts : changesOnly [.bridle, .pacer, .ports, .settings, .test, .job] s t
  idle : running s = false → changesOnly [.bridle, .pacer, .ports] s t
  count : t.bridle.count = s.bridle.count
  trims : ∃ k : Int, k.natAbs ≤ 4 ∧ t.pacer = { s.pacer with trims := s.pacer.trims + k }

theorem Trimmed.refl (s : State) : Trimmed s s where
  toKeepsPlace := .refl s
  parts := .refl _ s
  idle _ := .refl _ s
  count := rfl
  trims := ⟨0, by decide, by rw [Int.add_zero]⟩

theorem Trimmed.of_addTrim {k : Int} (hk : k.natAbs ≤ 4) (h : Resync (addTrim k s) t) : Trimmed s t where
  toKeepsPlace := KeepsPlace.trans (.of_changes (addTrim_changes k s) (by decide) (by decide) (by decide) (by decide) (by decide))
    h.toKeepsPlace
  parts := ((addTrim_changes k s).mono (by decide)).trans (h.parts.mono (by decide))
  idle hr := ((addTrim_changes k s).mono (by decide)).trans ((h.idle hr).mono (by decide))
  count := h.count
  trims := ⟨k, hk, h.parts .pacer (by decide)⟩

theorem syncSlot_trimmed (s : State) : Trimmed s (syncSlot s) := by
  unfold syncSlot
  split
  · split
    · exact .of_addTrim (natAbs_heldTrim _) (.refl _)
    · exact .refl s
  · split
    · exact .refl s
    · next t _ =>
      extract_lets s1
      refine .of_addTrim (natAbs_trimOf t) ?_
      have h1 : Resync (addTrim (trimOf t) s) s1 := resync_updBridle (noteTheta t) (addTrim (trimOf t) s) rfl
      split
      · exact h1.trans (reacquire_resync s1)
      · exact h1

/-- Within 1 ns of its parent a package only trims. -/
theorem syncSlot_of_close (h : ∀ p d, s.bridle.parent = some p → theta2Of s p = some d → d.natAbs ≤ 2000) :
    changesOnly [.bridle, .pacer] s (syncSlot s) := by
  unfold syncSlot
  split
  · exact .ite ((addTrim_changes _ s).mono (by decide)) (.refl _ s)
  · next p hp =>
    split
    · exact .refl _ s
    · next t ht =>
      have hsmall : ¬ 2000 < t.natAbs := Nat.not_lt.mpr (h p t hp (by split at ht <;> [exact ht; cases ht]))
      rw [if_neg hsmall]
      exact ((withBridle_changes s _).mono (by decide)).trans ((addTrim_changes _ _).mono (by decide))

/-! ## The slot that begins -/

theorem transmit_changes (p : Nat) (s : State) : changesOnly [.ports] s (transmit p s) := by
  unfold transmit
  extract_lets v
  exact .ite (.ite (setPort_changes _ _ s) (setPort_changes _ _ s)) (.ite (setPort_changes _ _ s) (.refl _ s))

theorem transmitAll_changes (s : State) : changesOnly [.ports] s (transmitAll s) :=
  .foldl (fun a p => transmit_changes p a) _ s

/-- The messages that reach their tiles at a boundary. -/
theorem deliverLocal_same (s : State) :
    SamePlace { s with localq := s.localq.filter (fun m => decide (cnt s < m.due)) } (deliverLocal s) :=
  .ite (fun _ => .foldl (fun a m => samePlace_arriveLocal m a) _ _) fun _ => .refl _

theorem deliverLocal_keeps (s : State) : KeepsPlace s (deliverLocal s) :=
  KeepsPlace.trans (.of_changes (withLocalq_changes _ s) (by decide) (by decide) (by decide) (by decide) (by decide))
    (deliverLocal_same s).toKeepsPlace

theorem deliverLocal_of_idle (h : running s = false) : changesOnly [.localq] s (deliverLocal s) := by
  unfold deliverLocal
  rw [h]
  exact withLocalq_changes _ s

/-- What is sent and delivered once the slot of the step is known. -/
def slotServed (s : State) : State := transmitAll (capSpacing (deliverLocal s))

theorem slotServed_keeps (s : State) : KeepsPlace s (slotServed s) :=
  ((deliverLocal_keeps s).trans (.of_changes (capSpacing_changes _) (by decide) (by decide) (by decide) (by decide) (by decide))).trans
    (.of_changes (transmitAll_changes _) (by decide) (by decide) (by decide) (by decide) (by decide))

theorem slotServed_changes (s : State) : changesOnly (.localq :: .power :: .ports :: .tiles :: .work :: detects) s (slotServed s) :=
  ((((withLocalq_changes _ s).mono (by decide)).trans ((deliverLocal_same s).parts.mono (by decide))).trans
    ((capSpacing_changes _).mono (by decide))).trans ((transmitAll_changes _).mono (by decide))

theorem slotServed_of_idle (h : running s = false) : changesOnly [.localq, .power, .ports] s (slotServed s) :=
  (((deliverLocal_of_idle h).mono (by decide)).trans ((capSpacing_changes _).mono (by decide))).trans
    ((transmitAll_changes _).mono (by decide))

/-! ## The step -/

theorem advanceJob_of_idle (h : running s = false) : advanceJob s = s := by
  unfold advanceJob
  rw [h]

theorem advanceJob_of_unsealed {r : Reel} (hr : running s = true) (hreel : s.reel = some r) (h : s.job.sealed_ = none) :
    advanceJob s = { s with job := { s.job with slot := s.job.slot + 1 } } := by
  unfold advanceJob
  rw [hr, hreel]
  exact if_neg (by simp [stepEnds, h])

theorem advanceJob_of_stepEnds {r : Reel} (hr : running s = true) (hreel : s.reel = some r) (h : stepEnds s r = true) :
    advanceJob s = closeWindow (beginStep r (s.job.step + 1) 1 s) := by
  unfold advanceJob
  rw [hr, hreel]
  exact if_pos h

theorem beginStep_changes (r : Reel) (n a : Nat) (s : State) : changesOnly [.tiles, .shadowed, .job] s (beginStep r n a s) := by
  unfold beginStep
  split
  · exact withStep_changes _ _ _ s
  · exact .refl _ s

theorem advanceJob_changes (s : State) :
    changesOnly (.tiles :: .shadowed :: .job :: .test :: .totals :: moves) s (advanceJob s) := by
  unfold advanceJob
  split
  · split
    · exact (beginStep_changes _ _ _ s).both (closeWindow_changes _) (by decide) (by decide)
    · exact (withJob_changes s _).mono (by decide)
  · exact .refl _ s

end Sys2Proof.Machine
end

section
/-! Proofs: what a slot boundary makes of the count, the job and the units (O24). -/

namespace Sys2Proof.Machine

section
variable {s : State} {r : Reel} {i c pat ph : Nat}

/-- The package once the slot has ended: its units have moved, its messages have left, its count is one up. -/
def slotEnded (s : State) : State :=
  ageTransits (updBridle (fun b => { b with count := b.count + 1 }) (syncSlot (leaveLocal (takeAllMoves s))))

theorem slotBegin_eq (s : State) : slotBegin s = slotServed (advanceJob (slotEnded s)) := rfl

theorem ageTransits_changes (s : State) : changesOnly [.transits] s (ageTransits s) := withTransits_changes _ s

/-- From the end of the slot's moves on, nothing moves the job or a unit until the next slot begins. -/
theorem slotEnded_keeps (s : State) : KeepsPlace (takeAllMoves s) (slotEnded s) :=
  (((KeepsPlace.of_changes (leaveLocal_changes _) (by decide) (by decide) (by decide) (by decide) (by decide)).trans
    (syncSlot_trimmed _).toKeepsPlace).trans
    (.of_changes (withBridle_changes _ _) (by decide) (by decide) (by decide) (by decide) (by decide))).trans
    (.of_changes (ageTransits_changes _) (by decide) (by decide) (by decide) (by decide) (by decide))

theorem countUp_changes (s : State) : changesOnly [.bridle] s (updBridle (fun b => { b with count := b.count + 1 }) s) :=
  withBridle_changes s _

theorem slotEnded_changes (s : State) :
    changesOnly [.localq, .tiles, .bridle, .pacer, .ports, .settings, .test, .job, .transits] (takeAllMoves s) (slotEnded s) :=
  ((((leaveLocal_changes _).mono (by decide)).trans ((syncSlot_trimmed _).parts.mono (by decide))).trans
    ((countUp_changes _).mono (by decide))).trans ((ageTransits_changes _).mono (by decide))

/-- Outside a job. -/
theorem slotEnded_of_idle (h : running s = false) : changesOnly [.bridle, .pacer, .ports, .transits] (takeAllMoves s) (slotEnded s) := by
  have hr : running (takeAllMoves s) = false := by
    rw [running, show (takeAllMoves s).job = s.job from takeAllMoves_changes s .job (by decide)]
    exact h
  rw [slotEnded, leaveLocal_of_idle hr]
  exact ((((syncSlot_trimmed _).idle hr).mono (by decide)).trans ((countUp_changes _).mono (by decide))).trans
    ((ageTransits_changes _).mono (by decide))

theorem slotEnded_bridle (s : State) :
    (slotEnded s).bridle.count = s.bridle.count + 1 ∧
    ∃ k : Int, k.natAbs ≤ 4 ∧ (slotEnded s).pacer = { s.pacer with trims := s.pacer.trims + k } := by
  have hm := takeAllMoves_changes s
  have hl := leaveLocal_changes (takeAllMoves s)
  have hb : (leaveLocal (takeAllMoves s)).bridle = s.bridle := (hl .bridle (by decide)).trans (hm .bridle (by decide))
  have hp : (leaveLocal (takeAllMoves s)).pacer = s.pacer := (hl .pacer (by decide)).trans (hm .pacer (by decide))
  have ht := syncSlot_trimmed (leaveLocal (takeAllMoves s))
  refine ⟨?_, ?_⟩
  · rw [← hb, ← ht.count]
    rfl
  · obtain ⟨k, hk, he⟩ := ht.trims
    rw [hp] at he
    exact ⟨k, hk, he⟩

theorem running_takeAllMoves (s : State) : running (takeAllMoves s) = running s := by
  rw [running, running, show (takeAllMoves s).job = s.job from takeAllMoves_changes s .job (by decide)]

theorem slotBegin_changes (s : State) :
    changesOnly (.tiles :: .shadowed :: .bridle :: .pacer :: .ports :: .power :: .transits :: .localq :: .work :: detects) s
      (slotBegin s) :=
  ((((takeAllMoves_changes s).mono (by decide)).trans ((slotEnded_changes s).mono (by decide))).trans
    ((advanceJob_changes _).mono (by decide))).trans ((slotServed_changes _).mono (by decide))

theorem slotBegin_bridle (s : State) : (slotBegin s).bridle = (slotEnded s).bridle ∧ (slotBegin s).pacer = (slotEnded s).pacer :=
  ⟨(slotServed_changes _ .bridle (by decide)).trans (advanceJob_changes _ .bridle (by decide)),
    (slotServed_changes _ .pacer (by decide)).trans (advanceJob_changes _ .pacer (by decide))⟩

/-- Outside a job the boundary changes what counts, sends and times alone, after the units have moved. -/
theorem slotBegin_of_idle (h : running s = false) :
    changesOnly [.bridle, .pacer, .ports, .power, .transits, .localq] (takeAllMoves s) (slotBegin s) := by
  have hr : running (slotEnded s) = false := by rw [(slotEnded_keeps s).running_eq, running_takeAllMoves, h]
  rw [slotBegin_eq, advanceJob_of_idle hr]
  exact ((slotEnded_of_idle h).mono (by decide)).trans ((slotServed_of_idle hr).mono (by decide))

theorem slotBoundary_spec (hp : s.pacer.running = true) :
    ∃ t : State, exec .slotBoundary s = .next t ∧ t.bridle.count = s.bridle.count + 1 ∧ t.pacer.running = true ∧
      t.pacer.vent = s.pacer.vent ∧ (t.pacer.trims - s.pacer.trims).natAbs ≤ 4 ∧ t.reel = s.reel ∧ t.mems = s.mems ∧
      t.tb = s.tb ∧ t.window.panels = s.window.panels ∧
      (running s = false → movers s = [] → changesOnly [.bridle, .pacer, .ports, .power, .transits, .localq] s t) ∧
      (running s = false →
        changesOnly (([.bridle, .pacer, .ports, .power, .transits, .localq, .tiles] : List Part) ++ moves) s t) := by
  obtain ⟨hb, hpac⟩ := slotBegin_bridle s
  obtain ⟨hcount, k, hk, he⟩ := slotEnded_bridle s
  have hc := slotBegin_changes s
  rw [he] at hpac
  refine ⟨slotBegin s, next_if_pos hp, by rw [hb, hcount], by rw [hpac]; exact hp, by rw [hpac], ?_, hc .reel (by decide),
    hc .mems (by decide), hc .tb (by decide), hc .panels (by decide), fun h hm => ?_, fun h => ?_⟩
  · rw [hpac]
    simpa using hk
  · have hi := slotBegin_of_idle h
    rwa [takeAllMoves_none s hm] at hi
  · exact ((takeAllMoves_changes s).mono (by decide)).trans ((slotBegin_of_idle h).mono (by decide))

/-! ## A unit that enters WATCH with the slot's end (log 75) -/

theorem unitView_judge_other {j : Nat} (h : j ≠ i) (c : Nat) (s : State) : unitView j (judge c i s) = unitView j s := by
  unfold judge
  extract_lets s1
  rw [unitView_advise_other h]
  unfold s1
  split
  · exact unitView_enterWatch_other h c s
  · rfl

/-- An ACTIVE unit whose score has reached WATCH_AT. -/
theorem unitEntry_judge_self (hu : unitSt s i = .active) (hs : watchAt s i ≤ (healthOf s i).score) :
    unitEntry (judge c i s) i = { st := .watch, held := false } := by
  unfold judge
  rw [if_pos ⟨hu, hs⟩, unitEntry_advise]
  exact unitEntry_enterWatch_self (unitPop_of_inService (.inl hu)) c

theorem takeAllMoves_one (hm : movers s = [i]) (hc : (tileOf s i).moves = [c]) :
    takeAllMoves s = judge c i (updTile i (fun t => { t with moves := [] }) s) := by
  rw [takeAllMoves, hm]
  show takeMoves i s = _
  rw [takeMoves, hc]
  rfl

theorem boundaryMoves_spec (hp : s.pacer.running = true) (hj : running s = false ∨ s.job.sealed_ = none) (hm : movers s = [i])
    (hc : (tileOf s i).moves = [c]) (hu : unitSt s i = .active) (hs : watchAt s i ≤ (healthOf s i).score) :
    ∃ t : State, exec .slotBoundary s = .next t ∧ unitSt t i = .watch ∧ ∀ v, v ≠ i → unitEntry t v = unitEntry s v := by
  have ht := updTile_changes i (fun t => { t with moves := [] }) s
  have hadv : KeepsPlace (slotEnded s) (slotServed (advanceJob (slotEnded s))) ∨
      unitEntry (slotServed (advanceJob (slotEnded s))) = unitEntry (slotEnded s) := by
    have hk := slotEnded_keeps s
    have hr : running (slotEnded s) = running s := by rw [hk.running_eq, running_takeAllMoves]
    rcases hj with h | h
    · rw [advanceJob_of_idle (hr.trans h)]
      exact .inl (slotServed_keeps _)
    · right
      rw [(slotServed_keeps _).unitEntry_eq]
      have hsl : (slotEnded s).job.sealed_ = none := by
        rw [show (slotEnded s).job.sealed_ = (takeAllMoves s).job.sealed_ from congrArg (fun x => x.2.2.1) hk.place,
          show (takeAllMoves s).job = s.job from takeAllMoves_changes s .job (by decide), h]
      unfold advanceJob
      split
      · rw [if_neg (by simp [stepEnds, hsl])]
        exact unitEntry_of_units rfl rfl
      · rfl
  have hend : unitEntry (slotBegin s) = unitEntry (takeAllMoves s) := by
    rw [slotBegin_eq, ← (slotEnded_keeps s).unitEntry_eq]
    exact hadv.elim KeepsPlace.unitEntry_eq id
  rw [takeAllMoves_one hm hc] at hend
  refine ⟨slotBegin s, next_if_pos hp, ?_, fun v hv => ?_⟩
  · have he := unitEntry_judge_self (c := c) (by rw [ht.unitSt_eq (by decide) (by decide)]; exact hu) (by exact hs)
    rw [unitSt, hend, he]
    rfl
  · rw [hend]
    exact (congrArg Prod.fst (unitView_judge_other hv c _)).trans (congrFun (ht.unitEntry_eq (by decide) (by decide)) v)

/-! ## The slot and the step that begin -/

theorem boundarySlot_spec (hp : s.pacer.running = true) (hrun : running s = true) (hreel : s.reel = some r) (hx : s.job.sealed_ = none) :
    ∃ t : State, exec .slotBoundary s = .next t ∧
      t.job.slot = s.job.slot + 1 ∧ t.job.step = s.job.step ∧ t.job.attempt = s.job.attempt ∧ t.job.pattern = s.job.pattern := by
  have hk := slotEnded_keeps s
  have hplace : (slotEnded s).job.place = s.job.place := by
    rw [hk.place, show (takeAllMoves s).job = s.job from takeAllMoves_changes s .job (by decide)]
  have hr : running (slotEnded s) = true := by rw [hk.running_eq, running_takeAllMoves, hrun]
  have hreel' : (slotEnded s).reel = some r :=
    (slotEnded_changes s .reel (by decide)).trans ((takeAllMoves_changes s .reel (by decide)).trans hreel)
  have hsl : (slotEnded s).job.sealed_ = none := (congrArg (fun x => x.2.2.1) hplace).trans hx
  have hserved := (slotServed_keeps (advanceJob (slotEnded s))).place
  rw [advanceJob_of_unsealed hr hreel' hsl] at hserved
  have hnum : ∀ f : Nat × Nat × Nat × Nat × Nat → Nat, _ := fun f => congrArg (fun x => f x.2.1) hserved
  have hwas : ∀ f : Nat × Nat × Nat × Nat × Nat → Nat, _ := fun f => congrArg (fun x => f x.2.1) hplace
  refine ⟨slotBegin s, next_if_pos hp, ?_⟩
  rw [slotBegin_eq, advanceJob_of_unsealed hr hreel' hsl]
  exact ⟨(hnum (fun x => x.2.2.1)).trans (congrArg (· + 1) (hwas (fun x => x.2.2.1))), (hnum (fun x => x.1)).trans (hwas (fun x => x.1)),
    (hnum (fun x => x.2.1)).trans (hwas (fun x => x.2.1)), (hnum (fun x => x.2.2.2.1)).trans (hwas (fun x => x.2.2.2.1))⟩

/-- With theta within 1 ns of its parent, no notice comes and the job is as it was when the slot ends. -/
theorem slotEnded_of_close (h : ∀ p d, s.bridle.parent = some p → theta2Of s p = some d → d.natAbs ≤ 2000) :
    changesOnly [.localq, .tiles, .bridle, .pacer, .transits] (takeAllMoves s) (slotEnded s) := by
  have hm := takeAllMoves_changes s
  have hl := leaveLocal_changes (takeAllMoves s)
  have hb : (leaveLocal (takeAllMoves s)).bridle = s.bridle := (hl .bridle (by decide)).trans (hm .bridle (by decide))
  have hth : theta2Of (leaveLocal (takeAllMoves s)) = theta2Of s := by
    funext p
    unfold theta2Of
    rw [hl.portOf_eq (by decide), hm.portOf_eq (by decide)]
  have hs := syncSlot_of_close (s := leaveLocal (takeAllMoves s)) (by rwa [hb, hth])
  exact (((hl.mono (by decide)).trans (hs.mono (by decide))).trans ((countUp_changes _).mono (by decide))).trans
    ((ageTransits_changes _).mono (by decide))

theorem beginStep_job (n a : Nat) (h : stepPlan r n = some (pat, ph)) :
    (beginStep r n a s).job = { s.job with step := n, attempt := a, slot := 0, pattern := pat, phase := ph, vetoes := [], detected := false } := by
  unfold beginStep
  rw [h]

theorem scoreHeld_changes (t : TestRun) (s : State) : changesOnly (.totals :: moves) s (scoreHeld t s) :=
  .foldl (fun a _ => scoreRun_changes _ _ _ _ a) _ s

/-- Kernels that all passed leave an ACTIVE unit as it was. -/
theorem scoreHeld_of_pass {t : TestRun} (hu : unitSt s t.unit = .active) (hp : ∀ y ∈ t.held, y.2.2 = .pass) : scoreHeld t s = s := by
  have h : ∀ l : List (Nat × Nat × KaOutcome), (∀ y ∈ l, y.2.2 = .pass) →
      l.foldl (fun a x => scoreRun t.unit x.1 x.2.1 x.2.2 a) s = s := by
    intro l hl
    induction l with
    | nil => rfl
    | cons y l ih =>
      have hy : scoreRun t.unit y.1 y.2.1 y.2.2 s = s := by
        rw [hl y (List.mem_cons_self ..)]
        exact kaPass_of_ne_watch (by simp [hu])
      rw [List.foldl_cons, hy]
      exact ih fun z hz => hl z (List.mem_cons_of_mem _ hz)
  exact h t.held hp

theorem closeWindow_of_test {w : TestRun} (hreel : s.reel = some r) (ht : s.sec.test = some w) (hb : w.by_ = .window)
    (hc : windowCovers r w.unit s.job.pattern = false) :
    closeWindow s = scoreHeld w { s with sec := { s.sec with test := none } } := by
  unfold closeWindow testInWindow endWindowTest
  rw [ht, hreel]
  simp [hc, hb]

/-- The boundary at which a sealed step hands over to the next one. -/
theorem boundaryStep_spec {x : Sealed} (hp : s.pacer.running = true) (hrun : running s = true) (hreel : s.reel = some r)
    (hx : s.job.sealed_ = some x) (hstep : x.step = s.job.step) (hat : x.at_ = s.bridle.count) (hlast : x.step < stepTotal r)
    (hf : s.job.faulted = false) (hn : s.job.notice = none) (hplan : stepPlan r (s.job.step + 1) = some (pat, ph))
    (hclose : ∀ p d, s.bridle.parent = some p → theta2Of s p = some d → d.natAbs ≤ 2000) :
    ∃ t : State, exec .slotBoundary s = .next t ∧
      t.job.step = s.job.step + 1 ∧ t.job.attempt = 1 ∧ t.job.slot = 0 ∧ t.job.pattern = pat ∧ t.job.phase = ph ∧
      (∀ w, s.sec.test = some w → w.by_ = .window → windowCovers r w.unit pat = false → t.sec.test = none ∧
        (movers s = [] → unitSt s w.unit = .active → (∀ y ∈ w.held, y.2.2 = .pass) →
          t.store.set.units = s.store.set.units ∧ (healthOf t w.unit).lastTest = (healthOf s w.unit).lastTest)) := by
  have hm := takeAllMoves_changes s
  have he := slotEnded_of_close hclose
  have hjob : (slotEnded s).job = s.job := (he .job (by decide)).trans (hm .job (by decide))
  have hreel' : (slotEnded s).reel = some r := (he .reel (by decide)).trans ((hm .reel (by decide)).trans hreel)
  have hends : stepEnds (slotEnded s) r = true := by
    have hc : cnt (slotEnded s) = s.bridle.count + 1 := (slotEnded_bridle s).1
    simp [stepEnds, haltedJob, hjob, hx, hstep, hat, hc, hf, hn, hstep ▸ hlast]
  have hrun' : running (slotEnded s) = true := by rw [running, hjob]; exact hrun
  have hadv := advanceJob_of_stepEnds hrun' hreel' hends
  have hb := beginStep_job (s := slotEnded s) (s.job.step + 1) 1 hplan
  have hbc := beginStep_changes r (s.job.step + 1) 1 (slotEnded s)
  rw [hjob] at hadv hb
  have hcj : (closeWindow (beginStep r (s.job.step + 1) 1 (slotEnded s))).job = _ := (closeWindow_changes _ .job (by decide)).trans hb
  have hk := slotServed_keeps (closeWindow (beginStep r (s.job.step + 1) 1 (slotEnded s)))
  have hplace := hk.place
  rw [hcj] at hplace
  have hnum : ∀ f : Nat × Nat × Nat × Nat × Nat → Nat, _ := fun f => congrArg (fun x => f x.2.1) hplace
  refine ⟨slotBegin s, next_if_pos hp, ?_⟩
  rw [slotBegin_eq, hadv]
  refine ⟨hnum (fun x => x.1), hnum (fun x => x.2.1), hnum (fun x => x.2.2.1), hnum (fun x => x.2.2.2.1), hnum (fun x => x.2.2.2.2),
    fun w hw hby hcov => ?_⟩
  have ht : (beginStep r (s.job.step + 1) 1 (slotEnded s)).sec.test = some w :=
    (hbc .test (by decide)).trans ((he .test (by decide)).trans ((hm .test (by decide)).trans hw))
  have hcw := closeWindow_of_test ((hbc .reel (by decide)).trans hreel') ht hby (by rw [hb]; exact hcov)
  have hnone : (closeWindow (beginStep r (s.job.step + 1) 1 (slotEnded s))).sec.test = none := by
    rw [hcw]
    exact scoreHeld_changes w _ .test (by decide)
  refine ⟨hk.test.elim (fun e => e.trans hnone) id, fun hmov hu hpass => ?_⟩
  rw [takeAllMoves_none s hmov] at he
  have hentry : unitSt (beginStep r (s.job.step + 1) 1 (slotEnded s)) = unitSt s := by
    rw [hbc.unitSt_eq (by decide) (by decide), he.unitSt_eq (by decide) (by decide)]
  rw [scoreHeld_of_pass (by rw [← hu, ← hentry]; rfl) hpass] at hcw
  refine ⟨hk.units.trans ?_, (hk.lastTest w.unit).trans ?_⟩
  · rw [hcw]
    exact (congrArg Settings.units (hbc .settings (by decide))).trans (congrArg Settings.units (he .settings (by decide)))
  · rw [hcw]
    have hh : healthOf (beginStep r (s.job.step + 1) 1 (slotEnded s)) = healthOf s := by
      rw [hbc.healthOf_eq (by decide), he.healthOf_eq (by decide)]
    exact congrArg (fun f => (f w.unit).lastTest) hh

end

end Sys2Proof.Machine
end

section
/-! Proofs: a frame on the wire (R110, R111), and the slot boundary (O24). -/

namespace Sys2Proof.Machine

theorem toNat_controlBlock (x : EnvBits) : (controlBlock x).toNat = 2 * x.toNat := by
  rw [controlBlock, BitVec.toNat_ofNat, Nat.mod_eq_of_lt]
  have := x.isLt
  omega

theorem toNat_dataBlock (x : EnvBits) : (dataBlock x).toNat = 1 + 2 * x.toNat := by
  rw [dataBlock, BitVec.toNat_ofNat, Nat.mod_eq_of_lt]
  have := x.isLt
  omega

theorem isData_eq (b : Block) : isData b = decide (b.toNat % 2 = 1) := by
  rw [isData, BitVec.getLsbD, Nat.testBit_zero]

theorem toNat_blockBytes (b : Block) : (blockBytes b).toNat = b.toNat / 2 := by
  rw [blockBytes, BitVec.extractLsb'_toNat, Nat.shiftRight_eq_div_pow, Nat.pow_one, Nat.mod_eq_of_lt]
  have := b.isLt
  omega

theorem blockBytes_dataBlock (x : EnvBits) : blockBytes (dataBlock x) = x := by
  apply BitVec.eq_of_toNat_eq
  rw [toNat_blockBytes, toNat_dataBlock]
  omega

theorem blockBytes_controlBlock (x : EnvBits) : blockBytes (controlBlock x) = x := by
  apply BitVec.eq_of_toNat_eq
  rw [toNat_blockBytes, toNat_controlBlock]
  omega

theorem isData_dataBlock (x : EnvBits) : isData (dataBlock x) = true := by
  rw [isData_eq, toNat_dataBlock, decide_eq_true_iff]
  omega

theorem isData_controlBlock (x : EnvBits) : isData (controlBlock x) = false := by
  rw [isData_eq, toNat_controlBlock, decide_eq_false_iff_not]
  omega

theorem parcelBlocks_bytes (x : BitVec 2304) {k : Nat} (hk : k < 9) :
    ((parcelBlocks x)[k]?).map blockBytes = some (x.extractLsb' (256 * k) 256) := by
  rw [parcelBlocks, List.getElem?_map, List.getElem?_range hk]
  exact congrArg some (blockBytes_dataBlock _)

/-! ## Codewords -/

/-- Words one after another, the first lowest. -/
def packed {w : Nat} (bs : List (BitVec w)) : Nat := bs.foldr (fun b a => b.toNat + 2 ^ w * a) 0

theorem packed_lt {w : Nat} (bs : List (BitVec w)) : packed bs < 2 ^ (w * bs.length) := by
  induction bs with
  | nil => exact Nat.one_pos
  | cons b l ih =>
    calc b.toNat + 2 ^ w * packed l < 2 ^ w * (packed l + 1) := by
          rw [Nat.mul_succ, Nat.add_comm]
          exact Nat.add_lt_add_left b.isLt _
      _ ≤ 2 ^ w * 2 ^ (w * l.length) := Nat.mul_le_mul_left _ ih
      _ = 2 ^ (w * (l.length + 1)) := by rw [← Nat.pow_add, Nat.mul_succ, Nat.add_comm]

theorem packed_getElem? {w : Nat} {bs : List (BitVec w)} {k : Nat} {b : BitVec w} (h : bs[k]? = some b) :
    packed bs / 2 ^ (w * k) % 2 ^ w = b.toNat := by
  induction bs generalizing k with
  | nil => simp at h
  | cons x l ih =>
    have e : packed (x :: l) = x.toNat + 2 ^ w * packed l := rfl
    cases k with
    | zero =>
      obtain rfl : x = b := by simpa using h
      rw [e, Nat.mul_zero, Nat.pow_zero, Nat.div_one, Nat.add_mul_mod_self_left, Nat.mod_eq_of_lt x.isLt]
    | succ k =>
      rw [e, Nat.mul_succ, Nat.add_comm (w * k), Nat.pow_add, ← Nat.div_div_eq_div_mul, Nat.add_mul_div_left _ _ (Nat.two_pow_pos w),
        Nat.div_eq_of_lt x.isLt, Nat.zero_add]
      exact ih (by simpa using h)

/-- A message of at most as many bits as its words has them at their places. -/
theorem extractLsb'_ofNat_packed {w n k : Nat} {bs : List (BitVec w)} {b : BitVec w} (hn : w * bs.length ≤ n) (h : bs[k]? = some b) :
    (BitVec.ofNat n (packed bs)).extractLsb' (w * k) w = b := by
  apply BitVec.eq_of_toNat_eq
  rw [BitVec.extractLsb'_toNat, Nat.shiftRight_eq_div_pow, BitVec.toNat_ofNat,
    Nat.mod_eq_of_lt (lt_of_lt_of_le (packed_lt bs) (Nat.pow_le_pow_right Nat.two_pos hn))]
  exact packed_getElem? h

theorem message_block {bs : List Block} {k : Nat} {b : Block} (hk : k < 20) (h : bs[k]? = some b) :
    (message bs).extractLsb' (257 * k) 257 = b :=
  extractLsb'_ofNat_packed (by rw [List.length_take]; omega) (by rwa [List.getElem?_take_of_lt hk])

theorem laneSymbols_getElem? (c : BitVec 5440) {k : Nat} (hk : k < 544) :
    (laneSymbols c (k % 4))[k / 4]? = some (c.extractLsb' (10 * k) 10) := by
  rw [laneSymbols, List.getElem?_map, List.getElem?_range (by omega), Option.map_some, symbol, Nat.div_add_mod]

/-! ## The rest of a slot -/

theorem idleBlock_ne_laneMark : idleBlock ≠ laneMark := by
  intro h
  have := congrArg (fun b => (blockBytes b).getLsbD 0) h
  simp only [idleBlock, laneMark, typedBlock, blockBytes_controlBlock] at this
  exact absurd this (by decide)

theorem mem_fillWith {s : State} {p n : Nat} {b : Block} (h : b ∈ fillWith s p n) : b = idleBlock ∨ b = laneMark := by
  unfold fillWith at h
  split at h
  · exact (List.mem_or_eq_of_mem_set h).imp List.eq_of_mem_replicate id
  · exact .inl (List.eq_of_mem_replicate h)

theorem laneMark_mem_fillWith {s : State} {p n : Nat} (h : fillWith s p n ≠ []) :
    laneMark ∈ fillWith s p n ↔ s.bridle.count % 64 = 0 := by
  unfold fillWith at h ⊢
  by_cases hc : cnt s % 64 = 0
  · have hn : 0 < n := by
      rw [if_pos hc] at h
      refine Nat.pos_of_ne_zero fun e => h ?_
      rw [e]
      rfl
    rw [if_pos hc]
    exact ⟨fun _ => hc, fun _ => List.mem_set (by simpa using Nat.mod_lt _ hn) _⟩
  · rw [if_neg hc]
    exact ⟨fun hm => absurd (List.eq_of_mem_replicate hm).symm idleBlock_ne_laneMark, fun h => absurd h hc⟩

end Sys2Proof.Machine

open Sys2Proof Sys2Proof.Machine

/-- Settles O24: the boundary stage by stage, and the blocks of a frame. -/
theorem countRisesAtEachBoundary : Obligations.CountRisesAtEachBoundary := by
  refine ⟨fun s hp => slotBoundary_spec hp, fun s u c hp hj hm hc hu hs => boundaryMoves_spec hp hj hm hc hu hs,
    fun s r hp hrun hreel hx => boundarySlot_spec hp hrun hreel hx,
    fun s r x pat ph hp hrun hreel hx hstep hat hlast hf hn hplan hclose =>
      boundaryStep_spec hp hrun hreel hx hstep hat hlast hf hn hplan hclose,
    fun s hp => next_if_neg (by simp [hp]), fun s p f hsends hsent => ?_,
    fun x => ⟨isData_dataBlock x, isData_controlBlock x, blockBytes_dataBlock x, blockBytes_controlBlock x⟩,
    fun x k hk => parcelBlocks_bytes x hk, fun bs k b hk h => message_block hk h, fun c k hk => laneSymbols_getElem? c hk, by decide⟩
  refine ⟨fillWith s p (slotBlocks s p - (frameBlocks f).length), ?_, fun b hb => mem_fillWith hb, laneMark_mem_fillWith⟩
  rw [onWire, hsends]
  dsimp only
  rw [hsent]
  rfl
end

section
/-! Proofs: a count is adopted, kept and seeded (O25). -/

namespace Sys2Proof.Machine

variable {s : State} {p c l n : Nat}

/-! ## SYNCED_ENTRY (R140, R141) -/

/-- The Bridle unit of a package that is aligned: a root that aligned to its own count keeps no parent. -/
def syncedBridle (b : Bridle) : Bridle :=
  if b.committed.root ∧ b.rootId = b.committed.id then { bridleTo .synced b with parent := none, hops := 0 } else bridleTo .synced b

theorem syncedEntry_spec (hp : s.pacer.running = true) (hst : s.bridle.st = .acquiring) (hpar : s.bridle.parent = some p)
    (had : s.bridle.adopted = true) (hq : 1024 ≤ s.bridle.quiet) :
    ∃ t : State, exec .syncedEntry s = .next t ∧ changesOnly [.bridle] s t ∧ t.bridle.st = .synced ∧
      t.bridle.count = s.bridle.count ∧
      (s.bridle.committed.root = true ∧ s.bridle.rootId = s.bridle.committed.id → t.bridle.parent = none ∧ t.bridle.hops = 0) ∧
      (¬ (s.bridle.committed.root = true ∧ s.bridle.rootId = s.bridle.committed.id) →
        t.bridle.parent = some p ∧ t.bridle.hops = s.bridle.hops) := by
  refine ⟨updBridle syncedBridle s, next_if_pos (by simp [hp, hst, hpar, had, hq, aligning]), withBridle_changes s _, ?_⟩
  by_cases h : s.bridle.committed.root = true ∧ s.bridle.rootId = s.bridle.committed.id
  · have e : (updBridle syncedBridle s).bridle = _ := if_pos h
    rw [e]
    exact ⟨rfl, rfl, fun _ => ⟨rfl, rfl⟩, fun hn => absurd h hn⟩
  · have e : (updBridle syncedBridle s).bridle = _ := if_neg h
    rw [e]
    exact ⟨rfl, rfl, fun hy => absurd hy h, fun _ => ⟨hpar, rfl⟩⟩

/-! ## COUNT_ADOPT (R141, R142, R236) -/

theorem finishJob_idle (k : Nat) (f : Bool) (s : State) : (finishJob k f s).job.st = .idle := by
  unfold finishJob
  extract_lets r s1
  rw [show (jobBoundary (complete (jobEndRec r k s1.power.jobEnergy) s1)).job = s1.job from
    (jobBoundary_changes _ .job (by decide)).trans (complete_changes _ s1 .job (by decide))]
  rfl

/-- A launch that was armed is disarmed; where none runs, the package is idle then. -/
theorem disarm_idle (h : running s = false) : (disarm s).job.st = .idle := by
  unfold disarm
  by_cases ha : armed s = true
  · rw [if_pos ha]
    exact finishJob_idle _ _ s
  · rw [if_neg ha]
    unfold running armed at *
    cases e : s.job.st <;> simp_all

theorem disarm_of_not_armed (h : armed s = false) : disarm s = s := if_neg (by simp [h])

theorem mem_hist_recordVent (n l : Nat) (x : Pacer) : (n, l) ∈ (recordVent n l x).hist := by
  unfold recordVent
  split
  · exact List.mem_append_right _ (List.mem_singleton_self _)
  · next h => exact List.mem_set (by have := Nat.mod_lt (x.head + 1) (show 0 < 32 by decide); omega) _

theorem recordVent_vent (n l : Nat) (x : Pacer) : (recordVent n l x).vent = x.vent := by
  unfold recordVent
  split <;> rfl

theorem markJump_keeps (n : Nat) (b : Bridle) : (markJump n b).st = b.st ∧ (markJump n b).parent = b.parent := by
  unfold markJump
  split <;> exact ⟨rfl, rfl⟩

/-- What an adoption writes besides the disarmed launch. -/
theorem withAdopted_changes (b : Bridle) (x : Pacer) (j : Job) (w : Power) (s : State) :
    changesOnly [.bridle, .pacer, .job, .power] s { s with bridle := b, pacer := x, job := j, power := w } := by
  intro p hp
  cases p
  case bridle => exact absurd (by decide) hp
  case pacer => exact absurd (by decide) hp
  case job => exact absurd (by decide) hp
  case power => exact absurd (by decide) hp
  all_goals rfl

theorem adopt_changes (c p : Nat) (s : State) : changesOnly [.bridle, .pacer, .ports, .job, .power] (disarm s) (adopt c p s) := by
  unfold adopt
  extract_lets lvl n s1 b x j w s2
  have h1 : changesOnly [.ports] (disarm s) s1 := updPort_changes _ _ _
  have h2 : changesOnly [.bridle, .pacer, .job, .power] s1 s2 := withAdopted_changes _ _ _ _ s1
  exact ((h1.mono (by decide)).trans (h2.mono (by decide))).trans ((capSpacing_changes s2).mono (by decide))

theorem adopt_spec (hp : s.pacer.running = true) (hst : s.bridle.st = .acquiring) (had : s.bridle.adopted = false)
    (hpar : s.bridle.parent = some p) (hrun : running s = false) (hl : l = parentLevel s p)
    (hn : n = c + (portOf s p).rttPs * (64 - l) / (2 * 64 * 32000)) :
    ∃ t : State, exec (.countAdopt c) s = .next t ∧ t.bridle.count = n ∧ t.bridle.adopted = true ∧ t.bridle.st = .acquiring ∧
      t.bridle.parent = some p ∧ t.pacer.vent = l ∧ (n, l) ∈ t.pacer.hist ∧ t.job.st = .idle ∧ t.job.notice = none ∧
      t.power.decision = none ∧ changesOnly (([.bridle, .pacer] : List Part) ++ jobEnds) s t ∧
      (armed s = false → changesOnly [.bridle, .pacer, .ports, .job, .power] s t) := by
  have hb : (disarm s).bridle = s.bridle := disarm_changes s .bridle (by decide)
  have hexec : exec (.countAdopt c) s = .next (adopt c p s) := by
    show execCountAdopt c s = _
    unfold execCountAdopt
    rw [hp, hst, had, hpar]
    exact next_if_neg (by simp [hrun])
  have hn' : adoptedCount c (portOf s p).rttPs (parentLevel s p) = n := by rw [hn, hl, adoptedCount]
  obtain ⟨hms, hmp⟩ := markJump_keeps n (disarm s).bridle
  rw [hb] at hms hmp
  have hc := adopt_changes c p s
  refine ⟨adopt c p s, hexec, hn', rfl, ?_, ?_, ?_, ?_, disarm_idle hrun, rfl, rfl,
    ((disarm_changes s).mono (by decide)).trans (hc.mono (by decide)), fun ha => ?_⟩
  · rw [← hst, ← hms, ← hb, ← hn']
    rfl
  · rw [← hpar, ← hmp, ← hb, ← hn']
    rfl
  · rw [hl]
    exact recordVent_vent _ _ _
  · rw [← hn', hl]
    exact mem_hist_recordVent _ _ _
  · rwa [disarm_of_not_armed ha] at hc

/-! ## ROOT_SEED_LOAD (R141) -/

theorem withSeed_changes (b : Bridle) (x : Pacer) (w : Power) (s : State) :
    changesOnly [.bridle, .pacer, .power] s { s with bridle := b, pacer := x, power := w } := by
  intro p hp
  cases p
  case bridle => exact absurd (by decide) hp
  case pacer => exact absurd (by decide) hp
  case power => exact absurd (by decide) hp
  all_goals rfl

end Sys2Proof.Machine

open Sys2Proof Sys2Proof.Machine

/-- Settles O25: entry, adoption and seed, each from what the Bridle unit is when its command comes. -/
theorem synchronisationIsTakenAndKept : Obligations.SynchronisationIsTakenAndKept := by
  refine ⟨fun s p hp hst hpar had hq => syncedEntry_spec hp hst hpar had hq,
    fun s c p l n hp hst had hpar hrun hl hn => adopt_spec hp hst had hpar hrun hl hn,
    fun s c p hp hst had hpar hrun => ⟨bridleFault 0x0701 p s, ?_, (raiseFault_job _ _ _ _ hrun).1, (bridleFault_changes _ _ s).mono (by decide)⟩,
    fun s hp hst hroot hid hclash hrc hown hports => ⟨_, next_if_pos ?_, withSeed_changes _ _ _ s, rfl, rfl, rfl, rfl, rfl, rfl⟩,
    fun s p hpop hst => next_if_neg ?_⟩
  · show execCountAdopt c s = _
    unfold execCountAdopt
    rw [hp, hst, had, hpar]
    exact next_if_pos hrun
  · have hall : (List.range (portCount s)).all (fun p => (portOf s p).st != .training && (!portUp (portOf s p) || (portOf s p).tailSeen)) := by
      rw [List.all_eq_true]
      intro p hm
      obtain ⟨h1, h2⟩ := hports p (List.mem_range.mp hm)
      cases hu : portUp (portOf s p) <;> simp_all
    simp only [seedDue, hp, hst, hroot, hid, hclash, hrc, hown, hall]
    rfl
  · intro h
    simp only [seedDue, Bool.and_eq_true] at h
    have := List.all_eq_true.mp h.2 p (List.mem_range.mpr hpop)
    simp [hst] at this
end

section
/-! Proofs: a lost parent, HOLDOVER, and the mark (O26). -/

namespace Sys2Proof.Machine

variable {s : State} {p : Nat}

/-! ## The first fault of a job -/

theorem takeNotice_ownFault (n : Notice) (s : State) : (takeNotice n s).job.ownFault = s.job.ownFault := by
  unfold takeNotice
  split
  · rw [show (abortWindowTest n.step (holdNotice n s)).job = (holdNotice n s).job from abortWindowTest_changes _ _ .job (by decide)]
    unfold holdNotice
    split
    · split <;> rfl
    · rfl
  · rfl

theorem raiseFault_ownFault (c : Nat) (u : UnitField) (i w : Nat) (h : running s = true) (ho : s.job.ownFault = none) :
    (raiseFault c u i w s).job.ownFault = some (locHere s c u i w) := by
  unfold raiseFault raiseFaultLoc
  rw [if_pos h]
  exact (takeNotice_ownFault _ _).trans (by rw [ho]; rfl)

/-- A running job that loses its count faults, and tells of it first where nothing else has faulted. -/
theorem bridleFault_spec (i : Nat) (h : running s = true) :
    (bridleFault 0x0701 i s).job.faulted = true ∧
    (s.job.ownFault = none → ((bridleFault 0x0701 i s).job.ownFault.map (fun l => (l.code, l.unit))) = some (0x0701#16, 0xC000#16)) :=
  ⟨(raiseFault_job _ _ _ _ h).1, fun ho => by rw [bridleFault, raiseFault_ownFault _ _ _ _ h ho]; rfl⟩

/-! ## A follower that looks for a parent (R137, R143) -/

theorem elect_of_follower (hid : s.bridle.committed.idValid = true) (hroot : s.bridle.committed.root = false) (hc : idClash s = false) :
    elect s = followBest s := by
  have hr : rootClash s = false := by simp [rootClash, hroot]
  unfold elect
  rw [if_neg (by simp [hid]), if_neg (by simp [hc]), if_neg (by simp [hr]), if_neg (by simp [hroot])]

theorem exec_parentLost (hp : s.pacer.running = true) (hpar : s.bridle.parent = some p) (hup : portUp (portOf s p) = false)
    (hid : s.bridle.committed.idValid = true) (hroot : s.bridle.committed.root = false) (hc : idClash s = false) :
    exec .parentLost s = .next (followBest s) := by
  show execParentLost s = _
  unfold execParentLost
  rw [hpar, ← elect_of_follower hid hroot hc]
  exact next_if_pos (by simp [hp, hup])

/-- Where every neighbour is too many hops from the root none is a candidate. -/
theorem candidates_of_allTooFar (h : allTooFar s = true) : firstParent (candidates s) = none := by
  rw [allTooFar, Bool.and_eq_true] at h
  have e : candidates s = [] := by
    rw [candidates, List.filter_eq_nil_iff]
    intro x hx
    simp [by simpa using List.all_eq_true.mp h.2 x hx]
  rw [e]
  rfl

theorem followBest_none (h : firstParent (candidates s) = none) (hst : s.bridle.st = .synced) :
    followBest s = if allTooFar s then toUnsynced s else toHoldover s := by
  unfold followBest
  rw [h]
  dsimp only
  rw [hst]

theorem keepsCount_of_synced (hst : s.bridle.st = .synced) (hroot : s.bridle.committed.root = false) : keepsCount s = true := by
  simp [keepsCount, hst, ownCount, hroot]

theorem followBest_close {x : Nat × BitVec 992} (h : firstParent (candidates s) = some x) (hpar : s.bridle.parent = some p)
    (hx : x.1 ≠ p) (hst : s.bridle.st = .synced) (hroot : s.bridle.committed.root = false) (hc : closeTo s x.1 = true) :
    followBest s = keepParent x s := by
  unfold followBest
  rw [h]
  dsimp only
  rw [if_neg (by simp [hpar, Ne.symm hx]), if_pos ⟨hst, keepsCount_of_synced hst hroot, hc⟩]

theorem followBest_away {x : Nat × BitVec 992} (h : firstParent (candidates s) = some x) (hpar : s.bridle.parent = some p)
    (hx : x.1 ≠ p) (hst : s.bridle.st = .synced) (hc : closeTo s x.1 = false) :
    followBest s = toAcquiring x.1 (tRoot x.2) (tHops x.2 + 1) s := by
  unfold followBest
  rw [h]
  dsimp only
  rw [if_neg (by simp [hpar, Ne.symm hx]), if_neg (by simp [hc]), if_neg (by simp [hst])]

theorem toUnsynced_spec (hst : s.bridle.st = .synced) :
    changesOnly [.bridle, .ports, .job, .settings, .test] s (toUnsynced s) ∧ (toUnsynced s).bridle.st = .unsynced ∧
      (toUnsynced s).bridle.parent = none ∧ (toUnsynced s).bridle.count = s.bridle.count ∧
      (running s = false → changesOnly [.bridle, .ports] s (toUnsynced s)) ∧
      (running s = true → s.job.ownFault = none → (toUnsynced s).job.faulted = true ∧
        ((toUnsynced s).job.ownFault.map (fun l => (l.code, l.unit))) = some (0x0701#16, 0xC000#16)) := by
  have hr := toUnsynced_resync s
  refine ⟨hr.parts.mono (by decide), ?_, ?_, hr.count, hr.idle, fun hrun ho => ?_⟩
  · rw [toUnsynced, if_neg (by simp [hst])]
    rfl
  · rw [toUnsynced, if_neg (by simp [hst])]
    rfl
  · obtain ⟨hf, hown⟩ := bridleFault_spec 0xFF hrun
    rw [toUnsynced, if_neg (by simp [hst]), if_pos hrun]
    exact ⟨hf, hown ho⟩

/-! ## HOLDOVER (R143) -/

theorem slotEnded_holdover (hst : s.bridle.st = .holdover) (hpar : s.bridle.parent = none) :
    (slotEnded s).pacer.trims = s.pacer.trims + heldTrim s.bridle := by
  have hm := takeAllMoves_changes s
  have hl := leaveLocal_changes (takeAllMoves s)
  have hb : (leaveLocal (takeAllMoves s)).bridle = s.bridle := (hl .bridle (by decide)).trans (hm .bridle (by decide))
  have hp : (leaveLocal (takeAllMoves s)).pacer = s.pacer := (hl .pacer (by decide)).trans (hm .pacer (by decide))
  have hs : syncSlot (leaveLocal (takeAllMoves s)) = addTrim (heldTrim s.bridle) (leaveLocal (takeAllMoves s)) := by
    unfold syncSlot
    rw [hb, hpar]
    exact if_pos hst
  rw [slotEnded, hs, ← hp]
  rfl

/-! ## The mark (R153) -/

theorem markFire_spec (hp : s.pacer.running = true) (ha : s.bridle.markArmed = true) (hm : s.bridle.committed.mark.toNat = s.bridle.count) :
    ∃ t : State, exec .bridleMarkFire s = .next t ∧ changesOnly (.bridle :: posts) s t ∧
      t.bridle = { s.bridle with markArmed := false, markSec := s.tb.sec, markNs := s.tb.ns, events := s.bridle.events ||| 4 } ∧
      t.rings.seq = nextSeq s.rings.seq :=
  ⟨_, next_if_pos (by simp [hp, ha, hm]), ((withBridle_changes s _).mono (by decide)).trans ((post_changes _ _ _).mono (by decide)),
    post_changes _ _ _ .bridle (by decide), post_seq _ _ _⟩

end Sys2Proof.Machine

open Sys2Proof Sys2Proof.Machine

/-- Settles O26: a follower without its parent takes the branch of `followBest` that its candidates give it. -/
theorem parentLossAndHoldover : Obligations.ParentLossAndHoldover := by
  refine ⟨fun s p hp hpar hup hid hroot hc => ?_, fun s hp hst hpar => ?_, fun s hst hrun ho => ?_,
    fun s hp ha hm => markFire_spec hp ha hm⟩
  · rw [exec_parentLost hp hpar hup hid hroot hc]
    refine ⟨fun hfar hst => ?_, fun hnone hfar hst => ?_, fun x hx hne hst hclose => ?_, fun x hx hne hst hclose hrun => ?_⟩
    · rw [followBest_none (candidates_of_allTooFar hfar) hst, if_pos hfar]
      exact ⟨_, rfl, toUnsynced_spec hst⟩
    · rw [followBest_none hnone hst, if_neg (by simp [hfar]), toHoldover, if_neg (by simp [hst])]
      exact ⟨_, rfl, withBridle_changes s _, rfl, rfl, rfl, if_pos ⟨hst, by decide⟩⟩
    · rw [followBest_close hx hpar hne hst hroot hclose]
      exact ⟨_, rfl, withBridle_changes s _, hst, rfl, rfl, rfl, rfl⟩
    · rw [followBest_away hx hpar hne hst hclose, toAcquiring, if_neg (by simp [hrun])]
      exact ⟨_, rfl, withBridle_changes s _, rfl, rfl, rfl⟩
  · obtain ⟨hb, hpac⟩ := slotBegin_bridle s
    refine ⟨slotBegin s, next_if_pos hp, by rw [hb, (slotEnded_bridle s).1], ?_⟩
    rw [hpac, slotEnded_holdover hst hpar]
    rfl
  · obtain ⟨hf, hown⟩ := bridleFault_spec 0xFF hrun
    exact ⟨bridleFault 0x0701 0xFF s, next_if_pos ⟨hst, hrun⟩, hf, hown ho, (bridleFault_changes _ _ s).mono (by decide)⟩
end

section
/-! Proofs: what the crosspoint gathers (R116). -/

namespace Sys2Proof.Machine

variable {s : State} {n p k : Nat} {r : Reel} {ph pat sl : Nat} {e : BitVec 256} {q : Rec128}

/-! ## A run over a list in which one element counts -/

theorem foldl_of_fixed {α β : Type} {f : β → α → β} {l : List α} (h : ∀ x ∈ l, ∀ a, f a x = a) (b : β) : l.foldl f b = b := by
  induction l with
  | nil => rfl
  | cons x l ih => rw [List.foldl_cons, h x (List.mem_cons_self ..), ih fun y hy => h y (List.mem_cons_of_mem _ hy)]

theorem foldl_of_only {α β : Type} {f : β → α → β} {l : List α} {i : α} (hl : l.Nodup) (hi : i ∈ l)
    (h : ∀ x ∈ l, x ≠ i → ∀ a, f a x = a) (b : β) : l.foldl f b = f b i := by
  obtain ⟨l₁, l₂, rfl⟩ := List.append_of_mem hi
  obtain ⟨-, hnd, hdis⟩ := List.nodup_append.mp hl
  have h₁ : ∀ x ∈ l₁, ∀ a, f a x = a := fun x hx => h x (List.mem_append_left _ hx) (hdis x hx i (List.mem_cons_self ..))
  have h₂ : ∀ x ∈ l₂, ∀ a, f a x = a := fun x hx =>
    h x (List.mem_append_right _ (List.mem_cons_of_mem _ hx)) fun e => (List.nodup_cons.mp hnd).1 (e ▸ hx)
  rw [List.foldl_append, foldl_of_fixed h₁, List.foldl_cons, foldl_of_fixed h₂]

/-! ## The gather -/

/-- With one transmit entry on the die, the gather is that entry's departure. -/
theorem exec_crosspointGather_one (hp : s.pacer.running = true) (hn : n < s.ident.lineDies)
    (hplan : gatherPlan s = some (r, ph, pat, sl)) (hd : r.debug = false) (hdie : p / 16 = n) (he : txEntries r p ph pat sl = [e])
    (hother : ∀ j, j / 16 = n → j ≠ p → txEntries r j ph pat sl = []) (hk : xKind e = 0) :
    exec (.crosspointGather n) s = .next (gatherTile r ph p e s) := by
  have hport : ∀ j a, gatherPort (r, ph, pat, sl) j a = (txEntries r j ph pat sl).foldl (fun a e => gatherEntry r ph j e a) a :=
    fun _ _ => rfl
  have hself : gatherPort (r, ph, pat, sl) p s = gatherTile r ph p e s := by
    rw [hport, he]
    exact if_pos hk
  have hskip : ∀ (a : State) (x : Nat), x < 16 → x ≠ p % 16 → gatherPort (r, ph, pat, sl) (16 * n + x) a = a := by
    intro a x hx hne
    rw [hport, hother (16 * n + x) (by omega) (by omega)]
    rfl
  have hfold : (List.range 16).foldl (fun a k => gatherPort (r, ph, pat, sl) (16 * n + k) a) s = gatherTile r ph p e s := by
    rw [foldl_of_only List.nodup_range (List.mem_range.mpr (Nat.mod_lt p (show 0 < 16 by decide)))
      (fun x hx hne a => hskip a x (List.mem_range.mp hx) hne), show 16 * n + p % 16 = p by omega, hself]
  show execCrosspointGather n s = _
  unfold execCrosspointGather
  rw [hplan, hp, decide_eq_true hn, ← hfold]
  exact next_if_neg (by simp [hd])

/-- Outside debug mode a gather is not checked. -/
theorem debugChecks_of_not_debug (hd : r.debug = false) (t : Tile) : debugChecks s r t = false := by
  simp [debugChecks, gatherChecks, hd]

theorem stage_changes (p pos : Nat) (x : BitVec 2304) (prov : Bool) (src : Option (Nat × Nat)) (s : State) :
    changesOnly [.ports] s (stage p pos x prov src s) := updPort_changes _ _ s

theorem staged_stage (p pos : Nat) (x : BitVec 2304) (prov : Bool) (src : Option (Nat × Nat)) (s : State) :
    (portOf (stage p pos x prov src s) p).staged = (portOf s p).staged ++ [{ pos := pos, parcel := x, prov := prov, src := src }] := by
  rw [stage, portOf_updPort_self]

/-- A parcel that its tile has made moves from the outbox to the port's staging. -/
theorem gatherTile_made {x : OutEntry} (hq : routeAt r (xUnit e) ph (xRoute e) = some q)
    (hk : outboxPlace (tileOf s (xUnit e)) (xRoute e) (xPidx e) = some k) (hx : find? k (tileOf s (xUnit e)).outbox = some x) :
    gatherTile r ph p e s = stage p (xPos e) (parcelOf s q x) x.prov (if x.prov then some (xUnit e, x.line) else none)
      (setTile (xUnit e) { tileOf s (xUnit e) with outbox := erase k (tileOf s (xUnit e)).outbox } s) := by
  unfold gatherTile
  extract_lets u t check
  rw [hq]
  dsimp only
  rw [show outboxPlace t (xRoute e) (xPidx e) = some k from hk]
  dsimp only
  rw [show find? k t.outbox = some x from hx]

/-- A parcel that its tile has not made leaves as a LATE marker. -/
theorem gatherTile_missing (hd : r.debug = false) (hq : routeAt r (xUnit e) ph (xRoute e) = some q)
    (hk : outboxPlace (tileOf s (xUnit e)) (xRoute e) (xPidx e) = none) :
    gatherTile r ph p e s = stage p (xPos e) (neverMade s q (xPidx e)) false none s := by
  unfold gatherTile
  extract_lets u t check
  have hc : check = false := by simp [check, debugChecks_of_not_debug hd]
  rw [hq]
  dsimp only
  rw [show outboxPlace t (xRoute e) (xPidx e) = none from hk]
  dsimp only
  rw [missingParcel, hc]
  rfl

theorem gather_spec (hp : s.pacer.running = true) (hn : n < s.ident.lineDies) (hplan : gatherPlan s = some (r, ph, pat, sl))
    (hd : r.debug = false) (hdie : p / 16 = n) (he : txEntries r p ph pat sl = [e])
    (hother : ∀ j, j / 16 = n → j ≠ p → txEntries r j ph pat sl = []) (hkind : xKind e = 0)
    (hq : routeAt r (xUnit e) ph (xRoute e) = some q) :
    (∀ x, outboxPlace (tileOf s (xUnit e)) (xRoute e) (xPidx e) = some k → find? k (tileOf s (xUnit e)).outbox = some x →
      ∃ t : State, exec (.crosspointGather n) s = .next t ∧ changesOnly [.tiles, .ports] s t ∧ tilesBut (xUnit e) s t ∧
        portsBut p s t ∧ (portOf t p).staged = (portOf s p).staged ++
          [{ pos := xPos e, parcel := parcelOf s q x, prov := x.prov, src := if x.prov then some (xUnit e, x.line) else none }] ∧
        (tileOf t (xUnit e)).outbox = erase k (tileOf s (xUnit e)).outbox) ∧
    (outboxPlace (tileOf s (xUnit e)) (xRoute e) (xPidx e) = none →
      ∃ t : State, exec (.crosspointGather n) s = .next t ∧ changesOnly [.ports] s t ∧ portsBut p s t ∧
        (portOf t p).staged = (portOf s p).staged ++
          [{ pos := xPos e, parcel := neverMade s q (xPidx e), prov := false, src := none }]) := by
  rw [exec_crosspointGather_one hp hn hplan hd hdie he hother hkind]
  refine ⟨fun x hk hx => ?_, fun hk => ?_⟩
  · rw [gatherTile_made hq hk hx]
    have ht := setTile_changes (xUnit e) { tileOf s (xUnit e) with outbox := erase k (tileOf s (xUnit e)).outbox } s
    refine ⟨_, rfl, (ht.mono (by decide)).trans ((stage_changes _ _ _ _ _ _).mono (by decide)), fun v hv => tileOf_setTile_other hv _ s,
      fun j hj => portOf_updPort_other hj _ _, staged_stage _ _ _ _ _ _, ?_⟩
    rw [(stage_changes _ _ _ _ _ _).tileOf_eq (by decide), tileOf_setTile_self]
  · rw [gatherTile_missing hd hq hk]
    exact ⟨_, rfl, stage_changes _ _ _ _ _ s, fun j hj => portOf_updPort_other hj _ _, staged_stage _ _ _ _ _ _⟩

end Sys2Proof.Machine
end

section
/-! Proofs: a frame at its delivery slot (O27). -/

namespace Sys2Proof.Machine

variable {s t : State} {p : Nat} {f : Frame}

/-! ## The tail, outside a job -/

theorem bridleEvent_resync (k : Nat) (s : State) : Resync s (bridleEvent k s) := resync_updBridle _ s rfl

theorem Resync.ite {u : State} {c : Prop} [Decidable c] (h : Resync s t) (k : Resync s u) : Resync s (if c then t else u) := by
  split
  · exact h
  · exact k

theorem toHoldover_resync (s : State) : Resync s (toHoldover s) := .ite (.refl s) (resync_updBridle _ s rfl)

theorem keepParent_resync (x : Nat × BitVec 992) (s : State) : Resync s (keepParent x s) := resync_updBridle _ s rfl

theorem followBest_resync (s : State) : Resync s (followBest s) := by
  unfold followBest
  extract_lets b
  split
  · split
    · exact .ite (toUnsynced_resync s) (toHoldover_resync s)
    · exact .ite (toUnsynced_resync s) (.refl s)
    · exact toUnsynced_resync s
    · exact .refl s
  · exact .ite (keepParent_resync _ s) (.ite (keepParent_resync _ s)
      (.ite ((keepParent_resync _ s).trans (resync_updBridle _ _ rfl)) (toAcquiring_resync _ _ _ s)))

theorem rootPlace_resync (s : State) : Resync s (rootPlace s) := by
  unfold rootPlace
  extract_lets b
  split
  · exact .ite (.refl s) (toUnsynced_resync s)
  · split
    · exact toAcquiring_resync _ _ _ s
    · exact .refl s
    · exact .ite (.refl s) (toUnsynced_resync s)
  · exact toUnsynced_resync s
  · split
    · exact toAcquiring_resync _ _ _ s
    · exact .refl s

theorem elect_resync (s : State) : Resync s (elect s) :=
  .ite (toUnsynced_resync s) (.ite ((bridleEvent_resync 5 s).trans (toUnsynced_resync _))
    (.ite ((bridleEvent_resync 6 s).trans (followBest_resync _)) (.ite (rootPlace_resync s) (followBest_resync s))))

theorem compareCount_resync (t : BitVec 992) (hr : running s = false) : Resync s (compareCount p t s) := by
  unfold compareCount
  rw [if_neg (c := running s = true) (by simp [hr])]
  exact .ite (.ite (reacquire_resync s) (bridleEvent_resync 7 s)) (.refl s)

theorem keepTail_changes (p : Nat) (f : Frame) (t : BitVec 992) (s : State) : changesOnly [.ports] s (keepTail p f t s) :=
  updPort_changes _ _ s

theorem seeLeader_changes (d : Decision) (s : State) : changesOnly [.power] s (seeLeader d s) := withPower_changes s _

theorem leaveSynced_resync (s : State) : Resync s (leaveSynced s) := by
  unfold leaveSynced
  split
  · split
    · exact toAcquiring_resync _ _ _ s
    · exact resync_updBridle _ s rfl
  · exact .refl s

theorem foldRequest_changes (p : Nat) (t : BitVec 992) (s : State) : changesOnly [.power] s (foldRequest p t s) := by
  unfold foldRequest
  split
  · exact .ite (withPower_changes s _) (.refl _ s)
  · exact .refl _ s

theorem idleDecision_changes (d : Decision) (hr : running s = false) : changesOnly [.bridle, .ports, .power] s (idleDecision d s) := by
  unfold idleDecision
  extract_lets s1 s2
  have h1 : changesOnly [.power] s s1 := seeLeader_changes d s
  have hr1 : running s1 = false := by
    rw [running, show s1.job = s.job from h1 .job (by decide)]
    exact hr
  have h1' : changesOnly [.bridle, .ports, .power] s s1 := h1.mono (by decide)
  have h2 : changesOnly [.bridle, .ports, .power] s s2 := h1.both ((leaveSynced_resync s1).idle hr1) (by decide) (by decide)
  exact .ite h1' (.ite (h2.next (withPower_changes s2 _) (by decide)) (.ite (h1'.next (withPower_changes s1 _) (by decide)) h1'))

theorem hearPace_changes (t : BitVec 992) (hr : running s = false) : changesOnly [.bridle, .ports, .power] s (hearPace p t s) := by
  unfold hearPace
  extract_lets s1
  have h1 : changesOnly [.power] s s1 := foldRequest_changes p t s
  have hr1 : running s1 = false := by
    rw [running, show s1.job = s.job from h1 .job (by decide)]
    exact hr
  split
  · rw [hr1]
    exact h1.both (idleDecision_changes _ hr1) (by decide) (by decide)
  · exact h1.mono (by decide)

/-- Outside a job a tail tells of the tree and of the pace alone. -/
theorem hearTail_changes (f : Frame) (t : BitVec 992) (hr : running s = false) :
    changesOnly [.bridle, .ports, .power] s (hearTail p f t s) := by
  have hrun : ∀ {u : State}, changesOnly [.bridle, .ports] s u → running u = false := fun h => by
    rw [running, show _ = s.job from h .job (by decide)]
    exact hr
  have h1 : changesOnly [.bridle, .ports] s (keepTail p f t s) := (keepTail_changes p f t s).mono (by decide)
  have h2 := h1.trans ((compareCount_resync (p := p) t (hrun h1)).idle (hrun h1))
  have h3 := h2.trans ((elect_resync _).idle (hrun h2))
  have h4 : hearNotice p t (elect (compareCount p t (keepTail p f t s))) = elect (compareCount p t (keepTail p f t s)) := by
    unfold hearNotice
    rw [hrun h3]
    rfl
  unfold hearTail
  rw [h4]
  exact h3.both (hearPace_changes t (hrun h3)) (by decide) (by decide)

/-! ## The positions, outside a job -/

/-- What corrected codewords leave: their own count and the counts of a link, no other. -/
theorem fecCorr_detectTotals (c : Nat) (g : Nat → Nat) (x : Totals) : (detectTotals c g x).fecCorr = x.fecCorr := by
  unfold detectTotals
  extract_lets t1
  split <;> rfl

theorem countDetect_fecCorr (c : Nat) (i : Option Nat) (s : State) :
    (countDetect c i s).sec.totals.fecCorr = s.sec.totals.fecCorr := by
  have hu : ∀ j a, (countUnit c j a).sec.totals = a.sec.totals := by
    intro j a
    unfold countUnit
    extract_lets s1
    have h1 : changesOnly moves a s1 := by
      unfold s1
      split
      · exact (bumpCtr_changes _ j a).mono (by decide)
      · exact .refl _ a
    exact changesOnly.ite (h1.trans (.ite ((updHealth_changes j _ s1).mono (by decide)) (score_changes c j s1))) h1 .totals (by decide)
  unfold countDetect
  extract_lets s1
  have h1 : s1.sec.totals.fecCorr = s.sec.totals.fecCorr := fecCorr_detectTotals _ _ _
  split
  · rw [hu, h1]
  · exact h1

theorem portEvent_changes (evs : List Ev) (hr : running s = false) :
    changesOnly (.totals :: moves) s (portEvent p evs s) ∧ (portEvent p evs s).sec.totals.fecCorr = s.sec.totals.fecCorr := by
  unfold portEvent
  split
  · exact ⟨.refl _ s, rfl⟩
  · split
    · rw [raiseFault, raiseFaultLoc, if_neg (by simp [hr])]
      exact ⟨.refl _ s, rfl⟩
    · rw [raiseDetect]
      extract_lets l s1
      rw [if_neg (by simp [hr])]
      exact ⟨countDetect_changes _ _ s, countDetect_fecCorr _ _ s⟩

theorem dropRecords_changes (p : Nat) (s : State) : changesOnly [.ports] s (dropRecords p s) := updPort_changes _ _ s

theorem running_of_job (h : t.job = s.job) : running t = running s := by rw [running, running, h]

/-- Outside a job the positions of a frame are checked alone. -/
theorem deliverPositions_idle (held : Bool) (tailEvs : List Ev) (hr : running s = false) :
    changesOnly (.ports :: .totals :: moves) s (deliverPositions p f held tailEvs s) ∧
      (deliverPositions p f held tailEvs s).sec.totals.fecCorr = s.sec.totals.fecCorr := by
  have hd := dropRecords_changes p s
  have hr1 : running (dropRecords p s) = false := by rw [running_of_job (hd .job (by decide)), hr]
  have hpos : deliverPositions p f held tailEvs s = checkPositions p f tailEvs (dropRecords p s) := by
    unfold deliverPositions
    rw [hr]
    rfl
  have hev : ∀ evs, changesOnly (.ports :: .totals :: moves) s (portEvent p evs (dropRecords p s)) ∧
      (portEvent p evs (dropRecords p s)).sec.totals.fecCorr = s.sec.totals.fecCorr := fun evs =>
    ⟨hd.both (portEvent_changes evs hr1).1 (by decide) (by decide),
      (portEvent_changes evs hr1).2.trans (congrArg Totals.fecCorr (hd .totals (by decide)))⟩
  rw [hpos]
  unfold checkPositions
  split
  · exact hev _
  · exact hev _

theorem countFec_changes (p n : Nat) (s : State) : changesOnly [.totals, .health] s (countFec p n s) :=
  .ite (.refl _ s) (((updHealth_changes _ _ s).mono (by decide)).trans ((updTotals_changes _ _).mono (by decide)))

theorem countFec_fecCorr (p n : Nat) (s : State) : (countFec p n s).sec.totals.fecCorr = s.sec.totals.fecCorr + n := by
  unfold countFec
  split
  · next h => rw [h, Nat.add_zero]
  · rfl

theorem exec_frameDelivery (hp : s.pacer.running = true) (hpop : portPop s p = true) (hf : framing (portOf s p) = true) :
    exec (.frameDelivery p f) s = .next (deliverFrame p f s) := by
  show Host.Outcome.next _ = _
  rw [if_pos (by simp [hp, hpop]), if_pos hf]

theorem idleDelivery_spec (hp : s.pacer.running = true) (hpop : portPop s p = true) (hf : framing (portOf s p) = true)
    (hr : running s = false) (hl : f.late = false) :
    ∃ t : State, exec (.frameDelivery p f) s = .next t ∧ t.tiles = s.tiles ∧ t.job = s.job ∧ t.work = s.work ∧
      t.sec.totals.fecCorr = s.sec.totals.fecCorr + f.corrected := by
  rw [exec_frameDelivery hp hpop hf]
  have h0 := countFec_changes p f.corrected s
  have hr0 : running (countFec p f.corrected s) = false := by rw [running_of_job (h0 .job (by decide)), hr]
  have key : ∀ {u : State} (held : Bool) (evs : List Ev), changesOnly [.bridle, .ports, .power] (countFec p f.corrected s) u →
      let t := deliverPositions p f held evs u
      t.tiles = s.tiles ∧ t.job = s.job ∧ t.work = s.work ∧ t.sec.totals.fecCorr = s.sec.totals.fecCorr + f.corrected := by
    intro u held evs hu
    have hru : running u = false := by rw [running_of_job (hu .job (by decide)), hr0]
    obtain ⟨hd, hfec⟩ := deliverPositions_idle (p := p) (f := f) held evs hru
    have hall : changesOnly (.bridle :: .power :: .ports :: .totals :: moves) s (deliverPositions p f held evs u) :=
      (h0.both hu (by decide) (by decide)).next hd (by decide)
    refine ⟨hall .tiles (by decide), hall .job (by decide), hall .work (by decide), ?_⟩
    rw [hfec, ← countFec_fecCorr p f.corrected s, show u.sec.totals = (countFec p f.corrected s).sec.totals from hu .totals (by decide)]
  refine ⟨_, rfl, ?_⟩
  unfold deliverFrame
  extract_lets s0
  rw [if_neg (by simp [hl])]
  split
  · exact key _ _ (hearTail_changes f _ hr0)
  · exact key _ _ (.refl _ _)

/-! ## A late frame -/

theorem lateDelivery_spec (hp : s.pacer.running = true) (hpop : portPop s p = true) (hf : framing (portOf s p) = true)
    (hr : running s = true) (hl : f.late = true) :
    ∃ t : State, exec (.frameDelivery p f) s = .next t ∧ t.tiles = s.tiles ∧
      (reelPort s p = true ∨ (portOf s p).cls ≠ 0 → t.job.faulted = true) ∧
      (reelPort s p = false → (portOf s p).cls = 0 → t.job = s.job) := by
  rw [exec_frameDelivery hp hpop hf]
  have h0 := countFec_changes p f.corrected s
  have hd : changesOnly [.totals, .health, .ports] s (dropRecords p (countFec p f.corrected s)) :=
    h0.both (dropRecords_changes p _) (by decide) (by decide)
  have hclass : hasClass (countFec p f.corrected s) p = (reelPort s p || (portOf s p).cls != 0) := by
    unfold hasClass reelPort
    rw [h0.portOf_eq (by decide), show (countFec p f.corrected s).reel = s.reel from h0 .reel (by decide)]
  have hrun : running (dropRecords p (countFec p f.corrected s)) = true := by rw [running_of_job (hd .job (by decide)), hr]
  refine ⟨_, rfl, ?_⟩
  unfold deliverFrame
  extract_lets s0
  rw [if_pos hl, hclass, running_of_job (h0 .job (by decide)), hr, Bool.true_and]
  by_cases hc : (reelPort s p || (portOf s p).cls != 0) = true
  · rw [if_pos hc]
    exact ⟨(raiseFault_changes _ _ _ _ _ .tiles (by decide)).trans (hd .tiles (by decide)), fun _ => (raiseFault_job _ _ _ _ hrun).1,
      fun h1 h2 => by simp [h1, h2] at hc⟩
  · rw [if_neg hc]
    refine ⟨hd .tiles (by decide), fun h => absurd ?_ hc, fun _ _ => hd .job (by decide)⟩
    rcases h with h | h <;> simp [h]

end Sys2Proof.Machine
end

section
/-! Proofs: a parcel that a job's frame brings (O27). -/

namespace Sys2Proof.Machine

/-! ## A tail that agrees with its hearer -/

section
variable {s : State} {p : Nat} {f : Frame} {tl : BitVec 992}

/-- A tail whose count is the one that the package expects. -/
theorem compareCount_of_agrees (h : tCount tl + padClass s p = cnt s) : compareCount p tl s = s := by
  unfold compareCount
  rw [if_neg (by simp [h])]

/-- A root that is synchronised without a parent, and that hears nothing lower and not itself, stays as it is. -/
theorem elect_of_root (hst : s.bridle.st = .synced) (hpar : s.bridle.parent = none) (hroot : s.bridle.committed.root = true)
    (hid : s.bridle.committed.idValid = true)
    (hheard : ∀ j l, portUp (portOf s j) = true → (portOf s j).tail = some l →
      (tIdValid l = true → tOwn l ≠ selfId s) ∧ (advertises l = true → (selfId s).toNat ≤ (tRoot l).toNat)) : elect s = s := by
  have hall : ∀ x ∈ heard s, (tIdValid x.2 = true → tOwn x.2 ≠ selfId s) ∧
      (advertises x.2 = true → (selfId s).toNat ≤ (tRoot x.2).toNat) := by
    intro x hx
    obtain ⟨j, -, hj⟩ := List.mem_filterMap.mp hx
    split at hj
    · next hup =>
      obtain ⟨l, hl, rfl⟩ := Option.map_eq_some_iff.mp hj
      exact hheard j l hup hl
    · cases hj
  have hclash : idClash s = false := by
    rw [idClash, List.any_eq_false]
    intro x hx h
    simp only [showsId, Bool.and_eq_true, beq_iff_eq] at h
    exact (hall x hx).1 h.1 h.2
  have hlow : rootClash s = false := by
    rw [rootClash, hroot, Bool.true_and, List.any_eq_false]
    intro x hx h
    simp only [Bool.and_eq_true, decide_eq_true_eq] at h
    exact absurd ((hall x hx).2 h.1) (Nat.not_le.mpr h.2)
  unfold elect
  rw [if_neg (by simp [hid]), if_neg (by simp [hclash]), if_neg (by simp [hlow]), if_pos hroot]
  unfold rootPlace
  dsimp only
  rw [hst, hpar]
  rfl

theorem hearNotice_of_none (h : tNotice tl = none) : hearNotice p tl s = s := by
  unfold hearNotice
  rw [h]
  split <;> simp_all

theorem hearPace_of_none (h : tDecision tl = none) : hearPace p tl s = foldRequest p tl s := by
  unfold hearPace
  rw [h]

end

/-! ## One DATA parcel (R120, R121) -/

section
variable {s : State} {p k : Nat} {f : Frame} {x : EnvBits} {y : BitVec 2304} {e : BitVec 256}

theorem entryAt_one (j : Nat) : entryAt [e] j = if xPos e = j then some e else none := by
  unfold entryAt
  by_cases h : xPos e = j <;> simp [h]

/-- The slot expects the one position that the frame marks. -/
theorem xpEvs_one {due : Option (BitVec 10)} (hm : marked x = [k]) (hk : xPos e = k) (hdue : due = none) :
    xpEvs f { start := x, entries := [e], due := due } = [] := by
  unfold xpEvs
  rw [List.map_eq_nil_iff, List.filter_eq_nil_iff]
  intro j _
  simp only [expects, hm, entryAt_one, hdue, hk]
  by_cases h : k = j
  · subst h
    simp
  · simp [h, Ne.symm h]
    intro h0 hk0
    exact absurd (hk0.symm.trans h0.symm) h

theorem overPositions_one {bad : BitVec 256 → BitVec 2304 → Bool} {c : Nat} {g : Reading} (hg : g.start = x) (he : g.entries = [e])
    (hm : marked x = [k]) (hk : xPos e = k) (hy : parcelAt f k = some y) (hbad : bad e y = false) : overPositions f g bad c = [] := by
  unfold overPositions
  rw [List.map_eq_nil_iff, List.filter_eq_nil_iff, hg, hm, he]
  intro j hj
  obtain rfl := List.mem_singleton.mp hj
  rw [entryAt_one, if_pos hk, hy]
  simp [hbad]

theorem positionDetects_one {g : Reading} (hg : g.start = x) (hm : marked x = [k]) (hy : parcelAt f k = some y)
    (hok : parcelOk y = true) (ht : pType y = 1) : positionDetects f g = [] := by
  unfold positionDetects
  rw [hg, hm]
  simp [hy, hok, ht]

/-- No confirm is due, and the parcel carries none. -/
theorem confirmDetects_one {g : Reading} (hg : g.start = x) (hdue : g.due = none) (hm : marked x = [k]) (hy : parcelAt f k = some y)
    (hok : parcelOk y = true) (hc : pConfValid y = false) : confirmDetects f g = [] := by
  unfold confirmDetects
  extract_lets z valid
  have hv : valid = false := by
    by_cases h : k = 0
    · subst h
      simp [valid, z, hg, hm, hy, hc]
    · simp [valid, z, hg, hm, Ne.symm h]
  have hl : confirmLost f g = false := by
    rw [confirmLost, hg, hm]
    by_cases h : k = 0
    · subst h
      simp [hy, hok]
    · simp [Ne.symm h]
  rw [hdue, hv, hl]
  rfl

theorem takePositions_one {g : Reading} (hg : g.start = x) (he : g.entries = [e]) (hm : marked x = [k]) (hk : xPos e = k)
    (hy : parcelAt f k = some y) (hok : parcelOk y = true) (ht : pType y = 1) (hkind : xKind e = 0) :
    takePositions p f g s = recordProv p f g (arrive (arrivalOf e y) s) := by
  unfold takePositions
  rw [he, hg, hm, List.foldl_cons, hk, hy]
  simp [takePosition, hkind, hok, ht]

end

/-! ## A DATA parcel at its tile (R73, R74) -/

section
variable {s : State} {a : Arrival}

theorem eventOf_setEvent_self (k v : Nat) (t : Tile) : eventOf (setEvent k v t) k = v := by
  rw [eventOf, setEvent]
  exact look_store_self 0 k v t.events

/-- The entry of a whole DATA parcel. -/
def enteredOf (s : State) (a : Arrival) : InEntry :=
  { late := a.late, at_ := cnt s, data := a.data, side := sideOf a.data, pdue := if a.prov && !a.late then s.job.slot + 2 else 0 }

/-- A parcel that finds its entry empty and its input below 255. -/
theorem arrive_spec (hd : a.dst < 1024) (hl : a.late = false) (hb : a.block = false)
    (hin : find? a.entry (tileOf s a.dst).inbox = none) (hev : eventOf (tileOf s a.dst) a.event < 255) :
    changesOnly [.tiles, .work] s (arrive a s) ∧ tilesBut a.dst s (arrive a s) ∧
      find? a.entry (tileOf (arrive a s) a.dst).inbox = some (enteredOf s a) ∧
      eventOf (tileOf (arrive a s) a.dst) a.event = eventOf (tileOf s a.dst) a.event + 1 ∧
      (arrive a s).work = { s.work with parcelsProv := s.work.parcelsProv + 1 } := by
  have hfill : fillEntry a s = updTile a.dst (fun t => { t with inbox := put a.entry (enteredOf s a) t.inbox }) s := by
    unfold fillEntry
    rw [hin]
    rfl
  have htile : tileOf (fillEntry a s) a.dst = { tileOf s a.dst with inbox := put a.entry (enteredOf s a) (tileOf s a.dst).inbox } := by
    rw [hfill, tileOf_updTile_self]
  have hv : eventOf (tileOf (fillEntry a s) a.dst) a.event = eventOf (tileOf s a.dst) a.event := by rw [htile]; rfl
  have hcount : countEvent a.dst a.event (fillEntry a s) =
      updTile a.dst (setEvent a.event (eventOf (tileOf s a.dst) a.event + 1)) (fillEntry a s) := by
    unfold countEvent
    rw [hv]
    exact if_neg (by omega)
  have hgather : ∀ u : State, gatherRx a u = u := fun u => if_pos (by simp [hb])
  have harr : arrive a s = _ := if_pos hd
  rw [harr]
  dsimp only
  rw [if_neg (by simp [hl]), hgather, hcount]
  have hc : changesOnly [.tiles] s (updTile a.dst (setEvent a.event (eventOf (tileOf s a.dst) a.event + 1)) (fillEntry a s)) := by
    rw [hfill]
    exact (updTile_changes _ _ s).trans (updTile_changes _ _ _)
  refine ⟨hc.both (withWork_changes _) (by decide) (by decide), fun v hne => ?_, ?_, ?_, ?_⟩
  · have h1 := tileOf_updTile_other hne (setEvent a.event (eventOf (tileOf s a.dst) a.event + 1)) (fillEntry a s)
    have h2 : tileOf (fillEntry a s) v = tileOf s v := by
      rw [hfill]
      exact tileOf_updTile_other hne _ s
    exact h1.trans h2
  · rw [(withWork_changes _).tileOf_eq (by decide), tileOf_updTile_self, htile]
    exact find?_put_self _ _ _
  · rw [(withWork_changes _).tileOf_eq (by decide), tileOf_updTile_self]
    exact eventOf_setEvent_self _ _ _
  · rw [show (updTile a.dst (setEvent a.event (eventOf (tileOf s a.dst) a.event + 1)) (fillEntry a s)).work = s.work from
      hc .work (by decide)]

end

/-! ## The delivery to a job -/

section
variable {s : State} {p k : Nat} {f : Frame} {r : Reel} {tl : BitVec 992} {x : EnvBits} {y : BitVec 2304} {e : BitVec 256}

/-- A tail that a synchronised root agrees with, and that carries no notice and no decision. -/
theorem hearTail_of_root (hst : s.bridle.st = .synced) (hpar : s.bridle.parent = none) (hroot : s.bridle.committed.root = true)
    (hid : s.bridle.committed.idValid = true)
    (hheard : ∀ j l, (j = p ∧ l = tl) ∨ (j ≠ p ∧ portUp (portOf s j) = true ∧ (portOf s j).tail = some l) →
      (tIdValid l = true → tOwn l ≠ selfId s) ∧ (advertises l = true → (selfId s).toNat ≤ (tRoot l).toNat))
    (hc : tCount tl + padClass s p = cnt s) (hn : tNotice tl = none) (hd : tDecision tl = none) :
    hearTail p f tl s = foldRequest p tl (keepTail p f tl s) := by
  have hpad : padClass (keepTail p f tl s) p = padClass s p := by
    unfold padClass
    rw [show (portOf (keepTail p f tl s) p).cls = (portOf s p).cls by rw [keepTail, portOf_updPort_self]]
    rfl
  have hel : elect (keepTail p f tl s) = keepTail p f tl s := by
    refine elect_of_root hst hpar hroot hid fun j l hup hl => ?_
    by_cases hj : j = p
    · subst hj
      rw [keepTail, portOf_updPort_self] at hl
      exact hheard j l (.inl ⟨rfl, (Option.some.inj hl).symm⟩)
    · rw [keepTail, portOf_updPort_other hj] at hup hl
      exact hheard j l (.inr ⟨hj, hup, hl⟩)
  unfold hearTail
  rw [compareCount_of_agrees (by rw [hpad]; exact hc), hel, hearNotice_of_none hn, hearPace_of_none hd]

/-- A frame with one DATA parcel that matches the one receive entry of the slot is taken whole. -/
theorem deliverPositions_one (hrun : running s = true) (hrw : s.job.rewound + padClass s p ≤ cnt s) (hx : f.slotStart = some x)
    (hxok : slotStartOk x = true) (hxt : ssJobTag x = tagNow s) (hm : marked x = [k]) (hy : parcelAt f k = some y)
    (hyok : parcelOk y = true) (ht : pType y = 1) (hyc : pConfValid y = false) (hexp : expected s p = [e]) (hk : xPos e = k)
    (hkind : xKind e = 0) (hroute : misrouted s p e y = false) (hdue : confirmDue s (portOf s p) = none) :
    deliverPositions p f false [] s =
      recordProv p f { start := x, entries := [e], due := none } (arrive (arrivalOf e y) (dropRecords p s)) := by
  have hfaults : portFaults s p f { start := x, entries := [e], due := none } false = [] := by
    have h1 := xpEvs_one (f := f) (due := none) hm hk rfl
    have h2 := overPositions_one (f := f) (bad := fun e x => pType x == 1 && misrouted s p e x) (c := 0x0604)
      (g := { start := x, entries := [e], due := none }) rfl rfl hm hk hy (by simp [hroute])
    have h3 := overPositions_one (f := f) (bad := fun e x => pProv x && xKind e == 1) (c := 0x0603)
      (g := { start := x, entries := [e], due := none }) rfl rfl hm hk hy (by simp [hkind])
    simp only [portFaults, frameFaults, transitFaults, hxt, h1, h2, h3]
    simp
  unfold deliverPositions
  extract_lets es due s1
  rw [if_neg (by simp [hrun]), if_neg (by simp [beforeRewind, hrw]), hx, Option.filter_some, if_pos hxok]
  dsimp only
  have hdet := positionDetects_one (f := f) (g := { start := x, entries := [e], due := none }) rfl hm hy hyok ht
  have hconf := confirmDetects_one (f := f) (g := { start := x, entries := [e], due := none }) rfl rfl hm hy hyok hyc
  rw [show es = [e] from hexp, show due = none from hdue, hfaults, hdet, hconf]
  have hquiet : portEvent p ([] ++ [] ++ [] ++ []) (noteVeto [] s1) = s1 := rfl
  rw [hquiet, if_neg (by simp)]
  exact takePositions_one rfl rfl hm hk hy hyok ht hkind

theorem recordProv_changes (p : Nat) (f : Frame) (g : Reading) (s : State) : changesOnly [.ports] s (recordProv p f g s) :=
  .ite (.refl _ s) (updPort_changes _ _ s)

theorem padClass_of_tail {t u : State} (hr : u.reel = t.reel) (hc : (portOf u p).cls = (portOf t p).cls) : padClass u p = padClass t p := by
  unfold padClass
  rw [hr, hc]

theorem portOf_hearRoot (s : State) : portOf (foldRequest p tl (keepTail p f tl s)) p =
    { portOf s p with tail := some tl, tailAt := cnt s, tailSeen := true,
                      phase := if (f.slotStart.filter slotStartOk).isSome then some f.phase else (portOf s p).phase } := by
  rw [(foldRequest_changes p tl _).portOf_eq (by decide), keepTail, portOf_updPort_self]

theorem cnt_of_bridle {t u : State} (h : u.bridle = t.bridle) : cnt u = cnt t := by rw [cnt, cnt, h]

end

end Sys2Proof.Machine

open Sys2Proof Sys2Proof.Machine

/-- Settles O27: the gather is its one entry's, the frame's events are none and its parcel arrives, and outside a job only counts move. -/
theorem parcelsAreGatheredAndDelivered : Obligations.ParcelsAreGatheredAndDelivered := by
  refine ⟨fun s n p k r ph pat sl e q hp hn hplan hd hdie he hother hkind hq => gather_spec hp hn hplan hd hdie he hother hkind hq,
    ?_, fun s p f hp hpop hf hr hl => idleDelivery_spec hp hpop hf hr hl, fun s p f hp hpop hf hr hl => lateDelivery_spec hp hpop hf hr hl⟩
  intro s p k f r tl x y e hp hpop hst hrun hreel hport hhalt hnote hrw hsync hpar hroot hid hheard hlate htail htok hcount hn hdec hx
    hxok hxt hm hy hyok ht hyc hyb hexp hk hkind hdst hroute hdue hin hev
  have hframe : framing (portOf s p) = true := by simp [framing, portUp, hst]
  rw [exec_frameDelivery hp hpop hframe]
  refine ⟨deliverFrame p f s, rfl, ?_⟩
  have h0 : changesOnly [.totals, .health] s (countFec p f.corrected s) := countFec_changes p f.corrected s
  have hb0 : (countFec p f.corrected s).bridle = s.bridle := h0 .bridle (by decide)
  have hr0 : (countFec p f.corrected s).reel = s.reel := h0 .reel (by decide)
  have hp0 : portOf (countFec p f.corrected s) = portOf s := h0.portOf_eq (by decide)
  have hpad0 : padClass (countFec p f.corrected s) p = padClass s p := padClass_of_tail hr0 (by rw [hp0])
  have hear := hearTail_of_root (s := countFec p f.corrected s) (p := p) (f := f) (tl := tl) (by rw [hb0]; exact hsync)
    (by rw [hb0]; exact hpar) (by rw [hb0]; exact hroot) (by rw [hb0]; exact hid)
    (by rw [hp0, selfId, hb0]; exact hheard) (by rw [hpad0, cnt_of_bridle hb0]; exact hcount) hn hdec
  generalize hs1 : foldRequest p tl (keepTail p f tl (countFec p f.corrected s)) = s1 at hear
  have h1 : changesOnly [.totals, .health, .ports, .power] s s1 := by
    rw [← hs1]
    exact (h0.mono (by decide)).trans (((keepTail_changes p f tl _).mono (by decide)).trans ((foldRequest_changes p tl _).mono (by decide)))
  have hport1 : portOf s1 p = _ := hs1 ▸ portOf_hearRoot (countFec p f.corrected s)
  rw [hp0] at hport1
  have hb1 : s1.bridle = s.bridle := h1 .bridle (by decide)
  have hj1 : s1.job = s.job := h1 .job (by decide)
  have hr1 : s1.reel = s.reel := h1 .reel (by decide)
  have hpad1 : padClass s1 p = padClass s p := padClass_of_tail hr1 (by rw [hport1])
  have hpos := deliverPositions_one (s := s1) (p := p) (f := f) (by rw [running_of_job hj1]; exact hrun)
    (by rw [hj1, hpad1, cnt_of_bridle hb1]; exact hrw) hx hxok (by rw [tagNow, hr1]; exact hxt) hm hy hyok ht hyc
    (by rw [expected, running_of_job hj1, hr1, hj1]; exact hexp) hk hkind
    (by rw [misrouted, hpad1, cnt_of_bridle hb1]; exact hroute) (by rw [hport1, confirmDue, cnt_of_bridle hb1]; exact hdue)
  have hheld : (haltedJob s1 || s1.job.notice != (countFec p f.corrected s).job.notice || carriesHeld s1 p tl) = false := by
    rw [haltedJob, hj1, cnt_of_bridle hb1, show (countFec p f.corrected s).job = s.job from h0 .job (by decide), carriesHeld, hn]
    rw [haltedJob] at hhalt
    simpa using hhalt
  have hall : deliverFrame p f s = recordProv p f { start := x, entries := [e], due := none }
      (arrive (arrivalOf e y) (dropRecords p s1)) := by
    rw [← hpos, ← hheld, ← hear]
    unfold deliverFrame
    extract_lets s0
    rw [if_neg (by simp [hlate]), goodTail, htail, Option.filter_some, if_pos htok]
  have h2 : changesOnly [.totals, .health, .ports, .power] s (dropRecords p s1) := h1.next (dropRecords_changes p s1) (by decide)
  have ht2 : tileOf (dropRecords p s1) = tileOf s := h2.tileOf_eq (by decide)
  obtain ⟨hc, hbut, hentry, hevent, hwork⟩ := arrive_spec (s := dropRecords p s1) (a := arrivalOf e y) hdst
    (by simp [arrivalOf, ht]) hyb (by rw [ht2]; exact hin) (by rw [ht2]; exact hev)
  have hrec := recordProv_changes p f { start := x, entries := [e], due := none } (arrive (arrivalOf e y) (dropRecords p s1))
  rw [hall]
  refine ⟨?_, ?_, ?_, ?_, ?_⟩
  · intro v hv
    rw [hrec.tileOf_eq (by decide), hbut v hv, ht2]
  · exact (hrec .job (by decide)).trans ((hc .job (by decide)).trans (h2 .job (by decide)))
  · rw [hrec.tileOf_eq (by decide)]
    refine hentry.trans (congrArg some ?_)
    rw [enteredOf, show (dropRecords p s1).job = s.job from h2 .job (by decide), cnt_of_bridle (h2 .bridle (by decide))]
    simp [arrivalOf, ht]
  · rw [hrec.tileOf_eq (by decide), ← ht2]
    exact hevent
  · rw [show (recordProv p f _ (arrive (arrivalOf e y) (dropRecords p s1))).work = _ from hrec .work (by decide), hwork,
      show (dropRecords p s1).work = s.work from h2 .work (by decide)]
end

section
/-! Proofs: what the issue of a word does, whatever its opcode (R54, R61, R71, R84). -/

namespace Sys2Proof.Machine

/-! ## The lowest event -/

/-- The lower of an event and the lowest so far. -/
def lowerOf (x e : Ev) : Ev := if e.1 < x.1 then e else x

theorem lowest_some (x : Ev) (l : List Ev) : lowest (x :: l) = some (l.foldl lowerOf x) := by
  unfold lowest
  rw [List.foldl_cons]
  induction l generalizing x with
  | nil => rfl
  | cons b l ih =>
    rw [List.foldl_cons, List.foldl_cons, ← ih]
    unfold lowerOf
    dsimp only
    split <;> rfl

/-- Of some events one with the lowest code is reported (R84). -/
theorem lowest_cons (x : Ev) (l : List Ev) : ∃ e, lowest (x :: l) = some e ∧ e ∈ x :: l ∧ ∀ y ∈ x :: l, e.1 ≤ y.1 := by
  refine ⟨_, lowest_some x l, ?_⟩
  induction l generalizing x with
  | nil => exact ⟨List.mem_singleton_self x, fun y hy => by rw [List.mem_singleton.mp hy]; rfl⟩
  | cons b l ih =>
    obtain ⟨hm, hle⟩ := ih (lowerOf x b)
    have hlow : (lowerOf x b = x ∨ lowerOf x b = b) ∧ (lowerOf x b).1 ≤ x.1 ∧ (lowerOf x b).1 ≤ b.1 := by
      unfold lowerOf
      split
      · exact ⟨.inr rfl, by omega, Nat.le_refl _⟩
      · exact ⟨.inl rfl, Nat.le_refl _, by omega⟩
    obtain ⟨hor, hx, hb⟩ := hlow
    have hself := hle _ (List.mem_cons_self ..)
    rw [List.foldl_cons]
    refine ⟨?_, fun y hy => ?_⟩
    · rcases List.mem_cons.mp hm with h | h
      · rw [h]
        rcases hor with h' | h'
        · rw [h']
          exact List.mem_cons_self ..
        · rw [h']
          exact List.mem_cons_of_mem _ (List.mem_cons_self ..)
      · exact List.mem_cons_of_mem _ (List.mem_cons_of_mem _ h)
    · rcases List.mem_cons.mp hy with rfl | hy
      · exact Nat.le_trans hself hx
      · rcases List.mem_cons.mp hy with rfl | hy
        · exact Nat.le_trans hself hb
        · exact hle y (List.mem_cons_of_mem _ hy)

theorem lowest_of_mem {l : List Ev} {x : Ev} (hx : x ∈ l) : ∃ e, lowest l = some e ∧ e ∈ l ∧ ∀ y ∈ l, e.1 ≤ y.1 := by
  cases l with
  | nil => cases hx
  | cons a l => exact lowest_cons a l

/-- The code of an event that holds, where no lower one does. -/
theorem lowest_eq {l : List Ev} {x : Ev} (hx : x ∈ l) (h : ∀ y ∈ l, x.1 ≤ y.1 ∧ (x.1 = y.1 → x = y)) : lowest l = some x := by
  obtain ⟨e, he, hm, hle⟩ := lowest_of_mem hx
  obtain ⟨h1, h2⟩ := h e hm
  rw [he, h2 (Nat.le_antisymm h1 (hle x hx))]

theorem mem_evsOf {l : List (Bool × Ev)} {e : Ev} : e ∈ evsOf l ↔ (true, e) ∈ l := by
  unfold evsOf
  rw [List.mem_map]
  refine ⟨fun ⟨x, hx, he⟩ => ?_, fun h => ⟨(true, e), List.mem_filter.mpr ⟨h, rfl⟩, rfl⟩⟩
  obtain ⟨hm, hb⟩ := List.mem_filter.mp hx
  rw [← he, ← show x.1 = true from hb]
  exact hm

/-! ## A word that may issue -/

section
variable {s : State} {u : Nat} {r : Reel} {w : Rec128} {rest : List Rec128} {op : Nat} {rule : OpRule}

/-- The tile whose sequencer has given its word. -/
def taken (s : State) (u : Nat) (rest : List Rec128) : Tile := { tileOf s u with todo := rest }

/-- The package in which a tile's sequencer has given its word. -/
def takenFrom (s : State) (u : Nat) (rest : List Rec128) : State := setTile u (taken s u rest) s

theorem takenFrom_changes (s : State) (u : Nat) (rest : List Rec128) : changesOnly [.tiles] s (takenFrom s u rest) := setTile_changes _ _ s

theorem tileOf_takenFrom (s : State) (u : Nat) (rest : List Rec128) : tileOf (takenFrom s u rest) u = taken s u rest :=
  tileOf_setTile_self _ _ s

theorem tilesBut_takenFrom (s : State) (u : Nat) (rest : List Rec128) : tilesBut u s (takenFrom s u rest) :=
  fun _ hv => tileOf_setTile_other hv _ s

theorem mayIssue_spec (h : mayIssue s u = true) :
    u < 1024 ∧ running s = true ∧ haltedJob s = false ∧ (tileOf s u).flight = none := by
  simp only [mayIssue, Bool.and_eq_true, decide_eq_true_eq, Bool.not_eq_true', Option.isNone_iff_eq_none] at h
  obtain ⟨⟨⟨⟨⟨hu, hr⟩, hh⟩, -⟩, -⟩, hf⟩ := h
  exact ⟨hu, hr, hh, hf⟩

theorem issue_of_not_mayIssue (h : mayIssue s u = false) : issue op rule u s = s := by
  unfold issue
  rw [h]

theorem issue_of_word (hm : mayIssue s u = true) (hr : s.reel = some r) (ht : (tileOf s u).todo = w :: rest)
    (hs : wSlot w = s.job.slot) (ho : wOp w = op) : issue op rule u s = issueWord rule r u w rest s := by
  unfold issue
  rw [hm, hr, ht]
  exact if_pos ⟨hs, .inl ho⟩

theorem issue_of_ready (h : readyToIssue s u r w rest op) : issue op rule u s = issueWord rule r u w rest s := by
  obtain ⟨hm, hr, ht, hs, ho, -⟩ := h
  exact issue_of_word hm hr ht hs ho

theorem commonEvs_of_ready (h : readyToIssue s u r w rest op) : commonEvs s r u (taken s u rest) w = [] := by
  obtain ⟨-, -, -, -, -, hf, ho, hv, hst⟩ := h
  have hv' : (wV w && r.strict) = false := by
    cases hw : wV w
    · rfl
    · exact hv hw
  have hs' : (srcLines w).any (staleLine (jobRegions s r u) (taken s u rest)) = false := by
    rw [List.any_eq_false]
    exact fun l hl => Bool.eq_false_iff.mp (hst l hl)
  unfold commonEvs
  dsimp only
  rw [hf, ho, hv', hs']
  rfl

/-- The events of a word at its issue. -/
def wordEvs (rule : OpRule) (s : State) (r : Reel) (u : Nat) (w : Rec128) (rest : List Rec128) : List Ev :=
  commonEvs s r u (taken s u rest) w ++
    (if (fieldsOk w && operandsOk (jobRegions s r u) w) = true then rule.evs s r u (taken s u rest) w else [])

/-- The package after a word that reports an event, or none. -/
def issuedAs (rule : OpRule) (s : State) (r : Reel) (u : Nat) (w : Rec128) (rest : List Rec128) : Option Ev → State
  | none => rule.go (takenFrom s u rest) r u (taken s u rest) w
  | some e =>
    if isFaultCode e.1 then tileFault e.1 u e.2 (wToken w) (takenFrom s u rest)
    else tileDetect e.1 u e.2 (wToken w) (rule.go (takenFrom s u rest) r u (taken s u rest) w)

theorem issueWord_eq : issueWord rule r u w rest s = issuedAs rule s r u w rest (lowest (wordEvs rule s r u w rest)) := by
  unfold issueWord issuedAs
  rfl

/-- A word that is ready tells the events of its opcode alone. -/
theorem wordEvs_of_ready (h : readyToIssue s u r w rest op) : wordEvs rule s r u w rest = rule.evs s r u (taken s u rest) w := by
  have hc := commonEvs_of_ready h
  obtain ⟨-, -, -, -, -, hf, ho, -, -⟩ := h
  rw [wordEvs, hc, hf, ho]
  rfl

/-- A ready word that tells of nothing. -/
theorem issue_quiet (h : readyToIssue s u r w rest op) (he : rule.evs s r u (taken s u rest) w = []) :
    issue op rule u s = rule.go (takenFrom s u rest) r u (taken s u rest) w := by
  rw [issue_of_ready h, issueWord_eq, wordEvs_of_ready h, he]
  rfl

/-- A ready word whose lowest event is a detection goes on. -/
theorem issue_detect {c i : Nat} (h : readyToIssue s u r w rest op) (hl : lowest (rule.evs s r u (taken s u rest) w) = some (c, i))
    (hc : isFaultCode c = false) :
    issue op rule u s = tileDetect c u i (wToken w) (rule.go (takenFrom s u rest) r u (taken s u rest) w) := by
  rw [issue_of_ready h, issueWord_eq, wordEvs_of_ready h, hl]
  exact if_neg (by simp [hc])

/-- A word whose lowest event is a fault does not issue. -/
theorem issueWord_fault {c i : Nat} (hl : lowest (wordEvs rule s r u w rest) = some (c, i)) (hc : isFaultCode c = true) :
    issueWord rule r u w rest s = tileFault c u i (wToken w) (takenFrom s u rest) := by
  rw [issueWord_eq, hl]
  exact if_pos hc

/-! ## Faults and detections at the issue -/

theorem retract_of_untold {n k : Nat} (h : toldIn s (tileOf s n) k = none) : retract n k s = s := by
  unfold retract
  rw [h]

theorem fresh_of_untold {t : Tile} {c k : Nat} (h : toldIn s t k = none) : fresh s t c k = true := by
  unfold fresh
  rw [h]
  rfl

theorem tileFault_of_untold {n k : Nat} (c i : Nat) (h : toldIn s (tileOf s n) k = none) :
    tileFault c n i k s = raiseFault c (tileUnit n) i k (updTile n (tellTile s n c k) s) := by
  unfold tileFault
  rw [if_pos (fresh_of_untold h), retract_of_untold h]

theorem tileDetect_of_untold {n k : Nat} (c i : Nat) (h : toldIn s (tileOf s n) k = none) :
    tileDetect c n i k s = raiseDetect c (tileUnit n) i k (updTile n (tellTile s n c k) s) := by
  unfold tileDetect
  rw [if_pos (fresh_of_untold h), retract_of_untold h]

theorem tellTile_fault {c : Nat} (hc : isFaultCode c = true) (n k : Nat) (t : Tile) : tellTile s n c k t = { t with told := (cnt s, k, c) } :=
  if_pos hc

/-- A fault of a tile that has told of nothing in the token: the tile keeps everything but what it told of, and the job has faulted. -/
theorem tileFault_spec {n k c i : Nat} (hr : running s = true) (h : toldIn s (tileOf s n) k = none) (hc : isFaultCode c = true) :
    (tileFault c n i k s).job.faulted = true ∧ changesOnly [.tiles, .job, .settings, .test] s (tileFault c n i k s) ∧
      tilesBut n s (tileFault c n i k s) ∧ tileOf (tileFault c n i k s) n = { tileOf s n with told := (cnt s, k, c) } ∧
      (s.job.ownFault = none → (tileFault c n i k s).job.ownFault = some (locHere s c (tileUnit n) i k)) := by
  rw [tileFault_of_untold c i h]
  have hu := updTile_changes n (tellTile s n c k) s
  have hf := raiseFault_changes c (tileUnit n) i k (updTile n (tellTile s n c k) s)
  have htile : tileOf (raiseFault c (tileUnit n) i k (updTile n (tellTile s n c k) s)) = tileOf (updTile n (tellTile s n c k) s) :=
    hf.tileOf_eq (by decide)
  have hrun : running (updTile n (tellTile s n c k) s) = true := hr
  refine ⟨(raiseFault_job _ _ _ _ hrun).1, hu.both hf (by decide) (by decide), fun v hv => ?_, ?_, fun ho => ?_⟩
  · rw [htile, tileOf_updTile_other hv]
  · rw [htile, tileOf_updTile_self, tellTile_fault hc]
  · rw [raiseFault_ownFault _ _ _ _ hrun ho]
    rfl

theorem toldIn_takenFrom (h : toldIn s (tileOf s u) (wToken w) = none) :
    toldIn (takenFrom s u rest) (tileOf (takenFrom s u rest) u) (wToken w) = none := by
  rw [tileOf_takenFrom]
  exact h

/-- A word whose lowest event is a fault. -/
theorem faultsAtIssue (hm : mayIssue s u = true) {c i : Nat} (ht : toldIn s (tileOf s u) (wToken w) = none) (hc : isFaultCode c = true) :
    let t := tileFault c u i (wToken w) (takenFrom s u rest)
    t.job.faulted = true ∧ tileOf t u = { taken s u rest with told := (cnt s, wToken w, c) } ∧ tilesBut u s t ∧
      changesOnly [.tiles, .job, .settings, .test] s t ∧
      (s.job.ownFault = none → t.job.ownFault = some (locHere s c (tileUnit u) i (wToken w))) := by
  obtain ⟨-, hr, -, -⟩ := mayIssue_spec hm
  obtain ⟨hf, hch, hb, htile, hown⟩ := tileFault_spec (s := takenFrom s u rest) (i := i) hr (toldIn_takenFrom ht) hc
  refine ⟨hf, ?_, fun v hv => (hb v hv).trans (tilesBut_takenFrom s u rest v hv), (takenFrom_changes s u rest).both hch (by decide) (by decide),
    hown⟩
  rw [htile, tileOf_takenFrom]
  rfl

/-- The issue of a ready word whose lowest event is a fault of its opcode. -/
theorem faultsWith_of_lowest {cmd : Instr} {c i : Nat} (h : readyToIssue s u r w rest op) (hx : exec cmd s = .next (issue op rule u s))
    (ht : toldIn s (tileOf s u) (wToken w) = none) (hc : isFaultCode c = true)
    (hl : lowest (rule.evs s r u (taken s u rest) w) = some (c, i)) :
    faultsWith (BitVec.ofNat 16 c) cmd s u rest ∧
      ∃ t : State, exec cmd s = .next t ∧ t.job.faulted = true ∧ tileOf t u = { taken s u rest with told := (cnt s, wToken w, c) } ∧
        tilesBut u s t ∧ changesOnly [.tiles, .job, .settings, .test] s t ∧
        (s.job.ownFault = none → t.job.ownFault = some (locHere s c (tileUnit u) i (wToken w))) := by
  have hiss : issue op rule u s = tileFault c u i (wToken w) (takenFrom s u rest) := by
    rw [issue_of_ready h]
    exact issueWord_fault (by rw [wordEvs_of_ready h]; exact hl) hc
  obtain ⟨hf, htile, hb, hch, hown⟩ := faultsAtIssue (rest := rest) (i := i) h.1 ht hc
  obtain ⟨-, -, -, hfl⟩ := mayIssue_spec h.1
  rw [hx, hiss]
  refine ⟨⟨_, hx.trans (congrArg _ hiss), hf, ?_, ?_, ?_, ?_, ?_, hb, hch, fun ho => by rw [hown ho]; rfl⟩, _, rfl, hf, htile, hb, hch, hown⟩
  all_goals rw [htile]
  · rfl
  · exact hfl
  · rfl
  · rfl
  · rfl

end

end Sys2Proof.Machine
end

section
/-! Proofs: operations that go into flight, with or without a detection (R54, R83), and EWAIT and RECV (O30). -/

namespace Sys2Proof.Machine

variable {s : State} {u : Nat} {r : Reel} {w : Rec128} {rest : List Rec128} {op : Nat} {rule : OpRule}

/-! ## Detections of a tile -/

/-- A detection of a tile of a running job is counted, and makes at most a notice. -/
theorem raiseDetect_counted (c i k : Nat) (hu : u < 1024) (hr : running s = true) :
    changesOnly [.settings, .test, .job] (countDetect c (some u) s) (raiseDetect c (tileUnit u) i k s) := by
  unfold raiseDetect
  extract_lets l s1 s2 m
  have h1 : s1 = countDetect c (some u) s := by rw [show s1 = countDetect c (unitIndex (tileUnit u)) s from rfl, unitIndex_tileUnit hu]
  have h2 : changesOnly [.settings, .test, .job] s1 s2 := (markDetected_changes s1).mono (by decide)
  rw [if_pos hr, ← h1]
  exact .ite h2 (h2.trans ((takeNotice_changes m s2).mono (by decide)))

theorem countUnit_totals (c : Nat) (hu : u < 1024) (s : State) : (countUnit c u s).sec.totals = s.sec.totals := by
  unfold countUnit
  extract_lets s1
  have h1 : changesOnly [.health] s s1 := by
    unfold s1
    split
    · exact bumpCtr_changes _ u s
    · exact .refl _ s
  rw [if_pos hu]
  exact changesOnly.ite (h1.trans (updHealth_changes u _ s1)) h1 .totals (by decide)

/-- The counter of a tile that a detection raises. -/
theorem countUnit_c2 (hu : u < 1024) (s : State) : (healthOf (countUnit 0x0483 u s) u).c2 = min ((healthOf s u).c2 + 1) 65535 := by
  have h1 : countUnit 0x0483 u s = addScore u (bumpCtr 2 u s) := by
    unfold countUnit
    dsimp only
    rw [if_pos hu]
    rfl
  rw [h1, addScore, healthOf_updHealth_self, bumpCtr, healthOf_updHealth_self, ctrWidth, if_pos hu]
  rfl

/-- A detection of a tile that has told of nothing in the token. -/
theorem tileDetect_spec {k c i : Nat} (hu : u < 1024) (hr : running s = true) (h : toldIn s (tileOf s u) k = none) :
    changesOnly (.tiles :: detects) s (tileDetect c u i k s) ∧ tilesBut u s (tileDetect c u i k s) ∧
      tileOf (tileDetect c u i k s) u = tellTile s u c k (tileOf s u) ∧
      (tileDetect c u i k s).sec.totals = detectTotals c (· + 1) s.sec.totals ∧
      healthOf (tileDetect c u i k s) = healthOf (countUnit c u (updTotals (detectTotals c (· + 1)) (updTile u (tellTile s u c k) s))) := by
  have hc := tileDetect_changes c u i k s
  rw [tileDetect_of_untold c i h] at hc ⊢
  have hd := raiseDetect_counted (s := updTile u (tellTile s u c k) s) c i k hu hr
  have htile : tileOf (raiseDetect c (tileUnit u) i k (updTile u (tellTile s u c k) s)) = tileOf (updTile u (tellTile s u c k) s) := by
    rw [hd.tileOf_eq (by decide), (countDetect_changes c (some u) _).tileOf_eq (by decide)]
  refine ⟨hc, fun v hv => ?_, ?_, ?_, ?_⟩
  · rw [htile, tileOf_updTile_other hv]
  · rw [htile, tileOf_updTile_self]
  · rw [show (raiseDetect c (tileUnit u) i k (updTile u (tellTile s u c k) s)).sec.totals = _ from hd .totals (by decide)]
    exact countUnit_totals c hu _
  · rw [hd.healthOf_eq (by decide)]
    rfl

theorem tellTile_detection {c : Nat} (hc : isFaultCode c = false) (n k : Nat) (t : Tile) :
    tellTile s n c k t = { t with told := (cnt s, k, c), detected := true, rose := willRise c (healthOf s n),
                                  moves := if detectScores c then t.moves ++ [c] else t.moves } :=
  if_neg (by simp [hc])

/-! ## Flights -/

/-- A tile with its word taken and in flight. -/
def flown (s : State) (u : Nat) (rest : List Rec128) (f : Flight) : Tile := { taken s u rest with flight := some f }

theorem tileOf_fly (f : Flight) (t : State) : tileOf (fly u f t) u = { tileOf t u with flight := some f } := tileOf_updTile_self u _ t

theorem tilesBut_fly (f : Flight) (t : State) : tilesBut u t (fly u f t) := fun _ hv => tileOf_updTile_other hv _ t

theorem fly_changes (f : Flight) (t : State) : changesOnly [.tiles] t (fly u f t) := updTile_changes u _ t

theorem tileOf_fly_takenFrom (f : Flight) : tileOf (fly u f (takenFrom s u rest)) u = flown s u rest f := by
  rw [tileOf_fly, tileOf_takenFrom, flown]

/-- An operation in flight is the tile's, and the queues and the Pocket are as they were. -/
theorem inFlight_of_tile {t : State} {f : Flight} {ps : List Part} (hc : changesOnly ps s t) (hb : tilesBut u s t)
    (hfl : (tileOf t u).flight = some f) (hw : f.word = w) (hl : f.last = wLast (jobClass s r) w) (ho : wOp w = op)
    (hkeep : (tileOf t u).lines = (tileOf s u).lines ∧ (tileOf t u).inbox = (tileOf s u).inbox ∧
      (tileOf t u).outbox = (tileOf s u).outbox ∧ (tileOf t u).flags = (tileOf s u).flags ∧
      (tileOf t u).halted = (tileOf s u).halted ∧ (tileOf t u).checks = (tileOf s u).checks) : inFlight ps s t u r w op f := by
  refine ⟨hc, hb, hfl, hw, ?_, hkeep⟩
  rw [hl, wLast, wStart, ho]

theorem inFlight_fly {f : Flight} (hw : f.word = w) (hl : f.last = wLast (jobClass s r) w) (ho : wOp w = op) :
    inFlight [.tiles] s (fly u f (takenFrom s u rest)) u r w op f := by
  refine inFlight_of_tile ((takenFrom_changes s u rest).trans (fly_changes f _))
    (fun v hv => (tilesBut_fly f _ v hv).trans (tilesBut_takenFrom s u rest v hv)) ?_ hw hl ho ?_
  · rw [tileOf_fly_takenFrom]
    rfl
  · rw [tileOf_fly_takenFrom]
    exact ⟨rfl, rfl, rfl, rfl, rfl, rfl⟩

/-- A ready word whose operation flies with result lines at its destination. -/
theorem issues_of_fly {cmd : Instr} {f : Flight} (h : readyToIssue s u r w rest op)
    (hx : exec cmd s = .next (fly u f (takenFrom s u rest))) (hw : f.word = w) (hl : f.last = wLast (jobClass s r) w)
    (hres : f.results.map (fun x => x.1) = dstLines w) : issues cmd [.tiles] s u r w rest op := by
  obtain ⟨-, -, -, -, ho, -⟩ := h
  refine ⟨_, f, hx, inFlight_fly hw hl ho, ?_⟩
  rw [tileOf_fly_takenFrom]
  exact ⟨rfl, rfl, rfl, hres⟩

/-! ## EWAIT and RECV (R74, R75, R77) -/

theorem ready_op (h : readyToIssue s u r w rest op) : wOp w = op := h.2.2.2.2.1

theorem ready_may (h : readyToIssue s u r w rest op) : u < 1024 ∧ running s = true := by
  obtain ⟨hu, hr, -, -⟩ := mayIssue_spec h.1
  exact ⟨hu, hr⟩

theorem isFaultCode_starved : isFaultCode 0x0485 = false := by decide

/-- The operation of a RECV: the line of its entry, and the entry's place at the deadline. -/
def recvFlight (s : State) (r : Reel) (t : Tile) (w : Rec128) : Flight :=
  { flightOf s r w with results := [(wDst w, recvLine t w)], effect := .freeEntry (wSrcA w) }

theorem eventOf_setEvent_other {k e : Nat} (hk : k ≠ e) (n : Nat) (t : Tile) : eventOf (setEvent e n t) k = eventOf t k := by
  exact look_store_other hk 0 n t.events

/-- A ready word whose one event is STARVED goes on, and the tile counts it. -/
theorem starved_spec {i : Nat} {f : Flight} (h : readyToIssue s u r w rest op) (ht : toldIn s (tileOf s u) (wToken w) = none)
    (hl : lowest (rule.evs s r u (taken s u rest) w) = some (0x0485, i))
    (hgo : rule.go (takenFrom s u rest) r u (taken s u rest) w = fly u f (takenFrom s u rest)) :
    let t := issue op rule u s
    changesOnly (.tiles :: detects) s t ∧ tilesBut u s t ∧
      tileOf t u = tellTile (fly u f (takenFrom s u rest)) u 0x0485 (wToken w) (flown s u rest f) ∧
      t.sec.totals = { s.sec.totals with detect := s.sec.totals.detect + 1, late := s.sec.totals.late + 1 } := by
  obtain ⟨hu, hr⟩ := ready_may h
  rw [issue_detect h hl isFaultCode_starved, hgo]
  have hc : changesOnly [.tiles] s (fly u f (takenFrom s u rest)) := (takenFrom_changes s u rest).trans (fly_changes f _)
  have htold : toldIn (fly u f (takenFrom s u rest)) (tileOf (fly u f (takenFrom s u rest)) u) (wToken w) = none := by
    rw [tileOf_fly_takenFrom]
    exact ht
  obtain ⟨hd, hb, htile, htot, -⟩ := tileDetect_spec (s := fly u f (takenFrom s u rest)) (c := 0x0485) (i := i) hu hr htold
  refine ⟨(hc.mono (by decide)).trans hd, fun v hv => ?_, ?_, ?_⟩
  · exact (hb v hv).trans ((tilesBut_fly f _ v hv).trans (tilesBut_takenFrom s u rest v hv))
  · rw [htile, tileOf_fly_takenFrom]
  · rw [htot, show (fly u f (takenFrom s u rest)).sec.totals = s.sec.totals from hc .totals (by decide)]
    rfl

end Sys2Proof.Machine

open Sys2Proof Sys2Proof.Machine

/-- Settles O30: with its input an EWAIT or a RECV flies as any word does, and without it STARVED is its lowest event. -/
theorem waitAndReceiveTakeTheirInput : Obligations.WaitAndReceiveTakeTheirInput := by
  intro s u r w rest
  refine ⟨fun h hin => ?_, fun h hin ht => ?_, fun h e he hl => ?_, fun h he ht => ?_⟩
  · have hshort : inputShort (taken s u rest) w = false := decide_eq_false (Nat.not_lt.mpr hin)
    have hev : ewaitRule.evs s r u (taken s u rest) w = [] := by
      show evsOf _ = []
      rw [hshort]
      rfl
    let g : Tile → Tile := fun x => setEvent (wAux w) (eventOf x (wAux w) - wImm w) x
    have hgo : issue 0x01 ewaitRule u s = fly u (flightOf s r w) (updTile u g (takenFrom s u rest)) := by
      rw [issue_quiet h hev]
      show justFly (if inputShort (taken s u rest) w then _ else _) r u w = _
      rw [hshort]
      rfl
    have htile : tileOf (fly u (flightOf s r w) (updTile u g (takenFrom s u rest))) u =
        { g (taken s u rest) with flight := some (flightOf s r w) } := by
      rw [tileOf_fly, tileOf_updTile_self, tileOf_takenFrom]
    refine ⟨_, flightOf s r w, congrArg Host.Outcome.next hgo, inFlight_of_tile ?_ (fun v hv => ?_) ?_ rfl rfl (ready_op h) ?_, ?_, ?_, fun k hk => ?_⟩
    · exact ((takenFrom_changes s u rest).trans (updTile_changes u g _)).trans (fly_changes _ _)
    · exact (tilesBut_fly _ _ v hv).trans ((tileOf_updTile_other hv g _).trans (tilesBut_takenFrom s u rest v hv))
    all_goals rw [htile]
    · exact ⟨rfl, rfl, rfl, rfl, rfl, rfl⟩
    · rfl
    · exact eventOf_setEvent_self _ _ _
    · exact eventOf_setEvent_other hk _ _
  · have hshort : inputShort (taken s u rest) w = true := decide_eq_true hin
    have hev : lowest (ewaitRule.evs s r u (taken s u rest) w) = some (0x0485, wAux w) := by
      show lowest (evsOf _) = _
      rw [hshort]
      rfl
    have hgo : ewaitRule.go (takenFrom s u rest) r u (taken s u rest) w = fly u (flightOf s r w) (takenFrom s u rest) := by
      show justFly (if inputShort (taken s u rest) w then _ else _) r u w = _
      rw [hshort]
      rfl
    obtain ⟨hc, hb, htile, htot⟩ := starved_spec h ht hev hgo
    rw [tellTile_detection isFaultCode_starved] at htile
    refine ⟨_, flightOf s r w, rfl, ?_, rfl, ?_, ?_, hb, htot, hc⟩
    all_goals
      refine Eq.trans (congrArg _ htile) ?_
      rfl
  · have hev : recvRule.evs s r u (taken s u rest) w = [] := by
      have hs : recvStarved (taken s u rest) w = false := by
        unfold recvStarved
        rw [show find? (wSrcA w) (taken s u rest).inbox = some e from he]
        exact hl
      show evsOf _ = []
      rw [hs]
      rfl
    have hline : recvLine (taken s u rest) w = { cleanLine e.data e.pdue with side := e.side } := by
      unfold recvLine
      rw [show find? (wSrcA w) (taken s u rest).inbox = some e from he]
      exact if_neg (by simp [hl])
    have hgo := issue_quiet h hev
    refine ⟨_, recvFlight s r (taken s u rest) w, congrArg Host.Outcome.next hgo, inFlight_fly rfl rfl (ready_op h), ?_, ?_, rfl⟩
    · rw [show tileOf (recvRule.go (takenFrom s u rest) r u (taken s u rest) w) u = _ from tileOf_fly_takenFrom _]
      rfl
    · show [(wDst w, (recvLine (taken s u rest) w).data, _, _)] = _
      rw [hline]
      rfl
  · have hs : recvStarved (taken s u rest) w = true := by
      unfold recvStarved
      rcases he with he | ⟨e, he, hl⟩
      · rw [show find? (wSrcA w) (taken s u rest).inbox = none from he]
      · rw [show find? (wSrcA w) (taken s u rest).inbox = some e from he]
        exact hl
    have hline : recvLine (taken s u rest) w = LineVal.zero := by
      unfold recvLine
      rcases he with he | ⟨e, he, hl⟩
      · rw [show find? (wSrcA w) (taken s u rest).inbox = none from he]
      · rw [show find? (wSrcA w) (taken s u rest).inbox = some e from he]
        exact if_pos hl
    have hev : lowest (recvRule.evs s r u (taken s u rest) w) = some (0x0485, wSrcA w) := by
      show lowest (evsOf _) = _
      rw [hs]
      rfl
    obtain ⟨hc, hb, htile, htot⟩ := starved_spec (f := recvFlight s r (taken s u rest) w) h ht hev rfl
    rw [tellTile_detection isFaultCode_starved] at htile
    refine ⟨_, recvFlight s r (taken s u rest) w, rfl, ?_, rfl, by rw [recvFlight, hline], rfl, ?_, ?_, ?_, hb, htot, hc⟩
    all_goals
      refine Eq.trans (congrArg _ htile) ?_
      rfl
end

section
/-! Proofs: the words that fault the job, and those that change nothing (O33). -/

namespace Sys2Proof.Machine

variable {s : State} {u : Nat} {r : Reel} {w : Rec128} {rest : List Rec128} {op : Nat} {rule : OpRule} {c : Instr}

/-! ## What each opcode's issue is -/

/-- A command that issues a word by a rule, whose events have codes of the tile's table at least, and none for a word that only computes. -/
def issuesBy (c : Instr) (u op : Nat) (rule : OpRule) : Prop :=
  (∀ s, exec c s = .next (issue op rule u s)) ∧ (∀ s r u t w, ∀ e ∈ rule.evs s r u t w, 0x0400 ≤ e.1) ∧
    (0x20 ≤ op ∨ op = 0x04 → rule.evs = noEvs)

theorem evsOf_coded {l : List (Bool × Ev)} (h : ∀ x ∈ l, 0x0400 ≤ x.2.1) : ∀ e ∈ evsOf l, 0x0400 ≤ e.1 :=
  fun _ he => h _ (mem_evsOf.mp he)

theorem pageMoveEvs_coded (s : State) (t : Tile) (w : Rec128) : ∀ e ∈ pageMoveEvs s t w, 0x0400 ≤ e.1 :=
  evsOf_coded (by simp)

theorem ewait_coded (s : State) (r : Reel) (u : Nat) (t : Tile) (w : Rec128) : ∀ e ∈ ewaitRule.evs s r u t w, 0x0400 ≤ e.1 :=
  evsOf_coded (by simp)

theorem recv_coded (s : State) (r : Reel) (u : Nat) (t : Tile) (w : Rec128) : ∀ e ∈ recvRule.evs s r u t w, 0x0400 ≤ e.1 :=
  evsOf_coded (by simp)

theorem send_coded (s : State) (r : Reel) (u : Nat) (t : Tile) (w : Rec128) : ∀ e ∈ sendRule.evs s r u t w, 0x0400 ≤ e.1 := by
  show ∀ e ∈ (match routeAt r u s.job.phase (wImm w) with
    | none => [(0x0409, 0xFF)]
    | some e => sendEvsOn s r u t e w), 0x0400 ≤ e.1
  split
  · simp
  · exact evsOf_coded (by simp)

theorem bld_coded (s : State) (r : Reel) (u : Nat) (t : Tile) (w : Rec128) : ∀ e ∈ bldRule.evs s r u t w, 0x0400 ≤ e.1 := by
  unfold bldRule
  dsimp only
  split <;> exact evsOf_coded (by simp)

theorem bst_coded (s : State) (r : Reel) (u : Nat) (t : Tile) (w : Rec128) : ∀ e ∈ bstRule.evs s r u t w, 0x0400 ≤ e.1 := by
  unfold bstRule
  dsimp only
  split
  · exact List.forall_mem_cons.mpr ⟨by decide, pageMoveEvs_coded s t w⟩
  · exact List.forall_mem_append.mpr ⟨evsOf_coded (by simp), pageMoveEvs_coded s t w⟩

theorem window_coded (k : MoveKind) (s : State) (r : Reel) (u : Nat) (t : Tile) (w : Rec128) :
    ∀ e ∈ (windowRule k).evs s r u t w, 0x0400 ≤ e.1 := by
  unfold windowRule
  dsimp only
  split
  · exact List.forall_mem_cons.mpr ⟨by decide, pageMoveEvs_coded s t w⟩
  · exact pageMoveEvs_coded s t w

theorem noEvs_coded (s : State) (r : Reel) (u : Nat) (t : Tile) (w : Rec128) : ∀ e ∈ noEvs s r u t w, 0x0400 ≤ e.1 :=
  fun _ h => nomatch h

/-- A rule without events of its own. -/
theorem issuesBy_of_noEvs (hx : ∀ s, exec c s = .next (issue op rule u s)) (h : rule.evs = noEvs) : issuesBy c u op rule :=
  ⟨hx, fun s r u t w => by rw [h]; exact noEvs_coded s r u t w, fun _ => h⟩

/-- A rule of a word that neither computes nor tests. -/
theorem issuesBy_of_low (hx : ∀ s, exec c s = .next (issue op rule u s)) (h : ∀ s r u t w, ∀ e ∈ rule.evs s r u t w, 0x0400 ≤ e.1)
    (ho : op < 0x20 ∧ op ≠ 0x04) : issuesBy c u op rule :=
  ⟨hx, h, fun h => absurd h (by omega)⟩

/-- Every word of Table 4-7 issues by a rule. -/
theorem exists_rule (h : (c, op) ∈ [(Instr.nop u, 0x00), (.ewait u, 0x01), (.esig u, 0x02), (.rdflg u, 0x03), (.exitIf u, 0x04), (.recv u, 0x10),
      (.send u, 0x11), (.bld u, 0x12), (.bst u, 0x13), (.bwr u, 0x14), (.gacc u, 0x15), (.gtree u, 0x16), (.mvd u, 0x20),
      (.mvs u, 0x21), (.mmh u, 0x22), (.mmq u, 0x23), (.mmi u, 0x24), (.vfma u, 0x30), (.vadd u, 0x31), (.vmul u, 0x32),
      (.vmax u, 0x33), (.vmin u, 0x34), (.vcvt u, 0x35), (.vred u, 0x36), (.vcpy u, 0x37)]) :
    ∃ rule, issuesBy c u op rule := by
  simp only [List.mem_cons, Prod.mk.injEq, List.not_mem_nil, or_false] at h
  rcases h with ⟨rfl, rfl⟩ | ⟨rfl, rfl⟩ | ⟨rfl, rfl⟩ | ⟨rfl, rfl⟩ | ⟨rfl, rfl⟩ | ⟨rfl, rfl⟩ | ⟨rfl, rfl⟩ | ⟨rfl, rfl⟩ | ⟨rfl, rfl⟩ |
    ⟨rfl, rfl⟩ | ⟨rfl, rfl⟩ | ⟨rfl, rfl⟩ | ⟨rfl, rfl⟩ | ⟨rfl, rfl⟩ | ⟨rfl, rfl⟩ | ⟨rfl, rfl⟩ | ⟨rfl, rfl⟩ | ⟨rfl, rfl⟩ | ⟨rfl, rfl⟩ |
    ⟨rfl, rfl⟩ | ⟨rfl, rfl⟩ | ⟨rfl, rfl⟩ | ⟨rfl, rfl⟩ | ⟨rfl, rfl⟩ | ⟨rfl, rfl⟩
  case inr.inl => exact ⟨ewaitRule, issuesBy_of_low (fun _ => rfl) ewait_coded (by decide)⟩
  case inr.inr.inr.inr.inr.inl => exact ⟨recvRule, issuesBy_of_low (fun _ => rfl) recv_coded (by decide)⟩
  case inr.inr.inr.inr.inr.inr.inl => exact ⟨sendRule, issuesBy_of_low (fun _ => rfl) send_coded (by decide)⟩
  case inr.inr.inr.inr.inr.inr.inr.inl => exact ⟨bldRule, issuesBy_of_low (fun _ => rfl) bld_coded (by decide)⟩
  case inr.inr.inr.inr.inr.inr.inr.inr.inl => exact ⟨bstRule, issuesBy_of_low (fun _ => rfl) bst_coded (by decide)⟩
  case inr.inr.inr.inr.inr.inr.inr.inr.inr.inl => exact ⟨windowRule .bwr, issuesBy_of_low (fun _ => rfl) (window_coded .bwr) (by decide)⟩
  case inr.inr.inr.inr.inr.inr.inr.inr.inr.inr.inl => exact ⟨windowRule .gacc, issuesBy_of_low (fun _ => rfl) (window_coded .gacc) (by decide)⟩
  case inr.inr.inr.inr.inr.inr.inr.inr.inr.inr.inr.inl => exact ⟨windowRule .gtree, issuesBy_of_low (fun _ => rfl) (window_coded .gtree) (by decide)⟩
  all_goals exact ⟨_, issuesBy_of_noEvs (fun _ => rfl) rfl⟩

/-! ## A fault at the issue -/

/-- Every code of the tile's table up to V_IN_STRICT is a fault's. -/
theorem isFaultCode_of_low {c : Nat} (h1 : 0x0400 ≤ c) (h2 : c ≤ 0x040A) : isFaultCode c = true := decide_eq_true (by omega)

theorem commonEvs_coded (s : State) (r : Reel) (u : Nat) (t : Tile) (w : Rec128) : ∀ e ∈ commonEvs s r u t w, 0x0400 ≤ e.1 :=
  evsOf_coded (by simp)

/-- The events of a word have codes of the tile's table at least. -/
theorem wordEvs_coded (h : issuesBy c u op rule) : ∀ e ∈ wordEvs rule s r u w rest, 0x0400 ≤ e.1 := by
  obtain ⟨-, hev, -⟩ := h
  refine List.forall_mem_append.mpr ⟨commonEvs_coded s r u _ w, ?_⟩
  split
  · exact hev s r u _ w
  · exact fun _ h => nomatch h

/-- What a word that reports a fault of code `e` leaves. -/
def faultedBy (c : Instr) (s : State) (u : Nat) (rest : List Rec128) (e : Nat) : Prop :=
  ∃ t : State, exec c s = .next t ∧ t.job.faulted = true ∧ (tileOf t u).todo = rest ∧ (tileOf t u).flight = none ∧
    (tileOf t u).lines = (tileOf s u).lines ∧ tilesBut u s t ∧ changesOnly [.tiles, .job, .settings, .test] s t ∧
    (s.job.ownFault = none → t.job.ownFault.map (fun l => (l.code, l.unit)) = some (BitVec.ofNat 16 e, BitVec.ofNat 16 u))

/-- A word that raises an event of a code up to V_IN_STRICT reports the lowest, which is a fault. -/
theorem faultedBy_of_mem (hi : issuesBy c u op rule) (hm : mayIssue s u = true) (hr : s.reel = some r) (ht : (tileOf s u).todo = w :: rest)
    (hs : wSlot w = s.job.slot) (ho : wOp w = op) (htold : toldIn s (tileOf s u) (wToken w) = none) {x : Ev}
    (hx : x ∈ wordEvs rule s r u w rest) (hlow : x.1 ≤ 0x040A) :
    ∃ e, lowest (wordEvs rule s r u w rest) = some e ∧ e ∈ wordEvs rule s r u w rest ∧
      (∀ y ∈ wordEvs rule s r u w rest, e.1 ≤ y.1) ∧ faultedBy c s u rest e.1 := by
  obtain ⟨e, hl, he, hle⟩ := lowest_of_mem hx
  have hcode : isFaultCode e.1 = true := isFaultCode_of_low (wordEvs_coded hi e he) ((hle x hx).trans hlow)
  obtain ⟨hf, htile, hb, hch, hown⟩ := faultsAtIssue (rest := rest) (i := e.2) hm htold hcode
  have hgo : exec c s = .next (tileFault e.1 u e.2 (wToken w) (takenFrom s u rest)) := by
    rw [hi.1, issue_of_word hm hr ht hs ho, issueWord_fault hl hcode]
  obtain ⟨-, -, -, hfl⟩ := mayIssue_spec hm
  refine ⟨e, hl, he, hle, _, hgo, hf, ?_, ?_, ?_, hb, hch, fun h => by rw [hown h]; rfl⟩
  all_goals rw [htile]
  · rfl
  · exact hfl
  · rfl

theorem commonEvs_of_illegal (h : fieldsOk w = false ∨ operandsOk (jobRegions s r u) w = false) :
    (fieldsOk w && operandsOk (jobRegions s r u) w) = false := by
  rcases h with h | h <;> simp [h]

/-- The events of a word that is not legal: ILLEGAL_OP, and V_IN_STRICT where it applies. -/
theorem wordEvs_of_illegal (h : (fieldsOk w && operandsOk (jobRegions s r u) w) = false) :
    wordEvs rule s r u w rest = evsOf [(true, (0x0409, 0xFF)), (wV w && r.strict, (0x040A, 0xFF))] := by
  unfold wordEvs commonEvs
  dsimp only
  rw [h]
  cases wV w && r.strict <;> rfl

/-- The events of a legal word: V_IN_STRICT, POCKET_STALE and those of its opcode. -/
theorem wordEvs_of_legal (hf : fieldsOk w = true) (ho : operandsOk (jobRegions s r u) w = true) :
    wordEvs rule s r u w rest = evsOf [(wV w && r.strict, (0x040A, 0xFF)),
      ((srcLines w).any (staleLine (jobRegions s r u) (taken s u rest)), (0x0407, 0xFF))] ++ rule.evs s r u (taken s u rest) w := by
  unfold wordEvs commonEvs
  dsimp only
  rw [hf, ho]
  cases wV w && r.strict <;> cases (srcLines w).any (staleLine (jobRegions s r u) (taken s u rest)) <;> rfl

end Sys2Proof.Machine

open Sys2Proof Sys2Proof.Machine

/-- Settles O33: a fault of a code up to V_IN_STRICT among a word's events makes the lowest one a fault. -/
theorem illegalWordsFaultTheJob : Obligations.IllegalWordsFaultTheJob := by
  refine ⟨fun s u r w rest c op hc => ?_, fun s u r w rest c op hm hr ht hs ho hfo hop htold => ⟨fun hc hst => ?_, fun hc hv hstrict => ?_⟩⟩
  · obtain ⟨rule, hi⟩ := exists_rule hc
    refine ⟨fun hm hr ht hs ho htold hbad => ?_, fun hm => ?_⟩
    · have hev := wordEvs_of_illegal (rule := rule) (rest := rest) (commonEvs_of_illegal hbad)
      have hmem : ((0x0409, 0xFF) : Ev) ∈ wordEvs rule s r u w rest := by
        rw [hev]
        exact mem_evsOf.mpr (List.mem_cons_self ..)
      obtain ⟨e, -, he, hle, t, hx, hf, htodo, hfl, hlines, hb, hch, hown⟩ := faultedBy_of_mem hi hm hr ht hs ho htold hmem (by decide)
      have hcode : e.1 = 0x0409 := by
        have h2 := hle _ hmem
        rw [hev, mem_evsOf] at he
        simp only [List.mem_cons, Prod.mk.injEq, List.not_mem_nil, or_false] at he
        rcases he with ⟨-, rfl⟩ | ⟨-, rfl⟩
        · rfl
        · omega
      rw [hcode] at hown
      exact ⟨t, hx, hf, htodo, hfl, hlines, hb, hch, hown⟩
    · rw [hi.1, issue_of_not_mayIssue hm]
  · obtain ⟨rule, hi⟩ := exists_rule (u := u) (op := op) (c := c) (List.Subset.trans (by simp) (List.Subset.refl _) hc)
    have hany : (srcLines w).any (staleLine (jobRegions s r u) (taken s u rest)) = true := List.any_eq_true.mpr hst
    have hev := wordEvs_of_legal (rule := rule) (rest := rest) hfo hop
    have hmem : ((0x0407, 0xFF) : Ev) ∈ wordEvs rule s r u w rest := by
      rw [hev]
      exact List.mem_append_left _ (mem_evsOf.mpr (by simp [hany]))
    obtain ⟨e, -, he, hle, t, hx, hf, htodo, hfl, hlines, hb, -, hown⟩ := faultedBy_of_mem hi hm hr ht hs ho htold hmem (by decide)
    refine ⟨t, hx, hf, htodo, hfl, hlines, hb, fun hlow => ?_⟩
    have hcode : e.1 = 0x0407 := by
      have h2 := hle _ hmem
      rw [hev, hi.2.2 hlow] at he
      rcases List.mem_append.mp he with he | he
      · rw [mem_evsOf] at he
        simp only [List.mem_cons, Prod.mk.injEq, List.not_mem_nil, or_false] at he
        rcases he with ⟨-, rfl⟩ | ⟨-, rfl⟩
        · omega
        · rfl
      · exact nomatch he
    rw [hcode] at hown
    exact hown
  · obtain ⟨rule, hi⟩ := exists_rule (u := u) (op := op) (c := c) (List.Subset.trans (by simp) (List.Subset.refl _) hc)
    have hev := wordEvs_of_legal (rule := rule) (rest := rest) hfo hop
    have hmem : ((0x040A, 0xFF) : Ev) ∈ wordEvs rule s r u w rest := by
      rw [hev]
      exact List.mem_append_left _ (mem_evsOf.mpr (by simp [hv, hstrict]))
    obtain ⟨e, -, he, hle, t, hx, hf, htodo, hfl, hlines, hb, -, hown⟩ := faultedBy_of_mem hi hm hr ht hs ho htold hmem (by decide)
    refine ⟨t, hx, hf, htodo, hfl, hlines, hb, fun hne hfresh => ?_⟩
    have hhigh : 0x20 ≤ op ∨ op = 0x04 := by
      simp only [List.mem_cons, Prod.mk.injEq, List.not_mem_nil, or_false] at hc
      omega
    have hany : (srcLines w).any (staleLine (jobRegions s r u) (taken s u rest)) = false :=
      List.any_eq_false.mpr fun l hl => Bool.eq_false_iff.mp (hfresh l hl)
    have hcode : e.1 = 0x040A := by
      rw [hev, hi.2.2 hhigh, hany] at he
      rcases List.mem_append.mp he with he | he
      · rw [mem_evsOf] at he
        simp only [List.mem_cons, Prod.mk.injEq, List.not_mem_nil, or_false] at he
        rcases he with ⟨-, rfl⟩ | ⟨h, -⟩
        · rfl
        · exact nomatch h
      · exact nomatch he
    rw [hcode] at hown
    exact hown
end

section
/-! Proofs: words that go into flight after a change of their tile, and SEND (O31). -/

namespace Sys2Proof.Machine

variable {s : State} {u : Nat} {r : Reel} {w : Rec128} {rest : List Rec128} {op : Nat} {rule : OpRule} {cmd : Instr}

/-! ## What is read of the Pocket alone -/

section
variable {t t' : Tile} (h : t'.lines = t.lines)
include h

theorem lineAt_of_lines : lineAt t' = lineAt t := funext fun l => by rw [lineAt, h, lineAt]

theorem readLine_of_lines : readLine t' = readLine t := funext fun l => by rw [readLine, lineAt_of_lines h, readLine]

theorem staleLine_of_lines (rg : Nat × Nat × Nat) : staleLine rg t' = staleLine rg t :=
  funext fun l => by rw [staleLine, lineAt_of_lines h, staleLine]

theorem pageBad_of_lines (page : Nat) : pageBad t' page = pageBad t page := by
  unfold pageBad
  rw [readLine_of_lines h]

theorem linesNat_of_lines (ls : List Nat) : linesNat t' ls = linesNat t ls := by
  unfold linesNat
  rw [readLine_of_lines h]

theorem pageData_of_lines (page : Nat) : pageData t' page = pageData t page := by
  unfold pageData
  rw [linesNat_of_lines h]

theorem buildEnv_of_lines (page tag gen flags : Nat) : buildEnv t' page tag gen flags = buildEnv t page tag gen flags := by
  unfold buildEnv predicted
  rw [pageData_of_lines h, readLine_of_lines h]

theorem escapes_of_lines (s : State) (b : Bool) (ls : List Nat) : escapes s b t' ls = escapes s b t ls := by
  unfold escapes
  rw [readLine_of_lines h]

end

theorem taken_lines (s : State) (u : Nat) (rest : List Rec128) : (taken s u rest).lines = (tileOf s u).lines := rfl

theorem escapes_eq_true {b : Bool} {t : Tile} {ls : List Nat} :
    escapes s b t ls = true ↔ ∃ l ∈ ls, pdueUp s (readLine t l).pdue = true ∨ (b = false ∧ tagUp s.job.slot (readLine t l).cdue = true) := by
  unfold escapes
  simp only [List.any_eq_true, Bool.or_eq_true, Bool.and_eq_true, Bool.not_eq_true']

/-! ## Words that change their tile and fly -/

/-- A tile that has changed as it issued, with its operation in flight. -/
def flownBy (s : State) (u : Nat) (rest : List Rec128) (g : Tile → Tile) (f : Flight) : Tile :=
  { g (taken s u rest) with flight := some f }

/-- The package in which the tile has changed as it issued, with its operation in flight. -/
def flownFrom (s : State) (u : Nat) (rest : List Rec128) (g : Tile → Tile) (f : Flight) : State := fly u f (updTile u g (takenFrom s u rest))

theorem tileOf_flownFrom (g : Tile → Tile) (f : Flight) : tileOf (flownFrom s u rest g f) u = flownBy s u rest g f := by
  rw [flownFrom, tileOf_fly, tileOf_updTile_self, tileOf_takenFrom, flownBy]

theorem flownFrom_changes (g : Tile → Tile) (f : Flight) : changesOnly [.tiles] s (flownFrom s u rest g f) :=
  ((takenFrom_changes s u rest).trans (updTile_changes u g _)).trans (fly_changes f _)

theorem tilesBut_flownFrom (g : Tile → Tile) (f : Flight) : tilesBut u s (flownFrom s u rest g f) :=
  fun v hv => (tilesBut_fly f _ v hv).trans ((tileOf_updTile_other hv g _).trans (tilesBut_takenFrom s u rest v hv))

/-- A word that flies without an event. -/
theorem inFlight_flownFrom {g : Tile → Tile} {f : Flight} (h : readyToIssue s u r w rest op) (hw : f.word = w)
    (hl : f.last = wLast (jobClass s r) w)
    (hg : ∀ t, (g t).lines = t.lines ∧ (g t).inbox = t.inbox ∧ (g t).outbox = t.outbox ∧ (g t).flags = t.flags ∧
      (g t).halted = t.halted ∧ (g t).checks = t.checks) :
    inFlight [.tiles] s (flownFrom s u rest g f) u r w op f := by
  refine inFlight_of_tile (flownFrom_changes g f) (tilesBut_flownFrom g f) ?_ hw hl (ready_op h) ?_
  · rw [tileOf_flownFrom]
    rfl
  · rw [tileOf_flownFrom]
    exact hg _

/-- A ready word whose lowest event is a detection goes on and is counted. -/
theorem detectsAtIssue {g : Tile → Tile} {f : Flight} {c i : Nat} (h : readyToIssue s u r w rest op)
    (hx : exec cmd s = .next (issue op rule u s)) (ht : toldIn s (tileOf s u) (wToken w) = none)
    (hl : lowest (rule.evs s r u (taken s u rest) w) = some (c, i)) (hc : isFaultCode c = false)
    (hgo : rule.go (takenFrom s u rest) r u (taken s u rest) w = flownFrom s u rest g f)
    (hg : ∀ x, (g x).told = x.told) :
    ∃ t : State, exec cmd s = .next t ∧ changesOnly (.tiles :: detects) s t ∧ tilesBut u s t ∧
      tileOf t u = tellTile (flownFrom s u rest g f) u c (wToken w) (flownBy s u rest g f) ∧
      t.sec.totals = detectTotals c (· + 1) s.sec.totals ∧
      (c = 0x0483 → (healthOf t u).c2 = min ((healthOf s u).c2 + 1) 65535) := by
  obtain ⟨hu, hr⟩ := ready_may h
  have hch := flownFrom_changes (s := s) (u := u) (rest := rest) g f
  have htold : toldIn (flownFrom s u rest g f) (tileOf (flownFrom s u rest g f) u) (wToken w) = none := by
    rw [tileOf_flownFrom]
    unfold toldIn
    rw [show (flownBy s u rest g f).told = (tileOf s u).told from hg _]
    exact ht
  obtain ⟨hd, hb, htile, htot, hh⟩ := tileDetect_spec (s := flownFrom s u rest g f) (c := c) (i := i) hu hr htold
  refine ⟨_, hx.trans (by rw [issue_detect h hl hc, hgo]), (hch.mono (by decide)).trans hd, fun v hv => ?_, ?_, ?_, fun h3 => ?_⟩
  · exact (hb v hv).trans (tilesBut_flownFrom g f v hv)
  · rw [htile, tileOf_flownFrom]
  · rw [htot, show (flownFrom s u rest g f).sec.totals = s.sec.totals from hch .totals (by decide)]
  · subst h3
    rw [hh, countUnit_c2 hu]
    show min ((healthOf (updTile u _ (flownFrom s u rest g f)) u).c2 + 1) 65535 = _
    rw [(updTile_changes u _ _).healthOf_eq (by decide), hch.healthOf_eq (by decide)]

/-! ## SEND -/

/-- The lowest event of a SEND, from its conditions. -/
theorem lowest_sendEvs (illegal full escaped stale bad : Bool) :
    lowest (evsOf [(illegal, (0x0409, 0xFF)), (full, (0x0403, 0xFF)), (escaped, (0x0406, 0xFF)), (stale, (0x0407, 0xFF)), (bad, (0x0483, 0xFF))]) =
      if full then some (0x0403, 0xFF) else if escaped then some (0x0406, 0xFF) else if stale then some (0x0407, 0xFF)
      else if illegal then some (0x0409, 0xFF) else if bad then some (0x0483, 0xFF) else none := by
  revert illegal full escaped stale bad
  decide

theorem sendRule_evs {e : Rec128} (he : routeAt r u s.job.phase (wImm w) = some e) :
    sendRule.evs s r u (taken s u rest) w = sendEvsOn s r u (tileOf s u) e w := by
  show (match routeAt r u s.job.phase (wImm w) with
    | none => [(0x0409, 0xFF)]
    | some e => sendEvsOn s r u (taken s u rest) e w) = _
  rw [he]
  dsimp only [sendEvsOn]
  rw [escapes_of_lines (taken_lines s u rest), staleLine_of_lines (taken_lines s u rest), pageBad_of_lines (taken_lines s u rest)]
  rfl

/-- The operation of a SEND: its parcel is placed at the deadline. -/
def sendFlight (s : State) (r : Reel) (t : Tile) (e w : Rec128) : Flight :=
  { flightOf s r w with effect := .send (sendEntry s r t e w) }

/-- What a SEND holds of its block's Envelope as it issues. -/
def holdEnv (s : State) (t : Tile) (e w : Rec128) (x : Tile) : Tile := { x with txEnv := heldEnvs s t e w }

theorem sendRule_go {e : Rec128} (he : routeAt r u s.job.phase (wImm w) = some e) :
    sendRule.go (takenFrom s u rest) r u (taken s u rest) w =
      flownFrom s u rest (holdEnv (takenFrom s u rest) (taken s u rest) e w) (sendFlight (takenFrom s u rest) r (taken s u rest) e w) := by
  show (match routeAt r u s.job.phase (wImm w) with
    | none => takenFrom s u rest
    | some e => _) = _
  rw [he]
  rfl

end Sys2Proof.Machine

open Sys2Proof Sys2Proof.Machine

/-- Settles O31: the lowest of the SEND's conditions decides, in the order of their codes. -/
theorem sendPlacesAParcel : Obligations.SendPlacesAParcel := by
  intro s u r w rest e h he
  have hevs := sendRule_evs (rest := rest) he
  have hgo := sendRule_go (rest := rest) he
  have hx : exec (.send u) s = .next (issue 0x11 sendRule u s) := rfl
  refine ⟨fun hno => ?_, fun full escaped illegal ht hfull hesc hill => ?_⟩
  · refine ⟨_, sendFlight (takenFrom s u rest) r (taken s u rest) e w, sendEntry (takenFrom s u rest) r (taken s u rest) e w,
      congrArg Host.Outcome.next ((issue_quiet h (hevs.trans hno)).trans hgo),
      inFlight_flownFrom h rfl rfl (fun _ => ⟨rfl, rfl, rfl, rfl, rfl, rfl⟩), ?_, rfl, rfl, rfl, rfl, rfl, rfl, fun hb => ?_, rfl, rfl, rfl⟩
    · rw [tileOf_flownFrom]
      rfl
    · exact if_neg (by simp [hb])
  · have hlow := lowest_sendEvs
      (rInbound e || (wE w && rPort e == 63) || orderBroken (tileOf s u) e w || !inRegions (jobRegions s r u) (sendLines e w))
      (decide (8 ≤ (tileOf s u).outbox.length)) (escapes s (wE w) (tileOf s u) (sendLines e w))
      ((sendLines e w).any (staleLine (jobRegions s r u) (tileOf s u)))
      (rBlock e && sendPidx e w == 8 && pageBad (tileOf s u) (wSrcA w / 16 * 16))
    have hesc' := hesc.trans escapes_eq_true.symm
    have hstale (hs : ∀ l ∈ sendLines e w, staleLine (jobRegions s r u) (tileOf s u) l = false) :
        (sendLines e w).any (staleLine (jobRegions s r u) (tileOf s u)) = false :=
      List.any_eq_false.mpr fun l hl => Bool.eq_false_iff.mp (hs l hl)
    refine ⟨fun hf => ?_, fun hf hs => ?_, fun hf hs hi hst => ?_, fun hf hs hi hst hreg hb h8 hbad => ?_⟩
    · refine (faultsWith_of_lowest h hx ht (c := 0x0403) (i := 0xFF) (by decide) ?_).1
      rw [hevs]
      exact hlow.trans (if_pos (decide_eq_true (hfull.mp hf)))
    · refine (faultsWith_of_lowest h hx ht (c := 0x0406) (i := 0xFF) (by decide) ?_).1
      rw [hevs]
      refine hlow.trans ?_
      rw [decide_eq_false (mt hfull.mpr hf), hesc'.mp hs]
      rfl
    · refine (faultsWith_of_lowest h hx ht (c := 0x0409) (i := 0xFF) (by decide) ?_).1
      rw [hevs]
      refine hlow.trans ?_
      have hor : (rInbound e || (wE w && rPort e == 63) || orderBroken (tileOf s u) e w ||
          !inRegions (jobRegions s r u) (sendLines e w)) = true := by
        rcases hill.mp hi with h1 | ⟨h1, h2⟩ | h1 <;> simp [*]
      rw [decide_eq_false (mt hfull.mpr hf), Bool.eq_false_iff.mpr (mt hesc'.mpr hs), hstale hst, hor]
      rfl
    · have hl : lowest (sendRule.evs s r u (taken s u rest) w) = some (0x0483, 0xFF) := by
        rw [hevs]
        refine hlow.trans ?_
        have hnor : (rInbound e || (wE w && rPort e == 63) || orderBroken (tileOf s u) e w ||
            !inRegions (jobRegions s r u) (sendLines e w)) = false := by
          rw [hreg]
          refine Bool.eq_false_iff.mpr fun hor => hi (hill.mpr ?_)
          simpa [or_assoc] using hor
        have hall : (rBlock e && sendPidx e w == 8 && pageBad (tileOf s u) (wSrcA w / 16 * 16)) = true := by
          rw [sendPidx, hb, hbad, if_pos rfl, h8]
          rfl
        rw [decide_eq_false (mt hfull.mpr hf), Bool.eq_false_iff.mpr (mt hesc'.mpr hs), hstale hst, hnor, hall]
        rfl
      obtain ⟨t, hxt, hch, hbut, htile, htot, hc2⟩ := detectsAtIssue h hx ht hl (by decide) hgo (fun _ => rfl)
      rw [tellTile_detection (by decide)] at htile
      refine ⟨t, sendFlight (takenFrom s u rest) r (taken s u rest) e w, sendEntry (takenFrom s u rest) r (taken s u rest) e w,
        hxt, ?_, rfl, ?_, rfl, ?_, ?_, hbut, htot, hc2 rfl, hch⟩
      · exact congrArg Tile.flight htile
      · exact congrArg Tile.todo htile
      · exact (congrArg Tile.lines htile).trans rfl
      · exact congrArg Tile.detected htile
end

section
/-! Proofs: the words that enter the mover (O32). -/

namespace Sys2Proof.Machine

variable {s : State} {u : Nat} {r : Reel} {w : Rec128} {rest : List Rec128} {op : Nat} {cmd : Instr} {k : MoveKind} {e : Rec128}

/-! ## Requests -/

/-- A tile with one more request at the end of its mover. -/
def withMove (q : MoveReq) (t : Tile) : Tile := { t with mover := t.mover ++ [q] }

theorem inFlight_withMove (q : MoveReq) (h : readyToIssue s u r w rest op) :
    inFlight [.tiles] s (flownFrom s u rest (withMove q) (flightOf s r w)) u r w op (flightOf s r w) :=
  inFlight_flownFrom h rfl rfl (fun _ => ⟨rfl, rfl, rfl, rfl, rfl, rfl⟩)

theorem mover_withMove (q : MoveReq) (f : Flight) :
    (tileOf (flownFrom s u rest (withMove q) f) u).mover = (tileOf s u).mover ++ [q] := by
  rw [tileOf_flownFrom]
  rfl

theorem todo_withMove (q : MoveReq) (f : Flight) : (tileOf (flownFrom s u rest (withMove q) f) u).todo = rest := by
  rw [tileOf_flownFrom]
  rfl

theorem moveReq_bld_times (s : State) (u : Nat) (e : Rec128) (page : Nat) (b : Option Blk) (w : Rec128) :
    (moveReq s u .bld e page b w).serve = s.job.slot + 1 ∧
      (moveReq s u .bld e page b w).retire = s.job.slot + (if u / 512 = bStack e / 4 then 2 else 3) := by
  unfold moveReq nearStack moveTimes
  by_cases h : u / 512 = bStack e / 4 <;> simp [h]

theorem moveReq_bst_times (s : State) (u : Nat) (e : Rec128) (page : Nat) (b : Option Blk) (w : Rec128) :
    (moveReq s u .bst e page b w).serve = s.job.slot + (if u / 512 = bStack e / 4 then 1 else 2) ∧
      (moveReq s u .bst e page b w).retire = (moveReq s u .bst e page b w).serve := by
  unfold moveReq nearStack moveTimes
  by_cases h : u / 512 = bStack e / 4 <;> simp [h]

/-! ## Moves of a page -/

/-- Whether a move of a page names no entry that it may (R97, R192). -/
def moveIllegal (k : MoveKind) (s : State) (r : Reel) (u : Nat) (w : Rec128) : Bool :=
  if k = .bst then (blockAt r u s.job.phase (wImm w)).all (fun e => !bPaired e || bFar e) else (windowAt r u s.job.phase (wImm w)).isNone

/-- The entry that a move of a page names. -/
def moveEntry (k : MoveKind) (s : State) (r : Reel) (u : Nat) (w e : Rec128) : Prop :=
  (k = .bst → blockAt r u s.job.phase (wImm w) = some e ∧ bPaired e = true ∧ bFar e = false) ∧
    (k ≠ .bst → windowAt r u s.job.phase (wImm w) = some e)

/-- The TAG of the block that a move of a page carries. -/
def moveTag (k : MoveKind) (e : Rec128) : Nat := if k = .bst then bTag e else nTag e

/-- The request of a move of a page. -/
def pageReq (k : MoveKind) (s : State) (u : Nat) (t : Tile) (w e : Rec128) : MoveReq :=
  moveReq s u k e (wSrcA w) (pageBlk s t (moveTag k e) w) w

theorem pageBlk_of_lines {t t' : Tile} (h : t'.lines = t.lines) (s : State) (tag : Nat) (w : Rec128) :
    pageBlk s t' tag w = pageBlk s t tag w := by
  unfold pageBlk
  rw [pageBad_of_lines h, pageData_of_lines h, buildEnv_of_lines h]

/-- The events of a move of a page, from their conditions. -/
def moveEvs (illegal : Bool) (s : State) (t : Tile) (w : Rec128) : List Ev :=
  evsOf [(illegal, (0x0409, 0xFF)), (moverFull t, (0x0404, 0xFF)), (escapes s false t (srcLines w), (0x0406, 0xFF)),
    (pageBad t (wSrcA w), (0x0483, 0xFF))]

theorem lowest_fourEvs (illegal full escaped bad : Bool) :
    lowest (evsOf [(illegal, (0x0409, 0xFF)), (full, (0x0404, 0xFF)), (escaped, (0x0406, 0xFF)), (bad, (0x0483, 0xFF))]) =
      if full then some (0x0404, 0xFF) else if escaped then some (0x0406, 0xFF) else if illegal then some (0x0409, 0xFF)
      else if bad then some (0x0483, 0xFF) else none := by
  revert illegal full escaped bad
  decide

theorem pageMoveEvs_taken (s : State) (u : Nat) (rest : List Rec128) (w : Rec128) :
    pageMoveEvs s (taken s u rest) w = pageMoveEvs s (tileOf s u) w := by
  unfold pageMoveEvs
  rw [escapes_of_lines (taken_lines s u rest), pageBad_of_lines (taken_lines s u rest)]
  rfl

/-- The words that move a page off the tile: a rule with the events of such a move, and its request. -/
def movesPage (c : Instr) (op : Nat) (k : MoveKind) (s : State) (r : Reel) (u : Nat) (w : Rec128) (rest : List Rec128) : Prop :=
  ∃ rule, exec c s = .next (issue op rule u s) ∧
    rule.evs s r u (taken s u rest) w = moveEvs (moveIllegal k s r u w) s (tileOf s u) w ∧
    ∀ e, moveEntry k s r u w e → moveIllegal k s r u w = false ∧
      rule.go (takenFrom s u rest) r u (taken s u rest) w =
        flownFrom s u rest (withMove (pageReq k s u (tileOf s u) w e)) (flightOf s r w)

theorem moveIllegal_of_entry (h : moveEntry k s r u w e) : moveIllegal k s r u w = false := by
  obtain ⟨hb, hw⟩ := h
  unfold moveIllegal
  by_cases hk : k = .bst
  · obtain ⟨hat, hp, hf⟩ := hb hk
    rw [if_pos hk, hat]
    simp [hp, hf]
  · rw [if_neg hk, hw hk]
    rfl

theorem movesPage_bst (s : State) (r : Reel) (u : Nat) (w : Rec128) (rest : List Rec128) : movesPage (.bst u) 0x13 .bst s r u w rest := by
  refine ⟨bstRule, rfl, ?_, fun e h => ⟨moveIllegal_of_entry h, ?_⟩⟩
  · have hillegal : moveIllegal .bst s r u w = (blockAt r u s.job.phase (wImm w)).all (fun e => !bPaired e || bFar e) := if_pos rfl
    unfold bstRule
    dsimp only
    rw [pageMoveEvs_taken, hillegal]
    cases blockAt r u s.job.phase (wImm w) with
    | none => rfl
    | some e =>
      dsimp only [Option.all_some]
      cases !bPaired e || bFar e <;> rfl
  · have hreq : pageReq .bst s u (tileOf s u) w e =
        moveReq s u .bst e (wSrcA w) (pageBlk s (taken s u rest) (bTag e) w) w := by
      rw [pageReq, pageBlk_of_lines (taken_lines s u rest)]
      rfl
    rw [hreq]
    show (match blockAt r u s.job.phase (wImm w) with
      | none => takenFrom s u rest
      | some e => _) = _
    rw [(h.1 rfl).1]
    rfl

theorem movesPage_window {c : Instr} (hk : k ≠ .bst) (hx : exec c s = .next (issue op (windowRule k) u s)) : movesPage c op k s r u w rest := by
  refine ⟨windowRule k, hx, ?_, fun e h => ⟨moveIllegal_of_entry h, ?_⟩⟩
  · have hillegal : moveIllegal k s r u w = (windowAt r u s.job.phase (wImm w)).isNone := if_neg hk
    unfold windowRule
    dsimp only
    rw [pageMoveEvs_taken, hillegal]
    cases windowAt r u s.job.phase (wImm w) <;> rfl
  · have hreq : pageReq k s u (tileOf s u) w e = moveReq s u k e (wSrcA w) (pageBlk s (taken s u rest) (nTag e) w) w := by
      rw [pageReq, moveTag, if_neg hk, pageBlk_of_lines (taken_lines s u rest)]
    rw [hreq]
    show (match windowAt r u s.job.phase (wImm w) with
      | none => takenFrom s u rest
      | some e => _) = _
    rw [h.2 hk]
    rfl

theorem movesPage_of_word {c : Instr} (h : (c = .bst u ∧ op = 0x13 ∧ k = MoveKind.bst) ∨ (c = .bwr u ∧ op = 0x14 ∧ k = .bwr) ∨
    (c = .gacc u ∧ op = 0x15 ∧ k = .gacc) ∨ (c = .gtree u ∧ op = 0x16 ∧ k = .gtree)) : movesPage c op k s r u w rest := by
  rcases h with ⟨rfl, rfl, rfl⟩ | ⟨rfl, rfl, rfl⟩ | ⟨rfl, rfl, rfl⟩ | ⟨rfl, rfl, rfl⟩
  · exact movesPage_bst s r u w rest
  · exact movesPage_window (by decide) rfl
  · exact movesPage_window (by decide) rfl
  · exact movesPage_window (by decide) rfl

theorem moverFull_of_room (h : (tileOf s u).mover.length < 2) : moverFull (tileOf s u) = false := decide_eq_false (by omega)

/-- A move of a page that raises no event is in flight, and its request is in the mover. -/
theorem movesPage_quiet (hp : movesPage cmd op k s r u w rest) (h : readyToIssue s u r w rest op) (he : moveEntry k s r u w e)
    (hroom : (tileOf s u).mover.length < 2) (hesc : escapes s false (tileOf s u) (srcLines w) = false)
    (hbad : pageBad (tileOf s u) (wSrcA w) = false) :
    ∃ (t : State) (f : Flight), exec cmd s = .next t ∧ inFlight [.tiles] s t u r w op f ∧
      (tileOf t u).mover = (tileOf s u).mover ++ [pageReq k s u (tileOf s u) w e] := by
  obtain ⟨rule, hx, hev, hgo⟩ := hp
  obtain ⟨hill, hgo⟩ := hgo e he
  have hno : rule.evs s r u (taken s u rest) w = [] := by
    rw [hev, moveEvs, hill, moverFull_of_room hroom, hesc, hbad]
    rfl
  refine ⟨_, _, hx.trans (congrArg Host.Outcome.next ((issue_quiet h hno).trans hgo)), inFlight_withMove _ h, mover_withMove _ _⟩

theorem pageReq_blk (hbad : pageBad (tileOf s u) (wSrcA w) = false) :
    (pageReq k s u (tileOf s u) w e).blk = some { payload := pageData (tileOf s u) (wSrcA w), env := buildEnv (tileOf s u) (wSrcA w) (moveTag k e) s.job.step (wFmt w) } :=
  if_neg (by simp [hbad])

/-! ## BLD -/

theorem bldRule_full (hfull : moverFull (taken s u rest) = true) :
    lowest (bldRule.evs s r u (taken s u rest) w) = some (0x0404, 0xFF) := by
  unfold bldRule
  dsimp only
  rw [hfull]
  cases blockAt r u s.job.phase (wImm w) with
  | none => rfl
  | some e =>
    dsimp only
    cases farMissing s e <;> rfl

theorem bldRule_quiet (he : blockAt r u s.job.phase (wImm w) = some e) (hroom : (tileOf s u).mover.length < 2) (hfar : farMissing s e = false) :
    bldRule.evs s r u (taken s u rest) w = [] ∧
      bldRule.go (takenFrom s u rest) r u (taken s u rest) w =
        flownFrom s u rest (withMove (moveReq s u .bld e (wDst w) none w)) (flightOf s r w) := by
  have hfull : moverFull (taken s u rest) = false := moverFull_of_room hroom
  constructor
  · unfold bldRule
    dsimp only
    rw [he, hfull]
    dsimp only
    rw [hfar]
    rfl
  · show (match blockAt r u s.job.phase (wImm w) with
      | none => takenFrom s u rest
      | some e => justFly (if farMissing s e then takenFrom s u rest else
          enqueueMove u (moveReq s u .bld e (wDst w) none w) (takenFrom s u rest)) r u w) = _
    rw [he]
    dsimp only
    rw [hfar]
    rfl

/-- A full mover stops every move (R76). -/
theorem full_lowest {c : Instr} (hc : (c = .bld u ∧ op = 0x12) ∨ (c = .bst u ∧ op = 0x13) ∨ (c = .bwr u ∧ op = 0x14) ∨ (c = .gacc u ∧ op = 0x15) ∨
    (c = .gtree u ∧ op = 0x16)) (hfull : moverFull (tileOf s u) = true) :
    ∃ rule, exec c s = .next (issue op rule u s) ∧ lowest (rule.evs s r u (taken s u rest) w) = some (0x0404, 0xFF) := by
  have hpage (k : MoveKind) (hp : movesPage c op k s r u w rest) :
      ∃ rule, exec c s = .next (issue op rule u s) ∧ lowest (rule.evs s r u (taken s u rest) w) = some (0x0404, 0xFF) := by
    obtain ⟨rule, hx, hev, -⟩ := hp
    refine ⟨rule, hx, ?_⟩
    rw [hev, moveEvs, lowest_fourEvs, if_pos hfull]
  rcases hc with ⟨rfl, rfl⟩ | ⟨rfl, rfl⟩ | ⟨rfl, rfl⟩ | ⟨rfl, rfl⟩ | ⟨rfl, rfl⟩
  · exact ⟨bldRule, rfl, bldRule_full hfull⟩
  · exact hpage .bst (movesPage_bst s r u w rest)
  · exact hpage .bwr (movesPage_window (by decide) rfl)
  · exact hpage .gacc (movesPage_window (by decide) rfl)
  · exact hpage .gtree (movesPage_window (by decide) rfl)

end Sys2Proof.Machine

open Sys2Proof Sys2Proof.Machine

/-- Settles O32: the lowest of the move's conditions decides, in the order of their codes. -/
theorem blockMovesEnterTheMover : Obligations.BlockMovesEnterTheMover := by
  rintro s u r w rest e _ rfl
  refine ⟨fun h he hroom hfar => ?_, fun h he hroom hpair hfar hesc hbad => ?_, fun c op k hc h he hroom hesc hbad => ?_,
    fun c op hc h hfull ht => ?_, fun c op k hc h hroom ht => ⟨fun hesc => ?_, fun hclear hbad hb hw => ?_⟩⟩
  · have hmiss : farMissing s e = false := by
      unfold farMissing
      cases hf : bFar e
      · rfl
      · rw [hfar hf]
        rfl
    obtain ⟨hno, hgo⟩ := bldRule_quiet (rest := rest) he hroom hmiss
    obtain ⟨hserve, hretire⟩ := moveReq_bld_times s u e (wDst w) none w
    exact ⟨_, _, moveReq s u .bld e (wDst w) none w, congrArg Host.Outcome.next ((issue_quiet h hno).trans hgo), inFlight_withMove _ h,
      todo_withMove _ _, mover_withMove _ _, rfl, rfl, rfl, hserve, hretire, rfl⟩
  · obtain ⟨t, f, hx, hin, hmover⟩ := movesPage_quiet (movesPage_bst s r u w rest) h ⟨fun _ => ⟨he, hpair, hfar⟩, fun hk => absurd rfl hk⟩ hroom hesc hbad
    obtain ⟨hserve, hretire⟩ := moveReq_bst_times s u e (wSrcA w) (pageBlk s (tileOf s u) (moveTag .bst e) w) w
    exact ⟨t, f, pageReq .bst s u (tileOf s u) w e, hx, hin, hmover, rfl, rfl, hserve, hretire, pageReq_blk hbad⟩
  · have hk : k ≠ .bst := by rcases hc with ⟨-, -, rfl⟩ | ⟨-, -, rfl⟩ | ⟨-, -, rfl⟩ <;> decide
    obtain ⟨t, f, hx, hin, hmover⟩ := movesPage_quiet (movesPage_of_word (.inr hc)) h ⟨fun hb => absurd hb hk, fun _ => he⟩ hroom hesc hbad
    have hblk := pageReq_blk (k := k) (e := e) hbad
    rw [moveTag, if_neg hk] at hblk
    refine ⟨t, f, pageReq k s u (tileOf s u) w e, hx, hin, hmover, rfl, rfl, ?_, ?_, hblk⟩
    all_goals rcases hc with ⟨-, -, rfl⟩ | ⟨-, -, rfl⟩ | ⟨-, -, rfl⟩ <;> rfl
  · obtain ⟨rule, hx, hl⟩ := full_lowest (r := r) (w := w) (rest := rest) hc (decide_eq_true hfull)
    obtain ⟨-, t, hxt, hf, htile, hb, hch, hown⟩ := faultsWith_of_lowest h hx ht (by decide) hl
    obtain ⟨-, -, -, hfl⟩ := mayIssue_spec h.1
    refine ⟨t, hxt, hf, ?_, ?_, ?_, hb, hch, fun ho => by rw [hown ho]; rfl⟩
    all_goals rw [htile]
    · rfl
    · exact hfl
    · rfl
  · obtain ⟨rule, hx, hev, -⟩ := movesPage_of_word (s := s) (r := r) (w := w) (rest := rest) hc
    refine (faultsWith_of_lowest h hx ht (c := 0x0406) (i := 0xFF) (by decide) ?_).1
    obtain ⟨l, hl, hor⟩ := hesc
    rw [hev, moveEvs, lowest_fourEvs, moverFull_of_room hroom, escapes_eq_true.mpr ⟨l, hl, hor.imp_right fun h => ⟨rfl, h⟩⟩]
    rfl
  · obtain ⟨rule, hx, hev, hgo⟩ := movesPage_of_word (s := s) (r := r) (w := w) (rest := rest) hc
    obtain ⟨hill, hgo⟩ := hgo e ⟨hb, hw⟩
    have hesc : escapes s false (tileOf s u) (srcLines w) = false := by
      refine Bool.eq_false_iff.mpr fun h => ?_
      obtain ⟨l, hl, hor⟩ := escapes_eq_true.mp h
      obtain ⟨h1, h2⟩ := hclear l hl
      rw [h1, h2] at hor
      simp at hor
    have hl : lowest (rule.evs s r u (taken s u rest) w) = some (0x0483, 0xFF) := by
      rw [hev, moveEvs, lowest_fourEvs, hill, moverFull_of_room hroom, hesc, hbad]
      rfl
    obtain ⟨t, hxt, hch, hbut, htile, htot, hc2⟩ := detectsAtIssue h hx ht hl (by decide) hgo (fun _ => rfl)
    rw [tellTile_detection (by decide)] at htile
    refine ⟨t, flightOf s r w, pageReq k s u (tileOf s u) w e, hxt, ?_, ?_, ?_, rfl, rfl, if_pos hbad, ?_, ?_, hbut, htot, hc2 rfl, hch⟩
    · exact congrArg Tile.flight htile
    · exact congrArg Tile.todo htile
    · exact congrArg Tile.mover htile
    · exact congrArg Tile.detected htile
    · exact (congrArg Tile.lines htile).trans rfl
end

section
/-! Proofs: numbers as the bytes of elements and of lines, and lists of elements by their index (R59, R66). -/

namespace Sys2Proof.Machine

/-! ## Words one after another -/

/-- The words of a number, lowest first, are the number. -/
theorem packed_words {w : Nat} (n v : Nat) :
    packed ((List.range n).map (fun i => BitVec.ofNat w (v / 2 ^ (w * i)))) = v % 2 ^ (w * n) := by
  induction n generalizing v with
  | zero => exact (Nat.mod_one v).symm
  | succ n ih =>
    have hstep : (fun i => BitVec.ofNat w (v / 2 ^ (w * i))) ∘ Nat.succ = fun i => BitVec.ofNat w (v / 2 ^ w / 2 ^ (w * i)) := by
      funext i
      rw [Function.comp_apply, Nat.succ_eq_add_one, Nat.mul_add_one, Nat.add_comm, Nat.pow_add, Nat.div_div_eq_div_mul]
    rw [List.range_succ_eq_map, List.map_cons, List.map_map, hstep]
    show (BitVec.ofNat w (v / 2 ^ (w * 0))).toNat + 2 ^ w * packed _ = _
    rw [ih, Nat.mul_zero, Nat.pow_zero, Nat.div_one, BitVec.toNat_ofNat, Nat.mul_add_one, Nat.add_comm (w * n), Nat.pow_add, Nat.mod_mul]

/-- The bits of an element of a format. -/
def elemBits (f : Fmt) : Nat := 8 * elemBytes f

theorem elemBits_pos (f : Fmt) : 0 < elemBits f := by cases f <;> decide

theorem packElems_eq_packed {f : Fmt} {xs : List Nat} (h : ∀ x ∈ xs, x < 2 ^ elemBits f) :
    packElems f xs = packed (xs.map (BitVec.ofNat (elemBits f))) := by
  induction xs with
  | nil => rfl
  | cons x l ih =>
    obtain ⟨hx, hl⟩ := List.forall_mem_cons.mp h
    show x + 2 ^ elemBits f * packElems f l = (BitVec.ofNat (elemBits f) x).toNat + 2 ^ elemBits f * packed _
    rw [ih hl, BitVec.toNat_ofNat, Nat.mod_eq_of_lt hx]

theorem packElems_lt {f : Fmt} {xs : List Nat} (h : ∀ x ∈ xs, x < 2 ^ elemBits f) : packElems f xs < 2 ^ (elemBits f * xs.length) := by
  rw [packElems_eq_packed h]
  exact lt_of_lt_of_eq (packed_lt _) (by rw [List.length_map])

/-- An element of packed elements. -/
theorem elemAt_packElems {f : Fmt} {n k : Nat} {g : Nat → Nat} (h : ∀ k, k < n → g k < 2 ^ elemBits f) (hk : k < n) :
    elemAt f (packElems f ((List.range n).map g)) k = g k := by
  have hall : ∀ x ∈ (List.range n).map g, x < 2 ^ elemBits f := by
    intro x hx
    obtain ⟨i, hi, rfl⟩ := List.mem_map.mp hx
    exact h i (List.mem_range.mp hi)
  rw [packElems_eq_packed hall]
  show packed _ / 2 ^ (elemBits f * k) % 2 ^ elemBits f = _
  rw [packed_getElem? (b := BitVec.ofNat (elemBits f) (g k)) (by simp [hk]), BitVec.toNat_ofNat, Nat.mod_eq_of_lt (h k hk)]

/-- Zeros behind the elements add nothing. -/
theorem packElems_append_zeros (f : Fmt) (xs : List Nat) (k : Nat) : packElems f (xs ++ List.replicate k 0) = packElems f xs := by
  induction xs with
  | nil =>
    induction k with
    | zero => rfl
    | succ k ih =>
      show 0 + 2 ^ (8 * elemBytes f) * packElems f ([] ++ List.replicate k 0) = 0
      rw [ih]
      exact (Nat.zero_add _).trans (Nat.mul_zero _)
  | cons x l ih =>
    show x + 2 ^ (8 * elemBytes f) * packElems f (l ++ List.replicate k 0) = x + 2 ^ (8 * elemBytes f) * packElems f l
    rw [ih]

theorem elemAt_lt (f : Fmt) (v k : Nat) : elemAt f v k < 2 ^ elemBits f := Nat.mod_lt _ (Nat.two_pow_pos _)

/-! ## Lists by their index -/

section
variable {α β : Type}

/-- Consecutive groups of a list given by its index. -/
theorem chunks_range (n k : Nat) (g : Nat → α) :
    chunks n k ((List.range (n * k)).map g) = (List.range k).map (fun i => (List.range n).map (fun j => g (n * i + j))) := by
  induction k generalizing g with
  | zero => rfl
  | succ k ih =>
    have hsplit : (List.range (n * (k + 1))).map g = (List.range n).map g ++ (List.range (n * k)).map (fun i => g (n + i)) := by
      rw [Nat.mul_succ, Nat.add_comm, List.range_add, List.map_append, List.map_map]
      rfl
    have hlen : ((List.range n).map g).length = n := by rw [List.length_map, List.length_range]
    have htail : (fun i => (List.range n).map (fun j => g (n * i + j))) ∘ Nat.succ =
        fun i => (List.range n).map (fun j => g (n + (n * i + j))) := by
      funext i
      refine List.map_congr_left fun j _ => congrArg g ?_
      rw [Nat.succ_eq_add_one, Nat.mul_succ]
      omega
    rw [hsplit, chunks, List.take_left' hlen, List.drop_left' hlen, ih, List.range_succ_eq_map, List.map_cons, List.map_map, htail]
    simp only [Nat.mul_zero, Nat.zero_add]

/-- Rows after one another, by the index of the element. -/
theorem flatMap_range (a b : Nat) (g : Nat → Nat → α) :
    (List.range a).flatMap (fun i => (List.range b).map (g i)) = (List.range (a * b)).map (fun e => g (e / b) (e % b)) := by
  induction a with
  | zero => rw [Nat.zero_mul]; rfl
  | succ a ih =>
    rw [List.range_succ, List.flatMap_append, ih, List.flatMap_singleton, Nat.succ_mul, List.range_add, List.map_append, List.map_map]
    congr 1
    refine List.map_congr_left fun j hj => ?_
    have hb := List.mem_range.mp hj
    rw [Function.comp_apply, Nat.add_comm, Nat.add_mul_div_right _ _ (by omega), Nat.div_eq_of_lt hb, Nat.zero_add, Nat.add_mul_mod_self_right,
      Nat.mod_eq_of_lt hb]

theorem zip_range (n : Nat) (g : Nat → α) (h : Nat → β) :
    ((List.range n).map g).zip ((List.range n).map h) = (List.range n).map (fun i => (g i, h i)) := by
  rw [List.zip_map, List.zip_eq_zipWith, List.zipWith_self, List.map_map]
  rfl

theorem zipIdx_range (n : Nat) (g : Nat → α) : ((List.range n).map g).zipIdx = (List.range n).map (fun i => (g i, i)) := by
  refine List.ext_getElem (by simp) fun i h1 h2 => ?_
  simp

theorem getD_range {n j : Nat} (hj : j < n) (g : Nat → α) (d : α) : ((List.range n).map g).getD j d = g j := by
  simp [List.getD, hj]

/-- The columns of rows given by their index. -/
theorem columns_range (c k : Nat) (g : Nat → Nat) :
    columns c (chunks c k ((List.range (c * k)).map g)) = (List.range c).map (fun j => (List.range k).map (fun i => g (c * i + j))) := by
  unfold columns
  rw [chunks_range]
  refine List.map_congr_left fun j hj => ?_
  rw [List.map_map]
  exact List.map_congr_left fun i _ => getD_range (List.mem_range.mp hj) _ _

/-- Neighbouring pairs of a level given by its index. -/
theorem pairUp_range (c : α → α → α) (n : Nat) (g : Nat → α) :
    pairUp c ((List.range (2 * n)).map g) = (List.range n).map (fun i => c (g (2 * i)) (g (2 * i + 1))) := by
  induction n generalizing g with
  | zero => rfl
  | succ n ih =>
    have hcons : (List.range (2 * (n + 1))).map g = g 0 :: g 1 :: (List.range (2 * n)).map (fun i => g (i + 2)) := by
      rw [Nat.mul_succ, List.range_succ_eq_map, List.range_succ_eq_map, List.map_cons, List.map_cons, List.map_cons, List.map_map, List.map_map]
      rfl
    rw [hcons, pairUp, ih, List.range_succ_eq_map, List.map_cons, List.map_map]
    rfl

/-- A level with one element stays. -/
theorem treeUp_single (c : α → α → α) (d : Nat) (x : α) : treeUp c d [x] = [x] := by
  induction d with
  | zero => rfl
  | succ d ih => exact ih

theorem treeUp_add (c : α → α → α) (l d : Nat) (xs : List α) : treeUp c (l + d) xs = treeUp c d (treeUp c l xs) := by
  induction l generalizing xs with
  | zero => rw [Nat.zero_add, treeUp]
  | succ l ih => rw [Nat.succ_add, treeUp, treeUp, ih]

/-- A tree whose nodes are those of `node`, level by level, ends in its root. -/
theorem treeUp_nodes {c : α → α → α} {node : Nat → Nat → α} (h : ∀ l k, node (l + 1) k = c (node l (2 * k)) (node l (2 * k + 1))) (m l : Nat) :
    treeUp c m ((List.range (2 ^ m)).map (node l)) = [node (l + m) 0] := by
  induction m generalizing l with
  | zero => rfl
  | succ m ih =>
    rw [treeUp, Nat.pow_succ, Nat.mul_comm, pairUp_range, show (fun i => c (node l (2 * i)) (node l (2 * i + 1))) = node (l + 1) from
      funext fun i => (h l i).symm, ih, Nat.succ_add, Nat.add_succ]

end

end Sys2Proof.Machine
end

section
/-! Proofs: every result of an engine fits its format, and integers saturate once (R64 to R67, R353). -/

namespace Sys2Proof.Machine

/-! ## Floating-point results -/

theorem elemBits_of_float {f : Fmt} (h : isInt f = false) : elemBits f = expW f + fracW f + 1 := by
  revert h
  cases f <;> decide

theorem signBit_le (f : Fmt) (n : Bool) : signBit f n ≤ 2 ^ (expW f + fracW f) := by
  unfold signBit
  cases n
  · exact (Nat.zero_mul _).trans_le (Nat.zero_le _)
  · exact (Nat.one_mul _).le

/-- A magnitude below the sign bit makes a result of the format. -/
theorem signed_lt {f : Fmt} (h : isInt f = false) (n : Bool) {m : Nat} (hm : m < 2 ^ (expW f + fracW f)) : signBit f n + m < 2 ^ elemBits f := by
  rw [elemBits_of_float h, Nat.pow_succ, Nat.mul_two]
  exact Nat.add_lt_add_of_le_of_lt (signBit_le f n) hm

theorem maxFinite_lt (f : Fmt) : maxFinite f < 2 ^ (expW f + fracW f) := by cases f <;> decide
theorem infBits_lt (f : Fmt) : infBits f < 2 ^ (expW f + fracW f) := by cases f <;> decide
theorem nanBits_lt (f : Fmt) : nanBits f < 2 ^ elemBits f := by cases f <;> decide

theorem overflowResult_lt {f : Fmt} (h : isInt f = false) (rnd : Nat) (sat n : Bool) : overflowResult f rnd sat n < 2 ^ elemBits f := by
  unfold overflowResult
  split
  · split
    · exact nanBits_lt f
    · exact signed_lt h n (infBits_lt f)
  · exact signed_lt h n (maxFinite_lt f)

theorem roundNum_lt {f : Fmt} (h : isInt f = false) (rnd draw : Nat) (sat n : Bool) (m : Nat) (e : Int) :
    (roundNum f rnd draw sat n m e).1 < 2 ^ elemBits f := by
  unfold roundNum
  split
  · exact signed_lt h n (Nat.two_pow_pos _)
  · extract_lets top q r bits free tiny
    split
    · exact overflowResult_lt h rnd sat n
    · next hb => exact signed_lt h n (Nat.lt_of_le_of_lt (Nat.le_of_not_lt hb) (maxFinite_lt f))

theorem encodeNum_lt {f : Fmt} (h : isInt f = false) (rnd draw : Nat) (sat : Bool) (x : Num) :
    (encodeNum f rnd draw sat x).1 < 2 ^ elemBits f := by
  cases x with
  | nan => exact nanBits_lt f
  | inf n =>
    show (infResult f sat n).1 < _
    unfold infResult
    split
    · exact signed_lt h n (maxFinite_lt f)
    · split
      · exact nanBits_lt f
      · exact signed_lt h n (infBits_lt f)
  | fin n m e => exact roundNum_lt h rnd draw sat n m e

theorem fmaF_lt {f : Fmt} (h : isInt f = false) (rnd a b c : Nat) : (fmaF f rnd a b c).1 < 2 ^ elemBits f := encodeNum_lt h rnd 0 false _

theorem extremeF_lt {f : Fmt} (largest : Bool) {a b : Nat} (ha : a < 2 ^ elemBits f) (hb : b < 2 ^ elemBits f) :
    (extremeF f largest a b).1 < 2 ^ elemBits f := by
  unfold extremeF
  dsimp only
  split
  · exact nanBits_lt f
  · split
    · exact hb
    · exact ha

theorem fmaChain_lt {f : Fmt} (h : isInt f = false) (rnd : Nat) {y : Nat} (hy : y < 2 ^ elemBits f) (ab : List (Nat × Nat)) :
    (fmaChain f rnd y ab).1 < 2 ^ elemBits f := by
  unfold fmaChain
  exact List.foldlRecOn (motive := fun a : Nat × BitVec 8 => a.1 < 2 ^ elemBits f) ab _ hy (fun _ _ _ _ => fmaF_lt h rnd _ _ _)

theorem groupChain_lt (fa fb : Fmt) (rnd n k : Nat) {acc : Nat} (hacc : acc < 2 ^ elemBits .fp32) (ab : List (Nat × Nat)) :
    (groupChain fa fb rnd n k acc ab).1 < 2 ^ elemBits .fp32 := by
  unfold groupChain
  exact List.foldlRecOn (motive := fun a : Nat × BitVec 8 => a.1 < 2 ^ elemBits .fp32) (chunks n k ab) _ hacc
    (fun _ _ _ _ => encodeNum_lt rfl rnd 0 false _)

/-! ## Integers -/

theorem encodeInt_eq (f : Fmt) (v : Int) : encodeInt f v = (BitVec.ofInt (elemBits f) v).toNat := by
  rw [BitVec.toNat_ofInt]
  unfold encodeInt elemBits
  norm_cast

theorem encodeInt_lt (f : Fmt) (v : Int) : encodeInt f v < 2 ^ elemBits f := by
  rw [encodeInt_eq]
  exact BitVec.isLt _

theorem satInt_lt (f : Fmt) (fl : BitVec 8) (v : Int) : (satInt f fl v).1 < 2 ^ elemBits f := by
  unfold satInt
  split
  · exact encodeInt_lt f _
  · split <;> exact encodeInt_lt f _

/-- The signed value of an element is that of its bits in two's complement. -/
theorem decodeInt_eq (f : Fmt) (v : Nat) : decodeInt f v = (BitVec.ofNat (elemBits f) v).toInt := by
  have hpow : 2 ^ elemBits f = 2 * 2 ^ (elemBits f - 1) := by rw [← Nat.pow_succ', Nat.succ_eq_add_one, Nat.sub_add_cancel (elemBits_pos f)]
  unfold decodeInt
  rw [BitVec.toInt_eq_toNat_cond, BitVec.toNat_ofNat]
  show (if v % 2 ^ elemBits f < 2 ^ (elemBits f - 1) then ((v % 2 ^ elemBits f : Nat) : Int) else (v % 2 ^ elemBits f : Nat) - 2 ^ elemBits f) = _
  generalize v % 2 ^ elemBits f = x
  by_cases h : x < 2 ^ (elemBits f - 1)
  · rw [if_pos h, if_pos (by omega)]
  · rw [if_neg h, if_neg (by omega)]
    norm_cast

theorem intAt_eq (f : Fmt) (n k : Nat) : intAt (elemBits f) n k = decodeInt f (elemAt f n k) := by
  rw [decodeInt_eq]
  show (BitVec.ofNat (elemBits f) (n / 2 ^ (elemBits f * k))).toInt = (BitVec.ofNat (elemBits f) (n / 2 ^ (elemBits f * k) % 2 ^ elemBits f)).toInt
  exact congrArg BitVec.toInt (BitVec.eq_of_toNat_eq (by rw [BitVec.toNat_ofNat, BitVec.toNat_ofNat, Nat.mod_mod]))

/-- An integer in the range of a format reads back. -/
theorem decodeInt_encodeInt {f : Fmt} {v : Int} (h1 : intMin f ≤ v) (h2 : v ≤ intMax f) : decodeInt f (encodeInt f v) = v := by
  rw [decodeInt_eq, encodeInt_eq, BitVec.ofNat_toNat, BitVec.setWidth_eq]
  have hw := elemBits_pos f
  refine BitVec.toInt_ofInt_eq_self hw ?_ ?_
  · exact h1
  · have h3 : v < 2 ^ (elemBits f - 1) := by
      have : v ≤ 2 ^ (elemBits f - 1) - 1 := h2
      omega
    exact h3

theorem intMin_le_intMax (f : Fmt) : intMin f ≤ intMax f := by cases f <;> decide

theorem saturated_eq (f : Fmt) (v : Int) : saturated (elemBits f) v = max (intMin f) (min (intMax f) v) := rfl

/-- A saturated sum as its element and flag. -/
theorem satInt_spec (f : Fmt) (v : Int) :
    decodeInt f (satInt f flSat v).1 = saturated (elemBits f) v ∧ (satInt f flSat v).2 = (if saturated (elemBits f) v = v then 0 else 32) := by
  have hle := intMin_le_intMax f
  rw [saturated_eq]
  unfold satInt
  by_cases h1 : v < intMin f
  · rw [if_pos h1, min_eq_right (by omega), max_eq_left h1.le, if_neg (by omega)]
    exact ⟨decodeInt_encodeInt le_rfl hle, rfl⟩
  · rw [if_neg h1]
    by_cases h2 : intMax f < v
    · rw [if_pos h2, min_eq_left h2.le, max_eq_right hle, if_neg (by omega)]
      exact ⟨decodeInt_encodeInt hle le_rfl, rfl⟩
    · rw [if_neg h2, min_eq_right (by omega), max_eq_right (by omega), if_pos rfl]
      exact ⟨decodeInt_encodeInt (by omega) (by omega), rfl⟩

/-! ## One element of a vector operation -/

section
variable (f : Fmt) (rnd : Nat)

theorem addE_lt (a b : Nat) : (addE f rnd a b).1 < 2 ^ elemBits f := by
  unfold addE
  split
  · exact satInt_lt f _ _
  · next h => exact encodeNum_lt (Bool.eq_false_iff.mpr h) rnd 0 false _

theorem mulE_lt (a b : Nat) : (mulE f rnd a b).1 < 2 ^ elemBits f := by
  unfold mulE
  split
  · exact satInt_lt f _ _
  · next h => exact encodeNum_lt (Bool.eq_false_iff.mpr h) rnd 0 false _

theorem fmaE_lt (a b c : Nat) : (fmaE f rnd a b c).1 < 2 ^ elemBits f := by
  unfold fmaE
  split
  · exact satInt_lt f _ _
  · next h => exact fmaF_lt (Bool.eq_false_iff.mpr h) rnd a b c

theorem extremeE_lt (largest : Bool) {a b : Nat} (ha : a < 2 ^ elemBits f) (hb : b < 2 ^ elemBits f) :
    (extremeE f largest a b).1 < 2 ^ elemBits f := by
  unfold extremeE
  split
  · dsimp only
    split
    · exact hb
    · exact ha
  · exact extremeF_lt largest ha hb

theorem numToInt_lt (x : Num) : (numToInt f rnd x).1 < 2 ^ elemBits f := by
  cases x with
  | nan => exact Nat.two_pow_pos _
  | inf n => exact encodeInt_lt f _
  | fin n m e =>
    show (let r := roundAt rnd 0 n m e 0
      let v : Int := if n then -(r.1 : Int) else r.1
      let s := satInt f (flInvalid ||| flSat) v
      if v < intMin f ∨ intMax f < v then s else (s.1, raised r.2 flInexact)).1 < _
    extract_lets r v s
    have hs : s.1 < 2 ^ elemBits f := satInt_lt f _ v
    split <;> exact hs

theorem convertE_lt (src : Fmt) (draw : Nat) (sat : Bool) (v : Nat) : (convertE f src rnd draw sat v).1 < 2 ^ elemBits f := by
  unfold convertE
  dsimp only
  split
  · split
    · exact satInt_lt f _ _
    · next h => exact roundNum_lt (Bool.eq_false_iff.mpr h) rnd draw sat _ _ _
  · split
    · exact numToInt_lt f rnd _
    · next h => exact encodeNum_lt (Bool.eq_false_iff.mpr h) rnd draw sat _

end

end Sys2Proof.Machine
end

section
/-! Proofs: the flights of the engines, and the elements that they write (R54, R66, R92, R353). -/

namespace Sys2Proof.Machine

variable {s : State} {u : Nat} {r : Reel} {w : Rec128} {rest : List Rec128} {op : Nat} {rule : OpRule} {cmd : Instr}

/-! ## Result lines -/

theorem length_span (x : Use) (v : Nat) : (span x v).length = useLines x := by
  rw [span, List.length_map, List.length_range]

theorem dstLines_length (h : readyToIssue s u r w rest op) {x : Shape} (hs : shapeOf op = some x) : (dstLines w).length = useLines x.dst := by
  rw [dstLines, ready_op h, hs]
  exact length_span _ _

theorem operand_of_lines {t t' : Tile} (h : t'.lines = t.lines) (x : Use) (v : Nat) : operand t' x v = operand t x v := linesNat_of_lines h _

theorem operand_taken (s : State) (u : Nat) (rest : List Rec128) (x : Use) (v : Nat) :
    operand (taken s u rest) x v = operand (tileOf s u) x v := operand_of_lines (taken_lines s u rest) x v

theorem resultNat_eq_packed (f : Flight) : resultNat f = packed (f.results.map (fun x => x.2.data)) := by
  rw [packed, List.foldr_map]
  rfl

theorem linesNat_eq_packed (t : Tile) (ls : List Nat) : linesNat t ls = packed (ls.map (fun l => (readLine t l).data)) := by
  rw [packed, List.foldr_map]
  rfl

theorem natLines_length (n v : Nat) : (natLines n v).length = n := by rw [natLines, List.length_map, List.length_range]

/-- The operation of an engine word. -/
def engineFlight (s : State) (r : Reel) (t : Tile) (w : Rec128) (x : Result) : Flight :=
  { flightOf s r w with results := computed t w x, flags := x.flags, srcBad := anySideBad t w }

/-- The side residues that the channel gives a result line. -/
def channelLine (t : Tile) (w : Rec128) (x : Result) (d : LineBits × Nat) : LineBits × BitVec 64 :=
  (d.1, if anySideBad t w then channelSide x.fmt d.1 (((x.chan.map (fun e => e.2)).drop (256 / elemBytes x.fmt * d.2)).take (256 / elemBytes x.fmt))
    else sideOf d.1)

/-- A result line from its bytes and residues. -/
def resultLine (t : Tile) (w : Rec128) (x : LineBits × BitVec 64) : LineVal :=
  { data := x.1, side := x.2, pdue := maxPdue t (srcLines w), cdue := 0 }

theorem computed_eq (t : Tile) (w : Rec128) (x : Result) :
    computed t w x = (dstLines w).zip (((natLines (dstLines w).length x.bytes).zipIdx.map (channelLine t w x)).map (resultLine t w)) := rfl

theorem computed_length (t : Tile) (w : Rec128) (x : Result) :
    (((natLines (dstLines w).length x.bytes).zipIdx.map (channelLine t w x)).map (resultLine t w)).length = (dstLines w).length := by
  rw [List.length_map, List.length_map, List.length_zipIdx, natLines_length]

theorem computed_dst (t : Tile) (w : Rec128) (x : Result) : (computed t w x).map (fun y => y.1) = dstLines w := by
  rw [computed_eq]
  exact List.map_fst_zip (computed_length t w x).ge

theorem computed_data (t : Tile) (w : Rec128) (x : Result) :
    (computed t w x).map (fun y => y.2.data) = natLines (dstLines w).length x.bytes := by
  have hsnd : (computed t w x).map Prod.snd = _ := List.map_snd_zip (computed_length t w x).le
  rw [show (fun y : Nat × LineVal => y.2.data) = (fun v : LineVal => v.data) ∘ Prod.snd from rfl, ← List.map_map, hsnd, List.map_map, List.map_map]
  exact List.zipIdx_map_fst _ _

theorem resultNat_engineFlight {t : Tile} {x : Result} (hb : x.bytes < 2 ^ (2048 * (dstLines w).length)) :
    resultNat (engineFlight s r t w x) = x.bytes := by
  rw [resultNat_eq_packed, show (engineFlight s r t w x).results.map (fun y => y.2.data) = _ from computed_data t w x, natLines, packed_words,
    Nat.mod_eq_of_lt hb]

/-- Lines made of lines that agree with their residues agree as well (R92). -/
theorem computed_agrees {t : Tile} {x : Result} (h : anySideBad t w = false) : ∀ y ∈ computed t w x, y.2.side = sideOf y.2.data := by
  rw [computed_eq]
  intro y hy
  obtain ⟨x', hmem, hx'⟩ := List.mem_map.mp (List.of_mem_zip hy).2
  obtain ⟨d, -, rfl⟩ := List.mem_map.mp hmem
  rw [← hx']
  exact if_neg (by simp [h])

theorem anySideBad_taken (s : State) (u : Nat) (rest : List Rec128) (w : Rec128) :
    anySideBad (taken s u rest) w = (srcLines w).any (fun l => sideBad (readLine (tileOf s u) l)) := by
  rw [anySideBad, readLine_of_lines (taken_lines s u rest)]

/-! ## Engine words -/

/-- The package after an engine word has issued. -/
def engineFrom (s : State) (r : Reel) (u : Nat) (w : Rec128) (rest : List Rec128) (x : Result) : State :=
  flyResult (takenFrom s u rest) r u (taken s u rest) w x

theorem engine_exec {F : Tile → Rec128 → Result} (h : readyToIssue s u r w rest op) (hx : exec cmd s = .next (issue op (engineRule F) u s)) :
    exec cmd s = .next (engineFrom s r u w rest (F (taken s u rest) w)) :=
  hx.trans (congrArg Host.Outcome.next (issue_quiet h rfl))

theorem tileOf_engineFrom (x : Result) :
    tileOf (engineFrom s r u w rest x) u = flown s u rest (engineFlight (takenFrom s u rest) r (taken s u rest) w x) := tileOf_fly_takenFrom _

theorem engine_issues {F : Tile → Rec128 → Result} (h : readyToIssue s u r w rest op) (hx : exec cmd s = .next (issue op (engineRule F) u s)) :
    issues cmd [.tiles] s u r w rest op :=
  issues_of_fly h (engine_exec h hx) rfl rfl (computed_dst _ w _)

/-- An operation in flight whose result packs the elements of `g`. -/
theorem computes_of_result {s' t' : State} {x : Result} {f : Fmt} {n : Nat} {g : Nat → Nat × BitVec 8}
    (hx : exec cmd s = .next t') (htile : (tileOf t' u).flight = some (engineFlight s' r (taken s u rest) w x))
    (hbytes : x.bytes = packElems f ((List.range n).map (fun k => (g k).1))) (hflags : x.flags = (List.range n).foldl (fun a k => a ||| (g k).2) 0)
    (hlt : ∀ k, k < n → (g k).1 < 2 ^ elemBits f) (hdim : elemBits f * n ≤ 2048 * (dstLines w).length) : computes cmd s u w f n g := by
  have hall : ∀ y ∈ (List.range n).map (fun k => (g k).1), y < 2 ^ elemBits f := by
    intro y hy
    obtain ⟨i, hi, rfl⟩ := List.mem_map.mp hy
    exact hlt i (List.mem_range.mp hi)
  have hnat : resultNat (engineFlight s' r (taken s u rest) w x) = x.bytes := by
    refine resultNat_engineFlight (lt_of_lt_of_le ?_ (Nat.pow_le_pow_right Nat.two_pos hdim))
    rw [hbytes]
    exact lt_of_lt_of_eq (packElems_lt hall) (by rw [List.length_map, List.length_range])
  refine ⟨t', _, hx, htile, fun k hk => ?_, hflags, anySideBad_taken s u rest w, fun hbad => computed_agrees hbad⟩
  rw [hnat, hbytes]
  exact elemAt_packElems hlt hk

theorem gather_range (n : Nat) (g : Nat → Nat × BitVec 8) :
    gather ((List.range n).map g) = ((List.range n).map (fun k => (g k).1), (List.range n).foldl (fun a k => a ||| (g k).2) 0) := by
  rw [gather, List.map_map, List.foldl_map]
  rfl

/-- The bytes and flags of a result. -/
def written (x : Result) : Nat × BitVec 8 := (x.bytes, x.flags)

/-- The bytes and flags that elements with their flags make. -/
def writes (f : Fmt) (y : List Nat × BitVec 8) : Nat × BitVec 8 := (packElems f y.1, y.2)

/-- An engine word whose results are those of `g`, element by element. -/
theorem engine_computes {F : Tile → Rec128 → Result} {f : Fmt} {n : Nat} {g : Nat → Nat × BitVec 8} {x : Shape}
    (h : readyToIssue s u r w rest op) (hx : exec cmd s = .next (issue op (engineRule F) u s))
    (hres : written (F (taken s u rest) w) = writes f (gather ((List.range n).map g)))
    (hlt : ∀ k, k < n → (g k).1 < 2 ^ elemBits f) (hs : shapeOf op = some x) (hdim : elemBits f * n ≤ 2048 * useLines x.dst) :
    computes cmd s u w f n g := by
  rw [gather_range] at hres
  refine computes_of_result (s' := takenFrom s u rest) (r := r) (rest := rest) (x := F (taken s u rest) w) (engine_exec h hx)
    (congrArg Tile.flight (tileOf_engineFrom _)) (congrArg Prod.fst hres) (congrArg Prod.snd hres) hlt (by rw [dstLines_length h hs]; exact hdim)

/-! ## Elements by their index -/

theorem elems_eq (f : Fmt) (n v : Nat) : elems f n v = (List.range n).map (elemAt f v) := rfl

/-- MVD and MVS, row by row. -/
theorem matVec_eq (f : Fmt) (rnd a x y : Nat) :
    matVec f rnd (elems f 4096 a) (elems f 64 x) (elems f 64 y) = gather ((List.range 64).map (fun i =>
      fmaChain f rnd (elemAt f y i) ((List.range 64).map (fun j => (elemAt f a (64 * i + j), elemAt f x j))))) := by
  unfold matVec
  rw [elems_eq, elems_eq, elems_eq, show (4096 : Nat) = 64 * 64 by norm_num, chunks_range, zip_range, List.map_map]
  refine congrArg gather (List.map_congr_left fun i _ => ?_)
  rw [Function.comp_apply, zip_range]

/-- Rows of A with columns of B, one pair of lists for each element of C. -/
theorem rows_columns (k : Nat) (a b : Nat → Nat) :
    (chunks k 64 ((List.range (64 * k)).map a)).flatMap (fun row => (columns 64 (chunks 64 k ((List.range (64 * k)).map b))).map (fun col => row.zip col)) =
      (List.range 4096).map (fun e => (List.range k).map (fun j => (a (k * (e / 64) + j), b (64 * j + e % 64)))) := by
  rw [columns_range, Nat.mul_comm 64 k, chunks_range, List.flatMap_map]
  have hrow (i : Nat) : ((List.range 64).map (fun j => (List.range k).map (fun i => b (64 * i + j)))).map
      (fun col => ((List.range k).map (fun j => a (k * i + j))).zip col) =
        (List.range 64).map (fun j => (List.range k).map (fun l => (a (k * i + l), b (64 * l + j)))) := by
    rw [List.map_map]
    exact List.map_congr_left fun j _ => zip_range k _ _
  rw [show (fun i => _) = fun i => (List.range 64).map (fun j => (List.range k).map (fun l => (a (k * i + l), b (64 * l + j)))) from funext hrow,
    flatMap_range]

/-- MMH and MMQ, element by element. -/
theorem matMul_eq (fa fb : Fmt) (rnd n k a b c : Nat) :
    matMul fa fb rnd n k (elems fa (64 * k) a) (elems fb (64 * k) b) (elems .fp32 4096 c) = gather ((List.range 4096).map (fun e =>
      groupChain fa fb rnd n (k / n) (elemAt .fp32 c e) ((List.range k).map (fun j => (elemAt fa a (k * (e / 64) + j), elemAt fb b (64 * j + e % 64)))))) := by
  unfold matMul
  dsimp only
  rw [elems_eq, elems_eq, elems_eq, rows_columns, zip_range, List.map_map]
  rfl

/-- MMI, element by element. -/
theorem matInt_eq (a b c : Nat) :
    matInt (elems .int8 8192 a) (elems .int8 8192 b) (elems .int32 4096 c) = gather ((List.range 4096).map (fun e =>
      satInt .int32 flSat (((List.range 128).map (fun j => (elemAt .int8 a (128 * (e / 64) + j), elemAt .int8 b (64 * j + e % 64)))).foldl
        (fun s p => s + decodeInt .int8 p.1 * decodeInt .int8 p.2) (decodeInt .int32 (elemAt .int32 c e))))) := by
  unfold matInt
  dsimp only
  rw [elems_eq, elems_eq, elems_eq, show (8192 : Nat) = 64 * 128 by norm_num, rows_columns, zip_range, List.map_map]
  exact congrArg gather (List.map_congr_left fun e _ => by rw [Function.comp_apply])

end Sys2Proof.Machine
end

section
/-! Proofs: the words without events, and the elements of every engine's results (O28). -/

namespace Sys2Proof.Machine

variable {s : State} {u : Nat} {r : Reel} {w : Rec128} {rest : List Rec128} {op : Nat} {rule : OpRule} {cmd : Instr}

/-! ## Words without events -/

theorem quiet_exec (h : readyToIssue s u r w rest op) (hx : exec cmd s = .next (issue op rule u s)) (hev : rule.evs = noEvs) :
    exec cmd s = .next (rule.go (takenFrom s u rest) r u (taken s u rest) w) :=
  hx.trans (congrArg Host.Outcome.next (issue_quiet h (by rw [hev]; rfl)))

theorem dstLines_of_shape (h : readyToIssue s u r w rest op) {x : Shape} (hs : shapeOf op = some x) : dstLines w = span x.dst (wDst w) := by
  rw [dstLines, ready_op h, hs]

theorem srcLines_of_shape (h : readyToIssue s u r w rest op) {x : Shape} (hs : shapeOf op = some x) :
    srcLines w = span x.a (wSrcA w) ++ span x.b (wSrcB w) ++ span x.c (wSrcC w) ++ (if x.accum then span x.dst (wDst w) else []) := by
  rw [srcLines, ready_op h, hs]

theorem exitTaken_taken (s : State) (u : Nat) (rest : List Rec128) (w : Rec128) : exitTaken (taken s u rest) w = exitTaken (tileOf s u) w := by
  unfold exitTaken exitElem
  rw [readLine_of_lines (taken_lines s u rest)]

/-- A tile whose sequencer keeps its C word alone (R63). -/
def leftWithC (x : Tile) : Tile := { x with exited := true, todo := x.todo.filter wC }

theorem exit_exec (h : readyToIssue s u r w rest 0x04) :
    exec (.exitIf u) s = .next (if exitTaken (tileOf s u) w then flownFrom s u rest leftWithC (flightOf s r w)
      else fly u (flightOf s r w) (takenFrom s u rest)) := by
  refine (quiet_exec (rule := exitRule) h rfl rfl).trans (congrArg Host.Outcome.next ?_)
  show justFly (if exitTaken (taken s u rest) w then updTile u leftWithC (takenFrom s u rest) else takenFrom s u rest) r u w = _
  rw [exitTaken_taken]
  split <;> rfl

/-- The flag word as the line that an RDFLG writes. -/
def flagLine (t : Tile) : LineBits := BitVec.ofNat 2048 t.flags.toNat

/-- The operation of an RDFLG. -/
def rdflgFlight (s : State) (r : Reel) (t : Tile) (w : Rec128) : Flight :=
  { flightOf s r w with results := resultLines t w [(flagLine t, sideOf (flagLine t))], effect := .clearFlags }

theorem rdflg_exec (h : readyToIssue s u r w rest 0x03) :
    exec (.rdflg u) s = .next (fly u (rdflgFlight (takenFrom s u rest) r (taken s u rest) w) (takenFrom s u rest)) :=
  quiet_exec (rule := rdflgRule) h rfl rfl

theorem rdflgFlight_results (h : readyToIssue s u r w rest 0x03) (s' : State) (t : Tile) :
    (rdflgFlight s' r t w).results = [(wDst w, { data := flagLine t, side := sideOf (flagLine t), pdue := maxPdue t (srcLines w), cdue := 0 })] := by
  show (dstLines w).zip _ = _
  rw [dstLines_of_shape h (x := { plainShape with dst := .line 1 }) rfl]
  rfl

theorem packed_singleton {n : Nat} (x : BitVec n) : packed [x] = x.toNat := by
  show x.toNat + 2 ^ n * 0 = x.toNat
  rw [Nat.mul_zero, Nat.add_zero]

theorem resultNat_rdflgFlight (h : readyToIssue s u r w rest 0x03) (s' : State) (t : Tile) : resultNat (rdflgFlight s' r t w) = t.flags.toNat := by
  rw [resultNat_eq_packed, rdflgFlight_results h, List.map_cons, List.map_nil, packed_singleton, flagLine, BitVec.toNat_ofNat]
  exact Nat.mod_eq_of_lt (lt_of_lt_of_le t.flags.isLt (Nat.pow_le_pow_right Nat.two_pos (by decide)))

/-- The operation of a VCPY. -/
def cpyFlight (s : State) (r : Reel) (t : Tile) (w : Rec128) : Flight :=
  { flightOf s r w with results := cpyLines t w, srcBad := anySideBad t w }

theorem vcpy_exec (h : readyToIssue s u r w rest 0x37) :
    exec (.vcpy u) s = .next (fly u (cpyFlight (takenFrom s u rest) r (taken s u rest) w) (takenFrom s u rest)) :=
  quiet_exec (rule := cpyRule) h rfl rfl

/-- A line carried through with the word's tags. -/
def carriedLine (t : Tile) (w : Rec128) (l : Nat) : LineVal := { readLine t l with pdue := maxPdue t (srcLines w), cdue := 0 }

theorem cpyLines_eq (t : Tile) (w : Rec128) : cpyLines t w = (dstLines w).zip ((srcLines w).map (carriedLine t w)) := rfl

theorem vcpy_lines (h : readyToIssue s u r w rest 0x37) : srcLines w = span (.page 1) (wSrcA w) ∧ dstLines w = span (.page 1) (wDst w) := by
  refine ⟨?_, dstLines_of_shape h (x := vecShape .zero .none .none) rfl⟩
  rw [srcLines_of_shape h (x := vecShape .zero .none .none) rfl]
  rfl

theorem vcpy_length (h : readyToIssue s u r w rest 0x37) (t : Tile) : ((srcLines w).map (carriedLine t w)).length = (dstLines w).length := by
  obtain ⟨hs, hd⟩ := vcpy_lines h
  rw [List.length_map, hs, hd, length_span, length_span]

theorem cpyFlight_dst (h : readyToIssue s u r w rest 0x37) (s' : State) (t : Tile) :
    (cpyFlight s' r t w).results.map (fun x => x.1) = dstLines w := by
  show (cpyLines t w).map Prod.fst = _
  rw [cpyLines_eq]
  exact List.map_fst_zip (vcpy_length h t).ge

/-- A VCPY carries its source page's bytes. -/
theorem resultNat_cpyFlight (h : readyToIssue s u r w rest 0x37) (s' : State) (t : Tile) :
    resultNat (cpyFlight s' r t w) = operand t (.page 1) (wSrcA w) := by
  have hdata : (cpyFlight s' r t w).results.map (fun x => x.2.data) = (srcLines w).map (fun l => (readLine t l).data) := by
    show (cpyLines t w).map ((fun v : LineVal => v.data) ∘ Prod.snd) = _
    rw [← List.map_map, cpyLines_eq, List.map_snd_zip (vcpy_length h t).le, List.map_map]
    rfl
  rw [resultNat_eq_packed, hdata, (vcpy_lines h).1, operand, linesNat_eq_packed]

/-! ## VCVT -/

theorem withEntropy_changes (s : State) (n : Nat) : changesOnly [.entropy] s { s with entropy := n } := by
  intro p hp
  cases p
  case entropy => exact absurd (by decide) hp
  all_goals rfl

/-- The package once a VCVT has drawn what it needs. -/
def drawn (s : State) (w : Rec128) : State := { s with entropy := if wRnd w = 4 then s.entropy + cvtCount w else s.entropy }

/-- The operation of a VCVT. -/
def cvtFlight (s : State) (u : Nat) (r : Reel) (w : Rec128) (rest : List Rec128) : Flight :=
  engineFlight (drawn (takenFrom s u rest) w) r (taken s u rest) w (cvtResult s.entropy (taken s u rest) w)

theorem cvt_exec (h : readyToIssue s u r w rest 0x35) :
    exec (.vcvt u) s = .next (fly u (cvtFlight s u r w rest) (drawn (takenFrom s u rest) w)) :=
  quiet_exec (rule := cvtRule) h rfl rfl

theorem tileOf_cvt (s : State) (u : Nat) (r : Reel) (w : Rec128) (rest : List Rec128) :
    tileOf (fly u (cvtFlight s u r w rest) (drawn (takenFrom s u rest) w)) u = flown s u rest (cvtFlight s u r w rest) := by
  rw [tileOf_fly]
  exact congrArg (fun t : Tile => { t with flight := some (cvtFlight s u r w rest) }) (tileOf_takenFrom s u rest)

theorem cvt_issues (h : readyToIssue s u r w rest 0x35) {ps : List Part}
    (hc : changesOnly ps s (fly u (cvtFlight s u r w rest) (drawn (takenFrom s u rest) w))) : issues (.vcvt u) ps s u r w rest 0x35 := by
  have htile := tileOf_cvt s u r w rest
  refine ⟨_, cvtFlight s u r w rest, cvt_exec h, inFlight_of_tile hc (fun v hv => ?_) ?_ rfl rfl (ready_op h) ?_, ?_, ?_, ?_, computed_dst _ w _⟩
  · exact (tilesBut_fly _ _ v hv).trans (tilesBut_takenFrom s u rest v hv)
  all_goals rw [htile]
  · rfl
  · exact ⟨rfl, rfl, rfl, rfl, rfl, rfl⟩
  · rfl
  · rfl
  · rfl

theorem cvt_changes (s : State) (u : Nat) (r : Reel) (w : Rec128) (rest : List Rec128) :
    changesOnly [.tiles, .entropy] s (fly u (cvtFlight s u r w rest) (drawn (takenFrom s u rest) w)) :=
  (((takenFrom_changes s u rest).mono (by decide)).trans ((withEntropy_changes _ _).mono (by decide))).trans ((fly_changes _ _).mono (by decide))

theorem drawn_of_undrawn (hw : wRnd w ≠ 4) (s : State) : drawn s w = s := by
  rw [drawn, if_neg hw]

theorem cvt_changes_of_undrawn (hw : wRnd w ≠ 4) (s : State) (u : Nat) (r : Reel) (rest : List Rec128) :
    changesOnly [.tiles] s (fly u (cvtFlight s u r w rest) (drawn (takenFrom s u rest) w)) := by
  rw [drawn_of_undrawn hw]
  exact (takenFrom_changes s u rest).trans (fly_changes _ _)

end Sys2Proof.Machine
end

section
/-! Proofs: what each engine computes, element by element (O28). -/

namespace Sys2Proof.Machine

variable {s : State} {u : Nat} {r : Reel} {w : Rec128} {rest : List Rec128} {op : Nat} {rule : OpRule} {cmd : Instr}

/-! ## Matrix words -/

theorem written_resultOf (f : Fmt) (y : List Nat × BitVec 8) (c : List Elem) : written (resultOf f y c) = writes f y := rfl

theorem matVec_computes {f : Fmt} {p l : Nat} {x : Shape} (h : readyToIssue s u r w rest op)
    (hx : exec cmd s = .next (issue op (engineRule (matVecResult f p l)) u s)) (hf : isInt f = false) (hs : shapeOf op = some x)
    (hdim : elemBits f * 64 ≤ 2048 * useLines x.dst) :
    computes cmd s u w f 64 (fun i => fmaChain f (wRnd w) (elemAt f (operand (tileOf s u) (.line l) (wDst w)) i)
      ((List.range 64).map (fun j => (elemAt f (operand (tileOf s u) (.page p) (wSrcA w)) (64 * i + j),
        elemAt f (operand (tileOf s u) (.line l) (wSrcB w)) j)))) := by
  refine engine_computes h hx ?_ (fun k _ => fmaChain_lt hf _ (elemAt_lt ..) _) hs hdim
  rw [matVecResult, written_resultOf, matVec_eq, operand_taken, operand_taken, operand_taken]

theorem matMul_computes {fa fb : Fmt} {n k : Nat} {F : Tile → Rec128 → Result} {x : Shape} (h : readyToIssue s u r w rest op)
    (hx : exec cmd s = .next (issue op (engineRule F) u s)) (hF : F (taken s u rest) w = matMulResult fa fb n k (taken s u rest) w)
    (hs : shapeOf op = some x) (hdim : 131072 ≤ 2048 * useLines x.dst) :
    computes cmd s u w .fp32 4096 (fun e => groupChain fa fb (wRnd w) n (k / n) (elemAt .fp32 (operand (tileOf s u) (.page 4) (wDst w)) e)
      ((List.range k).map (fun j => (elemAt fa (operand (tileOf s u) (.page 2) (wSrcA w)) (k * (e / 64) + j),
        elemAt fb (operand (tileOf s u) (.page 2) (wSrcB w)) (64 * j + e % 64))))) := by
  refine engine_computes h hx ?_ (fun e _ => groupChain_lt fa fb _ n _ (elemAt_lt ..) _) hs hdim
  rw [hF, matMulResult, written_resultOf, matMul_eq, operand_taken, operand_taken, operand_taken]

/-- The exact sum of an element of an MMI. -/
def intDot (a b c : Nat) (e : Nat) : Int :=
  ((List.range 128).map (fun k => intAt 8 a (128 * (e / 64) + k) * intAt 8 b (64 * k + e % 64))).sum + intAt 32 c e

theorem foldl_products (ps : List (Nat × Nat)) (c : Int) :
    ps.foldl (fun s p => s + decodeInt .int8 p.1 * decodeInt .int8 p.2) c = (ps.map (fun p => decodeInt .int8 p.1 * decodeInt .int8 p.2)).sum + c := by
  induction ps generalizing c with
  | nil => exact (Int.zero_add c).symm
  | cons p l ih =>
    rw [List.foldl_cons, ih, List.map_cons, List.sum_cons]
    omega

theorem intDot_eq (a b c e : Nat) :
    ((List.range 128).map (fun j => (elemAt .int8 a (128 * (e / 64) + j), elemAt .int8 b (64 * j + e % 64)))).foldl
      (fun s p => s + decodeInt .int8 p.1 * decodeInt .int8 p.2) (decodeInt .int32 (elemAt .int32 c e)) = intDot a b c e := by
  have h8 (n k : Nat) : intAt 8 n k = decodeInt .int8 (elemAt .int8 n k) := intAt_eq .int8 n k
  have h32 (n k : Nat) : intAt 32 n k = decodeInt .int32 (elemAt .int32 n k) := intAt_eq .int32 n k
  rw [foldl_products, List.map_map, intDot]
  simp only [h8, h32]
  rfl

theorem matInt_computes (h : readyToIssue s u r w rest 0x24) :
    computes (.mmi u) s u w .int32 4096 (fun e => satInt .int32 flSat (intDot (operand (tileOf s u) (.page 2) (wSrcA w))
      (operand (tileOf s u) (.page 2) (wSrcB w)) (operand (tileOf s u) (.page 4) (wDst w)) e)) := by
  refine engine_computes (F := matIntResult) h rfl ?_ (fun e _ => satInt_lt _ _ _)
    (x := mmShape [5] .zero) rfl (by decide)
  rw [matIntResult, written_resultOf, matInt_eq, operand_taken, operand_taken, operand_taken]
  simp only [intDot_eq]

/-! ## Flags of saturations -/

/-- The flags of elements of which none saturates. -/
theorem flags_of_none {n : Nat} {g : Nat → BitVec 8} (h : ∀ k, k < n → g k = 0) : (List.range n).foldl (fun a k => a ||| g k) 0 = 0 := by
  have hall : ∀ k ∈ List.range n, g k = 0 := fun k hk => h k (List.mem_range.mp hk)
  generalize List.range n = l at hall
  induction l with
  | nil => rfl
  | cons k l ih =>
    obtain ⟨hk, hl⟩ := List.forall_mem_cons.mp hall
    rw [List.foldl_cons, hk]
    exact ih hl

/-- The flags of elements of which one saturates. -/
theorem flags_of_some {n k : Nat} {g : Nat → BitVec 8} (h : ∀ k, k < n → g k = 0 ∨ g k = 32) (hk : k < n) (hg : g k = 32) :
    (List.range n).foldl (fun a k => a ||| g k) 0 = 32 := by
  have hall : ∀ k ∈ List.range n, g k = 0 ∨ g k = 32 := fun k hk => h k (List.mem_range.mp hk)
  have hmem : k ∈ List.range n := List.mem_range.mpr hk
  have hkeep (l : List Nat) (hl : ∀ k ∈ l, g k = 0 ∨ g k = 32) : l.foldl (fun a k => a ||| g k) 32 = 32 := by
    refine List.foldlRecOn (motive := fun a : BitVec 8 => a = 32) l _ rfl (fun a ha k hk => ?_)
    rw [ha]
    rcases hl k hk with h | h <;> rw [h] <;> decide
  generalize List.range n = l at hall hmem
  induction l with
  | nil => exact nomatch hmem
  | cons j l ih =>
    obtain ⟨hj, hl⟩ := List.forall_mem_cons.mp hall
    rw [List.foldl_cons]
    rcases hj with hj | hj
    · rw [hj]
      rcases List.mem_cons.mp hmem with rfl | hm
      · rw [hg] at hj
        exact absurd hj (by decide)
      · exact ih hl hm
    · rw [hj]
      exact hkeep l hl

/-- Elements that saturate once, with the flag of a saturation. -/
theorem flags_of_saturated (f : Fmt) {n : Nat} (v : Nat → Int) :
    ((∀ k, k < n → saturated (elemBits f) (v k) = v k) → (List.range n).foldl (fun a k => a ||| (satInt f flSat (v k)).2) 0 = 0) ∧
    ((∃ k, k < n ∧ saturated (elemBits f) (v k) ≠ v k) → (List.range n).foldl (fun a k => a ||| (satInt f flSat (v k)).2) 0 = 32) := by
  refine ⟨fun h => flags_of_none fun k hk => ?_, fun ⟨k, hk, hne⟩ => flags_of_some (k := k) (fun j _ => ?_) hk ?_⟩
  · rw [(satInt_spec f (v k)).2, if_pos (h k hk)]
  · rw [(satInt_spec f (v j)).2]
    split
    · exact .inl rfl
    · exact .inr rfl
  · rw [(satInt_spec f (v k)).2, if_neg hne]

/-- What a word that computes saturated integers writes. -/
theorem integers_of_computes {f : Fmt} {n : Nat} {v : Nat → Int} (hc : computes cmd s u w f n (fun k => satInt f flSat (v k))) :
    ∃ t x, exec cmd s = .next t ∧ (tileOf t u).flight = some x ∧ (∀ k, k < n → intAt (elemBits f) (resultNat x) k = saturated (elemBits f) (v k)) ∧
      ((∀ k, k < n → saturated (elemBits f) (v k) = v k) → x.flags = 0) ∧ ((∃ k, k < n ∧ saturated (elemBits f) (v k) ≠ v k) → x.flags = 32) := by
  obtain ⟨t, x, hx, hfl, hel, hflags, -⟩ := hc
  obtain ⟨hzero, hsat⟩ := flags_of_saturated f (n := n) v
  refine ⟨t, x, hx, hfl, fun k hk => ?_, fun h => hflags.trans (hzero h), fun h => hflags.trans (hsat h)⟩
  rw [intAt_eq, hel k hk]
  exact (satInt_spec f (v k)).1

/-! ## Vector words -/

section
variable {f : Fmt} (hf : fmtOf (wFmt w) = some f)
include hf

theorem wordFmt_eq : wordFmt w = f := by rw [wordFmt, hf]; rfl

theorem pageElems_eq (v : Nat) :
    pageElems (taken s u rest) w v = (List.range (4096 / elemBytes f)).map (elemAt f (operand (tileOf s u) (.page 1) v)) := by
  rw [pageElems, wordFmt_eq hf, operand_taken, elems_eq]

theorem zip_computes {g : Fmt → Nat → Nat → Nat → Nat × BitVec 8} {gx : Fmt → Nat → Elem → Elem → Elem} {x : Shape}
    (h : readyToIssue s u r w rest op) (hx : exec cmd s = .next (issue op (engineRule (zipResult g gx)) u s))
    (hlt : ∀ a b, a < 2 ^ elemBits f → b < 2 ^ elemBits f → (g f (wRnd w) a b).1 < 2 ^ elemBits f) (hs : shapeOf op = some x)
    (hpage : x.dst = .page 1) :
    computes cmd s u w f (4096 / elemBytes f) (fun k => g f (wRnd w) (elemAt f (operand (tileOf s u) (.page 1) (wSrcA w)) k)
      (elemAt f (operand (tileOf s u) (.page 1) (wSrcB w)) k)) := by
  refine engine_computes h hx ?_ (fun k _ => hlt _ _ (elemAt_lt ..) (elemAt_lt ..)) hs
    (by rw [hpage]; cases f <;> decide)
  show writes (wordFmt w) (gather (((pageElems _ w _).zip (pageElems _ w _)).map (fun x => g (wordFmt w) (wRnd w) x.1 x.2))) = _
  rw [pageElems_eq hf, pageElems_eq hf, zip_range, List.map_map, wordFmt_eq hf]
  rfl

theorem fma_computes (h : readyToIssue s u r w rest 0x30) :
    computes (.vfma u) s u w f (4096 / elemBytes f) (fun k => fmaE f (wRnd w) (elemAt f (operand (tileOf s u) (.page 1) (wSrcA w)) k)
      (elemAt f (operand (tileOf s u) (.page 1) (wSrcB w)) k) (elemAt f (operand (tileOf s u) (.page 1) (wSrcC w)) k)) := by
  refine engine_computes (F := fmaResult) h rfl ?_ (fun k _ => fmaE_lt f _ _ _ _)
    (x := vecShape .vector (.page 1) (.page 1)) rfl (by cases f <;> decide)
  show writes (wordFmt w) (gather (((pageElems _ w _).zip ((pageElems _ w _).zip (pageElems _ w _))).map
    (fun x => fmaE (wordFmt w) (wRnd w) x.1 x.2.1 x.2.2))) = _
  rw [pageElems_eq hf, pageElems_eq hf, pageElems_eq hf, zip_range, zip_range, List.map_map, wordFmt_eq hf]
  rfl

end

/-! ## VCVT -/

theorem map_range_append_zeros {m n : Nat} (h : m ≤ n) (g : Nat → Nat) :
    (List.range n).map (fun k => if k < m then g k else 0) = (List.range m).map g ++ List.replicate (n - m) 0 := by
  refine List.ext_getElem (by simp; omega) fun i h1 h2 => ?_
  rw [List.getElem_map, List.getElem_range, List.getElem_append]
  by_cases hi : i < m
  · rw [if_pos hi, dif_pos (by simpa using hi)]
    simp
  · rw [if_neg hi, dif_neg (by simpa using hi), List.getElem_replicate]

theorem flags_of_prefix {m n : Nat} (h : m ≤ n) (g : Nat → BitVec 8) :
    (List.range n).foldl (fun a k => a ||| (if k < m then g k else 0)) 0 = (List.range m).foldl (fun a k => a ||| g k) 0 := by
  obtain ⟨d, rfl⟩ := Nat.exists_eq_add_of_le h
  have hhead : (List.range m).foldl (fun a k => a ||| (if k < m then g k else 0)) 0 = (List.range m).foldl (fun a k => a ||| g k) 0 :=
    List.foldl_ext _ _ _ fun a k hk => by rw [if_pos (List.mem_range.mp hk)]
  rw [List.range_add, List.foldl_append, hhead, List.foldl_map]
  refine List.foldlRecOn (motive := fun a : BitVec 8 => a = _) (List.range d) _ rfl (fun a ha k _ => ?_)
  rw [ha, if_neg (by omega)]
  exact BitVec.or_zero

/-- The element that a VCVT makes of one. -/
def converted (s : State) (w : Rec128) (f g : Fmt) (a : Nat) (k : Nat) : Nat × BitVec 8 :=
  convertE f g (wRnd w) (if wRnd w = 4 then (Config.entropy (s.entropy + k)).toNat else 0) (wSat w) (elemAt g a k)

theorem cvtResult_eq {f g : Fmt} (hf : fmtOf (wFmt w) = some f) (hg : fmtOf (wAux w) = some g) {m : Nat}
    (hm : m = min (4096 / elemBytes f) (4096 / elemBytes g)) :
    cvtCount w = m ∧ (cvtResult s.entropy (taken s u rest) w).bytes =
        packElems f ((List.range m).map (fun k => (converted s w f g (operand (tileOf s u) (.page 1) (wSrcA w)) k).1)) ∧
      (cvtResult s.entropy (taken s u rest) w).flags =
        (List.range m).foldl (fun a k => a ||| (converted s w f g (operand (tileOf s u) (.page 1) (wSrcA w)) k).2) 0 := by
  have hsrc : cvtSrc w = g := by rw [cvtSrc, hg]; rfl
  have hcount : cvtCount w = m := by rw [cvtCount, wordFmt_eq hf, hsrc, hm]
  have hlist : ((elems (cvtSrc w) (cvtCount w) (operand (taken s u rest) (.page 1) (wSrcA w))).zipIdx.map (fun x =>
      convertE (wordFmt w) (cvtSrc w) (wRnd w) (if wRnd w = 4 then (Config.entropy (s.entropy + x.2)).toNat else 0) (wSat w) x.1)) =
      (List.range m).map (converted s w f g (operand (tileOf s u) (.page 1) (wSrcA w))) := by
    rw [hsrc, hcount, wordFmt_eq hf, operand_taken, elems_eq, zipIdx_range, List.map_map]
    rfl
  refine ⟨hcount, ?_, ?_⟩
  · show packElems (wordFmt w) (gather _).1 = _
    rw [hlist, gather_range, wordFmt_eq hf]
  · show (gather _).2 = _
    rw [hlist, gather_range]

theorem cvt_computes {f g : Fmt} (h : readyToIssue s u r w rest 0x35) (hf : fmtOf (wFmt w) = some f) (hg : fmtOf (wAux w) = some g) {m : Nat}
    (hm : m = min (4096 / elemBytes f) (4096 / elemBytes g)) :
    computes (.vcvt u) s u w f (4096 / elemBytes f) (fun k => if k < m then
        converted s w f g (operand (tileOf s u) (.page 1) (wSrcA w)) k else (0, 0)) ∧
      ∃ t : State, exec (.vcvt u) s = .next t ∧ t.entropy = (if wRnd w = 4 then s.entropy + m else s.entropy) := by
  obtain ⟨hcount, hbytes, hflags⟩ := cvtResult_eq (s := s) (u := u) (rest := rest) hf hg hm
  have hle : m ≤ 4096 / elemBytes f := by rw [hm]; exact Nat.min_le_left _ _
  refine ⟨computes_of_result (cvt_exec h) (congrArg Tile.flight (tileOf_cvt s u r w rest)) ?_ ?_ (fun k _ => ?_) ?_, _, cvt_exec h, ?_⟩
  · rw [hbytes, ← packElems_append_zeros f _ (4096 / elemBytes f - m), ← map_range_append_zeros hle]
    refine congrArg (packElems f) (List.map_congr_left fun k _ => ?_)
    split <;> rfl
  · rw [hflags, ← flags_of_prefix hle]
    refine List.foldl_ext _ _ _ fun a k _ => ?_
    split <;> rfl
  · split
    · exact convertE_lt f _ _ _ _ _
    · exact Nat.two_pow_pos _
  · rw [dstLines_length h (x := { vecShape .convert .none .none with auxMax := 6 }) rfl]
    cases f <;> decide
  · show (if wRnd w = 4 then s.entropy + cvtCount w else s.entropy) = _
    rw [hcount]

/-! ## VRED -/

theorem fmtOf_le_four {f : Fmt} (hf : fmtOf (wFmt w) = some f) : (wFmt w ≤ 4 → isInt f = false) ∧ (4 < wFmt w → isInt f = true) := by
  revert hf
  generalize wFmt w = k
  intro hf
  have hk : k < 7 := by
    by_contra h
    rw [fmtOf, List.getElem?_eq_none (by simpa using h)] at hf
    exact nomatch hf
  interval_cases k <;> obtain rfl := Option.some.inj hf <;> decide

theorem treeNode_lt {f : Fmt} (hf : isInt f = false) (rnd a l k : Nat) : (treeNode f rnd (elemAt f a) l k).1 < 2 ^ elemBits f := by
  cases l with
  | zero => exact elemAt_lt f a k
  | succ l => exact encodeNum_lt hf rnd 0 false _

/-- The tree sum of a page in a floating-point format is the root of the fixed tree. -/
theorem treeSum_eq {f : Fmt} (hf : isInt f = false) (rnd : Nat) (v : Nat → Nat) {l n : Nat} (hl : 2 ^ l = n) (hn : n = 4096 / elemBytes f) :
    treeSum f rnd ((List.range n).map v) = treeNode f rnd v l 0 := by
  have hle : l ≤ 12 := by
    rw [← Nat.pow_le_pow_iff_right (a := 2) (by decide), hl, hn]
    exact Nat.div_le_self _ _
  obtain ⟨d, hd⟩ := Nat.exists_eq_add_of_le hle
  unfold treeSum
  rw [if_neg (by simp [hf]), List.map_map, hd, treeUp_add, ← hl]
  have hnodes := treeUp_nodes (c := fun a b : Nat × BitVec 8 => ((addF f rnd a.1 b.1).1, a.2 ||| b.2 ||| (addF f rnd a.1 b.1).2))
    (node := treeNode f rnd v) (fun _ _ => rfl) l 0
  rw [Nat.zero_add] at hnodes
  show (treeUp _ d (treeUp (fun a b : Nat × BitVec 8 => ((addF f rnd a.1 b.1).1, a.2 ||| b.2 ||| (addF f rnd a.1 b.1).2)) l
    ((List.range (2 ^ l)).map (treeNode f rnd v 0)))).headD (0, 0) = _
  rw [hnodes, treeUp_single]
  rfl

theorem foldl_ints (f : Fmt) (l : List Nat) (c : Int) : (l.map (decodeInt f)).foldl (· + ·) c = c + (l.map (decodeInt f)).sum := by
  induction l generalizing c with
  | nil => exact (Int.add_zero c).symm
  | cons x l ih =>
    rw [List.map_cons, List.foldl_cons, ih, List.sum_cons]
    omega

/-- The tree sum of a page in an integer format is exact and saturates once. -/
theorem treeSum_int {f : Fmt} (hf : isInt f = true) (rnd n a : Nat) :
    treeSum f rnd ((List.range n).map (elemAt f a)) = satInt f flSat ((List.range n).map (intAt (elemBits f) a)).sum := by
  unfold treeSum
  rw [if_pos hf, foldl_ints, Int.zero_add, List.map_map, show decodeInt f ∘ elemAt f a = intAt (elemBits f) a from
    funext fun k => (intAt_eq f a k).symm]

/-- A VRED writes its tree sum and nothing behind it. -/
theorem vred_flight {f : Fmt} (hf : fmtOf (wFmt w) = some f) (h : readyToIssue s u r w rest 0x36) {x : Nat × BitVec 8}
    (hx : treeSum f (wRnd w) ((List.range (4096 / elemBytes f)).map (elemAt f (operand (tileOf s u) (.page 1) (wSrcA w)))) = x)
    (hlt : x.1 < 2 ^ elemBits f) :
    ∃ t y, exec (.vred u) s = .next t ∧ (tileOf t u).flight = some y ∧ resultNat y = x.1 ∧ y.flags = x.2 := by
  have hsum : treeSum (wordFmt w) (wRnd w) (pageElems (taken s u rest) w (wSrcA w)) = x := by rw [pageElems_eq hf, wordFmt_eq hf, hx]
  have hbytes : (redResult (taken s u rest) w).bytes = x.1 := congrArg Prod.fst hsum
  have hdst : (dstLines w).length = 1 := dstLines_length h (x := { vecShape .vector .none .none with dst := .line 1 }) rfl
  refine ⟨_, _, engine_exec (F := redResult) h rfl, congrArg Tile.flight (tileOf_engineFrom _), ?_, congrArg Prod.snd hsum⟩
  refine (resultNat_engineFlight ?_).trans hbytes
  rw [hbytes, hdst]
  exact lt_of_lt_of_le hlt (Nat.pow_le_pow_right Nat.two_pos (by cases f <;> decide))

end Sys2Proof.Machine
end

section
/-! Proofs: the plain words (O28) and the vector words in integer formats (O29). -/

namespace Sys2Proof.Machine

variable {s : State} {u : Nat} {r : Reel} {w : Rec128} {rest : List Rec128} {op : Nat} {cmd : Instr}

/-- What the words that move or test nothing but the sequencer do. -/
theorem plain_issues (s : State) (u : Nat) (r : Reel) (w : Rec128) (rest : List Rec128) :
    (readyToIssue s u r w rest 0x00 → issues (.nop u) [.tiles] s u r w rest 0x00) ∧
    (readyToIssue s u r w rest 0x02 → issues (.esig u) [.tiles] s u r w rest 0x02 ∧
      ∃ t f, exec (.esig u) s = .next t ∧ (tileOf t u).flight = some f ∧ f.effect = .signal (wDst w) (wAux w)) ∧
    (readyToIssue s u r w rest 0x03 → issues (.rdflg u) [.tiles] s u r w rest 0x03 ∧
      ∃ t f, exec (.rdflg u) s = .next t ∧ (tileOf t u).flight = some f ∧ f.effect = .clearFlags ∧
        resultNat f = (tileOf s u).flags.toNat) := by
  refine ⟨fun h => ?_, fun h => ?_, fun h => ?_⟩
  · refine issues_of_fly (f := flightOf s r w) h (quiet_exec (rule := { evs := noEvs, go := fun s r u _ w => justFly s r u w }) h rfl rfl) rfl rfl ?_
    rw [dstLines_of_shape h (x := plainShape) rfl]
    rfl
  · have hx : exec (.esig u) s = .next (fly u { flightOf s r w with effect := .signal (wDst w) (wAux w) } (takenFrom s u rest)) :=
      quiet_exec (rule := esigRule) h rfl rfl
    refine ⟨issues_of_fly h hx rfl rfl ?_, _, _, hx, congrArg Tile.flight (tileOf_fly_takenFrom _), rfl⟩
    rw [dstLines_of_shape h (x := { plainShape with dst := .tile, auxMax := 15 }) rfl]
    rfl
  · have hx := rdflg_exec h
    refine ⟨issues_of_fly h hx rfl rfl ?_, _, _, hx, congrArg Tile.flight (tileOf_fly_takenFrom _), rfl, resultNat_rdflgFlight h _ _⟩
    rw [rdflgFlight_results h, dstLines_of_shape h (x := { plainShape with dst := .line 1 }) rfl]
    rfl

/-- EXIT_IF, with its test false and true. -/
theorem exit_issues (s : State) (u : Nat) (r : Reel) (w : Rec128) (rest : List Rec128) :
    (readyToIssue s u r w rest 0x04 → exitTaken (tileOf s u) w = false →
      issues (.exitIf u) [.tiles] s u r w rest 0x04) ∧
    (readyToIssue s u r w rest 0x04 → exitTaken (tileOf s u) w = true →
      issues (.exitIf u) [.tiles] s u r w (rest.filter wC) 0x04 ∧
      ∃ t : State, exec (.exitIf u) s = .next t ∧ (tileOf t u).exited = true) := by
  have hdst (h : readyToIssue s u r w rest 0x04) : (flightOf s r w).results.map (fun x => x.1) = dstLines w := by
    rw [dstLines_of_shape h (x := { plainShape with fmts := allFmts, a := .line 1, auxMax := 3, immHi := 255 }) rfl]
    rfl
  refine ⟨fun h hf => ?_, fun h ht => ?_⟩
  · have hx := exit_exec h
    rw [if_neg (c := exitTaken (tileOf s u) w = true) (by rw [hf]; decide)] at hx
    exact issues_of_fly h hx rfl rfl (hdst h)
  · have hx := exit_exec h
    rw [if_pos (c := exitTaken (tileOf s u) w = true) ht] at hx
    have htile := tileOf_flownFrom (s := s) (u := u) (rest := rest) leftWithC (flightOf s r w)
    refine ⟨⟨_, flightOf s r w, hx, inFlight_flownFrom h rfl rfl (fun _ => ⟨rfl, rfl, rfl, rfl, rfl, rfl⟩), ?_, ?_, ?_, hdst h⟩, _, hx, ?_⟩
    · exact congrArg Tile.todo htile
    · exact (congrArg Tile.mover htile).trans rfl
    · exact (congrArg Tile.events htile).trans rfl
    · exact congrArg Tile.exited htile

theorem cpy_issues (h : readyToIssue s u r w rest 0x37) : issues (.vcpy u) [.tiles] s u r w rest 0x37 :=
  issues_of_fly h (vcpy_exec h) rfl rfl (cpyFlight_dst h _ _)

/-- The formats of an MMQ as its FMT names them (Table 4-5). -/
theorem mmqFmts_eq {fa fb : Fmt} (h : readyToIssue s u r w rest 0x23) (h3 : wFmt w = 3 → fa = Fmt.e4m3 ∧ fb = Fmt.e4m3)
    (h4 : wFmt w = 4 → fa = Fmt.e5m2 ∧ fb = Fmt.e5m2) (h7 : wFmt w = 7 → fa = Fmt.e4m3 ∧ fb = Fmt.e5m2)
    (h8 : wFmt w = 8 → fa = Fmt.e5m2 ∧ fb = Fmt.e4m3) : mmqFmts (wFmt w) = (fa, fb) := by
  have hop := ready_op h
  obtain ⟨-, -, -, -, -, hf, -⟩ := h
  have hmem : wFmt w = 3 ∨ wFmt w = 4 ∨ wFmt w = 7 ∨ wFmt w = 8 := by
    rw [fieldsOk, hop] at hf
    simp only [shapeOf, mmShape, Bool.and_eq_true, List.contains_iff_mem, List.mem_cons, List.not_mem_nil, or_false] at hf
    tauto
  rcases hmem with hk | hk | hk | hk
  · obtain ⟨rfl, rfl⟩ := h3 hk
    rw [hk]
    rfl
  · obtain ⟨rfl, rfl⟩ := h4 hk
    rw [hk]
    rfl
  · obtain ⟨rfl, rfl⟩ := h7 hk
    rw [hk]
    rfl
  · obtain ⟨rfl, rfl⟩ := h8 hk
    rw [hk]
    rfl

/-- A VRED in a floating-point format, and in an integer format. -/
theorem vred_sums {f : Fmt} (hf : fmtOf (wFmt w) = some f) (h : readyToIssue s u r w rest 0x36) :
    ∃ t x, exec (.vred u) s = .next t ∧ (tileOf t u).flight = some x ∧
      (wFmt w ≤ 4 → ∀ l, 2 ^ l = 4096 / elemBytes f →
        (resultNat x, x.flags) = treeNode f (wRnd w) (elemAt f (operand (tileOf s u) (.page 1) (wSrcA w))) l 0) ∧
      (4 < wFmt w → ∀ v : Int, v = ((List.range (4096 / elemBytes f)).map (intAt (8 * elemBytes f) (operand (tileOf s u) (.page 1) (wSrcA w)))).sum →
        intAt (8 * elemBytes f) (resultNat x) 0 = saturated (8 * elemBytes f) v ∧ resultNat x < 2 ^ (8 * elemBytes f) ∧
        x.flags = (if saturated (8 * elemBytes f) v = v then 0 else 32)) := by
  obtain ⟨hfloat, hint⟩ := fmtOf_le_four hf
  generalize hA : operand (tileOf s u) (.page 1) (wSrcA w) = A
  by_cases h4 : wFmt w ≤ 4
  · have hroot (l : Nat) (hl : 2 ^ l = 4096 / elemBytes f) :
        treeSum f (wRnd w) ((List.range (4096 / elemBytes f)).map (elemAt f (operand (tileOf s u) (.page 1) (wSrcA w)))) =
          treeNode f (wRnd w) (elemAt f A) l 0 := by
      rw [hA]
      exact treeSum_eq (hfloat h4) (wRnd w) (elemAt f A) hl rfl
    obtain ⟨l, hl⟩ : ∃ l, 2 ^ l = 4096 / elemBytes f := by
      cases f
      · exact ⟨9, by decide⟩
      · exact ⟨10, by decide⟩
      · exact ⟨11, by decide⟩
      · exact ⟨12, by decide⟩
      · exact ⟨12, by decide⟩
      · exact ⟨12, by decide⟩
      · exact ⟨10, by decide⟩
    obtain ⟨t, y, hx, hfl, hnat, hflags⟩ := vred_flight hf h (hroot l hl) (treeNode_lt (hfloat h4) _ _ _ _)
    refine ⟨t, y, hx, hfl, fun _ l' hl' => ?_, fun h5 => absurd h4 (by omega)⟩
    rw [hnat, hflags, Prod.mk.eta, ← hroot l hl, ← hroot l' hl']
  · have hsat := treeSum_int (hint (by omega)) (wRnd w) (4096 / elemBytes f) A
    obtain ⟨t, y, hx, hfl, hnat, hflags⟩ := vred_flight hf h (by rw [hA]; exact hsat) (satInt_lt _ _ _)
    refine ⟨t, y, hx, hfl, fun h5 => absurd h5 h4, fun _ v hv => ?_⟩
    obtain ⟨hval, hfla⟩ := satInt_spec f ((List.range (4096 / elemBytes f)).map (intAt (elemBits f) A)).sum
    have hlt := satInt_lt f flSat ((List.range (4096 / elemBytes f)).map (intAt (elemBits f) A)).sum
    have hfirst : elemAt f (resultNat y) 0 = resultNat y := by
      rw [elemAt, Nat.mul_zero, Nat.pow_zero, Nat.div_one, hnat]
      exact Nat.mod_eq_of_lt hlt
    refine ⟨?_, hnat.trans_lt hlt, ?_⟩
    · show intAt (elemBits f) (resultNat y) 0 = _
      rw [intAt_eq, hfirst, hnat, hval, hv]
      rfl
    · rw [hflags, hfla, hv]
      rfl

end Sys2Proof.Machine

open Sys2Proof Sys2Proof.Machine

/-- Settles O28: every word without an event flies, and the engines' results are given by the index of the element. -/
theorem plainWordsIssue : Obligations.PlainWordsIssue := by
  intro s u r w rest
  obtain ⟨hnop, hesig, hrdflg⟩ := plain_issues s u r w rest
  obtain ⟨hstay, hexit⟩ := exit_issues s u r w rest
  refine ⟨hnop, hesig, hrdflg, hstay, hexit, fun h => engine_issues h rfl, fun h => engine_issues h rfl, fun h => engine_issues h rfl,
    fun h => engine_issues h rfl, fun h => engine_issues h rfl, fun h => engine_issues h rfl, fun h => engine_issues h rfl,
    fun h => engine_issues h rfl, fun h => engine_issues h rfl, fun h => engine_issues h rfl,
    fun h => ⟨cvt_issues h (cvt_changes _ _ _ _ _), fun hw => cvt_issues h (cvt_changes_of_undrawn hw _ _ _ _)⟩,
    fun h => engine_issues h rfl, cpy_issues, ?_, ?_⟩
  · rintro _ _ rfl rfl
    refine ⟨?_, ?_, ?_⟩
    · intro A x y hA hx hy h
      rw [hA, hx, hy]
      exact matVec_computes (x := { plainShape with rnd := .dir, dst := .line 2, a := .page 8, b := .line 2, accum := true }) h rfl rfl rfl (by decide)
    · intro A x y hA hx hy h
      rw [hA, hx, hy]
      exact matVec_computes (x := { plainShape with fmts := [1], rnd := .dir, dst := .line 1, a := .page 4, b := .line 1, accum := true }) h rfl rfl rfl (by decide)
    · intro A B C hA hB hC
      rw [hA, hB, hC]
      refine ⟨fun h => ?_, fun fa fb h3 h4 h7 h8 h => ?_, fun h => ?_⟩
      · exact matMul_computes (x := mmShape [2] .dir) (n := 8) (k := 64) h rfl rfl rfl (by decide)
      · refine matMul_computes (x := mmShape [3, 4, 7, 8] .dir) (n := 16) (k := 128) h
          (F := fun t w => matMulResult (mmqFmts (wFmt w)).1 (mmqFmts (wFmt w)).2 16 128 t w) rfl ?_ rfl (by decide)
        rw [mmqFmts_eq h h3 h4 h7 h8]
      · obtain ⟨t, x, hx, hfl, hel, hzero, hsat⟩ := integers_of_computes (matInt_computes h)
        refine ⟨t, x, hx, hfl, fun v hv => ?_⟩
        obtain rfl : v = intDot _ _ _ := funext hv
        exact ⟨hel, hzero, hsat⟩
  · intro f n hf hn a b c ha hb hc
    rw [hn, ha, hb, hc]
    refine ⟨fma_computes hf, fun h => ?_, fun h => ?_, fun h => ?_, fun h => ?_, ?_, vred_sums hf⟩
    · exact zip_computes (x := vecShape .vector (.page 1) .none) hf h rfl (fun a b _ _ => addE_lt f _ a b) rfl rfl
    · exact zip_computes (x := vecShape .vector (.page 1) .none) hf h rfl (fun a b _ _ => mulE_lt f _ a b) rfl rfl
    · exact zip_computes (g := fun f _ a b => extremeE f true a b) (x := vecShape .zero (.page 1) .none) hf h rfl
        (fun a b ha hb => extremeE_lt f true ha hb) rfl rfl
    · exact zip_computes (g := fun f _ a b => extremeE f false a b) (x := vecShape .zero (.page 1) .none) hf h rfl
        (fun a b ha hb => extremeE_lt f false ha hb) rfl rfl
    · rintro h g _ hg rfl
      exact cvt_computes h hf hg rfl
end

section
/-! Proofs: the vector words in INT8 and INT32 (O29). -/

namespace Sys2Proof.Machine

variable {s : State} {u : Nat} {r : Reel} {w : Rec128} {rest : List Rec128} {op : Nat} {cmd : Instr}

/-- An operand's element as an integer. -/
def opInt (s : State) (u : Nat) (f : Fmt) (v k : Nat) : Int := intAt (elemBits f) (operand (tileOf s u) (.page 1) v) k

theorem decodeInt_operand (s : State) (u : Nat) (f : Fmt) (v k : Nat) :
    decodeInt f (elemAt f (operand (tileOf s u) (.page 1) v) k) = opInt s u f v k := (intAt_eq f _ k).symm

section
variable {f : Fmt} (hf : fmtOf (wFmt w) = some f) (hi : isInt f = true)
include hf hi

theorem vadd_integers (h : readyToIssue s u r w rest 0x31) : computes (.vadd u) s u w f (4096 / elemBytes f)
    (fun k => satInt f flSat (opInt s u f (wSrcA w) k + opInt s u f (wSrcB w) k)) := by
  have hc := zip_computes (cmd := .vadd u) (gx := addX) (x := vecShape .vector (.page 1) .none) hf h rfl (fun a b _ _ => addE_lt f _ a b) rfl rfl
  simp only [addE, if_pos hi, decodeInt_operand] at hc
  exact hc

theorem vmul_integers (h : readyToIssue s u r w rest 0x32) : computes (.vmul u) s u w f (4096 / elemBytes f)
    (fun k => satInt f flSat (opInt s u f (wSrcA w) k * opInt s u f (wSrcB w) k)) := by
  have hc := zip_computes (cmd := .vmul u) (gx := mulX) (x := vecShape .vector (.page 1) .none) hf h rfl (fun a b _ _ => mulE_lt f _ a b) rfl rfl
  simp only [mulE, if_pos hi, decodeInt_operand] at hc
  exact hc

theorem vfma_integers (h : readyToIssue s u r w rest 0x30) : computes (.vfma u) s u w f (4096 / elemBytes f)
    (fun k => satInt f flSat (opInt s u f (wSrcA w) k * opInt s u f (wSrcB w) k + opInt s u f (wSrcC w) k)) := by
  have hc := fma_computes hf h
  simp only [fmaE, if_pos hi, decodeInt_operand] at hc
  exact hc

omit hf in
/-- The extreme of two integer elements, in two's complement and without a flag. -/
theorem extremeE_int (largest : Bool) (a b : Nat) :
    decodeInt f (extremeE f largest a b).1 = (if largest then max (decodeInt f a) (decodeInt f b) else min (decodeInt f a) (decodeInt f b)) ∧
      (extremeE f largest a b).2 = 0 := by
  unfold extremeE intSecond
  rw [if_pos hi]
  refine ⟨?_, rfl⟩
  by_cases hlt : decodeInt f a < decodeInt f b
  · cases largest <;> simp [hlt, hlt.le]
  · cases largest <;> simp [hlt, Int.not_lt.mp hlt]

omit hf in
theorem extreme_integers {largest : Bool} (hc : computes cmd s u w f (4096 / elemBytes f) (fun k =>
      extremeE f largest (elemAt f (operand (tileOf s u) (.page 1) (wSrcA w)) k) (elemAt f (operand (tileOf s u) (.page 1) (wSrcB w)) k))) :
    ∃ t x, exec cmd s = .next t ∧ (tileOf t u).flight = some x ∧ x.flags = 0 ∧ ∀ k, k < 4096 / elemBytes f →
      intAt (elemBits f) (resultNat x) k = (if largest then max (opInt s u f (wSrcA w) k) (opInt s u f (wSrcB w) k)
        else min (opInt s u f (wSrcA w) k) (opInt s u f (wSrcB w) k)) := by
  obtain ⟨t, x, hx, hfl, hel, hflags, -⟩ := hc
  refine ⟨t, x, hx, hfl, hflags.trans (flags_of_none fun k _ => (extremeE_int hi largest _ _).2), fun k hk => ?_⟩
  rw [intAt_eq, hel k hk, (extremeE_int hi largest _ _).1, decodeInt_operand, decodeInt_operand]

/-- The vector words of an integer format, element by element and over the page. -/
theorem integer_words {b n : Nat} (hb : b = elemBits f) (hn : n = 4096 / elemBytes f) :
    (∀ k, k < n → ∀ (a1 a2 a3 : Int), a1 = intAt b (operand (tileOf s u) (.page 1) (wSrcA w)) k →
      a2 = intAt b (operand (tileOf s u) (.page 1) (wSrcB w)) k →
      a3 = intAt b (operand (tileOf s u) (.page 1) (wSrcC w)) k →
      (readyToIssue s u r w rest 0x31 → ∃ t f, exec (.vadd u) s = .next t ∧ (tileOf t u).flight = some f ∧
        intAt b (resultNat f) k = saturated b (a1 + a2) ∧ (saturated b (a1 + a2) ≠ a1 + a2 → f.flags = 32)) ∧
      (readyToIssue s u r w rest 0x32 → ∃ t f, exec (.vmul u) s = .next t ∧ (tileOf t u).flight = some f ∧
        intAt b (resultNat f) k = saturated b (a1 * a2) ∧ (saturated b (a1 * a2) ≠ a1 * a2 → f.flags = 32)) ∧
      (readyToIssue s u r w rest 0x30 → ∃ t f, exec (.vfma u) s = .next t ∧ (tileOf t u).flight = some f ∧
        intAt b (resultNat f) k = saturated b (a1 * a2 + a3) ∧ (saturated b (a1 * a2 + a3) ≠ a1 * a2 + a3 → f.flags = 32)) ∧
      (readyToIssue s u r w rest 0x33 → ∃ t f, exec (.vmax u) s = .next t ∧ (tileOf t u).flight = some f ∧
        intAt b (resultNat f) k = max a1 a2 ∧ f.flags = 0) ∧
      (readyToIssue s u r w rest 0x34 → ∃ t f, exec (.vmin u) s = .next t ∧ (tileOf t u).flight = some f ∧
        intAt b (resultNat f) k = min a1 a2 ∧ f.flags = 0)) := by
  intro k hk a1 a2 a3 h1 h2 h3
  rw [hn] at hk
  rw [hb] at h1 h2 h3 ⊢
  refine ⟨fun h => ?_, fun h => ?_, fun h => ?_, fun h => ?_, fun h => ?_⟩
  · obtain ⟨t, x, hx, hfl, hel, -, hsat⟩ := integers_of_computes (vadd_integers hf hi h)
    rw [h1, h2]
    exact ⟨t, x, hx, hfl, hel k hk, fun hne => hsat ⟨k, hk, hne⟩⟩
  · obtain ⟨t, x, hx, hfl, hel, -, hsat⟩ := integers_of_computes (vmul_integers hf hi h)
    rw [h1, h2]
    exact ⟨t, x, hx, hfl, hel k hk, fun hne => hsat ⟨k, hk, hne⟩⟩
  · obtain ⟨t, x, hx, hfl, hel, -, hsat⟩ := integers_of_computes (vfma_integers hf hi h)
    rw [h1, h2, h3]
    exact ⟨t, x, hx, hfl, hel k hk, fun hne => hsat ⟨k, hk, hne⟩⟩
  · obtain ⟨t, x, hx, hfl, hflags, hel⟩ := extreme_integers (cmd := .vmax u) (largest := true) hi
      (zip_computes (g := fun f _ a b => extremeE f true a b) (x := vecShape .zero (.page 1) .none) hf h rfl
        (fun a b ha hb => extremeE_lt f true ha hb) rfl rfl)
    rw [h1, h2]
    exact ⟨t, x, hx, hfl, hel k hk, hflags⟩
  · obtain ⟨t, x, hx, hfl, hflags, hel⟩ := extreme_integers (cmd := .vmin u) (largest := false) hi
      (zip_computes (g := fun f _ a b => extremeE f false a b) (x := vecShape .zero (.page 1) .none) hf h rfl
        (fun a b ha hb => extremeE_lt f false ha hb) rfl rfl)
    rw [h1, h2]
    exact ⟨t, x, hx, hfl, hel k hk, hflags⟩

/-- The vector words of an integer format raise no flag where nothing saturates. -/
theorem integer_words_unsaturated {b n : Nat} (hb : b = elemBits f) (hn : n = 4096 / elemBytes f) :
    (∀ x y z : Nat → Int, (∀ k, x k = intAt b (operand (tileOf s u) (.page 1) (wSrcA w)) k) →
      (∀ k, y k = intAt b (operand (tileOf s u) (.page 1) (wSrcB w)) k) →
      (∀ k, z k = intAt b (operand (tileOf s u) (.page 1) (wSrcC w)) k) →
      (readyToIssue s u r w rest 0x31 → (∀ k, k < n → saturated b (x k + y k) = x k + y k) →
        ∃ t f, exec (.vadd u) s = .next t ∧ (tileOf t u).flight = some f ∧ f.flags = 0) ∧
      (readyToIssue s u r w rest 0x32 → (∀ k, k < n → saturated b (x k * y k) = x k * y k) →
        ∃ t f, exec (.vmul u) s = .next t ∧ (tileOf t u).flight = some f ∧ f.flags = 0) ∧
      (readyToIssue s u r w rest 0x30 → (∀ k, k < n → saturated b (x k * y k + z k) = x k * y k + z k) →
        ∃ t f, exec (.vfma u) s = .next t ∧ (tileOf t u).flight = some f ∧ f.flags = 0)) := by
  intro x y z hx hy hz
  rw [hb] at hx hy hz ⊢
  rw [hn]
  have hx' : x = opInt s u f (wSrcA w) := funext hx
  have hy' : y = opInt s u f (wSrcB w) := funext hy
  have hz' : z = opInt s u f (wSrcC w) := funext hz
  rw [hx', hy', hz']
  refine ⟨fun h hno => ?_, fun h hno => ?_, fun h hno => ?_⟩
  · obtain ⟨t, v, hv, hfl, -, hzero, -⟩ := integers_of_computes (vadd_integers hf hi h)
    exact ⟨t, v, hv, hfl, hzero hno⟩
  · obtain ⟨t, v, hv, hfl, -, hzero, -⟩ := integers_of_computes (vmul_integers hf hi h)
    exact ⟨t, v, hv, hfl, hzero hno⟩
  · obtain ⟨t, v, hv, hfl, -, hzero, -⟩ := integers_of_computes (vfma_integers hf hi h)
    exact ⟨t, v, hv, hfl, hzero hno⟩

end

/-- The integer format of FMT 5 and of FMT 6. -/
theorem integerFmt {b n : Nat} (hb : b = (if wFmt w = 5 then 8 else 32)) (hn : n = 32768 / b) (h : wFmt w = 5 ∨ wFmt w = 6) :
    ∃ f, fmtOf (wFmt w) = some f ∧ isInt f = true ∧ b = elemBits f ∧ n = 4096 / elemBytes f := by
  rcases h with h | h
  · rw [if_pos h] at hb
    rw [hb] at hn
    exact ⟨.int8, by rw [h]; rfl, rfl, hb, hn⟩
  · rw [if_neg (by omega)] at hb
    rw [hb] at hn
    exact ⟨.int32, by rw [h]; rfl, rfl, hb, hn⟩

end Sys2Proof.Machine

open Sys2Proof Sys2Proof.Machine

/-- Settles O29: the elements of an integer format are exact sums and products, saturated once. -/
theorem integerVectorResultsSaturateOnce : Obligations.IntegerVectorResultsSaturateOnce := by
  intro s u r w rest b n hb hn hfmt
  obtain ⟨f, hf, hi, hbits, hcount⟩ := integerFmt hb hn hfmt
  refine ⟨integer_words hf hi hbits hcount, integer_words_unsaturated hf hi hbits hcount, fun h => ?_⟩
  refine ⟨_, _, vcpy_exec h, congrArg Tile.flight (tileOf_fly_takenFrom _), ?_, rfl⟩
  rw [resultNat_cpyFlight h, operand_taken]
end

section
/-! Proofs: an operation at its deadline keeps a PDUE that a veto holds up (O34). -/

namespace Sys2Proof.Machine

/-- A result line whose PDUE passed in slot 1. -/
def passedLine : LineVal := { data := 0, side := 0, pdue := 1, cdue := 0 }

/-- An operation whose deadline lies in slot 2, with one result line. -/
def dueFlight : Flight where
  word := 0
  last := 128
  results := [(0, passedLine)]
  flags := 0
  effect := .nothing
  checked := false
  srcBad := false
  pastStep := false

/-- Slot 2 of a running job in which a veto arrived in slot 1: the tag of that slot stays up until the rewind (R80). -/
def vetoedState : State :=
  { State.reset with
      job := { Job.none with st := .running, slot := 2, vetoes := [1] }
      tiles := [(0, { Tile.clear with flight := some dueFlight })] }

/-- The line that the operation writes keeps its PDUE. -/
theorem vetoedLine_pdue : (lineAt (tileOf (completeOp 0 dueFlight [] vetoedState) 0) 0).cur.pdue = 1 := by decide +kernel

/-- An operation that is done in the slot of its deadline completes. -/
theorem exec_opDeadline_done {s : State} {u : Nat} {f : Flight} (ups : List (Nat × LineBits)) (hu : u < 1024) (hr : running s = true)
    (hf : (tileOf s u).flight = some f) (hd : deadlineHere s f = true) (hh : engineHeld s u f = false) :
    exec (.opDeadline u (.done ups)) s = .next (completeOp u f ups s) := by
  show execOpDeadline u (.done ups) s = _
  unfold execOpDeadline
  rw [decide_eq_true hu, hr, hf]
  exact congrArg Host.Outcome.next (if_pos (by rw [hd, hh]; rfl))

end Sys2Proof.Machine

open Sys2Proof Sys2Proof.Machine

/-- Refutes O34: a PDUE of an earlier slot stays where that slot's veto is known (`pdueUp`, R80), and the statement clears it. -/
theorem not_operationsEndAtTheirDeadline : ¬ Obligations.OperationsEndAtTheirDeadline := by
  rintro ⟨h, -⟩
  have hflight : (tileOf vetoedState 0).flight = some dueFlight := by decide +kernel
  obtain ⟨t, hx, -, -, -, -, -, -, -, hlines, -⟩ := h vetoedState 0 dueFlight [] (by decide) rfl hflight rfl rfl rfl
  obtain ⟨d, -, -, -, hpdue, hline⟩ := hlines (List.nodup_singleton _) 0 0 passedLine rfl
  obtain rfl := Host.Outcome.next.inj ((exec_opDeadline_done [] (by decide) rfl hflight rfl rfl).symm.trans hx)
  have hd : d.pdue = 0 := hpdue
  have hcur : (lineAt (tileOf (completeOp 0 dueFlight [] vetoedState) 0) 0).cur = d := congrArg LineSt.cur hline
  have hkept := vetoedLine_pdue
  rw [hcur, hd] at hkept
  exact absurd hkept (by decide)
end

section
/-! Proofs: residue checks and shadow comparisons at the end of their slot (O35). -/

namespace Sys2Proof.Machine

variable {s : State} {u : Nat}

/-! ## Lines whose CDUE clears -/

/-- A value whose CDUE has cleared. -/
def clearedVal (slot : Nat) (v : LineVal) : LineVal := if v.cdue = slot then { v with cdue := 0 } else v

/-- A line whose CDUEs have cleared. -/
def clearedLine (slot : Nat) (x : LineSt) : LineSt := { x with cur := clearedVal slot x.cur, nxt := clearedVal slot x.nxt }

theorem clearedVal_idem (slot : Nat) (v : LineVal) : clearedVal slot (clearedVal slot v) = clearedVal slot v := by
  unfold clearedVal
  by_cases h : v.cdue = slot
  · rw [if_pos h]
    split <;> rfl
  · rw [if_neg h, if_neg h]

theorem clearedLine_idem (slot : Nat) (x : LineSt) : clearedLine slot (clearedLine slot x) = clearedLine slot x := by
  unfold clearedLine
  dsimp only
  rw [clearedVal_idem, clearedVal_idem]

theorem clearedVal_data (slot : Nat) (v : LineVal) : (clearedVal slot v).data = v.data := by
  unfold clearedVal
  split <;> rfl

theorem clearedVal_cdue (slot : Nat) (v : LineVal) : (clearedVal slot v).cdue = if v.cdue = slot then 0 else v.cdue := by
  unfold clearedVal
  split <;> rfl

theorem clearCdue_eq (slot l : Nat) (t : Tile) : clearCdue slot l t = setLine l (clearedLine slot (lineAt t l)) t := rfl

theorem lineAt_setLine_self (l : Nat) (v : LineSt) (t : Tile) : lineAt (setLine l v t) l = v := look_store_self LineSt.zero l v t.lines

theorem lineAt_setLine_other {l j : Nat} (h : j ≠ l) (v : LineSt) (t : Tile) : lineAt (setLine l v t) j = lineAt t j :=
  look_store_other h LineSt.zero v t.lines

/-- The lines of a tile after checks have completed. -/
theorem lineAt_clearCdues (slot : Nat) (ls : List Nat) (t : Tile) (l : Nat) :
    lineAt (ls.foldl (fun a l => clearCdue slot l a) t) l = if l ∈ ls then clearedLine slot (lineAt t l) else lineAt t l := by
  induction ls generalizing t with
  | nil => rfl
  | cons k ls ih =>
    rw [List.foldl_cons, ih, clearCdue_eq]
    by_cases hk : l = k
    · subst hk
      rw [lineAt_setLine_self, clearedLine_idem, ite_self, if_pos (List.mem_cons_self ..)]
    · rw [lineAt_setLine_other hk]
      simp only [List.mem_cons, hk, false_or]

/-- Checks that complete change the Pocket alone. -/
theorem clearCdues_lines (slot : Nat) (ls : List Nat) (t : Tile) : ∃ x, ls.foldl (fun a l => clearCdue slot l a) t = { t with lines := x } := by
  induction ls generalizing t with
  | nil => exact ⟨t.lines, rfl⟩
  | cons k ls ih =>
    obtain ⟨x, hx⟩ := ih (clearCdue slot k t)
    exact ⟨x, hx⟩

/-! ## A detection in place of a higher one -/

/-- A detection that takes the place of what the tile told of in the token, or is the first. -/
theorem tileDetect_fresh {c i k : Nat} (hu : u < 1024) (hr : running s = true) (hf : fresh s (tileOf s u) c k = true) :
    let s1 := retract u k s
    let s2 := updTile u (tellTile s1 u c k) s1
    tileOf (tileDetect c u i k s) u = tellTile s1 u c k (tileOf s1 u) ∧
      (tileDetect c u i k s).sec.totals = detectTotals c (· + 1) s1.sec.totals ∧
      healthOf (tileDetect c u i k s) = healthOf (countUnit c u (updTotals (detectTotals c (· + 1)) s2)) := by
  intro s1 s2
  have hrun : running s2 = true := by
    have h1 : s1.job = s.job := retract_changes u k s .job (by decide)
    show (s1.job.st == .running) = true
    rw [h1]
    exact hr
  have hd := raiseDetect_counted (s := s2) c i k hu hrun
  have hx : tileDetect c u i k s = raiseDetect c (tileUnit u) i k s2 := if_pos hf
  rw [hx]
  refine ⟨?_, ?_, ?_⟩
  · rw [hd.tileOf_eq (by decide), (countDetect_changes c (some u) _).tileOf_eq (by decide)]
    exact tileOf_updTile_self _ _ _
  · rw [show (raiseDetect c (tileUnit u) i k s2).sec.totals = _ from hd .totals (by decide)]
    exact countUnit_totals c hu _
  · exact hd.healthOf_eq (by decide)

/-- The counters of a tile that RESIDUE_MISMATCH raises. -/
theorem countUnit_res (hu : u < 1024) (s : State) :
    healthOf (countUnit 0x0481 u s) u = { healthOf s u with c0 := min ((healthOf s u).c0 + 1) 65535, score := min 255 ((healthOf s u).score + 1) } := by
  have h1 : countUnit 0x0481 u s = addScore u (bumpCtr 0 u s) := by
    unfold countUnit
    dsimp only
    rw [if_pos hu]
    rfl
  rw [h1, addScore, healthOf_updHealth_self, bumpCtr, healthOf_updHealth_self, ctrWidth, if_pos hu]
  rfl

theorem countUnit_shd (hu : u < 1024) (s : State) :
    healthOf (countUnit 0x0482 u s) u = { healthOf s u with c1 := min ((healthOf s u).c1 + 1) 65535, score := min 255 ((healthOf s u).score + 1) } := by
  have h1 : countUnit 0x0482 u s = addScore u (bumpCtr 1 u s) := by
    unfold countUnit
    dsimp only
    rw [if_pos hu]
    rfl
  rw [h1, addScore, healthOf_updHealth_self, bumpCtr, healthOf_updHealth_self, ctrWidth, if_pos hu]
  rfl

theorem countUnit_other {c j : Nat} (hu : u < 1024) (hj : j ≠ u) (s : State) : healthOf (countUnit c u s) j = healthOf s j := by
  unfold countUnit
  extract_lets s1
  have h1 : healthOf s1 j = healthOf s j := by
    unfold s1
    split
    · exact healthOf_updHealth_other hj _ s
    · rfl
  rw [if_pos hu]
  split
  · exact (healthOf_updHealth_other hj _ s1).trans h1
  · exact h1

/-- What a tile loses of a told ENVELOPE_BAD. -/
theorem retract_envelope {k : Nat} (h : toldIn s (tileOf s u) k = some 0x0483) :
    retract u k s = updTile u (fun t => { t with moves := t.moves.dropLast }) (uncountDetect 0x0483 u (tileOf s u).rose s) := by
  unfold retract
  rw [h]
  rfl

theorem uncountDetect_health (rose : Bool × Bool) (s : State) :
    (healthOf (uncountDetect 0x0483 u rose s) u).c0 = (healthOf s u).c0 ∧
    (healthOf (uncountDetect 0x0483 u rose s) u).c2 = (healthOf s u).c2 - (if rose.1 then 1 else 0) ∧
    (healthOf (uncountDetect 0x0483 u rose s) u).score = (healthOf s u).score - (if rose.2 then 1 else 0) := by
  unfold uncountDetect
  rw [healthOf_updHealth_self]
  obtain ⟨a, b⟩ := rose
  cases a <;> cases b <;> exact ⟨rfl, rfl, rfl⟩

/-! ## What a detection leaves of the tiles -/

theorem retract_tile (u k : Nat) (s : State) :
    tilesBut u s (retract u k s) ∧ ∃ m, tileOf (retract u k s) u = { tileOf s u with moves := m } := by
  unfold retract
  split
  · next c _ =>
    have hun : tileOf (uncountDetect c u (tileOf s u).rose s) = tileOf s := (uncountDetect_changes c u _ s).tileOf_eq (by decide)
    split
    · exact ⟨fun _ _ => rfl, (tileOf s u).moves, rfl⟩
    · refine ⟨fun v hv => ?_, if detectScores c then (tileOf s u).moves.dropLast else (tileOf s u).moves, ?_⟩
      · rw [tileOf_updTile_other hv, hun]
      · rw [tileOf_updTile_self, hun]
  · exact ⟨fun _ _ => rfl, (tileOf s u).moves, rfl⟩

/-- A detection leaves every other tile and the Pocket. -/
theorem tileDetect_tiles (c u i k : Nat) (s : State) :
    tilesBut u s (tileDetect c u i k s) ∧ (tileOf (tileDetect c u i k s) u).lines = (tileOf s u).lines := by
  obtain ⟨hb, m, hm⟩ := retract_tile u k s
  unfold tileDetect
  extract_lets s1
  split
  · have ht : tileOf (raiseDetect c (tileUnit u) i k (updTile u (tellTile s1 u c k) s1)) = tileOf (updTile u (tellTile s1 u c k) s1) :=
      (raiseDetect_changes _ _ _ _ _).tileOf_eq (by decide)
    refine ⟨fun v hv => ?_, ?_⟩
    · rw [ht, tileOf_updTile_other hv]
      exact hb v hv
    · rw [ht, tileOf_updTile_self, tellTile]
      have hl : (tileOf s1 u).lines = (tileOf s u).lines := (congrArg Tile.lines hm).trans rfl
      split <;> exact hl
  · exact ⟨fun _ _ => rfl, rfl⟩

theorem healthOf_score_other {c q j : Nat} (h : j ≠ q) (s : State) : healthOf (score c q s) j = healthOf s j := by
  have hv : unitView j (score c q s) = unitView j (addScore q s) := unitView_judge_other h c (addScore q s)
  exact (congrArg Prod.snd hv).trans (healthOf_updHealth_other h _ s)

/-- The tile at a position of a group. -/
theorem groupTile_lt {g k : Nat} (hg : g < 128) (hk : k < 8) : groupHead g + k < 1024 := by
  unfold groupHead
  omega

/-! ## Residue checks -/

/-- The lines of the checks that fail. -/
def failedLines (parity : Bool) (cs : List Check) : List Nat := (cs.filter (fun c => c.bad || parity)).flatMap (fun c => c.lines)

/-- A tile whose checks of the slot have completed. -/
def checkedTile (s : State) (u : Nat) (parity : Bool) (cs : List Check) : Tile :=
  { (cs.flatMap (fun c => c.lines)).foldl (fun a l => clearCdue s.job.slot l a) (tileOf s u) with
      checks := (tileOf s u).checks.map (markCheck s.job.slot parity)
      badLines := (tileOf s u).badLines ++ failedLines parity cs }

/-- The package in which the checks of a tile have completed. -/
def checkedFrom (s : State) (u : Nat) (parity : Bool) (cs : List Check) : State := setTile u (checkedTile s u parity cs) s

section
variable {parity : Bool} {cs : List Check}

theorem exec_residueCheck (hu : u < 1024) (hr : running s = true)
    (hcs : cs = (tileOf s u).checks.filter (fun c => c.slot == s.job.slot && !c.lines.isEmpty)) (hne : cs ≠ []) :
    exec (.residueCheckComplete u parity) s = .next (if (failedLines parity cs).isEmpty then checkedFrom s u parity cs
      else tileDetect 0x0481 u 0xFF 63 (checkedFrom s u parity cs)) := by
  show execResidueCheckComplete u parity s = _
  unfold execResidueCheckComplete
  dsimp only
  rw [← hcs]
  refine congrArg Host.Outcome.next (if_pos ?_)
  rw [decide_eq_true hu, hr]
  cases cs with
  | nil => exact absurd rfl hne
  | cons => rfl

theorem tileOf_checkedFrom (s : State) (u : Nat) (parity : Bool) (cs : List Check) :
    tileOf (checkedFrom s u parity cs) u = checkedTile s u parity cs := tileOf_setTile_self _ _ s

theorem checkedFrom_changes (s : State) (u : Nat) (parity : Bool) (cs : List Check) : changesOnly [.tiles] s (checkedFrom s u parity cs) :=
  setTile_changes _ _ s

theorem lineAt_checkedTile (s : State) (u : Nat) (parity : Bool) (cs : List Check) (l : Nat) :
    lineAt (checkedTile s u parity cs) l =
      if l ∈ cs.flatMap (fun c => c.lines) then clearedLine s.job.slot (lineAt (tileOf s u) l) else lineAt (tileOf s u) l :=
  lineAt_clearCdues s.job.slot _ (tileOf s u) l

/-- A tile with completed checks is as it was but for its lines, checks and bad lines. -/
theorem checkedTile_eq (s : State) (u : Nat) (parity : Bool) (cs : List Check) :
    ∃ x, checkedTile s u parity cs = { tileOf s u with
      lines := x, checks := (tileOf s u).checks.map (markCheck s.job.slot parity), badLines := (tileOf s u).badLines ++ failedLines parity cs } := by
  obtain ⟨x, hx⟩ := clearCdues_lines s.job.slot (cs.flatMap (fun c => c.lines)) (tileOf s u)
  refine ⟨x, ?_⟩
  unfold checkedTile
  rw [hx]

theorem toldIn_checkedFrom (s : State) (u : Nat) (parity : Bool) (cs : List Check) :
    toldIn (checkedFrom s u parity cs) (tileOf (checkedFrom s u parity cs) u) 63 = toldIn s (tileOf s u) 63 := by
  obtain ⟨x, hx⟩ := checkedTile_eq s u parity cs
  rw [tileOf_checkedFrom, hx]
  rfl

/-- A failed check leaves a line to tell of. -/
theorem failedLines_ne_nil (hcs : cs = (tileOf s u).checks.filter (fun c => c.slot == s.job.slot && !c.lines.isEmpty)) (hne : cs ≠ [])
    (hbad : parity = true ∨ ∃ c ∈ cs, c.bad = true) : (failedLines parity cs).isEmpty = false := by
  obtain ⟨c, hc, hf⟩ : ∃ c ∈ cs, (c.bad || parity) = true := by
    rcases hbad with rfl | ⟨c, hc, hb⟩
    · obtain ⟨c, hc⟩ := List.exists_mem_of_ne_nil cs hne
      exact ⟨c, hc, Bool.or_true _⟩
    · exact ⟨c, hc, by rw [hb]; rfl⟩
  have hlines : c.lines ≠ [] := by
    rw [hcs] at hc
    have h := (List.mem_filter.mp hc).2
    intro he
    rw [he] at h
    simp at h
  obtain ⟨l, hl⟩ := List.exists_mem_of_ne_nil _ hlines
  have hmem : l ∈ failedLines parity cs := List.mem_flatMap.mpr ⟨c, List.mem_filter.mpr ⟨hc, hf⟩, hl⟩
  refine Bool.eq_false_iff.mpr fun h => ?_
  rw [List.isEmpty_iff.mp h] at hmem
  exact nomatch hmem

theorem failedLines_nil (hp : parity = false) (hb : ∀ c ∈ cs, c.bad = false) : failedLines parity cs = [] := by
  unfold failedLines
  rw [List.filter_eq_nil_iff.mpr fun c hc => by rw [hb c hc, hp]; decide]
  rfl

end

end Sys2Proof.Machine

open Sys2Proof Sys2Proof.Machine

/-- The checks of a slot, of O35. -/
theorem residueChecksComplete (s : State) (u : Nat) (parity : Bool) (cs : List Check) (hu : u < 1024) (hr : running s = true)
    (hcs : cs = (tileOf s u).checks.filter (fun c => c.slot == s.job.slot && !c.lines.isEmpty)) (hne : cs ≠ []) :
    ∃ t : State, exec (.residueCheckComplete u parity) s = .next t ∧ tilesBut u s t ∧
      (∀ l, (∀ c ∈ cs, l ∉ c.lines) → lineAt (tileOf t u) l = lineAt (tileOf s u) l) ∧
      (∀ c ∈ cs, ∀ l ∈ c.lines, (lineAt (tileOf t u) l).cur.data = (lineAt (tileOf s u) l).cur.data ∧
        (lineAt (tileOf t u) l).cur.cdue =
          (if (lineAt (tileOf s u) l).cur.cdue = s.job.slot then 0 else (lineAt (tileOf s u) l).cur.cdue) ∧
        (lineAt (tileOf t u) l).nxt.cdue =
          (if (lineAt (tileOf s u) l).nxt.cdue = s.job.slot then 0 else (lineAt (tileOf s u) l).nxt.cdue)) ∧
      (parity = false → (∀ c ∈ cs, c.bad = false) →
        changesOnly [.tiles] s t ∧ (tileOf t u).detected = (tileOf s u).detected ∧
        (tileOf t u).badLines = (tileOf s u).badLines) ∧
      (parity = true ∨ (∃ c ∈ cs, c.bad = true) → toldIn s (tileOf s u) 63 = none →
        changesOnly (.tiles :: detects) s t ∧ (tileOf t u).detected = true ∧
        (∀ c ∈ cs, (parity = true ∨ c.bad = true) → ∀ l ∈ c.lines, l ∈ (tileOf t u).badLines) ∧
        t.sec.totals = { s.sec.totals with detect := s.sec.totals.detect + 1, res := s.sec.totals.res + 1 } ∧
        (healthOf t u).c0 = min ((healthOf s u).c0 + 1) 65535 ∧ (healthOf t u).score = min 255 ((healthOf s u).score + 1)) ∧
      (parity = true ∨ (∃ c ∈ cs, c.bad = true) → toldIn s (tileOf s u) 63 = some 0x0483 → 0 < s.sec.totals.detect →
        t.sec.totals = { s.sec.totals with res := s.sec.totals.res + 1, env := s.sec.totals.env - 1 } ∧
        (healthOf t u).c0 = min ((healthOf s u).c0 + 1) 65535 ∧
        (healthOf t u).c2 = (healthOf s u).c2 - (if (tileOf s u).rose.1 then 1 else 0) ∧
        (healthOf t u).score = min 255 ((healthOf s u).score - (if (tileOf s u).rose.2 then 1 else 0) + 1) ∧
        (tileOf t u).moves = (tileOf s u).moves.dropLast ++ [0x0481]) := by
  set t := if (failedLines parity cs).isEmpty then checkedFrom s u parity cs else tileDetect 0x0481 u 0xFF 63 (checkedFrom s u parity cs) with ht
  have hbut : tilesBut u s (checkedFrom s u parity cs) := fun v hv => tileOf_setTile_other hv _ s
  obtain ⟨hdbut, hdlines⟩ := tileDetect_tiles 0x0481 u 0xFF 63 (checkedFrom s u parity cs)
  have hline (l : Nat) : lineAt (tileOf t u) l =
      if l ∈ cs.flatMap (fun c => c.lines) then clearedLine s.job.slot (lineAt (tileOf s u) l) else lineAt (tileOf s u) l := by
    rw [← lineAt_checkedTile s u parity cs l, ← tileOf_checkedFrom, ht]
    split
    · rfl
    · exact congrFun (lineAt_of_lines hdlines) l
  obtain ⟨x, hx⟩ := checkedTile_eq s u parity cs
  have hfail (hbad : parity = true ∨ ∃ c ∈ cs, c.bad = true) : t = tileDetect 0x0481 u 0xFF 63 (checkedFrom s u parity cs) :=
    if_neg (by rw [failedLines_ne_nil hcs hne hbad]; decide)
  refine ⟨t, exec_residueCheck hu hr hcs hne, fun v hv => ?_, fun l hl => ?_, fun c hc l hl => ?_, fun hp hb => ?_, fun hbad htold => ?_,
    fun hbad htold hpos => ?_⟩
  · rw [ht]
    split
    · exact hbut v hv
    · exact (hdbut v hv).trans (hbut v hv)
  · rw [hline, if_neg fun hm => ?_]
    obtain ⟨c, hc, hlc⟩ := List.mem_flatMap.mp hm
    exact hl c hc hlc
  · rw [hline, if_pos (List.mem_flatMap.mpr ⟨c, hc, hl⟩)]
    exact ⟨clearedVal_data _ _, clearedVal_cdue _ _, clearedVal_cdue _ _⟩
  · have hnil := failedLines_nil hp hb
    have he : t = checkedFrom s u parity cs := if_pos (by rw [hnil]; rfl)
    rw [he, tileOf_checkedFrom, hx]
    exact ⟨checkedFrom_changes s u parity cs, rfl, by rw [hnil]; exact List.append_nil _⟩
  · rw [hfail hbad]
    have htold' := (toldIn_checkedFrom s u parity cs).trans htold
    obtain ⟨hd, -, htile, htot, hh⟩ := tileDetect_spec (s := checkedFrom s u parity cs) (c := 0x0481) (i := 0xFF) hu hr htold'
    rw [tellTile_detection (by decide), tileOf_checkedFrom] at htile
    refine ⟨((checkedFrom_changes s u parity cs).mono (by decide)).trans hd, congrArg Tile.detected htile, fun c hc hor l hl => ?_, htot, ?_, ?_⟩
    · refine (congrArg (l ∈ ·) (congrArg Tile.badLines htile)).mpr (List.mem_append_right _ ?_)
      refine List.mem_flatMap.mpr ⟨c, List.mem_filter.mpr ⟨hc, ?_⟩, hl⟩
      rcases hor with h | h <;> simp [h]
    all_goals rw [hh, countUnit_res hu]; rfl
  · rw [hfail hbad]
    have htold' := (toldIn_checkedFrom s u parity cs).trans htold
    have hfresh : fresh (checkedFrom s u parity cs) (tileOf (checkedFrom s u parity cs) u) 0x0481 63 = true := by
      unfold fresh
      rw [htold']
      rfl
    obtain ⟨htile, htot, hh⟩ := tileDetect_fresh (s := checkedFrom s u parity cs) (c := 0x0481) (i := 0xFF) (k := 63) hu hr hfresh
    have hret := retract_envelope htold'
    obtain ⟨h0, h2, hsc⟩ := uncountDetect_health (u := u) (tileOf (checkedFrom s u parity cs) u).rose (checkedFrom s u parity cs)
    have hrose : (tileOf (checkedFrom s u parity cs) u).rose = (tileOf s u).rose := by rw [tileOf_checkedFrom, hx]
    rw [hrose] at hret h0 h2 hsc
    rw [hret, tellTile_detection (by decide)] at htile
    rw [hret] at htot hh
    refine ⟨?_, ?_, ?_, ?_, ?_⟩
    · rw [htot]
      show ({ s.sec.totals with detect := s.sec.totals.detect - 1 + 1, res := s.sec.totals.res + 1, env := s.sec.totals.env - 1 } : Totals) = _
      rw [Nat.sub_add_cancel hpos]
    · rw [hh, countUnit_res hu]
      exact congrArg (fun n => min (n + 1) 65535) h0
    · rw [hh, countUnit_res hu]
      exact h2
    · rw [hh, countUnit_res hu]
      exact congrArg (fun n => min 255 (n + 1)) hsc
    · refine (congrArg Tile.moves htile).trans ?_
      show (tileOf (updTile u _ _) u).moves ++ [0x0481] = _
      rw [tileOf_updTile_self, (uncountDetect_changes _ _ _ _).tileOf_eq (by decide), tileOf_checkedFrom, hx]

/-- The comparison of two operations, of O35. -/
theorem shadowsCompare (s : State) (r : Reel) (g i p q a b : Nat) (e : BitVec 256) (x y : List LineBits) (hg : g < 128) (hr : running s = true)
    (hreel : s.reel = some r) (he : (shadowTable r s.job.phase g)[i]? = some e) (hp : p = groupHead g + shPPos e) (hq : q = groupHead g + shSPos e)
    (hx : shadowResult s p (shPSlot e) (shPToken e) = some x) (hy : shadowResult s q (shSSlot e) (shSToken e) = some y)
    (ha : doneAt s r p (shPSlot e) (shPToken e) = some a) (hb : doneAt s r q (shSSlot e) (shSToken e) = some b) (hmax : max a b + 2 = s.job.slot) :
    (x = y → exec (.shadowCompare g i) s = .next s) ∧
    (x ≠ y → p ≠ q → toldIn s (tileOf s p) 63 = none →
      ∃ t : State, exec (.shadowCompare g i) s = .next t ∧ changesOnly (.tiles :: detects) s t ∧ tilesBut p s t ∧
        (tileOf t p).detected = true ∧
        t.sec.totals = { s.sec.totals with detect := s.sec.totals.detect + 1, shd := s.sec.totals.shd + 1 } ∧
        (healthOf t p).c1 = min ((healthOf s p).c1 + 1) 65535 ∧ (healthOf t q).c1 = min ((healthOf s q).c1 + 1) 65535 ∧
        (healthOf t p).score = min 255 ((healthOf s p).score + 1) ∧
        (healthOf t q).score = min 255 ((healthOf s q).score + 1)) := by
  have hexec : exec (.shadowCompare g i) s = .next (if max a b + 2 = s.job.slot ∧ x ≠ y then shadowMiss p q s else s) := by
    show execShadowCompare g i s = _
    unfold execShadowCompare
    rw [decide_eq_true hg, hr, hreel, Bool.and_self]
    dsimp only
    rw [he]
    dsimp only
    rw [← hp, ← hq, hx, hy, ha, hb]
  refine ⟨fun hxy => hexec.trans (congrArg Host.Outcome.next (if_neg fun h => h.2 hxy)), fun hxy hpq htold => ?_⟩
  have hp' : p < 1024 := by rw [hp]; exact groupTile_lt hg (Nat.mod_lt _ (by decide))
  have hq' : q < 1024 := by rw [hq]; exact groupTile_lt hg (Nat.mod_lt _ (by decide))
  obtain ⟨hd, hbut, htile, htot, hh⟩ := tileDetect_spec (c := 0x0482) (i := 0xFF) hp' hr htold
  rw [tellTile_detection (by decide)] at htile
  set s1 := tileDetect 0x0482 p 0xFF 63 s with hs1
  have hc : changesOnly moves s1 (score 0x0482 q (bumpCtr 1 q s1)) :=
    ((bumpCtr_changes 1 q s1).mono (by decide)).trans (score_changes _ _ _)
  have htiles : tileOf (score 0x0482 q (bumpCtr 1 q s1)) = tileOf s1 := hc.tileOf_eq (by decide)
  have hcount (j : Nat) : healthOf s1 j = healthOf (countUnit 0x0482 p (updTotals (detectTotals 0x0482 (· + 1)) (updTile p (tellTile s p 0x0482 63) s))) j :=
    congrFun hh j
  have hpself : healthOf (score 0x0482 q (bumpCtr 1 q s1)) p = healthOf s1 p := by
    rw [healthOf_score_other hpq, bumpCtr, healthOf_updHealth_other hpq]
  have hqself := sameTally_score (i := q) 0x0482 (bumpCtr 1 q s1)
  have hq1 : healthOf s1 q = healthOf s q := by
    rw [hcount, countUnit_other hp' (Ne.symm hpq)]
    rfl
  have hqbump : healthOf (bumpCtr 1 q s1) q = { healthOf s q with c1 := min ((healthOf s q).c1 + 1) 65535 } := by
    rw [bumpCtr, healthOf_updHealth_self, ctrWidth, if_pos hq', hq1]
    rfl
  rw [hqbump] at hqself
  refine ⟨shadowMiss p q s, hexec.trans (congrArg Host.Outcome.next (if_pos ⟨hmax, hxy⟩)), hd.trans (hc.mono (by decide)), fun v hv => ?_, ?_, ?_, ?_,
    ?_, ?_, hqself.score_eq⟩
  · exact (congrFun htiles v).trans (hbut v hv)
  · exact (congrArg Tile.detected (congrFun htiles p)).trans (congrArg Tile.detected htile)
  · exact (show (score 0x0482 q (bumpCtr 1 q s1)).sec.totals = s1.sec.totals from hc .totals (by decide)).trans htot
  · refine (congrArg Health.c1 hpself).trans ?_
    rw [hcount, countUnit_shd hp']
    rfl
  · exact congrArg Health.c1 hqself
  · refine (congrArg Health.score hpself).trans ?_
    rw [hcount, countUnit_shd hp']
    rfl

/-- Settles O35: the checks of a slot and the shadow entries that complete in it. -/
theorem checksCompleteTwoSlotsOn : Obligations.ChecksCompleteTwoSlotsOn :=
  ⟨residueChecksComplete, shadowsCompare⟩
end

section
/-! Proofs: the hazard detector (O36). -/

namespace Sys2Proof.Machine

variable {s : State} {r : Reel}

/-- A tile, its part and the values that differ. -/
abbrev Hazard := Nat × Nat × Nat × Nat × Nat

/-! ## The tiles that differ -/

/-- The part of a tile that is compared first and differs. -/
def hazardOf (r : Reel) (s : State) (u : Nat) : Option Hazard :=
  if (tileOf s u).detected then none else (hazDiff r s.job.phase s.job.pattern s.job.slot u (tileOf s u)).map (fun x => (u, x))

theorem hazards_eq (r : Reel) (s : State) : hazards r s = (List.range 1024).filterMap (hazardOf r s) := rfl

theorem hazardOf_fst {u : Nat} {x : Hazard} (h : hazardOf r s u = some x) : x.1 = u := by
  unfold hazardOf at h
  split at h
  · exact nomatch h
  · obtain ⟨y, -, rfl⟩ := Option.map_eq_some_iff.mp h
    rfl

/-- A hazard: the values of a part that the detector compares. -/
theorem mem_hazards {u k i want got : Nat} (h : (u, k, i, want, got) ∈ hazards r s) :
    (k, i) ∈ hazParts ∧ want ≠ got ∧ want = hazExpected (recsOf r secHazard u s.job.phase) s.job.pattern s.job.slot k i ∧
      got = hazActual s.job.slot (tileOf s u) k i := by
  rw [hazards_eq] at h
  obtain ⟨v, -, hv⟩ := List.mem_filterMap.mp h
  obtain rfl : u = v := hazardOf_fst hv
  unfold hazardOf at hv
  split at hv
  · exact nomatch hv
  · obtain ⟨y, hy, he⟩ := Option.map_eq_some_iff.mp hv
    obtain rfl : y = (k, i, want, got) := congrArg Prod.snd he
    unfold hazDiff at hy
    have hne := List.find?_some hy
    obtain ⟨⟨k', i'⟩, hp, hpe⟩ := List.mem_map.mp (List.mem_of_find?_eq_some hy)
    simp only [Prod.mk.injEq] at hpe
    obtain ⟨rfl, rfl, rfl, rfl⟩ := hpe
    exact ⟨hp, by simpa using hne, rfl, rfl⟩

theorem hazards_nil (h : ∀ u, u < 1024 → (tileOf s u).detected = false → ∀ x ∈ hazParts,
      hazExpected (recsOf r secHazard u s.job.phase) s.job.pattern s.job.slot x.1 x.2 = hazActual s.job.slot (tileOf s u) x.1 x.2) :
    hazards r s = [] := by
  rw [hazards_eq, List.filterMap_eq_nil_iff]
  intro u hu
  unfold hazardOf
  split
  · rfl
  · next hd =>
    rw [Option.map_eq_none_iff]
    unfold hazDiff
    rw [List.find?_eq_none]
    intro x hx
    obtain ⟨p, hp, rfl⟩ := List.mem_map.mp hx
    simpa using h u (List.mem_range.mp hu) (Bool.eq_false_iff.mpr hd) p hp

/-- The hazards stand in the order of their tiles. -/
theorem hazards_sorted (r : Reel) (s : State) : (hazards r s).Pairwise (fun x y => x.1 < y.1) := by
  rw [hazards_eq, List.pairwise_filterMap]
  refine List.pairwise_lt_range.imp fun {u v} huv x hx y hy => ?_
  rw [hazardOf_fst hx, hazardOf_fst hy]
  exact huv

/-! ## The hazard that is reported -/

/-- The hazard of lower code. -/
def lowerHazard (y x : Hazard) : Hazard := if x.2.1 < y.2.1 then x else y

theorem firstHazard_cons (x : Hazard) (l : List Hazard) : firstHazard (x :: l) = some (l.foldl lowerHazard x) := by
  unfold firstHazard
  rw [List.foldl_cons]
  induction l generalizing x with
  | nil => rfl
  | cons y l ih =>
    rw [List.foldl_cons, List.foldl_cons, ← ih]
    unfold lowerHazard
    dsimp only
    split <;> rfl

/-- Whether a hazard comes before another: by code, then by tile (R317). -/
def hazardLe (x y : Hazard) : Prop := x.2.1 < y.2.1 ∨ (x.2.1 = y.2.1 ∧ x.1 ≤ y.1)

theorem hazardLe_trans {x y z : Hazard} (h1 : hazardLe x y) (h2 : hazardLe y z) : hazardLe x z := by
  unfold hazardLe at *
  omega

/-- Of hazards in the order of their tiles the first of the lowest code is reported. -/
theorem foldl_lowerHazard {x : Hazard} {l : List Hazard} (h : (x :: l).Pairwise (fun a b => a.1 < b.1)) :
    l.foldl lowerHazard x ∈ x :: l ∧ ∀ y ∈ x :: l, hazardLe (l.foldl lowerHazard x) y := by
  induction l generalizing x with
  | nil => exact ⟨List.mem_singleton_self x, fun y hy => by rw [List.mem_singleton.mp hy]; exact .inr ⟨rfl, Nat.le_refl _⟩⟩
  | cons b l ih =>
    obtain ⟨hx, hbl⟩ := List.pairwise_cons.mp h
    obtain ⟨hb, hl⟩ := List.pairwise_cons.mp hbl
    have hxb := hx b (List.mem_cons_self ..)
    have hlow : (lowerHazard x b = x ∨ lowerHazard x b = b) ∧ hazardLe (lowerHazard x b) x ∧ hazardLe (lowerHazard x b) b := by
      unfold lowerHazard hazardLe
      split
      · exact ⟨.inr rfl, by omega, by omega⟩
      · exact ⟨.inl rfl, by omega, by omega⟩
    obtain ⟨hor, h1, h2⟩ := hlow
    have hpair : (lowerHazard x b :: l).Pairwise (fun a b => a.1 < b.1) := by
      refine List.pairwise_cons.mpr ⟨fun y hy => ?_, hl⟩
      rcases hor with he | he <;> rw [he]
      · exact hx y (List.mem_cons_of_mem _ hy)
      · exact hb y hy
    obtain ⟨hm, hle⟩ := ih hpair
    have hself := hle _ (List.mem_cons_self ..)
    rw [List.foldl_cons]
    refine ⟨?_, fun y hy => ?_⟩
    · rcases List.mem_cons.mp hm with he | he
      · rw [he]
        rcases hor with hv | hv <;> rw [hv]
        · exact List.mem_cons_self ..
        · exact List.mem_cons_of_mem _ (List.mem_cons_self ..)
      · exact List.mem_cons_of_mem _ (List.mem_cons_of_mem _ he)
    · rcases List.mem_cons.mp hy with rfl | hy
      · exact hazardLe_trans hself h1
      · rcases List.mem_cons.mp hy with rfl | hy
        · exact hazardLe_trans hself h2
        · exact hle y (List.mem_cons_of_mem _ hy)

/-- The hazard that comes before all is reported. -/
theorem firstHazard_eq {l : List Hazard} {x : Hazard} (hs : l.Pairwise (fun a b => a.1 < b.1)) (hx : x ∈ l) (hle : ∀ y ∈ l, hazardLe x y) :
    firstHazard l = some x := by
  cases l with
  | nil => exact nomatch hx
  | cons a l =>
    obtain ⟨hm, hmin⟩ := foldl_lowerHazard hs
    rw [firstHazard_cons]
    have h1 := hmin x hx
    have h2 := hle _ hm
    have htile : (l.foldl lowerHazard a).1 = x.1 := by
      unfold hazardLe at h1 h2
      omega
    have hnodup : ((a :: l).map Prod.fst).Nodup := List.pairwise_map.mpr (hs.imp Nat.ne_of_lt)
    rw [List.inj_on_of_nodup_map hnodup hm hx htile]

/-! ## HAZARD_CHECK -/

/-- What HAZARD_CHECK does in a debug job. -/
theorem exec_hazardCheck (hr : running s = true) (hreel : s.reel = some r) (hd : r.debug = true) :
    exec .hazardCheck s = .next (if s.pacer.vent < 32 then { s with ldr := { s.ldr with unchecked := satInc 32 s.ldr.unchecked } }
      else if !comparing s then s
      else (firstHazard (hazards r s)).elim s (fun x => hazFault x.1 x.2 s)) := by
  show execHazardCheck s = _
  unfold execHazardCheck
  rw [hr, hreel]
  dsimp only
  rw [hd, if_neg (c := (!true) = true) (by decide)]
  cases firstHazard (hazards r s) <;> rfl

theorem comparing_of_quiet (hd : s.job.detected = false) (hn : s.job.notice = none) : comparing s = true := by
  unfold comparing
  rw [hd, hn]
  rfl

theorem withLdr_changes (s : State) (x : Ldr) : changesOnly [.ldr] s { s with ldr := x } := by
  intro p hp
  cases p
  case ldr => exact absurd (by decide) hp
  all_goals rfl

end Sys2Proof.Machine

open Sys2Proof Sys2Proof.Machine

/-- Settles O36: the detector compares every tile without a detection, and the first hazard by code and tile faults the job. -/
theorem debugJobsAreHeldToTheAnnex : Obligations.DebugJobsAreHeldToTheAnnex := by
  refine ⟨fun s r hr hreel hd hv hn hf hsame => ?_, fun s r u k i want got hr hreel hd hv hn hf hown hdet hmem hmin htold => ?_,
    fun s r hr hreel hd hv hheld => ?_, fun s r hr hreel hd hv => ?_⟩
  · rw [exec_hazardCheck hr hreel hd, if_neg (Nat.not_lt.mpr hv), hazards_nil hsame]
    exact congrArg Host.Outcome.next (ite_self _)
  · obtain ⟨hpart, hne, hwant, hgot⟩ := mem_hazards hmem
    have hk : k ≤ 3 := by
      have hall : ∀ x ∈ hazParts, x.1 ≤ 3 := by decide
      exact hall _ hpart
    have hfirst : firstHazard (hazards r s) = some (u, k, i, want, got) := firstHazard_eq (hazards_sorted r s) hmem hmin
    let l : Ldr := { s.ldr with hazExpect := BitVec.ofNat 16 want, hazActual := BitVec.ofNat 16 got, hazKind := BitVec.ofNat 2 k,
                                hazIndex := BitVec.ofNat 4 i }
    have hx : exec .hazardCheck s = .next (tileFault (0x0E01 + k) u (hazIndexOf (k, i, want, got)) 63 { s with ldr := l }) := by
      rw [exec_hazardCheck hr hreel hd, if_neg (Nat.not_lt.mpr hv), hfirst]
      exact congrArg Host.Outcome.next (if_neg (by rw [comparing_of_quiet hdet hn]; decide))
    obtain ⟨hfault, hch, hb, htile, hloc⟩ := tileFault_spec (s := { s with ldr := l }) (c := 0x0E01 + k) (i := hazIndexOf (k, i, want, got))
      hr htold (decide_eq_true (by omega))
    have hldr : (tileFault (0x0E01 + k) u (hazIndexOf (k, i, want, got)) 63 { s with ldr := l }).ldr = l := hch .ldr (by decide)
    refine ⟨hne, hwant, hgot, _, hx, hfault, hb, (congrArg Tile.lines htile).trans rfl, ?_, ?_, ?_, ?_, ?_⟩
    · exact ((withLdr_changes s l).mono (by decide)).trans (hch.mono (by decide))
    · rw [hldr]
    · rw [hldr]
    · rw [hldr]
    · rw [hloc hown]
      rfl
  · have hcmp : comparing s = false := by
      unfold comparing
      rcases hheld with h | ⟨n, hn, hor⟩
      · rw [h]
        rfl
      · rw [hn]
        rcases hor with h | h
        · simp [h]
        · simp [cnt, h]
    rw [exec_hazardCheck hr hreel hd, if_neg (Nat.not_lt.mpr hv)]
    exact congrArg Host.Outcome.next (if_pos (by rw [hcmp]; rfl))
  · rw [exec_hazardCheck hr hreel hd, if_pos hv]
    exact ⟨_, rfl, withLdr_changes s _, rfl⟩
end

section
/-! Proofs: tables in canonical form as functions of their keys, and the lines and pairs that a seal turns over (R70, R97, R190). -/

namespace Sys2Proof.Machine

/-! ## Canonical tables -/

section
variable {α β : Type} [DecidableEq α] {d : α} {m : Sparse α} {k : Nat} {v : α}

theorem look_of_mem_canonical (h : canonical d m = true) (hv : (k, v) ∈ m) : look d k m = v := by
  rw [look, find?_of_mem (canonical_iff.mp h).1 hv]
  rfl

omit [DecidableEq α] in
theorem mem_of_look (hv : look d k m = v) (hd : v ≠ d) : (k, v) ∈ m := by
  unfold look at hv
  cases e : find? k m with
  | none =>
    rw [e] at hv
    exact absurd hv.symm hd
  | some x =>
    rw [e] at hv
    rw [← show x = v from hv]
    exact mem_of_find? e

/-- What a run over a canonical table's keys lists, key by key. -/
theorem nodup_listed (h : canonical d m = true) {f : Nat × α → List β} (hf : ∀ x ∈ m, (f x).Nodup) :
    (m.flatMap (fun x => (f x).map (fun y => (x.1, y)))).Nodup := by
  have hkeys := keys_nodup (canonical_iff.mp h).1
  refine List.nodup_flatMap.mpr ⟨fun x hx => (hf x hx).map fun a b he => (Prod.mk.inj he).2, ?_⟩
  rw [List.nodup_iff_pairwise_ne, List.pairwise_map] at hkeys
  refine hkeys.imp fun {x y} hne z hz1 hz2 => ?_
  obtain ⟨a, -, rfl⟩ := List.mem_map.mp hz1
  obtain ⟨b, -, hb⟩ := List.mem_map.mp hz2
  exact hne (Prod.mk.inj hb).1.symm

end

/-! ## Lines that flip -/

/-- A hold line turned over (R70). -/
def turnedLine (x : LineSt) : LineSt := { cur := x.nxt, nxt := x.cur, mark := false }

/-- The lines of a list turned over, one by one. -/
def flipAll (ps : List (Nat × Nat)) (s : State) : State := ps.foldl (fun a p => updTile p.1 (flipLine p.2) a) s

theorem flipLine_eq (l : Nat) (t : Tile) : flipLine l t = setLine l (turnedLine (lineAt t l)) t := rfl

theorem flipAll_changes (ps : List (Nat × Nat)) (s : State) : changesOnly [.tiles] s (flipAll ps s) :=
  .foldl (f := fun a p => updTile p.1 (flipLine p.2) a) (fun a p => updTile_changes p.1 _ a) ps s

/-- A tile whose lines have turned over keeps everything else. -/
theorem tileOf_flipAll (ps : List (Nat × Nat)) (s : State) (u : Nat) :
    { tileOf (flipAll ps s) u with lines := (tileOf s u).lines } = tileOf s u := by
  have hkeep : ∃ x, tileOf (flipAll ps s) u = { tileOf s u with lines := x } := by
    unfold flipAll
    induction ps generalizing s with
    | nil => exact ⟨(tileOf s u).lines, rfl⟩
    | cons p ps ih =>
      rw [List.foldl_cons]
      obtain ⟨x, hx⟩ := ih (updTile p.1 (flipLine p.2) s)
      by_cases hu : u = p.1
      · subst hu
        rw [tileOf_updTile_self] at hx
        exact ⟨x, hx⟩
      · rw [tileOf_updTile_other hu] at hx
        exact ⟨x, hx⟩
  obtain ⟨x, hx⟩ := hkeep
  rw [hx]

/-- The lines of a list without repetition, each turned over once. -/
theorem lineAt_flipAll {ps : List (Nat × Nat)} (h : ps.Nodup) (s : State) (u l : Nat) :
    lineAt (tileOf (flipAll ps s) u) l = if (u, l) ∈ ps then turnedLine (lineAt (tileOf s u) l) else lineAt (tileOf s u) l := by
  unfold flipAll
  induction ps generalizing s with
  | nil => rfl
  | cons p ps ih =>
    obtain ⟨hp, hps⟩ := List.nodup_cons.mp h
    rw [List.foldl_cons, ih hps]
    by_cases hu : u = p.1
    · rw [hu, tileOf_updTile_self, flipLine_eq]
      by_cases hl : l = p.2
      · rw [hl, lineAt_setLine_self, if_neg hp, if_pos (List.mem_cons_self ..)]
      · have hne : (p.1, l) ≠ p := fun he => hl (congrArg Prod.snd he)
        rw [lineAt_setLine_other hl]
        simp only [List.mem_cons, hne, false_or]
    · have hne : (u, l) ≠ p := fun he => hu (congrArg Prod.fst he)
      rw [tileOf_updTile_other hu]
      simp only [List.mem_cons, hne, false_or]

/-! ## Pairs that flip -/

/-- The pairs of a list turned over, one by one. -/
def flipPairsOf (ps : List (Nat × Nat)) (s : State) : State := ps.foldl (fun a p => flipPair p.1 p.2 a) s

theorem flipPairsOf_changes (ps : List (Nat × Nat)) (s : State) : changesOnly [.mems] s (flipPairsOf ps s) :=
  .foldl (f := fun a p => flipPair p.1 p.2 a) (fun a p => updMem_changes p.1 _ a) ps s

/-- A stack whose pairs have turned over keeps everything else. -/
theorem memOf_flipPairsOf (ps : List (Nat × Nat)) (s : State) (k : Nat) :
    ∃ x, memOf (flipPairsOf ps s) k = { memOf s k with sel := x } := by
  unfold flipPairsOf
  induction ps generalizing s with
  | nil => exact ⟨(memOf s k).sel, rfl⟩
  | cons p ps ih =>
    rw [List.foldl_cons]
    obtain ⟨x, hx⟩ := ih (flipPair p.1 p.2 s)
    by_cases hk : k = p.1
    · subst hk
      rw [flipPair, memOf_updMem_self] at hx
      exact ⟨x, hx⟩
    · rw [flipPair, memOf_updMem_other hk] at hx
      exact ⟨x, hx⟩

theorem risingKeys_flipPairsOf (ps : List (Nat × Nat)) {s : State} (h : risingKeys s.mems = true) : risingKeys (flipPairsOf ps s).mems = true :=
  foldl_keeps (P := fun a => risingKeys a.mems = true) (fun _ _ ha => risingKeys_store _ _ _ ha) ps h

/-- The pairs of a list without repetition, each turned over once. -/
theorem sel_flipPairsOf {ps : List (Nat × Nat)} (h : ps.Nodup) (s : State) (k b : Nat) :
    look false b (memOf (flipPairsOf ps s) k).sel = (look false b (memOf s k).sel != decide ((k, b) ∈ ps)) := by
  unfold flipPairsOf
  induction ps generalizing s with
  | nil => exact (Bool.xor_false _).symm
  | cons p ps ih =>
    obtain ⟨hp, hps⟩ := List.nodup_cons.mp h
    rw [List.foldl_cons, ih hps]
    by_cases hk : k = p.1
    · rw [hk, flipPair, memOf_updMem_self]
      by_cases hb : b = p.2
      · rw [hb, look_store_self, decide_eq_false hp, decide_eq_true (List.mem_cons_self ..)]
        cases look false p.2 (memOf s p.1).sel <;> rfl
      · have hne : (p.1, b) ≠ p := fun he => hb (congrArg Prod.snd he)
        rw [look_store_other hb]
        simp only [List.mem_cons, hne, false_or]
    · have hne : (k, b) ≠ p := fun he => hk (congrArg Prod.fst he)
      rw [flipPair, memOf_updMem_other hk]
      simp only [List.mem_cons, hne, false_or]

/-! ## What a seal turns over -/

section
variable {s : State} (h : sparseOk s)
include h

theorem mem_flipLines (u l : Nat) : (u, l) ∈ flipLines s ↔ (isHold (regionsNow s u) l && (lineAt (tileOf s u) l).mark) = true := by
  obtain ⟨htiles, -, -, hlines, -⟩ := h
  unfold flipLines
  rw [List.mem_flatMap]
  constructor
  · rintro ⟨⟨v, t⟩, hx, hm⟩
    obtain ⟨l', hl', he⟩ := List.mem_map.mp hm
    obtain ⟨rfl, rfl⟩ := Prod.mk.inj he
    have ht : tileOf s v = t := look_of_mem_canonical htiles hx
    unfold writtenHolds at hl'
    obtain ⟨⟨k, x⟩, hk, rfl⟩ := List.mem_map.mp hl'
    obtain ⟨hmem, hcond⟩ := List.mem_filter.mp hk
    have hline : lineAt t k = x := look_of_mem_canonical (by rw [← ht]; exact hlines v) hmem
    rw [ht]
    show (isHold (regionsNow s v) k && (lineAt t k).mark) = true
    rw [hline, Bool.and_comm]
    exact hcond
  · intro hcond
    obtain ⟨hhold, hmark⟩ := Bool.and_eq_true_iff.mp hcond
    have hline : (l, lineAt (tileOf s u) l) ∈ (tileOf s u).lines :=
      mem_of_look rfl fun he => by rw [he] at hmark; exact nomatch hmark
    have htile : (u, tileOf s u) ∈ s.tiles := mem_of_look rfl fun he => by rw [he] at hline; exact nomatch hline
    refine ⟨_, htile, List.mem_map.mpr ⟨l, List.mem_map.mpr ⟨_, List.mem_filter.mpr ⟨hline, ?_⟩, rfl⟩, rfl⟩⟩
    rw [hmark, hhold]
    rfl

theorem nodup_flipLines : (flipLines s).Nodup := by
  obtain ⟨htiles, -, -, hlines, -⟩ := h
  refine nodup_listed htiles fun x hx => ?_
  have ht : tileOf s x.1 = x.2 := look_of_mem_canonical htiles hx
  have hc := canonical_filter (fun y => y.2.mark && isHold (regionsNow s x.1) y.1) (hlines x.1)
  rw [ht] at hc
  exact keys_nodup (canonical_iff.mp hc).1

theorem mem_flipPairs (k b : Nat) : (k, b) ∈ flipPairs s ↔ look false b (memOf s k).mark = true := by
  obtain ⟨-, hmems, -, -, hmarks⟩ := h
  unfold flipPairs
  rw [List.mem_flatMap]
  constructor
  · rintro ⟨⟨j, m⟩, hx, hm⟩
    obtain ⟨⟨b', v⟩, hb, he⟩ := List.mem_map.mp hm
    obtain ⟨rfl, rfl⟩ := Prod.mk.inj he
    obtain ⟨hmem, hv⟩ := List.mem_filter.mp hb
    have hst : memOf s j = m := look_of_mem_canonical hmems hx
    rw [look_of_mem_canonical (hmarks j).1 (by rw [hst]; exact hmem)]
    exact hv
  · intro hmark
    have hpair : (b, true) ∈ (memOf s k).mark := mem_of_look hmark (by decide)
    have hstack : (k, memOf s k) ∈ s.mems := mem_of_look rfl fun he => by rw [he] at hpair; exact nomatch hpair
    exact ⟨_, hstack, List.mem_map.mpr ⟨_, List.mem_filter.mpr ⟨hpair, rfl⟩, rfl⟩⟩

theorem nodup_flipPairs : (flipPairs s).Nodup := by
  obtain ⟨-, hmems, -, -, hmarks⟩ := h
  have heq : flipPairs s = s.mems.flatMap (fun x => ((x.2.mark.filter (fun y => y.2)).map (fun y => y.1)).map (fun b => (x.1, b))) := by
    unfold flipPairs
    simp only [List.map_map]
    rfl
  rw [heq]
  refine nodup_listed hmems fun x hx => ?_
  have hst : memOf s x.1 = x.2 := look_of_mem_canonical hmems hx
  have hc := canonical_filter (fun y => y.2) (hmarks x.1).1
  rw [hst] at hc
  exact keys_nodup (canonical_iff.mp hc).1

end

end Sys2Proof.Machine
end

section
/-! Proofs: the seal of a step at its commit point (O38). -/

namespace Sys2Proof.Machine

variable {s : State}

/-! ## The seal -/

theorem sealStep_eq (s : State) : sealStep s =
    { flipPairsOf (flipPairs s) (flipAll (flipLines s) s) with
        mems := mapVals Stack.off Stack.unmarked (flipPairsOf (flipPairs s) (flipAll (flipLines s) s)).mems
        job := { (flipPairsOf (flipPairs s) (flipAll (flipLines s) s)).job with sealed_ := some (sealOf s) } } := rfl

theorem turned_changes (s : State) : changesOnly [.tiles, .mems] s (flipPairsOf (flipPairs s) (flipAll (flipLines s) s)) :=
  (flipAll_changes _ s).both (flipPairsOf_changes _ _) (by decide) (by decide)

theorem sealStep_job (s : State) : (sealStep s).job = { s.job with sealed_ := some (sealOf s) } := by
  have h : (flipPairsOf (flipPairs s) (flipAll (flipLines s) s)).job = s.job := turned_changes s .job (by decide)
  rw [sealStep_eq, ← h]

theorem sealStep_changes (s : State) : changesOnly [.tiles, .mems, .job] s (sealStep s) := by
  have h := (turned_changes s).mono (B := [.tiles, .mems, .job]) (by decide)
  intro p hp
  have hsame := h p hp
  cases p
  case tiles => exact absurd (by decide) hp
  case mems => exact absurd (by decide) hp
  case job => exact absurd (by decide) hp
  all_goals exact hsame

theorem tileOf_sealStep (s : State) (u : Nat) : tileOf (sealStep s) u = tileOf (flipAll (flipLines s) s) u := by
  have h := (flipPairsOf_changes (flipPairs s) (flipAll (flipLines s) s)).tileOf_eq (by decide)
  exact congrFun h u

theorem memOf_sealStep (h : sparseOk s) (k : Nat) :
    memOf (sealStep s) k = Stack.unmarked (memOf (flipPairsOf (flipPairs s) (flipAll (flipLines s) s)) k) := by
  have hr : risingKeys (flipAll (flipLines s) s).mems = true := by
    rw [show (flipAll (flipLines s) s).mems = s.mems from flipAll_changes _ s .mems (by decide)]
    exact (canonical_iff.mp h.2.1).1
  exact look_mapVals (risingKeys_flipPairsOf _ hr) rfl k

/-! ## STEP_RESIDUE -/

/-- The faults of tiles that hold something at the commit, one after another. -/
def residueFaults (xs : Sparse Tile) (s : State) : State := xs.foldl (fun a x => tileFault 0x0408 x.1 (residueIndex x.2) 63 a) s

/-- What the first of such faults has left, and the others keep. -/
structure Residual (s t : State) : Prop where
  changes : changesOnly [.tiles, .job, .settings, .test] s t
  sealed_eq : t.job.sealed_ = s.job.sealed_
  running_eq : running t = true
  lines : ∀ u, (tileOf t u).lines = (tileOf s u).lines

theorem Residual.refl (h : running s = true) : Residual s s := ⟨.refl _ s, rfl, h, fun _ => rfl⟩

theorem raiseFault_sealed (c : Nat) (n : UnitField) (i k : Nat) (s : State) : (raiseFault c n i k s).job.sealed_ = s.job.sealed_ := by
  have hk := (samePlace_raiseFault c n i k s).place
  exact congrArg (fun x : (JobSt × Nat × LaunchRef) × (Nat × Nat × Nat × Nat × Nat) × Option Sealed × Nat × Nat => x.2.2.1) hk

theorem Residual.fault {t : State} (h : Residual s t) {u : Nat} (i : Nat) (htold : toldIn t (tileOf t u) 63 = none) :
    Residual s (tileFault 0x0408 u i 63 t) ∧ tilesBut u t (tileFault 0x0408 u i 63 t) ∧ (tileFault 0x0408 u i 63 t).job.faulted = true := by
  obtain ⟨hfault, hch, hb, htile, -⟩ := tileFault_spec (i := i) (c := 0x0408) h.running_eq htold (by decide)
  have hx := tileFault_of_untold 0x0408 i htold
  refine ⟨⟨h.changes.trans hch, ?_, ?_, fun v => ?_⟩, hb, hfault⟩
  · rw [hx, raiseFault_sealed]
    exact h.sealed_eq
  · rw [hx]
    exact (raiseFault_job 0x0408 _ _ _ (by exact h.running_eq)).2
  · by_cases hv : v = u
    · rw [hv, htile]
      exact h.lines u
    · rw [hb v hv]
      exact h.lines v

/-- The package's own fault stays that of the first of several of one code in one slot (R317). -/
theorem tileFault_keepsOwn {t : State} {u i : Nat} {o : Loc} (hr : running t = true) (htold : toldIn t (tileOf t u) 63 = none)
    (ho : t.job.ownFault = some o) (hcode : o.code = 0x0408#16) : (tileFault 0x0408 u i 63 t).job.ownFault = some o := by
  rw [tileFault_of_untold 0x0408 i htold]
  unfold raiseFault raiseFaultLoc
  rw [if_pos (show running (updTile u (tellTile t u 0x0408 63) t) = true from hr)]
  refine (takeNotice_ownFault _ _).trans ?_
  show keepOwn t.job.ownFault _ = _
  rw [ho]
  refine if_neg fun h => ?_
  rw [hcode] at h
  exact Nat.lt_irrefl _ h.2

/-- Faults of tiles in the order of their numbers, none of which has told of anything in the token. -/
theorem residueFaults_spec {t : State} {xs : Sparse Tile} (h : Residual s t) (hn : (xs.map (fun x => x.1)).Nodup)
    (htold : ∀ x ∈ xs, toldIn t (tileOf t x.1) 63 = none) {o : Loc} (ho : t.job.ownFault = some o) (hcode : o.code = 0x0408#16)
    (hf : t.job.faulted = true) :
    Residual s (residueFaults xs t) ∧ (residueFaults xs t).job.ownFault = some o ∧ (residueFaults xs t).job.faulted = true := by
  induction xs generalizing t with
  | nil => exact ⟨h, ho, hf⟩
  | cons x xs ih =>
    obtain ⟨hx, hxs⟩ := List.nodup_cons.mp hn
    have hx0 := htold x (List.mem_cons_self ..)
    obtain ⟨hres, hb, hfault⟩ := h.fault (residueIndex x.2) hx0
    refine ih hres hxs (fun y hy => ?_) (tileFault_keepsOwn h.running_eq hx0 ho hcode) hfault
    have hne : y.1 ≠ x.1 := fun he => hx (List.mem_map.mpr ⟨y, hy, he⟩)
    have hcnt : cnt (tileFault 0x0408 x.1 (residueIndex x.2) 63 t) = cnt t := by
      have h1 : (tileFault 0x0408 x.1 (residueIndex x.2) 63 t).bridle = s.bridle := hres.changes .bridle (by decide)
      have h2 : t.bridle = s.bridle := h.changes .bridle (by decide)
      rw [cnt, cnt, h1, h2]
    unfold toldIn
    rw [hb _ hne, hcnt]
    exact htold y (List.mem_cons_of_mem _ hy)

/-- STEP_RESIDUE of every tile that holds something (R78). -/
theorem residues_spec {x : Nat × Tile} {xs : Sparse Tile} (hr : running s = true) (hn : ((x :: xs).map (fun y => y.1)).Nodup)
    (htold : ∀ u, toldIn s (tileOf s u) 63 = none) (ho : s.job.ownFault = none) :
    Residual s (residueFaults (x :: xs) s) ∧ (residueFaults (x :: xs) s).job.ownFault.map (fun l => l.code) = some 0x0408#16 ∧
      (residueFaults (x :: xs) s).job.faulted = true := by
  obtain ⟨hx, hxs⟩ := List.nodup_cons.mp hn
  obtain ⟨hres, hb, hfault⟩ := (Residual.refl hr).fault (residueIndex x.2) (htold x.1)
  obtain ⟨-, -, -, -, hown⟩ := tileFault_spec (n := x.1) (k := 63) (c := 0x0408) (i := residueIndex x.2) hr (htold x.1) (by decide)
  obtain ⟨h1, h2, h3⟩ := residueFaults_spec hres hxs (fun y hy => by
    have hne : y.1 ≠ x.1 := fun he => hx (List.mem_map.mpr ⟨y, hy, he⟩)
    have hcnt : (tileFault 0x0408 x.1 (residueIndex x.2) 63 s).bridle = s.bridle := hres.changes .bridle (by decide)
    unfold toldIn cnt
    rw [hb _ hne, hcnt]
    exact htold y.1) (hown ho) rfl hfault
  exact ⟨h1, congrArg (Option.map (fun l : Loc => l.code)) h2, h3⟩

/-! ## What a tile holds at the commit -/

theorem outboxCount_eq_zero {slot : Nat} {t : Tile} : outboxCount slot t = 0 ↔ ∀ x ∈ t.outbox, x.2.leaves = some slot := by
  rw [outboxCount, List.length_eq_zero_iff, List.filter_eq_nil_iff]
  exact forall₂_congr fun x _ => by simp

theorem hasResidue_eq_false {slot : Nat} {t : Tile} :
    hasResidue slot t = false ↔ t.inbox = [] ∧ t.events = [] ∧ t.mover = [] ∧ ∀ x ∈ t.outbox, x.2.leaves = some slot := by
  rw [← outboxCount_eq_zero]
  unfold hasResidue
  simp only [Bool.or_eq_false_iff, Bool.not_eq_false', List.isEmpty_iff, bne_eq_false_iff_eq]
  tauto

theorem residueTiles_nil (h : sparseOk s) : residueTiles s = [] ↔ ∀ u, hasResidue s.job.slot (tileOf s u) = false := by
  rw [residueTiles, List.filter_eq_nil_iff]
  constructor
  · intro hall u
    by_cases hu : tileOf s u = Tile.clear
    · rw [hu]
      rfl
    · exact Bool.eq_false_iff.mpr (hall (u, tileOf s u) (mem_of_look rfl hu))
  · intro hall x hx
    rw [← show tileOf s x.1 = x.2 from look_of_mem_canonical h.1 hx, hall]
    decide

theorem exec_stepSeal (hp : s.pacer.running = true) (hr : running s = true) (hc : s.job.slot = curCommit s) (hs : s.job.sealed_ = none)
    (hn : s.job.notice = none) (hf : s.job.faulted = false) :
    exec .stepSeal s = .next (if (residueTiles s).isEmpty then sealStep s else residueFaults (residueTiles s) s) := by
  show execStepSeal s = _
  unfold execStepSeal atCommit
  rw [hp, hr, hs, hn, hf, show (s.job.slot == curCommit s) = true from decide_eq_true hc]
  rfl

end Sys2Proof.Machine

open Sys2Proof Sys2Proof.Machine

/-- Settles O38: a seal turns over each written hold line and pair once, and a tile that holds something faults the job instead. -/
theorem stepsSealAtTheCommitPoint : Obligations.StepsSealAtTheCommitPoint := by
  intro s hp hr
  refine ⟨fun hslot => ?_, fun hform hslot hs hn hf => ⟨fun hempty => ?_, fun hheld ho htold => ?_⟩⟩
  · show execStepSeal s = _
    unfold execStepSeal atCommit
    rw [show (s.job.slot == curCommit s) = false from decide_eq_false hslot, Bool.and_false, Bool.false_and, Bool.and_false]
    rfl
  · have hnil : residueTiles s = [] := (residueTiles_nil hform).mpr fun u => hasResidue_eq_false.mpr (hempty u)
    have hx : exec .stepSeal s = .next (sealStep s) := by
      rw [exec_stepSeal hp hr hslot hs hn hf, hnil]
      rfl
    refine ⟨_, sealOf s, hx, sealStep_changes s, sealStep_job s, rfl, rfl, rfl, fun u l => ?_, fun u => ?_, fun k => ?_⟩
    · rw [tileOf_sealStep, lineAt_flipAll (nodup_flipLines hform)]
      exact if_congr (mem_flipLines hform u l) rfl rfl
    · rw [tileOf_sealStep]
      exact tileOf_flipAll _ s u
    · have hmems : memOf (flipAll (flipLines s) s) = memOf s := (flipAll_changes _ s).memOf_eq (by decide)
      obtain ⟨x, hst⟩ := memOf_flipPairsOf (flipPairs s) (flipAll (flipLines s) s) k
      have hsel := sel_flipPairsOf (nodup_flipPairs hform) (flipAll (flipLines s) s) k
      rw [memOf_sealStep hform]
      refine ⟨?_, rfl, fun b => ?_⟩
      · rw [hst, hmems]
        rfl
      · refine (hsel b).trans ?_
        rw [hmems]
        congr 1
        rw [Bool.eq_iff_iff, decide_eq_true_iff]
        exact mem_flipPairs hform k b
  · have hne : residueTiles s ≠ [] := fun hnil => by
      obtain ⟨u, hu⟩ := hheld
      obtain ⟨h1, h2, h3, h4⟩ := hasResidue_eq_false.mp ((residueTiles_nil hform).mp hnil u)
      rcases hu with h | h | h | ⟨y, hy, h⟩
      · exact h h1
      · exact h h2
      · exact h h3
      · exact h (h4 y hy)
    have hnodup : ((residueTiles s).map (fun x => x.1)).Nodup :=
      keys_nodup (canonical_iff.mp (canonical_filter _ hform.1)).1
    rw [exec_stepSeal hp hr hslot hs hn hf]
    cases hl : residueTiles s with
    | nil => exact absurd hl hne
    | cons x xs =>
      rw [hl] at hnodup
      obtain ⟨hres, hcode, hfault⟩ := residues_spec hr hnodup htold ho
      exact ⟨_, rfl, hres.changes, hres.sealed_eq.trans hs, hfault, hcode, hres.lines⟩
end

section
/-! Proofs: the rewind of a job's step (R79, R189, R190; O40). -/

namespace Sys2Proof.Machine

variable {s : State}

/-- What a table that lists a function's values but for the default reads. -/
theorem look_listed {α : Type} [DecidableEq α] (d : α) (f : Nat → α) {n k : Nat} (hk : k < n) :
    look d k (((List.range n).map (fun u => (u, f u))).filter (fun x => decide (x.2 ≠ d))) = f k := by
  have hc := canonical_listed d f n
  by_cases hd : f k = d
  · by_contra hne
    have hm := mem_of_look rfl (fun h => hne (h.trans hd.symm))
    obtain ⟨hm, hv⟩ := List.mem_filter.mp hm
    obtain ⟨u, -, hu⟩ := List.mem_map.mp hm
    obtain ⟨rfl, hu⟩ := Prod.mk.inj hu
    exact hne hu.symm
  · exact look_of_mem_canonical hc (List.mem_filter.mpr
      ⟨List.mem_map.mpr ⟨k, List.mem_range.mpr hk, rfl⟩, decide_eq_true hd⟩)

/-! ## Slot 0 of a step -/

theorem tileOf_beginStep {r : Reel} {n a pat ph u : Nat} (h : stepPlan r n = some (pat, ph)) (hu : u < 1024) :
    tileOf (beginStep r n a s) u = beginTile (stepWords r u ph pat) s.job.slot (tileOf s u) := by
  have hb : (beginStep r n a s).tiles = beginTiles r ph pat s := by
    unfold beginStep
    rw [h]
  rw [tileOf, hb]
  unfold beginTiles
  exact look_listed Tile.clear (fun u => beginTile (stepWords r u ph pat) s.job.slot (tileOf s u)) hu

/-! ## Unsealing -/

/-- A tile with the flag word that a seal saved for it. -/
def flagged (f : BitVec 8) (t : Tile) : Tile := { t with savedFlags := f, flags := f }

/-- The flag words of a list back on their tiles. -/
def flagAll (ps : List (Nat × BitVec 8)) (s : State) : State := ps.foldl (fun a p => updTile p.1 (flagged p.2) a) s

theorem unsealStep_of_sealed {x : Sealed} (h : s.job.sealed_ = some x) :
    unsealStep s = { flagAll x.flags (flipPairsOf x.pairs (flipAll x.lines s)) with
      job := { (flagAll x.flags (flipPairsOf x.pairs (flipAll x.lines s))).job with
        step := x.step, attempt := x.attempt, sealed_ := none } } := by
  unfold unsealStep
  rw [h]
  rfl

theorem flagAll_changes (ps : List (Nat × BitVec 8)) (s : State) : changesOnly [.tiles] s (flagAll ps s) :=
  .foldl (f := fun a p => updTile p.1 (flagged p.2) a) (fun a p => updTile_changes p.1 _ a) ps s

theorem lines_flagAll (ps : List (Nat × BitVec 8)) (s : State) (u : Nat) :
    (tileOf (flagAll ps s) u).lines = (tileOf s u).lines := by
  refine foldl_keeps (P := fun a => (tileOf a u).lines = (tileOf s u).lines) (fun a p ha => ?_) ps rfl
  by_cases hu : u = p.1
  · rw [hu, tileOf_updTile_self, ← hu]
    exact ha
  · rw [tileOf_updTile_other hu]
    exact ha

theorem savedFlags_flagAll_of_not_mem {ps : List (Nat × BitVec 8)} {u : Nat} (h : u ∉ ps.map (fun y => y.1)) (s : State) :
    (tileOf (flagAll ps s) u).savedFlags = (tileOf s u).savedFlags := by
  unfold flagAll
  induction ps generalizing s with
  | nil => rfl
  | cons p ps ih =>
    obtain ⟨hp, hps⟩ := not_or.mp (mt List.mem_cons.mpr h)
    rw [List.foldl_cons, ih hps, tileOf_updTile_other hp]

theorem savedFlags_flagAll {ps : List (Nat × BitVec 8)} (hn : (ps.map (fun y => y.1)).Nodup) (s : State) {u : Nat} {f : BitVec 8}
    (hm : (u, f) ∈ ps) : (tileOf (flagAll ps s) u).savedFlags = f := by
  unfold flagAll
  induction ps generalizing s with
  | nil => exact nomatch hm
  | cons p ps ih =>
    obtain ⟨hp, hps⟩ := List.nodup_cons.mp hn
    rw [List.foldl_cons]
    rcases List.mem_cons.mp hm with rfl | hm
    · exact (savedFlags_flagAll_of_not_mem hp _).trans (congrArg Tile.savedFlags (tileOf_updTile_self u (flagged f) s))
    · exact ih hps _ hm

/-! ## What a rewind sets out from -/

/-- The state that a rewind has cleared, before slot 0 of the next attempt begins. -/
def rewoundFrom (n : Notice) (s : State) : State := clearAttempt n (unsealFor n s)

theorem rewindTo_eq (r : Reel) (n : Notice) (s : State) :
    rewindTo r n s = capSpacing (closeWindow (beginStep r n.step (n.attempt + 1) (rewoundFrom n s))) := rfl

theorem unsealFor_steady (n : Notice) (s : State) : Steady s (unsealFor n s) := .ite (unsealStep_steady s) (.refl s)

theorem unsealFor_changes (n : Notice) (s : State) : changesOnly [.tiles, .mems, .job] s (unsealFor n s) :=
  .ite (unsealStep_changes s) (.refl _ s)

theorem unsealFor_of_other {n : Notice} (h : ∀ x, s.job.sealed_ = some x → x.step ≠ n.step) : unsealFor n s = s := by
  refine if_neg fun he => ?_
  obtain ⟨x, hx, hstep⟩ := (Option.any_eq_true _ _).mp he
  exact h x hx (eq_of_beq hstep)

theorem unsealFor_of_sealed {n : Notice} {x : Sealed} (hx : s.job.sealed_ = some x) (hn : x.step = n.step) : unsealFor n s = unsealStep s :=
  if_pos (by rw [hx, ← hn]; exact beq_self_eq_true _)

/-- Unsealing keeps of the job all but the step, its attempt and the seal. -/
theorem unsealFor_job (n : Notice) (s : State) :
    ∃ k a x, (unsealFor n s).job = { s.job with step := k, attempt := a, sealed_ := x } := by
  by_cases h : s.job.sealed_.any (fun x => x.step == n.step) = true
  · obtain ⟨x, hx, hstep⟩ := (Option.any_eq_true _ _).mp h
    have hj : (flagAll x.flags (flipPairsOf x.pairs (flipAll x.lines s))).job = s.job :=
      (((flipAll_changes _ s).mono (by decide)).trans (((flipPairsOf_changes _ _).mono (by decide)).trans
        ((flagAll_changes _ _).mono (B := [.tiles, .mems]) (by decide)))) .job (by decide)
    refine ⟨x.step, x.attempt, none, ?_⟩
    rw [unsealFor_of_sealed hx (eq_of_beq hstep), unsealStep_of_sealed hx, ← hj]
  · exact ⟨s.job.step, s.job.attempt, s.job.sealed_, by rw [unsealFor, if_neg h]⟩

theorem blocks_unsealFor (n : Notice) (s : State) (k : Nat) : (memOf (unsealFor n s) k).blocks = (memOf s k).blocks := by
  by_cases h : s.job.sealed_.any (fun x => x.step == n.step) = true
  · obtain ⟨x, hx, hstep⟩ := (Option.any_eq_true _ _).mp h
    obtain ⟨y, hy⟩ := memOf_flipPairsOf x.pairs (flipAll x.lines s) k
    have hflags : memOf (flagAll x.flags (flipPairsOf x.pairs (flipAll x.lines s))) k = _ :=
      (congrFun ((flagAll_changes x.flags _).memOf_eq (by decide)) k).trans hy
    rw [unsealFor_of_sealed hx (eq_of_beq hstep), unsealStep_of_sealed hx]
    have hlines : memOf (flipAll x.lines s) k = memOf s k := congrFun ((flipAll_changes x.lines s).memOf_eq (by decide)) k
    refine (congrArg Stack.blocks hflags).trans ?_
    show (memOf (flipAll x.lines s) k).blocks = (memOf s k).blocks
    rw [hlines]
  · rw [unsealFor, if_neg h]

theorem rewoundFrom_changes (n : Notice) (s : State) :
    changesOnly [.tiles, .mems, .ports, .localq, .transits, .shadowed, .stage, .work, .job] s (rewoundFrom n s) := by
  have h := (unsealFor_changes n s).mono (B := [.tiles, .mems, .ports, .localq, .transits, .shadowed, .stage, .work, .job]) (by decide)
  intro p hp
  have hsame := h p hp
  cases p
  case tiles => exact absurd (by decide) hp
  case mems => exact absurd (by decide) hp
  case ports => exact absurd (by decide) hp
  case localq => exact absurd (by decide) hp
  case transits => exact absurd (by decide) hp
  case shadowed => exact absurd (by decide) hp
  case stage => exact absurd (by decide) hp
  case work => exact absurd (by decide) hp
  case job => exact absurd (by decide) hp
  all_goals exact hsame

theorem tileOf_rewoundFrom (h : sparseOk s) (n : Notice) (u : Nat) :
    tileOf (rewoundFrom n s) u = Tile.rewound (tileOf (unsealFor n s) u) :=
  look_mapVals (canonical_iff.mp ((unsealFor_steady n s).2.2.2 h).1).1 rfl u

theorem memOf_rewoundFrom (h : sparseOk s) (n : Notice) (k : Nat) :
    memOf (rewoundFrom n s) k = Stack.unmarked (memOf (unsealFor n s) k) :=
  look_mapVals (canonical_iff.mp ((unsealFor_steady n s).2.2.2 h).2.1).1 rfl k

theorem portOf_rewoundFrom (h : sparseOk s) (n : Notice) (p : Nat) : portOf (rewoundFrom n s) p = portRewound (portOf s p) := by
  have hp : (unsealFor n s).ports = s.ports := unsealFor_changes n s .ports (by decide)
  have hr := (canonical_iff.mp h.2.2.1).1
  rw [← hp] at hr
  exact (look_mapVals (f := portRewound) hr rfl p).trans (by rw [hp]; rfl)

theorem LineSt.unmark_unmark (x : LineSt) : x.unmark.unmark = x.unmark := rfl

/-- A line of a tile at slot 0 of the attempt that a rewind begins. -/
theorem lineAt_beginTile_rewound {x : Tile} (h : canonical LineSt.zero x.lines = true) (ws : List Rec128) (k l : Nat) :
    lineAt (beginTile ws k x.rewound) l = (lineAt x l).unmark := by
  have h1 := canonical_mapVals LineSt.zero LineSt.unmark x.lines h
  exact (look_mapVals (f := LineSt.unmark) (canonical_iff.mp h1).1 rfl l).trans
    ((congrArg LineSt.unmark (look_mapVals (canonical_iff.mp h).1 rfl l)).trans (LineSt.unmark_unmark _))

/-! ## A test in a window at the rewind -/

theorem scoreHeld_of_nil {w : TestRun} (h : w.held = []) (s : State) : scoreHeld w s = s := by
  rw [scoreHeld, h]
  rfl

/-- With no result held back, a window that closes touches only the test. -/
theorem closeWindow_quiet (h : noHeld s) : changesOnly [.test] s (closeWindow s) := by
  refine .ite (.refl _ s) ?_
  unfold endWindowTest
  split
  · rename_i w hw
    split
    · rename_i hby
      rw [scoreHeld_of_nil (h w hw hby)]
      intro p hp
      cases p
      case test => exact absurd (by decide) hp
      all_goals rfl
    · exact .refl _ s
  · exact .refl _ s

theorem closeWindow_of_covered {r : Reel} {w : TestRun} (hreel : s.reel = some r) (ht : s.sec.test = some w)
    (h : w.by_ ≠ .window ∨ windowCovers r w.unit s.job.pattern = true) : closeWindow s = s := by
  unfold closeWindow testInWindow endWindowTest
  rw [ht, hreel]
  rcases h with h | h
  · exact ite_eq_left_iff.mpr fun _ => if_neg h
  · exact if_pos h

/-! ## The attempt that begins -/

section
variable {r : Reel} {n : Notice} {pat ph : Nat} (h : sparseOk s) (hreel : s.reel = some r) (hplan : stepPlan r n.step = some (pat, ph))

/-- The state in which slot 0 of the attempt has begun, its test in a window not yet looked at. -/
def begunAgain (r : Reel) (n : Notice) (s : State) : State := beginStep r n.step (n.attempt + 1) (rewoundFrom n s)

theorem begunAgain_changes (r : Reel) (n : Notice) (s : State) :
    changesOnly [.tiles, .mems, .ports, .localq, .transits, .shadowed, .stage, .work, .job] s (begunAgain r n s) :=
  (rewoundFrom_changes n s).next (beginStep_changes _ _ _ _) (by decide)

theorem rewindTo_changes_begun (r : Reel) (n : Notice) (s : State) :
    changesOnly (.power :: .test :: .totals :: moves) (begunAgain r n s) (rewindTo r n s) :=
  (closeWindow_changes _).both (capSpacing_changes _) (by decide) (by decide)

theorem rewindTo_test (r : Reel) (n : Notice) (s : State) :
    (rewindTo r n s).sec.test = (closeWindow (begunAgain r n s)).sec.test := rfl

include hplan in
theorem begunAgain_job : ∃ x, (begunAgain r n s).job =
    { s.job with
      step := n.step
      attempt := n.attempt + 1
      slot := 0
      pattern := pat
      phase := ph
      vetoes := []
      detected := false
      notice := none
      ownFault := none
      rewound := cnt s
      lastCode := n.code
      lastOrigin := n.origin
      sealed_ := x } ∧ x = (unsealFor n s).job.sealed_ := by
  obtain ⟨k, a, x, hj⟩ := unsealFor_job n s
  have hcnt : cnt (unsealFor n s) = cnt s := congrArg Bridle.count (unsealFor_changes n s .bridle (by decide))
  refine ⟨x, ?_, by rw [hj]⟩
  rw [begunAgain, beginStep_job _ _ hplan, rewoundFrom, clearAttempt, hj, hcnt]

include h hplan in
theorem tileOf_begunAgain {u : Nat} (hu : u < 1024) : ∃ k, tileOf (begunAgain r n s) u =
    beginTile (stepWords r u ph pat) k (tileOf (unsealFor n s) u).rewound :=
  ⟨_, (tileOf_beginStep hplan hu).trans (congrArg _ (tileOf_rewoundFrom h n u))⟩

include h in
theorem memOf_begunAgain (k : Nat) : memOf (begunAgain r n s) k = Stack.unmarked (memOf (unsealFor n s) k) :=
  (congrFun ((beginStep_changes _ _ _ _).memOf_eq (by decide)) k).trans (memOf_rewoundFrom h n k)

end

/-- What a rewind leaves, whether or not it unseals a step. -/
structure Rewound (r : Reel) (n : Notice) (pat ph : Nat) (s t : State) : Prop where
  changes : changesOnly (([.tiles, .mems, .ports, .localq, .transits, .shadowed, .stage, .work, .job, .power, .test, .totals] :
    List Part) ++ moves) s t
  quiet : noHeld s → changesOnly [.tiles, .mems, .ports, .localq, .transits, .shadowed, .stage, .work, .job, .power, .test] s t
  job : ∃ x, t.job = { s.job with
    step := n.step
    attempt := n.attempt + 1
    slot := 0
    pattern := pat
    phase := ph
    vetoes := []
    detected := false
    notice := none
    ownFault := none
    rewound := cnt s
    lastCode := n.code
    lastOrigin := n.origin
    sealed_ := x } ∧ x = (unsealFor n s).job.sealed_
  replays : t.work.replays = s.work.replays + 1
  localq : t.localq = []
  transits : t.transits = []
  stage : t.window.stage = s.window.stage.filter (fun b => b.released || decide (b.step < n.step))
  tile : ∀ u, u < 1024 → ∃ k, tileOf t u = beginTile (stepWords r u ph pat) k (tileOf (unsealFor n s) u).rewound
  mem : ∀ k, memOf t k = Stack.unmarked (memOf (unsealFor n s) k)
  port : ∀ p, portOf t p = portRewound (portOf s p)

theorem rewindTo_spec {r : Reel} {n : Notice} {pat ph : Nat} (h : sparseOk s) (hplan : stepPlan r n.step = some (pat, ph)) :
    Rewound r n pat ph s (rewindTo r n s) := by
  have hb := begunAgain_changes r n s
  have hc := rewindTo_changes_begun r n s
  have hu := unsealFor_changes n s
  have hs := beginStep_changes r n.step (n.attempt + 1) (rewoundFrom n s)
  have hwork : (begunAgain r n s).work = rewoundWork (unsealFor n s).job.sealed_ (unsealFor n s).work := hs .work (by decide)
  have hstage : (begunAgain r n s).window.stage = (rewoundFrom n s).window.stage := hs .stage (by decide)
  have hstage' : (unsealFor n s).window.stage = s.window.stage := hu .stage (by decide)
  exact {
    changes := (hb.mono (by decide)).trans (hc.mono (by decide))
    quiet := fun hq => by
      have hq' : noHeld (begunAgain r n s) := by
        have ht : (begunAgain r n s).sec.test = s.sec.test := hb .test (by decide)
        rw [noHeld, ht]
        exact hq
      exact ((hb.mono (by decide)).trans ((closeWindow_quiet hq').mono (by decide))).trans ((capSpacing_changes _).mono (by decide))
    job := by rw [show (rewindTo r n s).job = (begunAgain r n s).job from hc .job (by decide)]; exact begunAgain_job hplan
    replays := by
      rw [show (rewindTo r n s).work = (begunAgain r n s).work from hc .work (by decide), hwork,
        show (unsealFor n s).work = s.work from hu .work (by decide)]
      cases (unsealFor n s).job.sealed_ <;> rfl
    localq := (hc .localq (by decide)).trans (hs .localq (by decide))
    transits := (hc .transits (by decide)).trans (hs .transits (by decide))
    stage := ((hc .stage (by decide)).trans hstage).trans (congrArg _ hstage')
    tile := fun u hlt => by rw [congrFun (hc.tileOf_eq (by decide)) u]; exact tileOf_begunAgain h hplan hlt
    mem := fun k => (congrFun (hc.memOf_eq (by decide)) k).trans (memOf_begunAgain h k)
    port := fun p => (congrFun (hc.portOf_eq (by decide)) p).trans
      ((congrFun (hs.portOf_eq (by decide)) p).trans (portOf_rewoundFrom h n p)) }

/-- Another attempt's rewind leaves lines, flag words and selectors as the running attempt's end had them. -/
theorem rewound_unsealed {r : Reel} {n : Notice} {pat ph : Nat} {t : State} (h : sparseOk s) (ht : Rewound r n pat ph s t)
    (hx : ∀ x, s.job.sealed_ = some x → x.step ≠ n.step) :
    (∀ u, u < 1024 → (tileOf t u).flags = (tileOf s u).savedFlags ∧
      ∀ l, (lineAt (tileOf t u) l).cur.data = (lineAt (tileOf s u) l).cur.data) ∧
    (∀ k, (memOf t k).sel = (memOf s k).sel) ∧ t.job.sealed_ = s.job.sealed_ := by
  have hu := unsealFor_of_other hx
  refine ⟨fun u hlt => ?_, fun k => ?_, ?_⟩
  · obtain ⟨k, htile⟩ := ht.tile u hlt
    rw [hu] at htile
    refine ⟨by rw [htile]; rfl, fun l => ?_⟩
    rw [htile, lineAt_beginTile_rewound (h.2.2.2.1 u)]
    rfl
  · rw [ht.mem, hu]
    rfl
  · obtain ⟨x, hj, hsealed⟩ := ht.job
    rw [hj, hsealed, hu]

/-- A rewind to the sealed step turns its lines and selectors back. -/
theorem rewound_sealed {r : Reel} {n : Notice} {pat ph : Nat} {t : State} {x : Sealed} (h : sparseOk s) (ht : Rewound r n pat ph s t)
    (hx : s.job.sealed_ = some x) (hstep : x.step = n.step) (hlines : x.lines.Nodup) (hpairs : x.pairs.Nodup)
    (hflags : (x.flags.map (fun y => y.1)).Nodup) :
    t.job.sealed_ = none ∧
    (∀ u l, u < 1024 → (lineAt (tileOf t u) l).cur.data =
      (if (u, l) ∈ x.lines then (lineAt (tileOf s u) l).nxt.data else (lineAt (tileOf s u) l).cur.data)) ∧
    (∀ k b, look false b (memOf t k).sel =
      (if (k, b) ∈ x.pairs then !look false b (memOf s k).sel else look false b (memOf s k).sel)) ∧
    ∀ u f, u < 1024 → (u, f) ∈ x.flags → (tileOf t u).flags = f := by
  have hu : unsealFor n s = unsealStep s := unsealFor_of_sealed hx hstep
  have hun := unsealStep_of_sealed hx
  have htile : ∀ u, tileOf (unsealFor n s) u = tileOf (flagAll x.flags (flipPairsOf x.pairs (flipAll x.lines s))) u := fun u => by
    rw [hu, hun]
    rfl
  have hcanon := ((unsealFor_steady n s).2.2.2 h).2.2.2.1
  refine ⟨?_, fun u l hlt => ?_, fun k b => ?_, fun u f hlt hm => ?_⟩
  · obtain ⟨y, hj, hsealed⟩ := ht.job
    rw [hj, hsealed, hu, hun]
  · obtain ⟨k, ht⟩ := ht.tile u hlt
    have hpairTile : tileOf (flipPairsOf x.pairs (flipAll x.lines s)) u = tileOf (flipAll x.lines s) u :=
      congrFun ((flipPairsOf_changes _ _).tileOf_eq (by decide)) u
    have hline : lineAt (tileOf (unsealFor n s) u) l = lineAt (tileOf (flipAll x.lines s) u) l := by
      rw [htile, lineAt, lines_flagAll, hpairTile]
      rfl
    rw [ht, lineAt_beginTile_rewound (hcanon u), hline, lineAt_flipAll hlines]
    split <;> rfl
  · have hmem : memOf (unsealFor n s) k = memOf (flipPairsOf x.pairs (flipAll x.lines s)) k := by
      rw [hu, hun]
      exact congrFun ((flagAll_changes x.flags _).memOf_eq (by decide)) k
    have hmemLines : memOf (flipAll x.lines s) k = memOf s k := congrFun ((flipAll_changes _ s).memOf_eq (by decide)) k
    rw [ht.mem, hmem]
    refine (sel_flipPairsOf hpairs _ k b).trans ?_
    rw [hmemLines]
    by_cases hm : (k, b) ∈ x.pairs <;> simp [hm]
  · obtain ⟨k, ht⟩ := ht.tile u hlt
    rw [ht]
    exact (congrArg Tile.savedFlags (htile u)).trans (savedFlags_flagAll hflags _ hm)

/-! ## The command -/

theorem exec_rewind {r : Reel} {n : Notice} (hp : s.pacer.running = true) (hr : running s = true) (hf : s.job.faulted = false)
    (hreel : s.reel = some r) (hn : s.job.notice = some n) :
    exec .rewind s = .next (if n.applyAt = cnt s ∧ !n.fault ∧ !n.final then rewindTo r n s else s) := by
  show execRewind s = _
  unfold execRewind
  simp only [hp, hr, hf, hreel, hn, Bool.and_true, Bool.not_false]

end Sys2Proof.Machine

open Sys2Proof Sys2Proof.Machine

/-- Settles O40: a rewind clears the attempt, unseals the step where its notice names it, and begins slot 0 of the next attempt. -/
theorem rewindRestartsTheStep : Obligations.RewindRestartsTheStep := by
  intro s r n pat ph h hp hr hf hreel hn hfault hfinal hplan
  have hexec := exec_rewind hp hr hf hreel hn
  refine ⟨fun hne => hexec.trans (congrArg Host.Outcome.next (if_neg fun hc => hne hc.1)), fun hat => ?_⟩
  have ht := rewindTo_spec h hplan
  have hbc := begunAgain_changes r n s
  have htest : (begunAgain r n s).sec.test = s.sec.test := hbc .test (by decide)
  have hreel' : (begunAgain r n s).reel = some r := (hbc .reel (by decide)).trans hreel
  obtain ⟨x, hj, hsealed⟩ := ht.job
  obtain ⟨y, hbj, -⟩ := begunAgain_job (s := s) hplan
  have hpat : (begunAgain r n s).job.pattern = pat := by rw [hbj]
  have hst : s.job.st = .running := of_decide_eq_true hr
  refine ⟨rewindTo r n s, hexec.trans (congrArg Host.Outcome.next (if_pos ⟨hat, by rw [hfault]; rfl, by rw [hfinal]; rfl⟩)),
    by rw [hj], by rw [hj], by rw [hj], by rw [hj], by rw [hj], by rw [hj], by rw [hj]; exact hf, by rw [hj]; exact hst,
    ht.replays, ht.localq, ht.transits, ht.changes, ht.quiet, fun w hw hby hcov => ?_, fun w hw hby => ?_, fun u hlt => ?_,
    fun k => ?_, fun p => ?_, ht.stage, rewound_unsealed h ht, fun x hx hstep => rewound_sealed h ht hx hstep⟩
  · rw [rewindTo_test, closeWindow_of_test hreel' (htest.trans hw) hby (by rw [hpat]; exact hcov)]
    exact scoreHeld_changes w _ .test (by decide)
  · rw [rewindTo_test, closeWindow_of_covered hreel' (htest.trans hw) (by rw [hpat]; exact hby)]
    exact htest
  · obtain ⟨k, htile⟩ := ht.tile u hlt
    rw [htile]
    refine ⟨rfl, rfl, rfl, rfl, rfl, rfl, rfl, fun l => ?_⟩
    rw [lineAt_beginTile_rewound (((unsealFor_steady n s).2.2.2 h).2.2.2.1 u)]
    exact ⟨rfl, rfl, rfl⟩
  · rw [ht.mem]
    exact ⟨blocks_unsealFor n s k, rfl⟩
  · rw [ht.port]
    exact ⟨rfl, rfl⟩
end

section
/-! Proofs: the answers of the management path, of PLDM and of the TAP (O58, O60). -/

namespace Sys2Proof.Machine

variable {s : State}

/-! ## Answers -/

theorem withMgmt_changes (o : Out) (m : Mgmt)
    (h : (m.alerts, m.alertSeq, m.alertLost, m.lostSince) = (s.mgmt.alerts, s.mgmt.alertSeq, s.mgmt.alertLost, s.mgmt.lostSince)) :
    changesOnly [.out, .mgmtRegs] s { s with out := o, mgmt := m } := by
  intro p hp
  cases p
  case out => exact absurd (by decide) hp
  case mgmtRegs => exact absurd (by decide) hp
  case alerts => exact h
  all_goals rfl

/-- A request answered with bytes replies with them. -/
theorem replied_respond (bytes : List Byte) (s : State) : replied bytes s.mgmt s (respond bytes s) :=
  ⟨withMgmt_changes _ _ rfl, rfl, rfl⟩

/-- A request that sets a register of the management path, answered with bytes. -/
theorem replied_respond_set (bytes : List Byte) {m : Mgmt} (hr : m.requests = s.mgmt.requests)
    (h : (m.alerts, m.alertSeq, m.alertLost, m.lostSince) = (s.mgmt.alerts, s.mgmt.alertSeq, s.mgmt.alertLost, s.mgmt.lostSince)) :
    replied bytes m s (respond bytes { s with mgmt := m }) := by
  refine ⟨withMgmt_changes _ _ h, rfl, ?_⟩
  show { m with requests := satInc 16 m.requests } = _
  rw [hr]
  rfl

theorem answer_changes (cmd : Nat) (ins : BitVec 8) (code : Nat) (data : List Byte) (s : State) :
    changesOnly [.out, .mgmtRegs] s (answer cmd ins code data s) := withMgmt_changes _ _ rfl

theorem answered_answer (cmd : Nat) (ins : BitVec 8) (code : Nat) (data : List Byte) (s : State) :
    answered cmd ins code data s (answer cmd ins code data s) := ⟨rfl, rfl, rfl, rfl⟩

/-! ## Control and vendor-defined requests -/

/-- A request that leaves the state `t`. -/
theorem next_of_eq {o : Host.Outcome State Fault Refusal} {t : State} {P : State → Prop} (ho : o = .next t) (h : P t) : ∃ t, o = .next t ∧ P t :=
  ⟨t, ho, h⟩

theorem onControl_of_up {f : State → State} (h : mgmtUp s = true) : onControl f s = f s := if_pos h

theorem onVendor_of_up {f : State → State} (h : vendorUp s = true) : onVendor f s = f s := if_pos h

theorem onVendor_of_down {f : State → State} (h : vendorUp s = false) : onVendor f s = s :=
  if_neg (by rw [h]; exact Bool.false_ne_true)

theorem query_of_up {cmd : Nat} {ins : BitVec 8} {ok : Bool} {data : State → List Byte} (h : vendorUp s = true) :
    query cmd ins ok data s = answer cmd ins (if ok then 0 else 2) (if ok then data s else []) s := by
  unfold query
  rw [onVendor_of_up h]
  cases ok <;> rfl

/-- What a reading command answers, whatever it reads. -/
theorem query_spec {c : Instr} {cmd : Nat} {ins : BitVec 8} {ok : Bool} {data : State → List Byte} (h : vendorUp s = true)
    (hc : exec c s = .next (query cmd ins ok data s)) :
    ∃ t code bytes, exec c s = .next t ∧ changesOnly [.out, .mgmtRegs] s t ∧ answered cmd ins code bytes s t ∧
      (ok = true → code = 0 ∧ bytes = data s) ∧ (ok = false → code = 0x02 ∧ bytes = []) := by
  refine ⟨_, _, _, hc.trans (congrArg _ (query_of_up h)), answer_changes _ _ _ _ s, answered_answer _ _ _ _ s, ?_, ?_⟩
  · intro hok
    rw [hok]
    exact ⟨rfl, rfl⟩
  · intro hok
    rw [hok]
    exact ⟨rfl, rfl⟩

/-- A command of the management path that answers a code with data. -/
def answersWith (c : Instr) (cmd : Nat) (ins : BitVec 8) (code : Nat) (data : List Byte) (s : State) : Prop :=
  ∃ t : State, exec c s = .next t ∧ changesOnly [.out, .mgmtRegs] s t ∧ answered cmd ins code data s t

theorem answersWith_of_eq {c : Instr} {cmd : Nat} {ins : BitVec 8} {code : Nat} {data : List Byte}
    (h : exec c s = .next (answer cmd ins code data s)) : answersWith c cmd ins code data s :=
  ⟨_, h, answer_changes _ _ _ _ s, answered_answer _ _ _ _ s⟩

theorem answersWith_of_vendor {c : Instr} {cmd : Nat} {ins : BitVec 8} {code : Nat} {data : List Byte} {f : State → State}
    (hv : vendorUp s = true) (h : exec c s = .next (onVendor f s)) (hf : f s = answer cmd ins code data s) :
    answersWith c cmd ins code data s :=
  answersWith_of_eq (h.trans (congrArg _ ((onVendor_of_up hv).trans hf)))

theorem countOk_iff {most n : Nat} : countOk most n = true ↔ 1 ≤ n ∧ n ≤ most := by simp [countOk]

theorem countOk_eq_false {most n : Nat} : countOk most n = false ↔ n = 0 ∨ most < n := by
  rw [Bool.eq_false_iff, ne_eq, countOk_iff]
  omega

/-- A request that may read a record which is held or not. -/
theorem optional_spec {α : Type} {c : Instr} {cmd no : Nat} {ins : BitVec 8} {f : State → State} (hv : vendorUp s = true)
    (hc : exec c s = .next (onVendor f s)) (o : Option α) (data : α → List Byte)
    (hsome : ∀ a, o = some a → f s = answer cmd ins 0 (data a) s) (hnone : o = none → f s = answer cmd ins no [] s) :
    ∃ t code bytes, exec c s = .next t ∧ changesOnly [.out, .mgmtRegs] s t ∧ answered cmd ins code bytes s t ∧
      (∀ a, o = some a → code = 0 ∧ bytes = data a) ∧ (o = none → code = no ∧ bytes = []) := by
  cases ho : o with
  | none =>
    obtain ⟨t, ht, hch, ha⟩ := answersWith_of_vendor hv hc (hnone ho)
    exact ⟨t, no, [], ht, hch, ha, fun a h => absurd h (Option.some_ne_none a).symm, fun _ => ⟨rfl, rfl⟩⟩
  | some b =>
    obtain ⟨t, ht, hch, ha⟩ := answersWith_of_vendor hv hc (hsome b ho)
    exact ⟨t, 0, data b, ht, hch, ha, fun a h => by cases h; exact ⟨rfl, rfl⟩, fun h => absurd h (Option.some_ne_none b)⟩

/-! ## Control messages -/

theorem control_replies {c : Instr} {f : State → State} {m : Mgmt} {bytes : List Byte} (hup : mgmtUp s = true)
    (hc : exec c s = .next (onControl f s)) (hf : replied bytes m s (f s)) : ∃ t : State, exec c s = .next t ∧ replied bytes m s t :=
  ⟨f s, hc.trans (congrArg _ (onControl_of_up hup)), hf⟩

theorem vendor_replies {c : Instr} {f : State → State} {m : Mgmt} {bytes : List Byte} (hup : vendorUp s = true)
    (hc : exec c s = .next (onVendor f s)) (hf : replied bytes m s (f s)) : ∃ t : State, exec c s = .next t ∧ replied bytes m s t :=
  ⟨f s, hc.trans (congrArg _ (onVendor_of_up hup)), hf⟩

/-- A reply that depends on a condition, where it holds and where it does not. -/
theorem replied_if {c : Prop} [Decidable c] {bytes : List Byte} {m : Mgmt} {x y : State} (hc : c) (h : replied bytes m s x) :
    replied bytes m s (if c then x else y) := by
  rw [if_pos hc]
  exact h

theorem replied_if_not {c : Prop} [Decidable c] {bytes : List Byte} {m : Mgmt} {x y : State} (hc : ¬ c) (h : replied bytes m s y) :
    replied bytes m s (if c then x else y) := by
  rw [if_neg hc]
  exact h

theorem control_spec (h : mgmtUp s = true) :
    exec .badPecPacket s = .next { s with mgmt := { s.mgmt with dropped := min (s.mgmt.dropped + 1) 65535 } } ∧
    (∀ eid : BitVec 8, eid ≠ 0 → eid ≠ 0xFF → ∃ t : State, exec (.setEndpointId eid) s = .next t ∧
      replied [0, 0, eid, 0] { s.mgmt with eid := eid, eidValid := true } s t) ∧
    (∀ eid : BitVec 8, eid = 0 ∨ eid = 0xFF → ∃ t : State, exec (.setEndpointId eid) s = .next t ∧ replied [0x02] s.mgmt s t) ∧
    (∃ t : State, exec .getEndpointId s = .next t ∧
      replied [0, if s.mgmt.eidValid then s.mgmt.eid else 0, 0, 0] s.mgmt s t) ∧
    (∀ v : BitVec 8, v ∈ [(0xFF : BitVec 8), 0x00, 0x01, 0x7E] → ∃ t : State, exec (.getMctpVersionSupport v) s = .next t ∧
      replied ([0, 1] ++ beBytes 4 (Config.mctpVersion v).toNat) s.mgmt s t) ∧
    (∃ t : State, exec .getMessageTypeSupport s = .next t ∧ replied [0, 2, 0x01, 0x7E] s.mgmt s t) ∧
    (∃ t : State, exec .getVendorDefinedMessageSupport s = .next t ∧
      replied ([0, 0xFF, 0] ++ beBytes 2 Config.vendorId.toNat ++ beBytes 2 Config.vendorSet.toNat) s.mgmt s t) := by
  refine ⟨congrArg Host.Outcome.next (if_pos h), fun eid h0 hf => ?_, fun eid he => ?_, ?_, fun v hv => ?_, ?_, ?_⟩
  · exact control_replies h rfl (replied_if_not (not_or.mpr ⟨h0, hf⟩) (replied_respond_set _ rfl rfl))
  · exact control_replies h rfl (replied_if he (replied_respond _ s))
  · exact control_replies h rfl (replied_respond _ s)
  · have hm : versionTypes.contains v.toNat = true := by
      simp only [List.mem_cons, List.not_mem_nil, or_false] at hv
      rcases hv with rfl | rfl | rfl | rfl <;> decide
    exact control_replies h rfl (replied_if hm (replied_respond _ s))
  · exact control_replies h rfl (replied_respond _ s)
  · exact control_replies h rfl (replied_respond _ s)

/-! ## A vendor-defined request before the endpoint has an identifier -/

theorem vendor_dropped (h : vendorUp s = false) (ins k n b : BitVec 8) (a c : BitVec 16) (w : Word32) (u : UnitField) :
    ∀ x ∈ [Instr.reservedCommand k ins, .getUnits ins a c, .getQlist ins a c, .readUnit ins u, .readTotals ins,
      .readFsr ins w a, .readHistory ins k a n, .debugRead ins k u w b, .getAlerts ins n, .getStatus ins,
      .fence ins u k, .fenceNow ins u k, .setOff ins u k, .restore ins u], exec x s = .next s := by
  intro x hx
  have hdrop : ∀ f, (Host.Outcome.next (onVendor f s) : Host.Outcome State Fault Refusal) = .next s := fun f => congrArg _ (onVendor_of_down h)
  simp only [List.mem_cons, List.not_mem_nil, or_false] at hx
  rcases hx with rfl | rfl | rfl | rfl | rfl | rfl | rfl | rfl | rfl | rfl | rfl | rfl | rfl | rfl
  all_goals exact hdrop _

end Sys2Proof.Machine

open Sys2Proof Sys2Proof.Machine

/-- Settles O58: each request of the management path is answered from the state, and nothing else changes. -/
theorem managementAnswers : Obligations.ManagementAnswers := by
  refine ⟨fun s h => control_spec h, fun s ins k n b a c w u hv => ⟨fun x hx => ?_, ?_, ?_, ?_, ?_, ?_, ?_, fun h1 h16 => ?_⟩,
    fun s h ins k n b a c w u => vendor_dropped h ins k n b a c w u⟩
  · simp only [List.mem_cons, List.not_mem_nil, or_false] at hx
    rcases hx with rfl | rfl | rfl
    · exact answersWith_of_vendor hv rfl rfl
    · exact answersWith_of_eq (congrArg _ (query_of_up hv))
    · exact answersWith_of_eq (congrArg _ (query_of_up hv))
  · obtain ⟨t, code, data, ht, hch, ha, hok, hbad⟩ := query_spec (c := .getUnits ins a c) hv rfl
    refine ⟨t, code, data, ht, hch, ha, fun ⟨h1, h512, hend⟩ => ?_, fun hout => hbad ?_⟩
    · obtain ⟨hcode, hdata⟩ := hok (by simp [countOk, h1, h512, hend])
      refine ⟨hcode, by rw [hdata]; simp, fun j hj => ?_⟩
      rw [hdata]
      simp [hj, shownEntry]
    · rw [Bool.eq_false_iff, ne_eq, Bool.and_eq_true, countOk_iff, decide_eq_true_iff]
      exact fun hin => hout ⟨hin.1.1, hin.1.2, hin.2⟩
  · obtain ⟨t, code, data, ht, hch, ha, hok, hbad⟩ := query_spec (c := .getQlist ins a c) hv rfl
    exact ⟨t, code, data, ht, hch, ha, fun hin => hok (countOk_iff.mpr hin), fun hout => hbad (countOk_eq_false.mpr hout)⟩
  · obtain ⟨t, code, data, ht, hch, ha, hok, hbad⟩ := query_spec (c := .readUnit ins u) hv rfl
    refine ⟨t, code, data, ht, hch, ha, fun i hi => ?_, fun hi => hbad (by rw [hi]; rfl)⟩
    obtain ⟨hcode, hdata⟩ := hok (by rw [hi]; rfl)
    exact ⟨hcode, by rw [hdata, hi]; rfl⟩
  · exact optional_spec (c := .readFsr ins w a) hv rfl (heldFsr s w.toNat) _ (fun bs h => by rw [h]) fun h => by rw [h]
  · obtain ⟨t, code, data, ht, hch, ha, hok, hbad⟩ := query_spec (c := .readHistory ins k a n) hv rfl
    refine ⟨t, code, data, ht, hch, ha, fun hk h1 h8 => hok ?_, fun hout => hbad ?_⟩
    · rw [Bool.and_eq_true, countOk_iff, decide_eq_true_iff]
      exact ⟨hk, h1, h8⟩
    · rw [Bool.eq_false_iff, ne_eq, Bool.and_eq_true, countOk_iff, decide_eq_true_iff]
      omega
  · exact optional_spec (c := .debugRead ins k u w b) hv rfl (debugReading s k.toNat u w.toNat b.toNat)
      (fun r => leBytes 1 r.1 ++ leBytes 8 (cnt s) ++ r.2) (fun r h => by rw [h]) fun h => by rw [h]
  · refine ⟨_, congrArg Host.Outcome.next ((onVendor_of_up hv).trans (if_pos (countOk_iff.mpr ⟨h1, h16⟩))), ?_, ⟨rfl, rfl, rfl, rfl⟩, rfl⟩
    intro p hp
    cases p
    case out => exact absurd (by decide) hp
    case mgmtRegs => exact absurd (by decide) hp
    case alerts => exact absurd (by decide) hp
    all_goals rfl

end

section
/-! Proofs: PLDM sensors and the TAP (O60). -/

namespace Sys2Proof.Machine

variable {s : State}

/-! ## Sensors -/

/-- What a function's values listed by key read, at a listed key. -/
theorem find?_listed (f : Nat → Int) {l : List Nat} {k : Nat} (h : k ∈ l) :
    ((l.map (fun x => (x, f x))).find? (fun x => x.1 == k)).map (fun x => x.2) = some (f k) := by
  induction l with
  | nil => exact nomatch h
  | cons a l ih =>
    by_cases ha : a = k
    · simp [ha]
    · have hm : k ∈ l := (List.mem_cons.mp h).resolve_left (Ne.symm ha)
      rw [List.map_cons, List.find?_cons_of_neg (by simp [ha])]
      exact ih hm

/-- The state whose sensors have been read anew. -/
def sensed (s : State) : State := { s with mgmt := { s.mgmt with sensors := (sensorIds s).map (fun id => (id, sensorNow s id)) } }

theorem exec_sensorRefresh (h : mgmtUp s = true) : exec .pdrSensorRefresh s = .next (sensed s) :=
  congrArg Host.Outcome.next (if_pos h)

theorem sensorReading_sensed {id : Nat} (h : id ∈ sensorIds s) : sensorReading (sensed s) id = sensorNow s id :=
  congrArg (fun o => Option.getD o 0) (find?_listed (sensorNow s) h)

theorem sensed_changes (s : State) : changesOnly [.mgmtRegs] s (sensed s) := by
  intro p hp
  cases p
  case mgmtRegs => exact absurd (by decide) hp
  all_goals rfl

/-! ## PLDM -/

theorem pldmType_iff {x : BitVec 8} : pldmType x = true ↔ x = 0 ∨ x = 2 := by simp [pldmType]

theorem listedSensor {id : Nat} (h : id ∈ sensorIds s) : (sensorIds s).contains id = true := List.contains_iff_mem.mpr h

theorem unlistedSensor {id : Nat} (h : id ∉ sensorIds s) : (sensorIds s).contains id = false :=
  Bool.eq_false_iff.mpr fun hc => h (List.contains_iff_mem.mp hc)

/-! ## The TAP -/

theorem withTap_changes (x : Tap) (o : Out) (s : State) : changesOnly [.tap, .out] s { s with tap := x, out := o } := by
  intro p hp
  cases p
  case tap => exact absurd (by decide) hp
  case out => exact absurd (by decide) hp
  all_goals rfl

theorem mayDrive_iff : mayDrive s = true ↔ s.boot.stage = .off ∨ s.boot.stage = .held := by simp [mayDrive]

theorem mayDrive_eq_false (h : s.boot.stage ≠ .off) (h' : s.boot.stage ≠ .held) : mayDrive s = false := by simp [mayDrive, h, h']

/-- An instruction that drives the lands, as every stage sees it. -/
theorem tapDrive_spec {c : Instr} {ir : BitVec 8} {tdo : List Bool} {d : LandDrive} (hc : exec c s = .next (tapDrive ir tdo d s))
    (hir : (ir == 0x03 || ir == 0x04 || ir == 0x05) = true) :
    ∃ t : State, exec c s = .next t ∧ changesOnly [.tap, .out] s t ∧ t.tap.ir = ir ∧ t.tap.boundary = s.tap.boundary ∧
      (s.boot.stage = .off ∨ s.boot.stage = .held →
        landDriver t = d ∧ capBit2 t = false ∧ t.out = { s.out with tdo := tdo }) ∧
      (s.boot.stage ≠ .off → s.boot.stage ≠ .held →
        landDriver t = .functional ∧ capBit2 t = true ∧ t.out = { s.out with tdo := [false] }) ∧
      (∀ b : Boot, b.stage ≠ .off → b.stage ≠ .held →
        capBit2 { t with boot := b } = true ∧ landDriver { t with boot := b } = .functional) := by
  refine ⟨tapDrive ir tdo d s, hc, withTap_changes _ _ s, rfl, rfl, fun h => ?_, fun h h' => ?_, fun b h h' => ?_⟩
  · have hm : mayDrive (tapDrive ir tdo d s) = true := mayDrive_iff.mpr h
    refine ⟨if_pos hm, by rw [capBit2, hm, Bool.not_true, Bool.and_false], ?_⟩
    exact congrArg (fun x => { s.out with tdo := x }) (if_pos hm)
  · have hm : mayDrive (tapDrive ir tdo d s) = false := mayDrive_eq_false h h'
    refine ⟨if_neg (by rw [hm]; exact Bool.false_ne_true), by rw [capBit2, hm]; exact (Bool.and_true _).trans hir, ?_⟩
    have hs : ¬ mayDrive s = true := by rw [show mayDrive s = false from hm]; exact Bool.false_ne_true
    exact congrArg (fun x => { s.out with tdo := x }) (if_neg hs)
  · have hm : mayDrive { tapDrive ir tdo d s with boot := b } = false := mayDrive_eq_false h h'
    exact ⟨by rw [capBit2, hm]; exact (Bool.and_true _).trans hir, if_neg (by rw [hm]; exact Bool.false_ne_true)⟩

/-- An instruction that selects its register and drives nothing. -/
theorem tapSelect_spec {c : Instr} {x : Tap} {tdo : List Bool} (hc : exec c s = .next { s with tap := x, out := { s.out with tdo := tdo } })
    (hd : x.drive = .functional) (hir : (x.ir == 0x03 || x.ir == 0x04 || x.ir == 0x05) = false) :
    ∃ t : State, exec c s = .next t ∧ changesOnly [.tap, .out] s t ∧ t.tap = x ∧ t.out = { s.out with tdo := tdo } ∧
      t.tap.drive = .functional ∧ capBit2 t = false :=
  ⟨_, hc, withTap_changes _ _ s, rfl, rfl, hd, by rw [capBit2]; exact (congrArg (· && _) hir).trans (Bool.false_and _)⟩

theorem tapSelects (lands preload : List Bool) {c : Instr} {ir : BitVec 8} {tdo : List Bool}
    (h : (c, ir, tdo) ∈ [(Instr.bypass, (0xFF : BitVec 8), [false]),
      (.idcode, 0x01, bitList 32 (2 ^ 28 + 0xCA1C * 2 ^ 12 + Config.jedecId.toNat * 2 + 1)),
      (.trst, 0x01, bitList 32 (2 ^ 28 + 0xCA1C * 2 ^ 12 + Config.jedecId.toNat * 2 + 1)),
      (.samplePreload lands preload, 0x02, lands)]) :
    ∃ t : State, exec c s = .next t ∧ changesOnly [.tap, .out] s t ∧ t.tap.ir = ir ∧ t.out = { s.out with tdo := tdo } ∧
      t.tap.drive = .functional ∧ capBit2 t = false ∧ (t.tap.trstN = false ↔ c = .trst) ∧
      t.tap.boundary = (if ir = 0x02 then preload else s.tap.boundary) := by
  simp only [List.mem_cons, List.not_mem_nil, or_false, Prod.mk.injEq] at h
  rcases h with ⟨rfl, rfl, rfl⟩ | ⟨rfl, rfl, rfl⟩ | ⟨rfl, rfl, rfl⟩ | ⟨rfl, rfl, rfl⟩
  · obtain ⟨t, ht, hch, htap, hout, hd, hb⟩ := tapSelect_spec (s := s) (c := .bypass) rfl rfl rfl
    exact ⟨t, ht, hch, by rw [htap], hout, hd, hb, by simp [htap], by rw [htap]; rfl⟩
  · obtain ⟨t, ht, hch, htap, hout, hd, hb⟩ := tapSelect_spec (s := s) (c := .idcode) rfl rfl rfl
    exact ⟨t, ht, hch, by rw [htap], hout, hd, hb, by simp [htap], by rw [htap]; rfl⟩
  · obtain ⟨t, ht, hch, htap, hout, hd, hb⟩ := tapSelect_spec (s := s) (c := .trst) rfl rfl rfl
    exact ⟨t, ht, hch, by rw [htap]; rfl, hout, hd, hb, by simp [htap], by rw [htap]; rfl⟩
  · obtain ⟨t, ht, hch, htap, hout, hd, hb⟩ := tapSelect_spec (s := s) (c := .samplePreload tdo preload) rfl rfl rfl
    exact ⟨t, ht, hch, by rw [htap], hout, hd, hb, by simp [htap], by rw [htap]; rfl⟩

end Sys2Proof.Machine

open Sys2Proof Sys2Proof.Machine

/-- Settles O60: sensors answer as last refreshed, and an instruction of the TAP drives the lands in OFF and HELD alone. -/
theorem sensorsAndTheTap : Obligations.SensorsAndTheTap := by
  refine ⟨fun s h => ⟨sensed s, exec_sensorRefresh h, sensed_changes s, fun id hid => sensorReading_sensed hid⟩,
    fun s x id h hv => ⟨fun y hy => ?_, fun hx => ?_, fun h0 hf => ?_, fun hx => ⟨?_, ?_⟩, fun h0 h2 => ⟨?_, ?_⟩, ?_, fun hid hlt => ?_,
      fun hid hle => ?_, fun hid => ⟨?_, ?_⟩⟩, fun s lands preload c ir tdo h => tapSelects lands preload h, fun s c ir tdo d h => ?_⟩
  · simp only [List.mem_cons, List.not_mem_nil, or_false] at hy
    rcases hy with rfl | rfl | rfl
    all_goals exact vendor_replies hv rfl (replied_respond _ s)
  · exact vendor_replies hv rfl (replied_if hx (replied_respond _ s))
  · exact vendor_replies hv rfl (replied_if_not (not_or.mpr ⟨h0, hf⟩) (replied_respond_set _ rfl rfl))
  · exact vendor_replies hv rfl (replied_if (pldmType_iff.mpr hx) (replied_respond _ s))
  · exact vendor_replies hv rfl (replied_if (pldmType_iff.mpr hx) (replied_respond _ s))
  · exact vendor_replies hv rfl (replied_if_not (fun hc => (pldmType_iff.mp hc).elim h0 h2) (replied_respond _ s))
  · exact vendor_replies hv rfl (replied_if_not (fun hc => (pldmType_iff.mp hc).elim h0 h2) (replied_respond _ s))
  · by_cases hm : (if h = 0 then 1 else h.toNat) ∈ sensorIds s
    · rw [if_pos hm]
      exact vendor_replies hv rfl (replied_if (listedSensor hm) (replied_respond _ s))
    · rw [if_neg hm]
      exact vendor_replies hv rfl (replied_if_not (by rw [unlistedSensor hm]; exact Bool.false_ne_true) (replied_respond _ s))
  · refine vendor_replies hv rfl (replied_if ?_ (replied_respond _ s))
    rw [listedSensor hid, stateSensor, decide_eq_false (by omega)]
    rfl
  · refine vendor_replies hv rfl (replied_if ?_ (replied_respond _ s))
    rw [listedSensor hid, stateSensor, decide_eq_true hle]
    rfl
  · exact vendor_replies hv rfl (replied_if_not (by rw [unlistedSensor hid]; exact Bool.false_ne_true) (replied_respond _ s))
  · exact vendor_replies hv rfl (replied_if_not (by rw [unlistedSensor hid]; exact Bool.false_ne_true) (replied_respond _ s))
  · simp only [List.mem_cons, List.not_mem_nil, or_false, Prod.mk.injEq] at h
    rcases h with ⟨rfl, rfl, rfl, rfl⟩ | ⟨rfl, rfl, rfl, rfl⟩ | ⟨rfl, rfl, rfl, rfl⟩
    all_goals exact tapDrive_spec rfl rfl

end

section
/-! Proofs: runs of bytes in host memory, block slots of the window, and what an event writes (R280, R281, R291, R298). -/

namespace Sys2Proof.Machine

variable {s t : State}

/-! ## Numbers and their bytes -/

theorem ofLe_leBytes (n v : Nat) : ofLe (leBytes n v) = v % 256 ^ n := by
  induction n generalizing v with
  | zero => exact (Nat.mod_one v).symm
  | succ n ih =>
    rw [leBytes, ofLe, ih, BitVec.toNat_ofNat, show 2 ^ 8 = 256 from rfl, Nat.pow_succ', Nat.mod_mul]

theorem ofLe_leBytes_toNat {w n : Nat} (h : w = 8 * n) (v : BitVec w) : ofLe (leBytes n v.toNat) = v.toNat := by
  subst h
  have hlt : v.toNat < 256 ^ n := lt_of_lt_of_eq v.isLt (Nat.pow_mul 2 8 n)
  rw [ofLe_leBytes, Nat.mod_eq_of_lt hlt]

theorem pageOf_pageBytes (p : PageBits) : pageOf (pageBytes p) = p := by
  rw [pageOf, pageBytes, ofLe_leBytes_toNat (n := 4096) (by decide), BitVec.ofNat_toNat, BitVec.setWidth_eq]

theorem envOf_envBytes (e : EnvBits) : envOf (envBytes e) = e := by
  rw [envOf, envBytes, ofLe_leBytes_toNat (n := 32) (by decide), BitVec.ofNat_toNat, BitVec.setWidth_eq]

theorem length_pageBytes (p : PageBits) : (pageBytes p).length = 4096 := length_leBytes _ _

theorem length_envBytes (e : EnvBits) : (envBytes e).length = 32 := length_leBytes _ _

theorem length_padTo (n : Nat) (bs : List Byte) : (padTo n bs).length = n := by
  simp only [padTo, List.length_take, List.length_append, List.length_replicate]
  omega

/-! ## Runs of bytes -/

theorem readBytes_congr {m k : List Host.Cell} {a n : Nat} (h : ∀ c, a ≤ c → c < a + n → readByte k c = readByte m c) :
    readBytes k a n = readBytes m a n :=
  List.map_congr_left fun i hi => h (a + i) (Nat.le_add_right _ _) (Nat.add_lt_add_left (List.mem_range.mp hi) a)

/-- A run of bytes away from the one that is written. -/
theorem readBytes_hostWrite_apart {a c n : Nat} {bs : List Byte} (h : c + n ≤ a ∨ a + bs.length ≤ c) (s : State) :
    readBytes (hostMem (hostWrite a bs s)) c n = readBytes (hostMem s) c n :=
  readBytes_congr fun i hi hlt => readByte_writeBytes_outside bs (hostMem s) a i (by omega)

theorem readBytes_hostWrite_at {a n : Nat} {bs : List Byte} (h : bs.length = n) (s : State) :
    readBytes (hostMem (hostWrite a bs s)) a n = bs := by
  rw [← h]
  exact readBytes_hostWrite a bs s

theorem hostBut_refl (rs : List (Nat × Nat)) (s : State) : hostBut rs s s := fun _ _ => rfl

theorem hostBut.trans {rs : List (Nat × Nat)} {u : State} (h : hostBut rs s t) (k : hostBut rs t u) : hostBut rs s u :=
  fun a ha => (k a ha).trans (h a ha)

theorem hostBut.mono {rs qs : List (Nat × Nat)} (h : hostBut rs s t) (hs : ∀ r ∈ rs, r ∈ qs) : hostBut qs s t :=
  fun a ha => h a fun r hr => ha r (hs r hr)

theorem hostBut_of_eq {rs : List (Nat × Nat)} (h : hostMem t = hostMem s) : hostBut rs s t := fun _ _ => by rw [h]

theorem hostWrite_hostBut_of_mem {rs : List (Nat × Nat)} {a n : Nat} {bs : List Byte} (hn : bs.length = n) (h : (a, n) ∈ rs) (s : State) :
    hostBut rs s (hostWrite a bs s) := by
  refine (hostWrite_hostBut a bs s).mono fun r hr => ?_
  rw [List.mem_singleton.mp hr, hn]
  exact h

/-! ## What an event writes -/

theorem length_eventBytes (code : BitVec 16) (flags seq count : Nat) (info : List Byte) :
    (eventBytes code flags seq count info).length = 32 := by
  simp [eventBytes, length_padTo]

/-- The bytes that the next event may reach: its entry of the event ring, and the part's line. -/
def eventRanges (r : Rings) : List (Nat × Nat) :=
  [(ringAt r.committed.eq r.eqTail r.committed.szEq 32, 32), (r.committed.db.toNat + 64, 24)]

/-- A write of the part's line reaches what the next event may reach. -/
theorem syncDoorbell_hostBut_event {r : Rings} (h : s.rings.committed = r.committed) : hostBut (eventRanges r) s (syncDoorbell s) := by
  refine (syncDoorbell_hostBut s).mono fun x hx => ?_
  rw [List.mem_singleton.mp hx, h]
  exact List.mem_cons_of_mem _ (List.mem_singleton_self _)

theorem ringEvent_hostBut (code : BitVec 16) (loc : Bool) (n : Nat) (info : List Byte) (s : State) :
    hostBut (eventRanges s.rings) s (ringEvent code loc n info s) := by
  unfold ringEvent
  extract_lets r seq full fl m r'
  split
  · have hrings : hostBut (eventRanges s.rings) s { s with rings := { r with seq := seq, eqLost := r.eqLost + 1, lost := true } } :=
      hostBut_of_eq rfl
    exact hrings.trans (syncDoorbell_hostBut_event (r := s.rings) rfl)
  · have hwrite : hostBut (eventRanges s.rings) s
        (hostWrite (ringAt r.committed.eq r.eqTail r.committed.szEq 32) (eventBytes code fl seq n info) s) :=
      hostWrite_hostBut_of_mem (length_eventBytes _ _ _ _ _) (List.mem_cons_self ..) s
    have hrings : hostBut (eventRanges s.rings)
        (hostWrite (ringAt r.committed.eq r.eqTail r.committed.szEq 32) (eventBytes code fl seq n info) s)
        (setHostMem m { s with rings := r' }) := hostBut_of_eq rfl
    exact (hwrite.trans hrings).trans (syncDoorbell_hostBut_event (r := s.rings) rfl)

theorem syncDoorbell_of_disabled (h : s.rings.committed.enable = false) : syncDoorbell s = s :=
  if_neg (by rw [h]; exact Bool.false_ne_true)

theorem ringEvent_of_disabled (h : s.rings.committed.enable = false) (code : BitVec 16) (loc : Bool) (n : Nat) (info : List Byte) :
    hostMem (ringEvent code loc n info s) = hostMem s := by
  unfold ringEvent
  extract_lets r seq full
  rw [if_pos (by rw [show r.committed.enable = false from h]; rfl)]
  exact (congrArg hostMem (syncDoorbell_of_disabled (s := { s with rings := { r with seq := seq, eqLost := r.eqLost + 1, lost := true } }) h)).trans rfl

theorem pushAlert_same (code : BitVec 16) (n : Nat) (info : List Byte) (s : State) :
    (pushAlert code n info s).rings = s.rings ∧ hostMem (pushAlert code n info s) = hostMem s := by
  unfold pushAlert
  split <;> exact ⟨rfl, rfl⟩

theorem post_hostBut (code : BitVec 16) (info : List Byte) (s : State) : hostBut (eventRanges s.rings) s (post code info s) := by
  obtain ⟨hr, hh⟩ := pushAlert_same code (cnt s) info s
  have h := ringEvent_hostBut code false (cnt s) info (pushAlert code (cnt s) info s)
  rw [hr] at h
  exact (hostBut_of_eq hh).trans h

theorem post_of_disabled (h : s.rings.committed.enable = false) (code : BitVec 16) (info : List Byte) :
    hostMem (post code info s) = hostMem s := by
  obtain ⟨hr, hh⟩ := pushAlert_same code (cnt s) info s
  exact (ringEvent_of_disabled (by rw [hr]; exact h) _ _ _ _).trans hh

/-! ## Block slots -/

theorem setHostMem_panelOf (m : List Host.Cell) (s : State) : panelOf (setHostMem m s) = panelOf s := rfl

/-- Whatever has been written in host memory, and whatever else has changed, a slot of the same panels lies where it did. -/
theorem slotAddr_of_panels (h : t.window.panels = s.window.panels) (n off w : Nat) : slotAddr t n off w = slotAddr s n off w := by
  rw [slotAddr, slotAddr, panelOf, panelOf, h]

@[simp] theorem payloadAddr_hostWrite (a n : Nat) (bs : List Byte) (s : State) : payloadAddr (hostWrite a bs s) n = payloadAddr s n := rfl
@[simp] theorem envAddr_hostWrite (a n : Nat) (bs : List Byte) (s : State) : envAddr (hostWrite a bs s) n = envAddr s n := rfl
@[simp] theorem lockAddr_hostWrite (a n : Nat) (bs : List Byte) (s : State) : lockAddr (hostWrite a bs s) n = lockAddr s n := rfl

theorem slot_apart (s : State) (n : Nat) : payloadAddr s n + 4096 ≤ envAddr s n ∧ payloadAddr s n + 4096 ≤ lockAddr s n ∧
    envAddr s n + 32 ≤ lockAddr s n := by
  have h : n % 15 < 15 := Nat.mod_lt _ (by decide)
  unfold payloadAddr envAddr lockAddr slotAddr
  omega

/-- A block written into a slot, as it reads. -/
theorem slot_of_bytes {n : Nat} {b : Blk} (hp : readBytes (hostMem s) (payloadAddr s n) 4096 = pageBytes b.payload)
    (he : readBytes (hostMem s) (envAddr s n) 32 = envBytes b.env) : slotBlk s n = b := by
  rw [slotBlk, slotEnv, hp, he, pageOf_pageBytes, envOf_envBytes]

theorem writeSlot_bare (n : Nat) (b : Blk) (s : State) : writeSlot n b [] s =
    hostWrite (envAddr s n) (envBytes b.env) (hostWrite (payloadAddr s n) (pageBytes b.payload) s) := by
  have h : ∀ a x, hostWrite a [] x = x := fun _ _ => rfl
  rw [writeSlot, h]

/-- The bytes of a slot after a block without a record has been written into it. -/
theorem writeSlot_bytes (n : Nat) (b : Blk) (s : State) :
    readBytes (hostMem (writeSlot n b [] s)) (payloadAddr s n) 4096 = pageBytes b.payload ∧
    readBytes (hostMem (writeSlot n b [] s)) (envAddr s n) 32 = envBytes b.env ∧
    hostBut [(payloadAddr s n, 4096), (envAddr s n, 32)] s (writeSlot n b [] s) := by
  obtain ⟨hpe, -, -⟩ := slot_apart s n
  rw [writeSlot_bare]
  refine ⟨?_, readBytes_hostWrite_at (length_envBytes _) _, ?_⟩
  · rw [readBytes_hostWrite_apart (Or.inl hpe), readBytes_hostWrite_at (length_pageBytes _)]
  · exact (hostWrite_hostBut_of_mem (length_pageBytes _) (by simp) s).trans
      (hostWrite_hostBut_of_mem (length_envBytes _) (by simp) _)

theorem writeSlot_changes (n : Nat) (b : Blk) (pr : List Byte) (s : State) : changesOnly [.host] s (writeSlot n b pr s) :=
  (hostWrite_changes _ _ s).trans ((hostWrite_changes _ _ _).trans (hostWrite_changes _ _ _))

end Sys2Proof.Machine
end

section
/-! Proofs: additions and trees in the window (R300 to R302; O44). -/

namespace Sys2Proof.Machine

variable {s : State}

/-! ## Sums of integer elements -/

section
variable {f : Fmt}

theorem pageBits_eq (f : Fmt) : elemBits f * (4096 / elemBytes f) = 32768 := by cases f <;> rfl

/-- An element of a page of packed elements. -/
theorem intAt_packed {g : Nat → Nat} {k : Nat} (hg : ∀ i, g i < 2 ^ elemBits f) (hk : k < 4096 / elemBytes f) :
    intAt (elemBits f) (BitVec.ofNat 32768 (packElems f ((List.range (4096 / elemBytes f)).map g))).toNat k = decodeInt f (g k) := by
  have hall : ∀ x ∈ (List.range (4096 / elemBytes f)).map g, x < 2 ^ elemBits f := fun x hx => by
    obtain ⟨i, -, rfl⟩ := List.mem_map.mp hx
    exact hg i
  have hlt := packElems_lt hall
  rw [List.length_map, List.length_range, pageBits_eq] at hlt
  rw [BitVec.toNat_ofNat, Nat.mod_eq_of_lt hlt, intAt_eq, elemAt_packElems (fun i _ => hg i) hk]

/-- An element of the sum of two pages of integers. -/
theorem intAt_addPage (hi : isInt f = true) (a b : PageBits) {k : Nat} (hk : k < 4096 / elemBytes f) :
    intAt (elemBits f) (addPage f a b).toNat k =
      saturated (elemBits f) (intAt (elemBits f) a.toNat k + intAt (elemBits f) b.toNat k) := by
  have hsum : addPage f a b = BitVec.ofNat 32768 (packElems f ((List.range (4096 / elemBytes f)).map
      (fun i => windowAdd f (elemAt f a.toNat i) (elemAt f b.toNat i)))) := by
    unfold addPage
    simp only [elems_eq]
    rw [List.zipWith_map, List.zipWith_self]
  have hlt : ∀ i, windowAdd f (elemAt f a.toNat i) (elemAt f b.toNat i) < 2 ^ elemBits f := fun i => addE_lt f 0 _ _
  rw [hsum, intAt_packed hlt hk, windowAdd, addE, if_pos hi, (satInt_spec f _).1, ← intAt_eq, ← intAt_eq]

/-- A sum of integers, one after another. -/
theorem leafSum_int (hi : isInt f = true) (xs : List Nat) : leafSum f xs = (satInt f flSat ((xs.map (decodeInt f)).sum)).1 := by
  rw [leafSum, if_pos hi, List.sum_eq_foldl]

theorem leafSum_lt (hi : isInt f = true) (xs : List Nat) : leafSum f xs < 2 ^ elemBits f := by
  rw [leafSum_int hi]
  exact satInt_lt f _ _

/-- An element of the sum of a tree's leaves in an integer format. -/
theorem intAt_treePage (hi : isInt f = true) (bs : List Blk) {k : Nat} (hk : k < 4096 / elemBytes f) :
    intAt (elemBits f) (treePage f bs).toNat k = saturated (elemBits f) ((bs.map (fun b => intAt (elemBits f) b.payload.toNat k)).sum) := by
  unfold treePage
  dsimp only
  rw [intAt_packed (fun i => leafSum_lt hi _) hk, leafSum_int hi, (satInt_spec f _).1]
  refine congrArg (fun l : List Int => saturated (elemBits f) l.sum) ?_
  rw [List.map_map, List.map_map]
  refine List.map_congr_left fun b _ => ?_
  show decodeInt f ((elems f (4096 / elemBytes f) b.payload.toNat).getD k 0) = _
  rw [elems_eq, getD_range hk, ← intAt_eq]

end

/-! ## A write that is abandoned -/

theorem dropGacc_changes (i : Nat) (s : State) : changesOnly [.gaccs] s (dropGacc i s) := by
  intro p hp
  cases p
  case gaccs => exact absurd (by decide) hp
  all_goals rfl

/-- The job after a window write of the job that was launched at `start` has been abandoned. -/
def abandonedJob (start : Nat) (s : State) : Job :=
  { s.job with abandoned := s.job.abandoned || (running s && s.job.start == start) }

theorem abandon_eq (start index step cause : Nat) (s : State) :
    abandon start index step cause s = post 0x0DA2 (abandonInfo index step cause) { s with job := abandonedJob start s } := rfl

theorem abandon_job (start index step cause : Nat) (s : State) : (abandon start index step cause s).job = abandonedJob start s :=
  (post_changes _ _ _) .job (by decide)

/-- What an abandoned write leaves: one event, and of the package the job alone. -/
theorem abandon_changes (start index step cause : Nat) (s : State) : changesOnly (.job :: posts) s (abandon start index step cause s) :=
  (withJob_changes s _).both (post_changes _ _ _) (by decide) (by decide)

theorem abandon_seq (start index step cause : Nat) (s : State) : (abandon start index step cause s).rings.seq = nextSeq s.rings.seq :=
  post_seq _ _ _

theorem abandon_hostBut (start index step cause : Nat) (s : State) : hostBut (eventRanges s.rings) s (abandon start index step cause s) :=
  post_hostBut _ _ { s with job := abandonedJob start s }

theorem abandon_of_disabled (h : s.rings.committed.enable = false) (start index step cause : Nat) :
    hostMem (abandon start index step cause s) = hostMem s :=
  post_of_disabled (s := { s with job := abandonedJob start s }) h _ _

/-- An addition that is abandoned leaves the engine with one event. -/
theorem abandonGacc_spec (i start index step cause : Nat) (s : State) :
    changesOnly (([.gaccs, .job] : List Part) ++ posts) s (abandon start index step cause (dropGacc i s)) ∧
    (abandon start index step cause (dropGacc i s)).window.gaccs = s.window.gaccs.eraseIdx i ∧
    (abandon start index step cause (dropGacc i s)).rings.seq = nextSeq s.rings.seq ∧
    (abandon start index step cause (dropGacc i s)).job = abandonedJob start s ∧
    (s.rings.committed.enable = false → hostMem (abandon start index step cause (dropGacc i s)) = hostMem s) ∧
    hostBut (eventRanges s.rings) s (abandon start index step cause (dropGacc i s)) := by
  have hd := dropGacc_changes i s
  have ha := abandon_changes start index step cause (dropGacc i s)
  exact ⟨hd.both ha (by decide) (by decide), ha .gaccs (by decide), abandon_seq _ _ _ _ _, abandon_job _ _ _ _ _,
    fun h => abandon_of_disabled (s := dropGacc i s) h _ _ _ _, abandon_hostBut _ _ _ _ (dropGacc i s)⟩

/-! ## An addition under a won lock -/

/-- The bytes of a slot after a sum has been written into it under its lock. -/
theorem lockedWrite_spec (n : Nat) (x : Blk) (w : List Byte) (hw : w.length = 8) (s : State) :
    ∃ t, t = hostWrite (lockAddr s n) (leBytes 8 0) (hostWrite (envAddr s n) (envBytes x.env)
        (hostWrite (payloadAddr s n) (pageBytes x.payload) (hostWrite (lockAddr s n) w s))) ∧
      changesOnly [.host] s t ∧ slotBlk t n = x ∧ ofLe (readBytes (hostMem t) (lockAddr t n) 8) = 0 ∧
      hostBut [(payloadAddr s n, 4096), (envAddr s n, 32), (lockAddr s n, 8)] s t := by
  obtain ⟨hpe, hpl, hel⟩ := slot_apart s n
  have h8 : (leBytes 8 0).length = 8 := length_leBytes 8 0
  refine ⟨_, rfl, ?_, slot_of_bytes ?_ ?_, ?_, ?_⟩
  · exact (hostWrite_changes _ _ s).trans ((hostWrite_changes _ _ _).trans ((hostWrite_changes _ _ _).trans (hostWrite_changes _ _ _)))
  · simp only [payloadAddr_hostWrite]
    rw [readBytes_hostWrite_apart (Or.inl hpl), readBytes_hostWrite_apart (Or.inl hpe), readBytes_hostWrite_at (length_pageBytes _)]
  · simp only [envAddr_hostWrite]
    rw [readBytes_hostWrite_apart (Or.inl hel), readBytes_hostWrite_at (length_envBytes _)]
  · simp only [lockAddr_hostWrite]
    rw [readBytes_hostWrite_at h8, ofLe_leBytes, Nat.zero_mod]
  · exact ((hostWrite_hostBut_of_mem hw (by simp) s).trans (hostWrite_hostBut_of_mem (length_pageBytes _) (by simp) _)).trans
      ((hostWrite_hostBut_of_mem (length_envBytes _) (by simp) _).trans (hostWrite_hostBut_of_mem h8 (by simp) _))

theorem countWindow_changes (s : State) : changesOnly [.work] s (countWindow s) := withWork_changes _

theorem exec_gaccAttempt {i : Nat} {b : StageBlk} (hst : s.stop.stopped = false) (hb : s.window.gaccs[i]? = some b) :
    exec (.gaccLockAttempt i false .quiet) s =
      .next (if ofLe (readBytes (hostMem s) (lockAddr s (nTarget b.entry)) 8) = 0 then gaccAdd i false b s else s) := by
  show execGaccLockAttempt i false .quiet s = _
  unfold execGaccLockAttempt
  rw [hostActs_quiet]
  simp only [hst, hb, Bool.not_false]

theorem gaccAdd_of_unsound {i : Nat} {b : StageBlk}
    (h : envSound (slotEnv s (nTarget b.entry)) (pageBytes (slotBlk s (nTarget b.entry)).payload) = false) :
    gaccAdd i false b s = abandon b.start b.index b.step 2 (dropGacc i s) :=
  if_pos (by rw [Bool.not_eq_true']; exact h)

theorem gaccAdd_of_sound {i : Nat} {b : StageBlk}
    (h : envSound (slotEnv s (nTarget b.entry)) (pageBytes (slotBlk s (nTarget b.entry)).payload) = true) :
    gaccAdd i false b s = countWindow (hostWrite (lockAddr (dropGacc i s) (nTarget b.entry)) (leBytes 8 0)
      (hostWrite (envAddr (dropGacc i s) (nTarget b.entry)) (envBytes (gaccSum s b).env)
        (hostWrite (payloadAddr (dropGacc i s) (nTarget b.entry)) (pageBytes (gaccSum s b).payload)
          (hostWrite (lockAddr (dropGacc i s) (nTarget b.entry)) (leBytes 8 (lockWord s b)) (dropGacc i s))))) :=
  (if_neg (by rw [Bool.not_eq_true', Bool.not_eq_false]; exact h)).trans (if_neg Bool.false_ne_true)

end Sys2Proof.Machine

open Sys2Proof Sys2Proof.Machine

/-- Settles O44: an addition under a won lock writes its target's sum and Envelope and frees the lock, and one that is given up leaves an event. -/
theorem additionsUnderALock : Obligations.AdditionsUnderALock := by
  refine ⟨fun s i b hst hb => ⟨fun hlock => ?_, fun hlock hsound hfmt => ?_, fun hlock hbad => ?_⟩, fun s i b hb => ?_⟩
  · exact (exec_gaccAttempt hst hb).trans (congrArg Host.Outcome.next (if_neg hlock))
  · have hexec := (exec_gaccAttempt hst hb).trans (congrArg Host.Outcome.next (if_pos hlock))
    obtain ⟨t, ht, hch, hslot, hzero, hbut⟩ := lockedWrite_spec (nTarget b.entry) (gaccSum s b) (leBytes 8 (lockWord s b))
      (length_leBytes _ _) (dropGacc i s)
    rw [gaccAdd_of_sound hsound, ← ht] at hexec
    have hfields : (gaccSum s b).payload = addPage .int32 (slotBlk s (nTarget b.entry)).payload b.blk.payload := by
      rw [gaccSum, hfmt]
      rfl
    have henv : (gaccSum s b).env = mkEnv (pageBytes (gaccSum s b).payload) (residues (pageBytes (gaccSum s b).payload))
        (nTag b.entry) b.step 6 := by
      rw [gaccSum, hfmt]
      rfl
    have hwork : t.work = s.work := (hch .work (by decide)).trans (dropGacc_changes i s .work (by decide))
    refine ⟨countWindow t, hexec, ((dropGacc_changes i s).both hch (C := [.gaccs, .host]) (by decide) (by decide)).both
      (countWindow_changes t) (by decide) (by decide), ?_, hch .gaccs (by decide), fun k hk => ?_, ?_, hzero, hbut⟩
    · rw [countWindow, hwork]
    · show intAt 32 (slotBlk t (nTarget b.entry)).payload.toNat k = _
      rw [hslot, hfields]
      exact intAt_addPage (f := .int32) rfl _ _ hk
    · show (slotBlk t (nTarget b.entry)).env = mkEnv (pageBytes (slotBlk t (nTarget b.entry)).payload)
        (residues (pageBytes (slotBlk t (nTarget b.entry)).payload)) (nTag b.entry) b.step 6
      rw [hslot, henv]
  · have hexec := (exec_gaccAttempt hst hb).trans (congrArg Host.Outcome.next (if_pos hlock))
    rw [gaccAdd_of_unsound hbad] at hexec
    obtain ⟨hch, hg, hseq, hjob, hoff, hbut⟩ := abandonGacc_spec i b.start b.index b.step 2 s
    refine ⟨_, hexec, hch, hg, hseq, fun hrun hstart => ?_, hoff, hbut⟩
    rw [hjob, abandonedJob, hrun, hstart]
    simp
  · obtain ⟨hch, hg, hseq, hjob, hoff, hbut⟩ := abandonGacc_spec i b.start b.index b.step 0 s
    refine ⟨_, ?_, hch, hg, hseq, hjob, hoff, hbut⟩
    show execGaccLockTimeout i s = _
    unfold execGaccLockTimeout
    rw [hb]

end

section
/-! Proofs: trees of the window and panels that move (R292, R293, R301, R302; O45). -/

namespace Sys2Proof.Machine

variable {s : State}

/-! ## Trees -/

theorem dropTree_changes (i : Nat) (s : State) : changesOnly [.trees, .waiting] s (dropTree i s) := by
  intro p hp
  cases p
  case trees => exact absurd (by decide) hp
  case waiting => exact absurd (by decide) hp
  all_goals rfl

theorem exec_gtreePoll {i : Nat} {x : Tree} (hst : s.stop.stopped = false) (hx : s.window.trees[i]? = some x) :
    exec (.gtreePoll i .quiet) s = .next (if (treeLeaves s x).all (leafReady x.step) then finishTree i x s else s) := by
  show execGtreePoll i .quiet s = _
  unfold execGtreePoll
  rw [hostActs_quiet]
  simp only [hst, hx, Bool.not_false]

theorem exec_gtreeTimeout {i : Nat} {x : Tree} (hx : s.window.trees[i]? = some x) :
    exec (.gtreeTimeout i) s = .next (abandon x.start x.index x.step 1 (dropTree i s)) := by
  show execGtreeTimeout i s = _
  unfold execGtreeTimeout
  rw [hx]

theorem sumBlk_env (p : PageBits) (tag step fmt : Nat) : (sumBlk p tag step fmt).env =
    mkEnv (pageBytes (sumBlk p tag step fmt).payload) (residues (pageBytes (sumBlk p tag step fmt).payload)) tag step fmt := rfl

theorem sumBlk_payload (p : PageBits) (tag step fmt : Nat) : (sumBlk p tag step fmt).payload = p := rfl

theorem intAt_treePage_int32 (bs : List Blk) {k : Nat} (hk : k < 1024) :
    intAt 32 (treePage .int32 bs).toNat k = saturated 32 ((bs.map (fun b => intAt 32 b.payload.toNat k)).sum) :=
  intAt_treePage (f := .int32) rfl bs hk

theorem finishTree_int {i : Nat} {x : Tree} (h : x.fmt = 6) : finishTree i x s =
    dropTree i (writeSlot (nTarget x.entry) (sumBlk (treePage .int32 (treeLeaves s x)) (nTag x.entry) x.step 6) [] s) := by
  have hn : x.fmt.toNat = 6 := congrArg BitVec.toNat h
  have hf : blkFmt 6 = .int32 := rfl
  rw [finishTree, hn, hf]

theorem slotBlk_of_changes {A : List Part} {t u : State} (h : changesOnly A t u) (hh : Part.host ∉ A) (hp : Part.panels ∉ A) (n : Nat) :
    slotBlk u n = slotBlk t n := by
  have haddr : ∀ off w, slotAddr u n off w = slotAddr t n off w := fun off w => slotAddr_of_panels (h .panels hp) n off w
  have hmem : hostMem u = hostMem t := h .host hh
  unfold slotBlk slotEnv payloadAddr envAddr
  rw [haddr, haddr, hmem]

theorem hostBut_dropTree {rs : List (Nat × Nat)} {t : State} (h : hostBut rs s t) (i : Nat) : hostBut rs s (dropTree i t) :=
  h.trans (hostBut_of_eq (dropTree_changes i t .host (by decide)))

/-- The sum of a tree in INT32, in its target. -/
theorem treeSummed {i : Nat} {x : Tree} (hst : s.stop.stopped = false) (hx : s.window.trees[i]? = some x)
    (hready : ∀ b ∈ treeLeaves s x, leafReady x.step b = true) (hfmt : x.fmt = 6) :
    ∃ t : State, exec (.gtreePoll i .quiet) s = .next t ∧ changesOnly [.trees, .waiting, .host] s t ∧
      t.window.trees = s.window.trees.eraseIdx i ++ s.window.waiting.take 1 ∧
      t.window.waiting = s.window.waiting.drop 1 ∧
      (∀ k, k < 1024 → intAt 32 (slotBlk t (nTarget x.entry)).payload.toNat k =
        saturated 32 (((treeLeaves s x).map (fun b => intAt 32 b.payload.toNat k)).sum)) ∧
      slotEnv t (nTarget x.entry) = mkEnv (pageBytes (slotBlk t (nTarget x.entry)).payload)
        (residues (pageBytes (slotBlk t (nTarget x.entry)).payload)) (nTag x.entry) x.step 6 ∧
      hostBut [(payloadAddr s (nTarget x.entry), 4096), (envAddr s (nTarget x.entry), 32)] s t := by
  have hexec := (exec_gtreePoll hst hx).trans (congrArg Host.Outcome.next (if_pos (List.all_eq_true.mpr hready)))
  have hsum := finishTree_int (s := s) (i := i) hfmt
  obtain ⟨hpay, henv, hbut⟩ := writeSlot_bytes (nTarget x.entry) (sumBlk (treePage .int32 (treeLeaves s x)) (nTag x.entry) x.step 6) s
  have hch := writeSlot_changes (nTarget x.entry) (sumBlk (treePage .int32 (treeLeaves s x)) (nTag x.entry) x.step 6) [] s
  rw [hsum] at hexec
  generalize writeSlot (nTarget x.entry) (sumBlk (treePage .int32 (treeLeaves s x)) (nTag x.entry) x.step 6) [] s = t at hpay henv hbut hch hexec
  have haddr : ∀ off w, slotAddr t (nTarget x.entry) off w = slotAddr s (nTarget x.entry) off w := fun off w =>
    slotAddr_of_panels (hch .panels (by decide)) _ off w
  have hslot : slotBlk t (nTarget x.entry) = sumBlk (treePage .int32 (treeLeaves s x)) (nTag x.entry) x.step 6 :=
    slot_of_bytes (by rw [payloadAddr, haddr]; exact hpay) (by rw [envAddr, haddr]; exact henv)
  have hdrop : slotBlk (dropTree i t) (nTarget x.entry) = slotBlk t (nTarget x.entry) :=
    slotBlk_of_changes (dropTree_changes i t) (by decide) (by decide) _
  have htrees : t.window.trees = s.window.trees := hch .trees (by decide)
  have hwait : t.window.waiting = s.window.waiting := hch .waiting (by decide)
  refine ⟨dropTree i t, hexec, hch.both (dropTree_changes i t) (by decide) (by decide), ?_, congrArg (List.drop 1) hwait,
    fun k hk => ?_, ?_, hostBut_dropTree hbut i⟩
  · show t.window.trees.eraseIdx i ++ t.window.waiting.take 1 = _
    rw [htrees, hwait]
  · rw [hdrop, hslot, sumBlk_payload]
    exact intAt_treePage_int32 _ hk
  · show (slotBlk (dropTree i t) (nTarget x.entry)).env = _
    rw [hdrop, hslot]
    exact sumBlk_env _ _ _ _

/-! ## Panels that settle -/

theorem settlePanel_changes (p : Nat) (s : State) : changesOnly [.panels] s (settlePanel p s) :=
  .ite (setPanel_changes _ _ s) (.refl _ s)

/-- The panels of a list settled, one by one. -/
def settleAll (ps : List Nat) (s : State) : State := ps.foldl (fun a p => settlePanel p a) s

theorem settleAll_changes (ps : List Nat) (s : State) : changesOnly [.panels] s (settleAll ps s) :=
  .foldl (f := fun a p => settlePanel p a) (fun a p => settlePanel_changes p a) ps s

theorem panelPending_of_changes {t : State} (h : changesOnly [.panels] s t) (p : Nat) : panelPending t p = panelPending s p := by
  have hstage : t.window.stage = s.window.stage := h .stage (by decide)
  have hgaccs : t.window.gaccs = s.window.gaccs := h .gaccs (by decide)
  have htrees : t.window.trees = s.window.trees := h .trees (by decide)
  have hwait : t.window.waiting = s.window.waiting := h .waiting (by decide)
  simp only [panelPending, hstage, hgaccs, htrees, hwait]

/-- A panel whose move may end has ended it. -/
def settledPanel (s : State) (p : Nat) : Panel :=
  if (panelOf s p).st = .moving ∧ panelPending s p = false then { panelOf s p with st := .host } else panelOf s p

theorem panelOf_settlePanel_self (p : Nat) (s : State) : panelOf (settlePanel p s) p = settledPanel s p := by
  unfold settlePanel settledPanel
  by_cases h : (panelOf s p).st = .moving ∧ panelPending s p = false
  · rw [if_pos h, if_pos ⟨h.1, by rw [h.2]; rfl⟩, panelOf_setPanel_self]
  · rw [if_neg h, if_neg fun hc => h ⟨hc.1, by simpa using hc.2⟩]

theorem panelOf_settlePanel_other {p q : Nat} (h : q ≠ p) (s : State) : panelOf (settlePanel p s) q = panelOf s q := by
  unfold settlePanel
  split
  · exact panelOf_setPanel_other h _ s
  · rfl

theorem settledPanel_settled {p : Nat} {v : Panel} (h : v = settledPanel s p) :
    (if v.st = .moving ∧ panelPending s p = false then { v with st := .host } else v) = v := by
  refine if_neg fun hc => ?_
  rw [h] at hc
  unfold settledPanel at hc
  split at hc
  · exact nomatch hc.1
  · next hn => exact hn hc

theorem panelOf_settleAll (ps : List Nat) (s : State) (p : Nat) :
    panelOf (settleAll ps s) p = if p ∈ ps then settledPanel s p else panelOf s p := by
  unfold settleAll
  induction ps generalizing s with
  | nil => rfl
  | cons q ps ih =>
    have hpend := panelPending_of_changes (settlePanel_changes q s) p
    rw [List.foldl_cons, ih]
    by_cases hq : p = q
    · have hself : panelOf (settlePanel q s) p = settledPanel s p := by rw [hq]; exact panelOf_settlePanel_self q s
      have hmem : p ∈ q :: ps := by rw [hq]; exact List.mem_cons_self ..
      rw [if_pos hmem, settledPanel, hpend, settledPanel_settled hself, hself, ite_self]
    · have hother := panelOf_settlePanel_other hq s
      rw [settledPanel, hpend, hother]
      simp only [List.mem_cons, hq, false_or]
      rfl

theorem mem_panelRange {first count p : Nat} : p ∈ panelRange first count ↔ first ≤ p ∧ p < first + count := by
  unfold panelRange
  rw [List.mem_map]
  constructor
  · rintro ⟨k, hk, rfl⟩
    have := List.mem_range.mp hk
    omega
  · intro h
    exact ⟨p - first, List.mem_range.mpr (by omega), by omega⟩

theorem panelOf_settledRange (first count : Nat) (s : State) (p : Nat) : panelOf (settleAll (panelRange first count) s) p =
    if first ≤ p ∧ p < first + count ∧ (panelOf s p).st = .moving ∧ panelPending s p = false then
      { panelOf s p with st := .host } else panelOf s p := by
  rw [panelOf_settleAll]
  by_cases hm : p ∈ panelRange first count
  · obtain ⟨h1, h2⟩ := mem_panelRange.mp hm
    rw [if_pos hm, settledPanel]
    simp only [h1, h2, true_and]
  · rw [if_neg hm, if_neg fun hc => hm (mem_panelRange.mpr ⟨hc.1, hc.2.1⟩)]

/-- A take without the panels it waits for. -/
def takeDone (i : Nat) (s : State) : State := { s with window := { s.window with takes := s.window.takes.eraseIdx i } }

theorem takeDone_changes (i : Nat) (s : State) : changesOnly [.takes] s (takeDone i s) := by
  intro p hp
  cases p
  case takes => exact absurd (by decide) hp
  all_goals rfl

theorem exec_panelMoveDone {i us : Nat} {x : TakeRef} (hx : s.window.takes[i]? = some x) :
    exec (.panelMoveDone i us) s = .next (
      if (panelRange x.first x.count).any (fun p => (panelOf (settleAll (panelRange x.first x.count) s) p).st == .moving) then
        settleAll (panelRange x.first x.count) s
      else complete (takeRec x us) (takeDone i (settleAll (panelRange x.first x.count) s))) := by
  show execPanelMoveDone i us s = _
  unfold execPanelMoveDone
  rw [hx]
  rfl

/-- A panel of a take that a released write still targets keeps the take waiting. -/
theorem takeWaits {i us : Nat} {x : TakeRef} (hx : s.window.takes[i]? = some x)
    (h : ∃ k, k < x.count ∧ panelPending s (x.first + k) = true ∧ (panelOf s (x.first + k)).st = .moving) :
    ∃ t : State, exec (.panelMoveDone i us) s = .next t ∧ changesOnly [.panels] s t ∧ t.window.takes = s.window.takes ∧
      (∀ p, panelOf t p = (if x.first ≤ p ∧ p < x.first + x.count ∧ (panelOf s p).st = .moving ∧ panelPending s p = false then
        { panelOf s p with st := .host } else panelOf s p)) := by
  obtain ⟨k, hk, hpend, hmov⟩ := h
  have hpan := panelOf_settledRange x.first x.count s
  have hch := settleAll_changes (panelRange x.first x.count) s
  have hmoves : (panelRange x.first x.count).any (fun p => (panelOf (settleAll (panelRange x.first x.count) s) p).st == .moving) = true := by
    refine List.any_eq_true.mpr ⟨x.first + k, mem_panelRange.mpr (by omega), ?_⟩
    rw [hpan, if_neg (fun hc => by rw [hpend] at hc; exact nomatch hc.2.2.2), hmov]
    rfl
  exact ⟨_, (exec_panelMoveDone hx).trans (congrArg Host.Outcome.next (if_pos hmoves)), hch, hch .takes (by decide), hpan⟩

/-- A take whose panels nothing targets ends with its record. -/
theorem takeEnds {i us : Nat} {x : TakeRef} (hx : s.window.takes[i]? = some x) (h : ∀ k, k < x.count → panelPending s (x.first + k) = false) :
    ∃ t : State, exec (.panelMoveDone i us) s = .next t ∧ changesOnly [.panels, .takes, .ringOut, .ringRegs, .host] s t ∧
      t.window.takes = s.window.takes.eraseIdx i ∧
      (∀ p, panelOf t p = (if x.first ≤ p ∧ p < x.first + x.count ∧ (panelOf s p).st = .moving then
        { panelOf s p with st := .host } else panelOf s p)) ∧
      t.rings = (complete (takeRec x us) s).rings ∧ hostMem t = hostMem (complete (takeRec x us) s) := by
  have hch := settleAll_changes (panelRange x.first x.count) s
  have hfree : ∀ p, x.first ≤ p → p < x.first + x.count → panelPending s p = false := fun p h1 h2 => by
    rw [← Nat.add_sub_cancel' h1]
    exact h _ (by omega)
  have hpan : ∀ p, panelOf (settleAll (panelRange x.first x.count) s) p = (if x.first ≤ p ∧ p < x.first + x.count ∧ (panelOf s p).st = .moving then
      { panelOf s p with st := .host } else panelOf s p) := fun p => by
    rw [panelOf_settledRange]
    refine if_congr ⟨fun hc => ⟨hc.1, hc.2.1, hc.2.2.1⟩, fun hc => ⟨hc.1, hc.2.1, hc.2.2, hfree p hc.1 hc.2.1⟩⟩ rfl rfl
  have hrest : ¬ (panelRange x.first x.count).any (fun p => (panelOf (settleAll (panelRange x.first x.count) s) p).st == .moving) = true := by
    intro hany
    obtain ⟨p, hp, hst⟩ := List.any_eq_true.mp hany
    obtain ⟨h1, h2⟩ := mem_panelRange.mp hp
    rw [hpan] at hst
    split at hst
    · exact nomatch hst
    · next hn => exact hn ⟨h1, h2, eq_of_beq hst⟩
  have hdone : changesOnly [.panels, .takes] s (takeDone i (settleAll (panelRange x.first x.count) s)) :=
    hch.both (takeDone_changes i _) (by decide) (by decide)
  have hrings : (takeDone i (settleAll (panelRange x.first x.count) s)).rings = s.rings := hdone.rings_eq (by decide) (by decide)
  have hc := complete_changes (takeRec x us) (takeDone i (settleAll (panelRange x.first x.count) s))
  have halike := complete_recordsAlike (hdone.recordsAlike hrings (by decide) (by decide) (by decide)) (takeRec x us)
  have htakes : (settleAll (panelRange x.first x.count) s).window.takes = s.window.takes := hch .takes (by decide)
  refine ⟨_, (exec_panelMoveDone hx).trans (congrArg Host.Outcome.next (if_neg hrest)), hdone.both hc (by decide) (by decide),
    (hc .takes (by decide)).trans (congrArg (fun l => l.eraseIdx i) htakes), fun p => ?_, halike.rings, halike.host⟩
  have hpanels : (complete (takeRec x us) (takeDone i (settleAll (panelRange x.first x.count) s))).window.panels =
      (settleAll (panelRange x.first x.count) s).window.panels := hc .panels (by decide)
  rw [← hpan p, panelOf, panelOf, hpanels]

end Sys2Proof.Machine

open Sys2Proof Sys2Proof.Machine

/-- Settles O45: a complete tree writes its sum and frees its place (`treeSummed`), and a take's panels settle one by one
(`panelOf_settledRange`). -/
theorem treesAndMovingPanels : Obligations.TreesAndMovingPanels := by
  refine ⟨fun s i x hst hx => ⟨fun ⟨b, hb, habs⟩ => ?_, treeSummed hst hx⟩, fun s i x hx => ?_,
    fun s i us x hx => ⟨takeWaits hx, takeEnds hx⟩⟩
  · refine (exec_gtreePoll hst hx).trans (congrArg Host.Outcome.next (if_neg fun hall => ?_))
    rw [List.all_eq_true.mp hall b hb] at habs
    exact nomatch habs
  · have ha := abandon_changes x.start x.index x.step 1 (dropTree i s)
    exact ⟨_, exec_gtreeTimeout hx, (dropTree_changes i s).both ha (by decide) (by decide), ha .trees (by decide),
      abandon_seq _ _ _ _ _, abandon_job _ _ _ _ (dropTree i s), abandon_hostBut _ _ _ _ (dropTree i s)⟩

end

section
/-! Proofs: what a descriptor does and the record that it leaves (R280, R283, R284; O46). -/

namespace Sys2Proof.Machine

variable {s : State}

/-! ## Checks of a descriptor -/

section
variable {op : Nat} {d : BitVec 512} {c : Instr} {checks : State → List (Bool × Nat)} {f : Nat → State → State}

theorem next_onDesc_of_idle (h : canStart s = false) (op : Nat) (d : BitVec 512) (f : Nat → State → State) :
    (Host.Outcome.next (onDesc op d f s) : Host.Outcome State Fault Refusal) = .next s :=
  congrArg _ (if_neg fun hc => by rw [h] at hc; exact nomatch hc.2)

/-- The first check that fails refuses a descriptor, which leaves its record alone. -/
theorem desc_refused {status : Nat} (hexec : exec c s = .next (onDesc op d (fun sq a => checked d sq (checks a) (f sq) a) s))
    (hs : canStart s = true) (hop : dOp d = op) (hf : firstFailure (checks (takeDesc s)) = some status) :
    ∃ t : State, exec c s = .next t ∧ changesOnly recordParts s t ∧ recordedAs (recOf d (sqNext s) true status []) s t := by
  rw [onDesc_of_canStart hop hs, checked, hf] at hexec
  exact ⟨_, hexec, complete_takeDesc_changes _ s, rfl, rfl⟩

/-- A descriptor that passes its checks is carried out. -/
theorem desc_accepted (hexec : exec c s = .next (onDesc op d (fun sq a => checked d sq (checks a) (f sq) a) s))
    (hs : canStart s = true) (hop : dOp d = op) (hf : firstFailure (checks (takeDesc s)) = none) :
    exec c s = .next (f (sqNext s) (takeDesc s)) := by
  rw [onDesc_of_canStart hop hs, checked, hf] at hexec
  exact hexec

/-- A descriptor whose work shows in no record leaves its record beside it. -/
theorem desc_recorded {A B : List Part} {t : State} (h : changesOnly A (takeDesc s) t) (hr : t.rings = (takeDesc s).rings) (hh : Part.host ∉ A)
    (hu : Part.unitGen ∉ A) (hb : Part.bridle ∉ A) (hA : A ⊆ B) (hB : recordParts ⊆ B) (x : Rec) :
    changesOnly B s (complete x t) ∧ recordedAs x s (complete x t) :=
  ⟨((takeDesc_changes s).mono (fun _ hp => hB (List.mem_cons.mpr (.inl (List.mem_singleton.mp hp))))).trans
    ((h.mono hA).trans ((complete_changes x t).mono fun _ hp => hB (List.mem_cons_of_mem _ hp))),
   recordedAs_of_recordsAlike (h.recordsAlike hr hh hu hb) x⟩

end

/-! ## The record of a descriptor in its ring -/

/-- The descriptor at the front may start only with room in the completion ring. -/
theorem canStart_iff : canStart s = true ↔ barOpen s = true ∧ s.rings.committed.enable = true ∧ s.rings.sqDone ≠ s.rings.sqHead ∧
    cqFull s = false ∧ ringTest s = false := by
  simp [canStart, and_assoc]

/-- The next entry of the completion ring. -/
def recordAt (r : Rings) : Nat := ringAt r.committed.cq r.cqTail r.committed.szCq 32

theorem length_recBytes (s : State) (c : Rec) : (recBytes s c).length = 32 := by
  unfold recBytes
  split <;> simp [length_padTo]

/-- A record written into the ring: the rings after it, before a vector is raised and the part's line follows. -/
def recordedRings (c : Rec) (r : Rings) : Rings :=
  if c.irq then raiseVec r.vecCq.toNat { r with cqTail := r.cqTail + 1, wrote := true } else { r with cqTail := r.cqTail + 1, wrote := true }

theorem recordedRings_same (c : Rec) (r : Rings) : (recordedRings c r).cqTail = r.cqTail + 1 ∧ (recordedRings c r).sqDone = r.sqDone ∧
    (recordedRings c r).committed = r.committed := by
  unfold recordedRings
  split <;> exact ⟨rfl, rfl, rfl⟩

theorem writeRec_eq (c : Rec) (s : State) : writeRec c s =
    syncDoorbell { hostWrite (recordAt s.rings) (recBytes s c) s with rings := recordedRings c s.rings } := rfl

theorem syncDoorbell_rings (s : State) : (syncDoorbell s).rings = s.rings := by
  unfold syncDoorbell
  split <;> rfl

/-- What a record writes: its entry, and the part's line. -/
theorem writeRec_host (c : Rec) (s : State)
    (hapart : recordAt s.rings + 32 ≤ s.rings.committed.db.toNat + 64 ∨ s.rings.committed.db.toNat + 64 + 24 ≤ recordAt s.rings) :
    readBytes (hostMem (writeRec c s)) (recordAt s.rings) 32 = recBytes s c ∧
    hostBut [(recordAt s.rings, 32), (s.rings.committed.db.toNat + 64, 24)] s (writeRec c s) := by
  have hw := hostWrite_hostBut (recordAt s.rings) (recBytes s c) s
  have hat := readBytes_hostWrite_at (a := recordAt s.rings) (length_recBytes s c) s
  have hsync := syncDoorbell_hostBut { hostWrite (recordAt s.rings) (recBytes s c) s with rings := recordedRings c s.rings }
  have hdb : (recordedRings c s.rings).committed = s.rings.committed := (recordedRings_same c s.rings).2.2
  rw [length_recBytes] at hw
  rw [writeRec_eq]
  constructor
  · refine (readBytes_congr fun i hi hlt => hsync i fun r hr => ?_).trans hat
    rw [List.mem_singleton.mp hr]
    show i < (recordedRings c s.rings).committed.db.toNat + 64 ∨ (recordedRings c s.rings).committed.db.toNat + 64 + 24 ≤ i
    rw [hdb]
    omega
  · refine (hw.mono fun r hr => ?_).trans (hostBut.trans (hostBut_of_eq rfl) (hsync.mono fun r hr => ?_))
    · rw [List.mem_singleton.mp hr]
      exact List.mem_cons_self ..
    · rw [List.mem_singleton.mp hr]
      show ((recordedRings c s.rings).committed.db.toNat + 64, 24) ∈ _
      rw [hdb]
      exact List.mem_cons_of_mem _ (List.mem_singleton_self _)

theorem hostMem_syncDoorbell (s : State) : hostMem (syncDoorbell s) =
    if s.rings.committed.enable then writeBytes (hostMem s) (s.rings.committed.db.toNat + 0x40) (partLine s.rings) else hostMem s := by
  unfold syncDoorbell
  split <;> rfl

theorem recordedRings_of_due (c : Rec) (x : List Rec) (r : Rings) :
    (recordedRings c { r with due := x }).committed = (recordedRings c r).committed ∧
    partLine (recordedRings c { r with due := x }) = partLine (recordedRings c r) := by
  unfold recordedRings
  split <;> exact ⟨rfl, rfl⟩

/-- The records that are due do not show in what a record writes. -/
theorem writeRec_of_due (c : Rec) (x : List Rec) (s : State) :
    hostMem (writeRec c { s with rings := { s.rings with due := x } }) = hostMem (writeRec c s) := by
  obtain ⟨hcm, hline⟩ := recordedRings_of_due c x s.rings
  rw [writeRec_eq, writeRec_eq, hostMem_syncDoorbell, hostMem_syncDoorbell]
  dsimp only
  rw [hcm, hline]
  rfl

/-- A record that becomes due while none waits and there is room is written at once. -/
theorem complete_of_room (h : s.rings.due = []) (he : s.rings.committed.enable = true) (hf : cqFull s = false) (c : Rec) :
    hostMem (complete c s) = hostMem (writeRec c s) ∧ (complete c s).rings.cqTail = s.rings.cqTail + 1 ∧
    (complete c s).rings.sqDone = s.rings.sqDone ∧ (complete c s).rings.due = [] := by
  have hgo : flushGo [c] { s with rings := { s.rings with due := [c] } } =
      flushGo [] (writeRec c { s with rings := { s.rings with due := [c] } }) :=
    if_pos (by show (s.rings.committed.enable && !cqFull s) = true; rw [he, hf]; rfl)
  have hc : complete c s = setStall (flushGo [] (writeRec c { s with rings := { s.rings with due := [c] } })) := by
    rw [complete, h, ← hgo]
    rfl
  rw [hc]
  refine ⟨?_, ?_, ?_, rfl⟩
  · show hostMem (writeRec c { s with rings := { s.rings with due := [c] } }) = _
    exact writeRec_of_due c [c] s
  · show (writeRec c { s with rings := { s.rings with due := [c] } }).rings.cqTail = _
    rw [writeRec_eq, syncDoorbell_rings]
    exact (recordedRings_same c _).1
  · show (writeRec c { s with rings := { s.rings with due := [c] } }).rings.sqDone = _
    rw [writeRec_eq, syncDoorbell_rings]
    exact (recordedRings_same c _).2.1

/-- A NOP that the part starts, as its record shows. -/
theorem nop_recorded {d : BitVec 512} {a : Nat} (hs : canStart s = true) (hop : dOp d = 0) (hd : bareOk d = true) (hdue : s.rings.due = [])
    (ha : a = recordAt s.rings) (hapart : a + 32 ≤ s.rings.committed.db.toNat + 64 ∨ s.rings.committed.db.toNat + 64 + 24 ≤ a) :
    ∃ t : State, exec (.nopDescriptor d) s = .next t ∧ changesOnly recordParts s t ∧
      readBytes (hostMem t) a 32 = recBytes s (recOf d (sqNext s) true 0 []) ∧
      t.rings.cqTail = s.rings.cqTail + 1 ∧ t.rings.sqDone = s.rings.sqDone + 1 ∧ t.rings.due = [] ∧
      hostBut [(a, 32), (s.rings.committed.db.toNat + 64, 24)] s t := by
  obtain ⟨-, hen, -, hroom, -⟩ := canStart_iff.mp hs
  have hexec : exec (.nopDescriptor d) s = .next (finish d (sqNext s) 0 [] (takeDesc s)) :=
    desc_accepted (f := fun sq => finish d sq 0 []) (checks := fun _ => [(!bareOk d, 0x10)]) rfl hs hop (by simp [firstFailure, hd])
  obtain ⟨hmem, htail, hdone, hnone⟩ := complete_of_room (s := takeDesc s) hdue hen hroom (recOf d (sqNext s) true 0 [])
  subst ha
  obtain ⟨hread, hbut⟩ := writeRec_host (recOf d (sqNext s) true 0 []) (takeDesc s) hapart
  refine ⟨_, hexec, complete_takeDesc_changes _ s, ?_, htail, hdone, hnone, ?_⟩
  · rw [finish, hmem]
    exact hread
  · exact hostBut.trans (t := takeDesc s) (hostBut_of_eq rfl) (hbut.trans (hostBut_of_eq hmem))

/-- The bytes of a NOP's record. -/
theorem recBytes_nop {d : BitVec 512} (hop : dOp d = 0) (s : State) : recBytes s (recOf d (sqNext s) true 0 []) =
    leBytes 4 (fld d 32 32) ++ [0] ++ leBytes 1 (phaseBit s.rings.cqTail s.rings.committed.szCq + 2) ++ leBytes 2 0 ++
      leBytes 4 s.unitGen ++ leBytes 4 s.rings.sqDone.toNat ++ leBytes 16 0 := by
  have htag : (dTag d).toNat = fld d 32 32 := by rw [dTag, BitVec.extractLsb'_toNat, Nat.shiftRight_eq_div_pow, fld]
  unfold recBytes recOf
  dsimp only
  rw [hop, htag]
  rfl

/-! ## UNLOAD -/

theorem unloadReel_spec (s : State) : (unloadReel s).reel = none ∧ (unloadReel s).det.leaves = [] ∧ (unloadReel s).det.latched = 0 ∧
    (unloadReel s).far.held = [] ∧ (unloadReel s).ldr.debug = s.ldr.debug ∧ (unloadReel s).ldr.status = s.ldr.status := by
  have h := wakeQuads_changes { dropReel s with ports := mapVals Port.off retrainAfter (dropReel s).ports }
  have hreel : (unloadReel s).reel = none := h .reel (by decide)
  have hdet : (unloadReel s).det = (dropReel s).det := h .det (by decide)
  have hfar : (unloadReel s).far = (dropReel s).far := h .far (by decide)
  have hldr : (unloadReel s).ldr = (dropReel s).ldr := h .ldr (by decide)
  rw [hreel, hdet, hfar, hldr]
  exact ⟨rfl, rfl, rfl, rfl, rfl, rfl⟩

end Sys2Proof.Machine

open Sys2Proof Sys2Proof.Machine

/-- Settles O46: a descriptor that its checks refuse leaves its record alone (`desc_refused`), a NOP's record is written at the ring's
entry (`nop_recorded`), and an UNLOAD drops the Reel beside its record. -/
theorem recordsFollowDescriptors : Obligations.RecordsFollowDescriptors := by
  refine ⟨fun s d a hs hop hd hdue ha hapart => ?_, fun s d hs ⟨hop, hd⟩ => ?_, fun s d hs hop => ?_, fun s d hs hop hd => ⟨fun hreel => ?_,
    fun hreel hbusy => ?_, fun hreel hbusy => ?_⟩, fun s d hs c hc => ?_⟩
  · obtain ⟨t, ht, hch, hread, hrest⟩ := nop_recorded hs hop hd hdue ha hapart
    exact ⟨t, ht, hch, hread.trans (recBytes_nop hop s), hrest⟩
  · exact desc_refused (checks := fun _ => [(!bareOk d, 0x10)]) (f := fun sq => finish d sq 0 []) rfl hs hop (by simp [firstFailure, hd])
  · refine ⟨complete (recOf d (sqNext s) true 0x10 []) (takeDesc s), ?_, complete_takeDesc_changes _ s, rfl, rfl⟩
    show execReservedOpcode d s = _
    rw [execReservedOpcode, if_pos hop, onDesc_of_canStart rfl hs, finish]
  · exact desc_refused (checks := fun a => [(!bareOk d, 0x10), (a.reel.isNone, 0x11), (jobBusy a, 0x12)])
      (f := fun sq a => finish d sq 0 [] (unloadReel a)) rfl hs hop (by simp [firstFailure, hd, takeDesc, hreel])
  · have hsome : s.reel.isNone = false := Option.isNone_eq_false_iff.mpr (Option.isSome_iff_ne_none.mpr hreel)
    exact desc_refused (checks := fun a => [(!bareOk d, 0x10), (a.reel.isNone, 0x11), (jobBusy a, 0x12)])
      (f := fun sq a => finish d sq 0 [] (unloadReel a)) rfl hs hop
      (by simp only [firstFailure, hd, show (takeDesc s).reel = s.reel from rfl, hsome, show jobBusy (takeDesc s) = jobBusy s from rfl, hbusy]; rfl)
  · have hsome : s.reel.isNone = false := Option.isNone_eq_false_iff.mpr (Option.isSome_iff_ne_none.mpr hreel)
    have hexec := desc_accepted (c := .unload d) (s := s)
      (checks := fun a => [(!bareOk d, 0x10), (a.reel.isNone, 0x11), (jobBusy a, 0x12)])
      (f := fun sq a => finish d sq 0 [] (unloadReel a)) rfl hs hop
      (by simp only [firstFailure, hd, show (takeDesc s).reel = s.reel from rfl, hsome, show jobBusy (takeDesc s) = jobBusy s from rfl, hbusy]; rfl)
    have hu := unloadReel_changes (takeDesc s)
    have hc := complete_changes (recOf d (sqNext s) true 0 []) (unloadReel (takeDesc s))
    obtain ⟨hreel', hleaves, hlatched, hheld, hdebug, hstatus⟩ := unloadReel_spec (takeDesc s)
    obtain ⟨hch, hrec⟩ := desc_recorded (B := recordParts ++ ([.reel, .far, .det, .ldr, .ports, .power] : List Part)) hu
      (hu.rings_eq (by decide) (by decide)) (by decide) (by decide) (by decide) (by decide) (by decide) (recOf d (sqNext s) true 0 [])
    have hdet := hc .det (by decide)
    have hfar := hc .far (by decide)
    have hldr := hc .ldr (by decide)
    exact ⟨_, hexec, hch, (hc .reel (by decide)).trans hreel', (congrArg Det.leaves hdet).trans hleaves,
      (congrArg Det.latched hdet).trans hlatched, (congrArg Far.held hfar).trans hheld, (congrArg Ldr.debug hldr).trans hdebug,
      (congrArg Ldr.status hldr).trans hstatus, hrec⟩
  · have hidle := next_onDesc_of_idle hs
    simp only [List.mem_cons, List.not_mem_nil, or_false] at hc
    rcases hc with rfl | rfl | rfl | rfl | rfl | rfl | rfl | rfl | rfl | rfl | rfl | rfl
    case inr.inl =>
      show execReservedOpcode d s = _
      unfold execReservedOpcode
      split
      · exact hidle _ _ _
      · rfl
    all_goals exact hidle _ _ _

end

section
/-! Proofs: panels that change hands (R292 to R294; O50). -/

namespace Sys2Proof.Machine

variable {s : State} {d : BitVec 512}

/-! ## Every panel of a range -/

theorem eachPanel_changes (d : BitVec 512) (f : Nat → Panel → Panel) (s : State) : changesOnly [.panels] s (eachPanel d f s) :=
  .foldl (f := fun a p => setPanel p (f p (panelOf a p)) a) (fun a p => setPanel_changes p _ a) _ s

theorem nodup_panelRange (first count : Nat) : (panelRange first count).Nodup :=
  List.nodup_range.map fun _ _ h => Nat.add_left_cancel h

theorem mem_dPanels {p : Nat} : p ∈ dPanels d ↔ dFirst d ≤ p ∧ p < dFirst d + dCount d := mem_panelRange

theorem panelOf_eachPanel (d : BitVec 512) (f : Nat → Panel → Panel) (s : State) (p : Nat) :
    panelOf (eachPanel d f s) p = if dFirst d ≤ p ∧ p < dFirst d + dCount d then f p (panelOf s p) else panelOf s p := by
  have hother : ∀ (a : State) (q : Nat), q ≠ p → panelOf (setPanel q (f q (panelOf a q)) a) p = panelOf a p := fun a q hq =>
    panelOf_setPanel_other (Ne.symm hq) _ a
  by_cases hm : p ∈ dPanels d
  · obtain ⟨a, ha, he⟩ := foldl_view_of_mem (f := fun a q => setPanel q (f q (panelOf a q)) a) (v := fun a => panelOf a p) hother
      (nodup_panelRange _ _) hm s
    rw [if_pos (mem_dPanels.mp hm)]
    refine he.trans ((panelOf_setPanel_self p _ a).trans ?_)
    rw [show panelOf a p = panelOf s p from ha]
  · rw [if_neg fun h => hm (mem_dPanels.mpr h)]
    exact foldl_view_of_not_mem (f := fun a q => setPanel q (f q (panelOf a q)) a) (v := fun a => panelOf a p) hother hm s

theorem allPanels_iff {st : PanelSt} : allPanels s d st = true ↔ ∀ k, k < dCount d → (panelOf s (dFirst d + k)).st = st := by
  unfold allPanels dPanels panelRange
  simp

theorem allPanels_eq_false {st : PanelSt} (h : ∃ k, k < dCount d ∧ (panelOf s (dFirst d + k)).st ≠ st) : allPanels s d st = false := by
  obtain ⟨k, hk, hne⟩ := h
  exact Bool.eq_false_iff.mpr fun hall => hne (allPanels_iff.mp hall k hk)

/-- A descriptor of panels that changes each of its range leaves its record beside them. -/
theorem eachPanel_recorded (f : Nat → Panel → Panel) (x : Rec) :
    changesOnly (.panels :: recordParts) s (complete x (eachPanel d f (takeDesc s))) ∧
    recordedAs x s (complete x (eachPanel d f (takeDesc s))) ∧
    ∀ p, panelOf (complete x (eachPanel d f (takeDesc s))) p =
      if dFirst d ≤ p ∧ p < dFirst d + dCount d then f p (panelOf s p) else panelOf s p := by
  have he := eachPanel_changes d f (takeDesc s)
  obtain ⟨hch, hrec⟩ := desc_recorded (B := .panels :: recordParts) he (he.rings_eq (by decide) (by decide)) (by decide) (by decide)
    (by decide) (by decide) (by decide) x
  refine ⟨hch, hrec, fun p => ?_⟩
  have hp : (complete x (eachPanel d f (takeDesc s))).window.panels = (eachPanel d f (takeDesc s)).window.panels :=
    complete_changes x _ .panels (by decide)
  rw [panelOf, hp]
  exact panelOf_eachPanel d f (takeDesc s) p

/-! ## The descriptors of panels -/

/-- The range of a descriptor lies in the window. -/
structure RangeIn (s : State) (d : BitVec 512) : Prop where
  head : headOk d false = true
  one : 1 ≤ dCount d
  most : dCount d ≤ 65536
  inside : dFirst d + dCount d ≤ s.window.size

theorem RangeIn.rangeOk (h : RangeIn s d) : rangeOk s d = true := by
  obtain ⟨-, h1, h2, h3⟩ := h
  simp [Machine.rangeOk, h1, h2, h3]

theorem RangeIn.giveOk (h : RangeIn s d) (hz : zeros d 128 384 = true) : giveOk s d = true := by
  rw [Machine.giveOk, h.head, hz, h.rangeOk]
  rfl

/-- What WINDOW_MAP checks before the panels. -/
def mapOk (s : State) (d : BitVec 512) : Bool := headOk d false && zeros d 194 318 && zeros d 128 16 && rangeOk s d

/-- What the panels of a WINDOW_MAP stand in. -/
def mapFrom (d : BitVec 512) : PanelSt := if dUnmap d then .host else .free

theorem RangeIn.mapOk (h : RangeIn s d) (hz : zeros d 194 318 = true) (hz' : zeros d 128 16 = true) : mapOk s d = true := by
  rw [Machine.mapOk, h.head, hz, hz', h.rangeOk]
  rfl

/-- The first failure of a descriptor's form and of its panels' state. -/
theorem firstFailure_panels {ok all : Bool} (h : ok = true) : firstFailure [(!ok, 0x10), (!all, 0x17)] = if all then none else some 0x17 := by
  rw [h]
  cases all <;> rfl

theorem windowMap_accepted (hs : canStart s = true) (hop : dOp d = 0x04) (hok : mapOk s d = true)
    (hall : ∀ k, k < dCount d → (panelOf s (dFirst d + k)).st = mapFrom d) :
    ∃ t : State, exec (.windowMap d) s = .next t ∧ changesOnly (.panels :: recordParts) s t ∧
      recordedAs (recOf d (sqNext s) true 0 []) s t ∧
      ∀ p, panelOf t p = if dFirst d ≤ p ∧ p < dFirst d + dCount d then mapPanel d p (panelOf s p) else panelOf s p := by
  have hexec := desc_accepted (c := .windowMap d) (s := s) (checks := fun a => [(!mapOk a d, 0x10), (!allPanels a d (mapFrom d), 0x17)])
    (f := fun sq a => finish d sq 0 [] (eachPanel d (mapPanel d) a)) rfl hs hop
    ((firstFailure_panels hok).trans (if_pos (allPanels_iff.mpr hall)))
  obtain ⟨hch, hrec, hpan⟩ := eachPanel_recorded (s := s) (d := d) (mapPanel d) (recOf d (sqNext s) true 0 [])
  exact ⟨_, hexec, hch, hrec, hpan⟩

theorem windowMap_refused (hs : canStart s = true) (hop : dOp d = 0x04) (hok : mapOk s d = true)
    (h : ∃ k, k < dCount d ∧ (panelOf s (dFirst d + k)).st ≠ mapFrom d) :
    ∃ t : State, exec (.windowMap d) s = .next t ∧ changesOnly recordParts s t ∧ recordedAs (recOf d (sqNext s) true 0x17 []) s t :=
  desc_refused (checks := fun a => [(!mapOk a d, 0x10), (!allPanels a d (mapFrom d), 0x17)])
    (f := fun sq a => finish d sq 0 [] (eachPanel d (mapPanel d) a)) rfl hs hop
    ((firstFailure_panels hok).trans (if_neg (by rw [show allPanels (takeDesc s) d (mapFrom d) = false from allPanels_eq_false h]; exact Bool.false_ne_true)))

theorem panelGive_accepted (hs : canStart s = true) (hop : dOp d = 0x05) (hok : giveOk s d = true)
    (hall : ∀ k, k < dCount d → (panelOf s (dFirst d + k)).st = .host) :
    ∃ t : State, exec (.panelGive d) s = .next t ∧ changesOnly (.panels :: recordParts) s t ∧
      recordedAs (recOf d (sqNext s) true 0 []) s t ∧
      ∀ p, panelOf t p = if dFirst d ≤ p ∧ p < dFirst d + dCount d then { panelOf s p with st := .device } else panelOf s p := by
  have hexec := desc_accepted (c := .panelGive d) (s := s) (checks := fun a => [(!giveOk a d, 0x10), (!allPanels a d .host, 0x17)])
    (f := fun sq a => finish d sq 0 [] (eachPanel d (fun _ v => { v with st := .device }) a)) rfl hs hop
    ((firstFailure_panels hok).trans (if_pos (allPanels_iff.mpr hall)))
  obtain ⟨hch, hrec, hpan⟩ := eachPanel_recorded (s := s) (d := d) (fun _ v => { v with st := .device }) (recOf d (sqNext s) true 0 [])
  exact ⟨_, hexec, hch, hrec, hpan⟩

theorem panelGive_refused (hs : canStart s = true) (hop : dOp d = 0x05) (hok : giveOk s d = true)
    (h : ∃ k, k < dCount d ∧ (panelOf s (dFirst d + k)).st ≠ .host) :
    ∃ t : State, exec (.panelGive d) s = .next t ∧ changesOnly recordParts s t ∧ recordedAs (recOf d (sqNext s) true 0x17 []) s t :=
  desc_refused (checks := fun a => [(!giveOk a d, 0x10), (!allPanels a d .host, 0x17)])
    (f := fun sq a => finish d sq 0 [] (eachPanel d (fun _ v => { v with st := .device }) a)) rfl hs hop
    ((firstFailure_panels hok).trans (if_neg (by rw [show allPanels (takeDesc s) d .host = false from allPanels_eq_false h]; exact Bool.false_ne_true)))

/-! ## PANEL_TAKE -/

/-- Whether a running job needs a panel of the range: one of the far tier or of a tree's leaves (R294). -/
def takeBusy (s : State) (d : BitVec 512) : Bool := jobBusy s && (dPanels d).any (fun p => farPanel s p || leafPanel s p)

/-- What PANEL_TAKE checks. -/
def takeChecks (d : BitVec 512) (s : State) : List (Bool × Nat) := [(!giveOk s d, 0x10), (!allPanels s d .device, 0x17), (takeBusy s d, 0x18)]

theorem exec_panelTake : exec (.panelTake d) s = .next (onDesc 0x06 d (fun sq a => checked d sq (takeChecks d a) (takePanels d sq) a) s) := rfl

theorem firstFailure_take (hok : giveOk s d = true) : firstFailure (takeChecks d s) =
    if allPanels s d .device then (if takeBusy s d then some 0x18 else none) else some 0x17 := by
  unfold takeChecks
  rw [hok]
  cases allPanels s d .device <;> rfl

theorem takeBusy_iff : takeBusy s d = true ↔
    jobBusy s = true ∧ ∃ k, k < dCount d ∧ (farPanel s (dFirst d + k) = true ∨ leafPanel s (dFirst d + k) = true) := by
  unfold takeBusy dPanels panelRange
  simp

/-- The reference that a take leaves for its record. -/
def takeRef (d : BitVec 512) (sq : Nat) : TakeRef := { tag := dTag d, irq := bit d 8, sq := sq, first := dFirst d, count := dCount d }

/-- The panels taken and the staged blocks told, the record yet to come. -/
def panelsTaken (d : BitVec 512) (s : State) : State :=
  { eachPanel d (takePanel s) s with
    window := { (eachPanel d (takePanel s) s).window with
      stage := (eachPanel d (takePanel s) s).window.stage.map (StageBlk.awaitedBy (dPanels d)) } }

theorem panelsTaken_changes (d : BitVec 512) (s : State) : changesOnly [.panels, .stage] s (panelsTaken d s) := by
  have h := (eachPanel_changes d (takePanel s) s).mono (B := [.panels, .stage]) (by decide)
  intro p hp
  have hsame := h p hp
  cases p
  case panels => exact absurd (by decide) hp
  case stage => exact absurd (by decide) hp
  all_goals exact hsame

theorem panelsTaken_stage (d : BitVec 512) (s : State) : (panelsTaken d s).window.stage = s.window.stage.map (StageBlk.awaitedBy (dPanels d)) :=
  congrArg (List.map _) (eachPanel_changes d (takePanel s) s .stage (by decide))

theorem panelOf_panelsTaken (d : BitVec 512) (s : State) (p : Nat) : panelOf (panelsTaken d s) p =
    if dFirst d ≤ p ∧ p < dFirst d + dCount d then { panelOf s p with st := if panelPending s p then .moving else .host } else panelOf s p :=
  panelOf_eachPanel d (takePanel s) s p

theorem takePanels_eq (d : BitVec 512) (sq : Nat) (s : State) : takePanels d sq s =
    if (dPanels d).any (panelPending s) then
      { panelsTaken d s with window := { (panelsTaken d s).window with takes := (panelsTaken d s).window.takes ++ [takeRef d sq] } }
    else complete (takeRec (takeRef d sq) 0) (panelsTaken d s) := rfl

theorem takeRec_eq (hop : dOp d = 0x06) (sq : Nat) : takeRec (takeRef d sq) 0 = recOf d sq true 0 (leBytes 4 0) := by
  unfold recOf
  rw [hop]
  rfl

theorem anyPending_iff : (dPanels d).any (panelPending s) = true ↔ ∃ k, k < dCount d ∧ panelPending s (dFirst d + k) = true := by
  unfold dPanels panelRange
  simp

theorem panelTake_accepted (hs : canStart s = true) (hop : dOp d = 0x06) (hok : giveOk s d = true)
    (hall : ∀ k, k < dCount d → (panelOf s (dFirst d + k)).st = .device) (hfree : takeBusy s d = false) :
    ∃ t : State, exec (.panelTake d) s = .next t ∧ changesOnly (([.panels, .takes, .stage] : List Part) ++ recordParts) s t ∧
      t.window.stage = s.window.stage.map (StageBlk.awaitedBy (dPanels d)) ∧
      (∀ p, panelOf t p = (if dFirst d ≤ p ∧ p < dFirst d + dCount d then
        { panelOf s p with st := if panelPending s p then .moving else .host } else panelOf s p)) ∧
      ((∀ k, k < dCount d → panelPending s (dFirst d + k) = false) →
        t.window.takes = s.window.takes ∧ recordedAs (recOf d (sqNext s) true 0 (leBytes 4 0)) s t) ∧
      ((∃ k, k < dCount d ∧ panelPending s (dFirst d + k) = true) →
        t.rings = { s.rings with sqDone := s.rings.sqDone + 1 } ∧ hostMem t = hostMem s ∧
        t.window.takes = s.window.takes ++ [{ tag := dTag d, irq := bit d 8, sq := sqNext s, first := dFirst d, count := dCount d }]) := by
  have hexec := desc_accepted exec_panelTake hs hop ((firstFailure_take (s := takeDesc s) hok).trans
    ((if_pos (allPanels_iff.mpr hall)).trans (if_neg (by rw [show takeBusy (takeDesc s) d = false from hfree]; exact Bool.false_ne_true))))
  rw [takePanels_eq] at hexec
  have htaken := panelsTaken_changes d (takeDesc s)
  have htakes : (panelsTaken d (takeDesc s)).window.takes = s.window.takes := htaken .takes (by decide)
  have hrings : (panelsTaken d (takeDesc s)).rings = (takeDesc s).rings := htaken.rings_eq (by decide) (by decide)
  have hstage := panelsTaken_stage d (takeDesc s)
  have hpan := panelOf_panelsTaken d (takeDesc s)
  by_cases hpend : (dPanels d).any (panelPending (takeDesc s)) = true
  · rw [if_pos hpend] at hexec
    refine ⟨_, hexec, ?_, hstage, hpan, fun hnone => ?_, fun _ => ⟨hrings, htaken .host (by decide), ?_⟩⟩
    · have h := ((takeDesc_changes s).mono (B := ([.panels, .takes, .stage] : List Part) ++ recordParts) (by decide)).trans
        (htaken.mono (by decide))
      intro p hp
      have hsame := h p hp
      cases p
      case takes => exact absurd (by decide) hp
      all_goals exact hsame
    · obtain ⟨k, hk, hp⟩ := anyPending_iff.mp hpend
      exact absurd ((hnone k hk).symm.trans hp) Bool.false_ne_true
    · exact congrArg (· ++ [takeRef d (sqNext s)]) htakes
  · rw [if_neg hpend, takeRec_eq hop] at hexec
    obtain ⟨hch, hrec⟩ := desc_recorded (s := s) (B := ([.panels, .takes, .stage] : List Part) ++ recordParts) htaken hrings (by decide) (by decide)
      (by decide) (by decide) (by decide) (recOf d (sqNext s) true 0 (leBytes 4 0))
    have hc := complete_changes (recOf d (sqNext s) true 0 (leBytes 4 0)) (panelsTaken d (takeDesc s))
    have hpanels : (complete (recOf d (sqNext s) true 0 (leBytes 4 0)) (panelsTaken d (takeDesc s))).window.panels =
      (panelsTaken d (takeDesc s)).window.panels := hc .panels (by decide)
    refine ⟨_, hexec, hch, (hc .stage (by decide)).trans hstage, fun p => ?_, fun _ => ⟨(hc .takes (by decide)).trans htakes, hrec⟩,
      fun hsome => absurd (anyPending_iff.mpr hsome) hpend⟩
    rw [panelOf, hpanels]
    exact hpan p

theorem panelTake_refused (hs : canStart s = true) (hop : dOp d = 0x06) (hok : giveOk s d = true)
    (h : ∃ k, k < dCount d ∧ (panelOf s (dFirst d + k)).st ≠ .device) :
    ∃ t : State, exec (.panelTake d) s = .next t ∧ changesOnly recordParts s t ∧ recordedAs (recOf d (sqNext s) true 0x17 []) s t :=
  desc_refused exec_panelTake hs hop ((firstFailure_take (s := takeDesc s) hok).trans
    (if_neg (by rw [show allPanels (takeDesc s) d .device = false from allPanels_eq_false h]; exact Bool.false_ne_true)))

theorem panelTake_busy (hs : canStart s = true) (hop : dOp d = 0x06) (hok : giveOk s d = true)
    (hall : ∀ k, k < dCount d → (panelOf s (dFirst d + k)).st = .device) (hbusy : takeBusy s d = true) :
    ∃ t : State, exec (.panelTake d) s = .next t ∧ changesOnly recordParts s t ∧ recordedAs (recOf d (sqNext s) true 0x18 []) s t :=
  desc_refused exec_panelTake hs hop ((firstFailure_take (s := takeDesc s) hok).trans
    ((if_pos (allPanels_iff.mpr hall)).trans (if_pos hbusy)))

/-- The panels of a WINDOW_MAP as the descriptor's range has left them. -/
theorem mapped_range {t : State} (h : ∀ p, panelOf t p = if dFirst d ≤ p ∧ p < dFirst d + dCount d then mapPanel d p (panelOf s p) else panelOf s p) :
    (∀ k, k < dCount d → panelOf t (dFirst d + k) = mapPanel d (dFirst d + k) (panelOf s (dFirst d + k))) ∧
    ∀ p, p < dFirst d ∨ dFirst d + dCount d ≤ p → panelOf t p = panelOf s p :=
  ⟨fun k hk => (h _).trans (if_pos ⟨Nat.le_add_right _ _, Nat.add_lt_add_left hk _⟩),
    fun p hp => (h p).trans (if_neg (by omega))⟩

end Sys2Proof.Machine

open Sys2Proof Sys2Proof.Machine

/-- Settles O50: a range that stands as the descriptor wants changes panel by panel (`panelOf_eachPanel`), and any other is refused whole. -/
theorem panelsChangeHands : Obligations.PanelsChangeHands := by
  intro s d a n hs hhead ha hn h1 hmost hin
  obtain rfl : a = dFirst d := ha
  obtain rfl : n = dCount d := hn
  have hr : RangeIn s d := ⟨hhead, h1, hmost, hin⟩
  refine ⟨fun hop hz hz' hmap => ⟨fun hall => ?_, fun hsome => ?_⟩, fun hop hz hz' hmap => ⟨fun hall => ?_, fun hsome => ?_⟩,
    fun hop hz => ⟨panelGive_accepted hs hop (hr.giveOk hz), panelGive_refused hs hop (hr.giveOk hz)⟩,
    fun hop hz => ⟨panelTake_refused hs hop (hr.giveOk hz), fun hall hfree => ?_, fun hall hbusy hused => ?_⟩⟩
  · have hfrom : mapFrom d = .free := if_neg (by rw [dUnmap, hmap]; exact Bool.false_ne_true)
    obtain ⟨t, ht, hch, hrec, hpan⟩ := windowMap_accepted hs hop (hr.mapOk hz hz') (by rw [hfrom]; exact hall)
    obtain ⟨hpanels, hrest⟩ := mapped_range hpan
    refine ⟨t, ht, hch, hrec, fun k hk => (hpanels k hk).trans ?_, hrest⟩
    unfold mapPanel
    rw [if_neg (by rw [dUnmap, hmap]; exact Bool.false_ne_true), Nat.add_sub_cancel_left]
    rfl
  · have hfrom : mapFrom d = .free := if_neg (by rw [dUnmap, hmap]; exact Bool.false_ne_true)
    exact windowMap_refused hs hop (hr.mapOk hz hz') (by rw [hfrom]; exact hsome)
  · have hfrom : mapFrom d = .host := if_pos hmap
    obtain ⟨t, ht, hch, hrec, hpan⟩ := windowMap_accepted hs hop (hr.mapOk hz hz') (by rw [hfrom]; exact hall)
    obtain ⟨hpanels, hrest⟩ := mapped_range hpan
    refine ⟨t, ht, hch, hrec, fun k hk => ?_, hrest⟩
    rw [hpanels k hk, mapPanel, if_pos (show dUnmap d = true from hmap)]
  · have hfrom : mapFrom d = .host := if_pos hmap
    exact windowMap_refused hs hop (hr.mapOk hz hz') (by rw [hfrom]; exact hsome)
  · refine panelTake_accepted hs hop (hr.giveOk hz) hall (Bool.eq_false_iff.mpr fun hb => ?_)
    obtain ⟨hjob, k, hk, hused⟩ := takeBusy_iff.mp hb
    rcases hfree with hidle | hnone
    · exact Bool.false_ne_true (hidle.symm.trans hjob)
    · obtain ⟨hfar, hleaf⟩ := hnone k hk
      rw [hfar, hleaf] at hused
      exact hused.elim Bool.false_ne_true Bool.false_ne_true
  · exact panelTake_busy hs hop (hr.giveOk hz) hall (takeBusy_iff.mpr ⟨hbusy, hused⟩)

end

section
/-! Proofs: the settings store (R49 to R52; O51). -/

namespace Sys2Proof.Machine

variable {s : State}

/-! ## The settings log -/

theorem length_logEntry_head (s : State) :
    (leBytes 4 (civilDate s.tb).toNat ++ leBytes 4 (civilTime s.tb).toNat ++ leBytes 8 (validSec s.tb) ++ leBytes 8 (cnt s)).length = 24 := by
  simp

/-- Byte 24 of a log entry is its kind (Table 3-7a). -/
theorem logEntry_kind (s : State) (kind code arg : Nat) : (logEntry s kind code arg).getD 24 0 = BitVec.ofNat 8 kind := by
  have h := length_logEntry_head s
  unfold logEntry
  rw [List.append_assoc, List.append_assoc, List.append_assoc, List.getD_append_right _ _ _ _ h.le, h]
  rfl

/-! ## A store that starts -/

/-- A store started with a copy of the volatile set, its log as given. -/
def startedWith (q : StoreReq) (l : List (List Byte)) (s : State) : State :=
  { s with store := { s.store with
      set := { s.store.set with log := l }
      run := some { req := q, set := { s.store.set with log := l }, toB := s.store.active != some true,
                    generation := activeGen s.store + 1, storeCount := activeCount s.store + 1, tbSeconds := validSec s.tb } } }

/-- A store that starts logs its start and copies the set. -/
theorem startStore_eq (q : StoreReq) (s : State) :
    ∃ l, startStore q s = startedWith q l s ∧ l.getLast?.map (fun e => e.getD 24 0) = some 4 := by
  refine ⟨keepLast 1536 (s.store.set.log ++ [logEntry s 4 0 (activeGen s.store + 1)]), ?_, ?_⟩
  · simp only [startStore, appendLog, updSet]
    generalize keepLast 1536 (s.store.set.log ++ [logEntry s 4 0 (activeGen s.store + 1)]) = l
    rfl
  · rw [getLast?_keepLast, Option.map_some, logEntry_kind]
    rfl

theorem startedWith_changes (q : StoreReq) (l : List (List Byte)) (s : State) : changesOnly [.settings, .banks] s (startedWith q l s) := by
  intro p hp
  cases p
  case settings => exact absurd (by decide) hp
  case banks => exact absurd (by decide) hp
  all_goals rfl

theorem wornOut_eq_false (h : activeCount s.store < 100000) : wornOut s = false := decide_eq_false (Nat.not_le.mpr h)

theorem requestStore_idle {q : StoreReq} (h : activeCount s.store < 100000) (hr : s.store.run = none) (hw : s.store.waiting = []) :
    requestStore q s = startStore q s := by
  simp [requestStore, wornOut_eq_false h, hr, hw]

theorem requestStore_busy {q : StoreReq} (h : activeCount s.store < 100000) (hr : s.store.run ≠ none) :
    requestStore q s = { s with store := { s.store with waiting := s.store.waiting ++ [q] } } := by
  simp [requestStore, wornOut_eq_false h, hr]

theorem requestStore_worn {q : StoreReq} (h : 100000 ≤ activeCount s.store) : requestStore q s = refuseStore q s :=
  if_pos (decide_eq_true h)

theorem withStore_changes (x : Store) (h : x.set = s.store.set) : changesOnly [.banks] s { s with store := x } := by
  intro p hp
  cases p
  case banks => exact absurd (by decide) hp
  case settings => exact h
  all_goals rfl

section
variable {d : BitVec 512} (hs : canStart s = true) (hop : dOp d = 0x0A) (hd : bareOk d = true)
include hs hop hd

/-- A STORE_SETTINGS that the part starts is a request at the store engine. -/
theorem exec_storeSettings : exec (.storeSettings d) s = .next (requestStore (.ring (dTag d) (bit d 8) (sqNext s)) (takeDesc s)) :=
  desc_accepted (checks := fun _ => [(!bareOk d, 0x10)]) (f := fun sq => requestStore (.ring (dTag d) (bit d 8) sq)) rfl hs hop
    (by simp [firstFailure, hd])

theorem storeSettings_starts (hw : activeCount s.store < 100000) (hr : s.store.run = none) (hq : s.store.waiting = []) :
    ∃ t x, exec (.storeSettings d) s = .next t ∧ changesOnly [.settings, .banks, .ringRegs] s t ∧
      t.rings = { s.rings with sqDone := s.rings.sqDone + 1 } ∧ t.store.run = some x ∧ x.set = t.store.set ∧
      x.generation = activeGen s.store + 1 ∧ x.storeCount = activeCount s.store + 1 ∧
      (x.toB = true ↔ s.store.active ≠ some true) ∧
      (t.store.set.log.getLast?.map (fun e => e.getD 24 0)) = some 4 ∧
      { t.store.set with log := s.store.set.log } = s.store.set ∧
      t.store.bankA = s.store.bankA ∧ t.store.bankB = s.store.bankB ∧ t.store.active = s.store.active := by
  have hexec := exec_storeSettings hs hop hd
  rw [requestStore_idle (s := takeDesc s) hw hr hq] at hexec
  obtain ⟨l, hl, hlast⟩ := startStore_eq (.ring (dTag d) (bit d 8) (sqNext s)) (takeDesc s)
  rw [hl] at hexec
  have hch := (takeDesc_changes s).both (startedWith_changes (.ring (dTag d) (bit d 8) (sqNext s)) l (takeDesc s))
    (C := [.settings, .banks, .ringRegs]) (by decide) (by decide)
  exact ⟨_, _, hexec, hch, rfl, rfl, rfl, rfl, rfl, bne_iff_ne, hlast, rfl, rfl, rfl, rfl⟩

theorem storeSettings_waits (hw : activeCount s.store < 100000) (hr : s.store.run ≠ none) :
    ∃ t : State, exec (.storeSettings d) s = .next t ∧ changesOnly [.banks, .ringRegs] s t ∧
      t.store = { s.store with waiting := s.store.waiting ++ [.ring (dTag d) (bit d 8) (sqNext s)] } := by
  have hexec := exec_storeSettings hs hop hd
  rw [requestStore_busy (s := takeDesc s) hw hr] at hexec
  exact ⟨_, hexec, (takeDesc_changes s).both (withStore_changes (s := takeDesc s) _ rfl) (by decide) (by decide), rfl⟩

/-- The record of a store request that a worn store refuses. -/
theorem storeSettings_worn (hw : 100000 ≤ activeCount s.store) :
    ∃ t : State, exec (.storeSettings d) s = .next t ∧ changesOnly (.banks :: recordParts) s t ∧
      recordedAs (recOf d (sqNext s) true 0x1C (leBytes 4 (activeGen s.store))) s t ∧ t.store.worn = true := by
  have hexec := exec_storeSettings hs hop hd
  rw [requestStore_worn (s := takeDesc s) hw] at hexec
  have hrec : refuseStore (.ring (dTag d) (bit d 8) (sqNext s)) (takeDesc s) =
      complete (recOf d (sqNext s) true 0x1C (leBytes 4 (activeGen s.store)))
        { takeDesc s with store := { s.store with worn := true, lastResult := 3 } } := by
    unfold recOf
    rw [hop]
    rfl
  rw [hrec] at hexec
  have hch : changesOnly [.banks] (takeDesc s) { takeDesc s with store := { s.store with worn := true, lastResult := 3 } } :=
    withStore_changes (s := takeDesc s) _ rfl
  obtain ⟨hchanges, hrecord⟩ := desc_recorded (B := .banks :: recordParts) hch rfl (by decide) (by decide) (by decide) (by decide) (by decide)
    (recOf d (sqNext s) true 0x1C (leBytes 4 (activeGen s.store)))
  have hc := complete_changes (recOf d (sqNext s) true 0x1C (leBytes 4 (activeGen s.store)))
    { takeDesc s with store := { s.store with worn := true, lastResult := 3 } }
  exact ⟨_, hexec, hchanges, hrecord, congrArg Store.worn (hc.store_eq (by decide) (by decide))⟩

end

/-- The longest waiting request starts once no store runs. -/
theorem storeStart_spec {q : StoreReq} {l : List StoreReq} (hon : svcOn s = true) (hr : s.store.run = none) (hq : s.store.waiting = q :: l)
    (hw : activeCount s.store < 100000) :
    ∃ t x, exec .storeStart s = .next t ∧ changesOnly [.settings, .banks] s t ∧ t.store.run = some x ∧ x.req = q ∧
      t.store.waiting = l ∧ x.set = t.store.set ∧ x.generation = activeGen s.store + 1 := by
  have hexec : exec .storeStart s = .next (startStore q { s with store := { s.store with waiting := l } }) := by
    show execStoreStart s = _
    have hw' : wornOut { s with store := { s.store with waiting := l } } = false := wornOut_eq_false hw
    unfold execStoreStart
    rw [hon, hr, hq]
    exact congrArg Host.Outcome.next (if_neg (by rw [hw']; exact Bool.false_ne_true))
  obtain ⟨g, hg, -⟩ := startStore_eq q { s with store := { s.store with waiting := l } }
  rw [hg] at hexec
  have hch := (withStore_changes (s := s) { s.store with waiting := l } rfl).both
    (startedWith_changes q g { s with store := { s.store with waiting := l } }) (C := [.settings, .banks]) (by decide) (by decide)
  exact ⟨_, _, hexec, hch, rfl, rfl, rfl, rfl, rfl⟩

/-! ## A store that completes -/

theorem storeAnswer_changes (q : StoreReq) (n : Nat) (s : State) :
    changesOnly (recordParts ++ ([.banks, .out, .mgmtRegs] : List Part)) s (storeAnswer q n s) := by
  have h1 := withStore_changes (s := s) { s.store with lastResult := n } rfl
  unfold storeAnswer
  extract_lets _ s1
  split
  · exact h1.both (complete_changes _ s1) (by decide) (by decide)
  · exact h1.both (answer_changes _ _ _ _ s1) (by decide) (by decide)
  · exact h1.mono (by decide)

theorem storeAnswer_store (q : StoreReq) (n : Nat) (s : State) : (storeAnswer q n s).store = { s.store with lastResult := n } := by
  unfold storeAnswer
  extract_lets _ s1
  split
  · exact (complete_changes _ s1).store_eq (by decide) (by decide)
  · rfl
  · rfl

/-- The banks that a store leaves: the one that it wrote and the other. -/
theorem finishStore_spec (x : StoreRun) (good : Bool) (t : Store) :
    (finishStore x good t).run = none ∧ (finishStore x good t).set = t.set ∧ (finishStore x good t).waiting = t.waiting ∧
    (finishStore x good t).active = (if good then some x.toB else t.active) ∧
    (if x.toB then (finishStore x good t).bankB else (finishStore x good t).bankA) = writtenBank x good ∧
    (if x.toB then (finishStore x good t).bankA else (finishStore x good t).bankB) = (if x.toB then t.bankA else t.bankB) := by
  unfold finishStore
  cases x.toB <;> exact ⟨rfl, rfl, rfl, rfl, rfl, rfl⟩

theorem exec_storeComplete {x : StoreRun} (hon : svcOn s = true) (hr : s.store.run = some x) (good : Bool) :
    exec (.storeComplete good) s = .next (storeAnswer x.req (if good then 1 else 2) { s with store := finishStore x good s.store }) := by
  show execStoreComplete good s = _
  unfold execStoreComplete
  rw [hon, hr]

/-- The record of a store that a descriptor asked for. -/
theorem storeAnswer_ring {tag : Word32} {irq : Bool} {sq : Nat} (good : Bool) (x : Store) (s : State) :
    (storeAnswer (.ring tag irq sq) (if good then 1 else 2) { s with store := x }).rings = (complete
      { tag := tag, opcode := 0x0A, final := true, status := (if good then 0 else 0x1B), sq := sq,
        info := leBytes 4 (activeGen { x with lastResult := if good then 1 else 2 }), irq := irq, countInfo := false } s).rings := by
  have halike : ∀ y, RecordsAlike s { s with store := y } := fun y => ⟨rfl, rfl, rfl, rfl⟩
  cases good
  · exact (complete_recordsAlike (halike _) _).rings
  · exact (complete_recordsAlike (halike _) _).rings

end Sys2Proof.Machine

open Sys2Proof Sys2Proof.Machine

/-- Settles O51: a request starts a store, waits or is refused (`exec_storeSettings`), and a store that completes writes its bank and
answers (`finishStore_spec`, `storeAnswer_ring`). -/
theorem theSettingsStoreRuns : Obligations.TheSettingsStoreRuns := by
  refine ⟨fun s d hs hop hd hw => ⟨storeSettings_starts hs hop hd hw, storeSettings_waits hs hop hd hw⟩,
    fun s d hs hop hd hw => storeSettings_worn hs hop hd hw, fun s q l hon hr hq hw => storeStart_spec hon hr hq hw,
    fun s x good hon hr => ?_⟩
  have hch := (withStore_changes (s := s) (finishStore x good s.store) (finishStore_spec x good s.store).2.1).both
    (storeAnswer_changes x.req (if good then 1 else 2) _) (C := recordParts ++ ([.banks, .out, .mgmtRegs] : List Part)) (by decide) (by decide)
  have hstore := storeAnswer_store x.req (if good then 1 else 2) { s with store := finishStore x good s.store }
  obtain ⟨hrun, hset, hwait, hact, hbank, hother⟩ := finishStore_spec x good s.store
  refine ⟨_, exec_storeComplete hon hr good, hch, ?_, ?_, ?_, fun hg => ⟨?_, ?_, ?_, ?_, ?_⟩, fun hg => ?_, fun tag irq sq hreq => ?_⟩
  all_goals rw [hstore]
  · exact hrun
  · exact hset
  · exact hwait
  · exact hact.trans (if_pos hg)
  · exact (congrArg Bank.intact hbank).trans hg
  · exact congrArg Bank.set hbank
  · exact congrArg Bank.generation hbank
  · exact hother
  · exact hact.trans (if_neg (by rw [hg]; exact Bool.false_ne_true))
  · rw [hreq]
    exact storeAnswer_ring good _ s

end

section
/-! Proofs: relocks, and what a port hears of its far end (R112, R130; O53). -/

namespace Sys2Proof.Machine

variable {s t : State} {p : Nat}

/-! ## One port at a time -/

theorem portsBut_setPort (p : Nat) (v : Port) (s : State) : portsBut p s (setPort p v s) := fun _ hq => portOf_setPort_other hq v s

theorem portsBut_updPort (p : Nat) (f : Port → Port) (s : State) : portsBut p s (updPort p f s) := fun _ hq => portOf_updPort_other hq f s

theorem portsBut_dropPort (p : Nat) (s : State) : portsBut p s (dropPort p s) := by
  rw [dropPort_eq]
  exact portsBut_setPort p _ s

theorem portsBut.trans {u : State} (h : portsBut p s t) (k : portsBut p t u) : portsBut p s u := fun q hq => (k q hq).trans (h q hq)

theorem portsBut_of_changes {A : List Part} (h : changesOnly A s t) (hA : Part.ports ∉ A) : portsBut p s t :=
  fun q _ => congrFun (h.portOf_eq hA) q

theorem portOf_dropPort_self (p : Nat) (s : State) : portOf (dropPort p s) p = droppedPort s p (portOf s p) := by
  rw [dropPort_eq, portOf_setPort_self]

theorem droppedPort_inService (h : unitSt s (1024 + p) = .active ∨ unitSt s (1024 + p) = .watch) (v : Port) :
    (droppedPort s p v).st = .absent := by
  have hne : unitSt s (1024 + p) ≠ .off := by
    rcases h with h | h <;> rw [h] <;> exact fun hc => nomatch hc
  rw [droppedPort, if_neg hne]
  rfl

/-- A port that has dropped is absent, or off with its unit. -/
theorem droppedPort_st (s : State) (p : Nat) (v : Port) : (droppedPort s p v).st ≠ .relock := by
  unfold droppedPort
  split <;> exact fun h => nomatch h

/-- A fault that a port of a running job raises. -/
structure PortFault (code : BitVec 16) (p : Nat) (s t : State) : Prop where
  faulted : t.job.faulted = true
  changes : changesOnly [.ports, .job, .settings, .test] s t
  first : s.job.ownFault = none → (t.job.ownFault.map (fun l => (l.code, l.unit))) = some (code, BitVec.ofNat 16 (0x4000 + p))

theorem portFault_raise {c i : Nat} (p : Nat) (h : running s = true) :
    PortFault (BitVec.ofNat 16 c) p s (raiseFault c (portUnit p) i 0 s) where
  faulted := (raiseFault_job _ _ _ _ h).1
  changes := (raiseFault_changes _ _ _ _ s).mono (by decide)
  first := fun ho => by rw [raiseFault_ownFault _ _ _ _ h ho]; rfl

/-- What changes ports alone keeps the fault. -/
theorem PortFault.next {u : State} {code : BitVec 16} (h : PortFault code p s t) (k : changesOnly [.ports] t u) : PortFault code p s u where
  faulted := by rw [show u.job = t.job from k .job (by decide)]; exact h.faulted
  changes := h.changes.next k (by decide)
  first := by rw [show u.job = t.job from k .job (by decide)]; exact h.first

theorem PortFault.after {u : State} {code : BitVec 16} (k : changesOnly [.ports] s t) (h : PortFault code p t u) : PortFault code p s u where
  faulted := h.faulted
  changes := (k.mono (by decide)).trans h.changes
  first := by rw [← show t.job = s.job from k .job (by decide)]; exact h.first

/-! ## Lock that is lost, returns or does not return (R130) -/

theorem laneLock_relocks (hpop : portPop s p = true) (hf : framing (portOf s p) = true) (hreel : s.reel ≠ none)
    (hst : (portOf s p).st ≠ .measuring) : exec (.laneLockLoss p) s = .next (setPort p (relocking (portOf s p)) s) := by
  have hsome : s.reel.isSome = true := Option.isSome_iff_ne_none.mpr hreel
  refine congrArg Host.Outcome.next ((if_pos ?_).trans (if_pos ?_))
  · rw [hpop, hf]
    rfl
  · simp [hsome, hst]

theorem laneLock_drops (hpop : portPop s p = true) (hf : framing (portOf s p) = true)
    (h : s.reel = none ∨ (portOf s p).st = .measuring) : exec (.laneLockLoss p) s = .next (dropPort p s) := by
  refine congrArg Host.Outcome.next ((if_pos ?_).trans (if_neg ?_))
  · rw [hpop, hf]
    rfl
  · rcases h with h | h <;> simp [h]

section
variable (hpop : portPop s p = true) (hst : (portOf s p).st = .relock)
include hpop hst

theorem relockWaits (hm : (portOf s p).measured = false) : (portPop s p && (portOf s p).st == .relock && !(portOf s p).measured) = true := by
  rw [hpop, hst, hm]
  rfl

theorem relockBack (hm : (portOf s p).measured = true) : (portPop s p && (portOf s p).st == .relock && (portOf s p).measured) = true := by
  rw [hpop, hst, hm]
  rfl

end

theorem relockFailed_changes (p : Nat) (s : State) : changesOnly [.ports] s (relockFailed p s) :=
  (dropPort_changes p s).trans (updPort_changes p _ _)

theorem relockFailed_spec (p : Nat) (s : State) : portsBut p s (relockFailed p s) ∧ (portOf (relockFailed p s) p).st ≠ .relock ∧
    (portOf (relockFailed p s) p).trainDue = reelPort s p := by
  refine ⟨(portsBut_dropPort p s).trans (portsBut_updPort p _ _), ?_, ?_⟩
  · rw [relockFailed, portOf_updPort_self, portOf_dropPort_self]
    exact droppedPort_st s p _
  · rw [relockFailed, portOf_updPort_self]

/-- Lock that does not return. -/
theorem relockTimeout_spec (hpop : portPop s p = true) (hst : (portOf s p).st = .relock) (hm : (portOf s p).measured = false) :
    ∃ t : State, exec (.relockTimeout p) s = .next t ∧ portsBut p s t ∧ (portOf t p).st ≠ .relock ∧
      (portOf t p).trainDue = reelPort s p ∧ (running s = false ∨ reelPort s p = false → changesOnly [.ports] s t) ∧
      (running s = true → reelPort s p = true → t.job.faulted = true ∧
        changesOnly [.ports, .job, .settings, .test] s t ∧
        (s.job.ownFault = none → (t.job.ownFault.map (fun l => (l.code, l.unit))) =
          some (0x0601#16, BitVec.ofNat 16 (0x4000 + p)))) := by
  have hexec : exec (.relockTimeout p) s = .next (relockFailed p (if running s && reelPort s p then raiseFault 0x0601 (portUnit p) 0xFF 0 s else s)) :=
    congrArg Host.Outcome.next (if_pos (relockWaits hpop hst hm))
  by_cases hjob : (running s && reelPort s p) = true
  · obtain ⟨hr, hp⟩ := Bool.and_eq_true_iff.mp hjob
    rw [if_pos hjob] at hexec
    have hf := raiseFault_changes 0x0601 (portUnit p) 0xFF 0 s
    obtain ⟨hbut, hne, hdue⟩ := relockFailed_spec p (raiseFault 0x0601 (portUnit p) 0xFF 0 s)
    have hreel : reelPort (raiseFault 0x0601 (portUnit p) 0xFF 0 s) p = reelPort s p := by
      rw [reelPort, show (raiseFault 0x0601 (portUnit p) 0xFF 0 s).reel = s.reel from hf .reel (by decide)]
      rfl
    have hfault := (portFault_raise (c := 0x0601) (i := 0xFF) p hr).next (relockFailed_changes p _)
    refine ⟨_, hexec, (portsBut_of_changes hf (by decide)).trans hbut, hne, hdue.trans hreel, fun hno => ?_,
      fun _ _ => ⟨hfault.faulted, hfault.changes, hfault.first⟩⟩
    rcases hno with hno | hno
    · exact absurd (hr.symm.trans hno) Bool.true_eq_false.mp
    · exact absurd (hp.symm.trans hno) Bool.true_eq_false.mp
  · rw [if_neg hjob] at hexec
    obtain ⟨hbut, hne, hdue⟩ := relockFailed_spec p s
    exact ⟨_, hexec, hbut, hne, hdue, fun _ => relockFailed_changes p s, fun hr hp => absurd (by rw [hr, hp]; rfl) hjob⟩

/-! ## The new wire latency -/

theorem remeasured_fields (job : Bool) (ps : Nat) (v : Port) :
    (remeasured job ps v).wirePs = ps ∧ (remeasured job ps v).measured = false ∧
    (job = true → (remeasured job ps v).st = .trained ∧ (remeasured job ps v).cls = v.cls ∧
      ((remeasured job ps v).remeasure = true ↔ v.remeasure = true ∨ ps ≠ v.wirePs)) ∧
    (job = false → (remeasured job ps v).remeasure = false ∧
      (ps = v.wirePs ∧ v.remeasure = false → (remeasured job ps v).st = .trained ∧ (remeasured job ps v).cls = v.cls) ∧
      (ps ≠ v.wirePs ∨ v.remeasure = true → (remeasured job ps v).st = .measuring ∧ (remeasured job ps v).cls = 0)) := by
  refine ⟨rfl, rfl, fun hj => ?_, fun hj => ⟨?_, fun ⟨hps, hre⟩ => ?_, fun hmoved => ?_⟩⟩
  · subst hj
    simp [remeasured]
  · subst hj
    simp [remeasured]
  · subst hj
    simp [remeasured, hps, hre]
  · subst hj
    rcases hmoved with h | h <;> simp [remeasured, h]

theorem exec_relockMeasure (hpop : portPop s p = true) (hst : (portOf s p).st = .relock) (hm : (portOf s p).measured = true) (ps : Nat) :
    exec (.relockMeasureDone p ps) s = .next (
      if running s && reelPort s p && decide (32000 * padClass s p < ps) then
        raiseFault 0x0602 (portUnit p) 0xFF 0 (updPort p (remeasured (running s) ps) s)
      else updPort p (remeasured (running s) ps) s) := congrArg Host.Outcome.next (if_pos (relockBack hpop hst hm))

/-- Lock that has returned, with the new latency known. -/
theorem relockMeasure_spec (hpop : portPop s p = true) (hst : (portOf s p).st = .relock) (hm : (portOf s p).measured = true) (ps : Nat) :
    ∃ t : State, exec (.relockMeasureDone p ps) s = .next t ∧ portsBut p s t ∧ portOf t p = remeasured (running s) ps (portOf s p) ∧
      (running s = false → changesOnly [.ports] s t) ∧ (ps ≤ 32000 * padClass s p → changesOnly [.ports] s t) ∧
      (running s = true → reelPort s p = true → 32000 * padClass s p < ps → t.job.faulted = true ∧
        changesOnly [.ports, .job, .settings, .test] s t ∧
        (s.job.ownFault = none → (t.job.ownFault.map (fun l => (l.code, l.unit))) =
          some (0x0602#16, BitVec.ofNat 16 (0x4000 + p)))) := by
  have hexec := exec_relockMeasure hpop hst hm ps
  have hupd := updPort_changes p (remeasured (running s) ps) s
  have hbut := portsBut_updPort p (remeasured (running s) ps) s
  have hself := portOf_updPort_self p (remeasured (running s) ps) s
  by_cases hjob : (running s && reelPort s p && decide (32000 * padClass s p < ps)) = true
  · rw [if_pos hjob] at hexec
    obtain ⟨hrp, hlate⟩ := Bool.and_eq_true_iff.mp hjob
    obtain ⟨hr, -⟩ := Bool.and_eq_true_iff.mp hrp
    have hr' : running (updPort p (remeasured (running s) ps) s) = true := hr
    have hf := raiseFault_changes 0x0602 (portUnit p) 0xFF 0 (updPort p (remeasured (running s) ps) s)
    have hfault := (portFault_raise (c := 0x0602) (i := 0xFF) p hr').after hupd
    refine ⟨_, hexec, hbut.trans (portsBut_of_changes hf (by decide)), (congrFun (hf.portOf_eq (by decide)) p).trans hself, fun hno => ?_,
      fun hle => ?_, fun _ _ _ => ⟨hfault.faulted, hfault.changes, hfault.first⟩⟩
    · exact absurd (hr.symm.trans hno) Bool.true_eq_false.mp
    · exact absurd (of_decide_eq_true hlate) (Nat.not_lt.mpr hle)
  · rw [if_neg hjob] at hexec
    exact ⟨_, hexec, hbut, hself, fun _ => hupd, fun _ => hupd,
      fun hr hp hlate => absurd (by rw [hr, hp, decide_eq_true hlate]; rfl) hjob⟩

/-! ## What a port hears (R112) -/

/-- The event of a list whose events all bear one code. -/
theorem firstEvent_of_code {code : Nat} {l : List Ev} (hl : l ≠ []) (h : ∀ e ∈ l, e.1 = code) : ∃ e, firstEvent l = some e ∧ e.1 = code := by
  have hfold : ∀ (l : List Ev) (x : Ev), x.1 = code → (∀ e ∈ l, e.1 = code) → ∃ e, l.foldl (fun a e =>
      match a with
      | some x => if e.1 < x.1 ∨ (e.1 = x.1 ∧ e.2 < x.2) then some e else some x
      | none => some e) (some x) = some e ∧ e.1 = code := by
    intro l
    induction l with
    | nil => exact fun x hx _ => ⟨x, rfl, hx⟩
    | cons a l ih =>
      intro x hx hall
      rw [List.foldl_cons]
      dsimp only
      have hrest := fun e he => hall e (List.mem_cons_of_mem _ he)
      split
      · exact ih a (hall a (List.mem_cons_self ..)) hrest
      · exact ih x hx hrest
  cases l with
  | nil => exact absurd rfl hl
  | cons a l => exact hfold l a (h a (List.mem_cons_self ..)) fun e he => h e (List.mem_cons_of_mem _ he)

theorem peerGone_of_none (h : missesParcel s p = false) : peerGone p s = s := if_neg (by rw [h]; exact Bool.false_ne_true)

theorem running_of_missing (h : missesParcel s p = true) : running s = true ∧ expected s p ≠ [] := by
  have hne : expected s p ≠ [] := by
    intro he
    rw [missesParcel, he] at h
    exact nomatch h
  refine ⟨?_, hne⟩
  cases hr : running s with
  | true => rfl
  | false => exact absurd (by rw [expected, hr]) hne

theorem peerGone_fault (h : missesParcel s p = true) : PortFault 0x0607 p s (peerGone p s) := by
  obtain ⟨hr, hne⟩ := running_of_missing h
  obtain ⟨e, he, hcode⟩ := firstEvent_of_code (code := 0x0607) (l := (expected s p).map (fun x => (0x0607, xPos x)))
    (fun hm => hne (List.map_eq_nil_iff.mp hm)) fun e hm => by
      obtain ⟨x, -, rfl⟩ := List.mem_map.mp hm
      rfl
  have hg : peerGone p s = raiseFault 0x0607 (portUnit p) e.2 0 s := by
    rw [peerGone, if_pos h, portEvent, he]
    dsimp only
    rw [hcode]
    rfl
  rw [hg]
  exact portFault_raise p hr

theorem peerGone_ports (p : Nat) (s : State) : portOf (peerGone p s) = portOf s := by
  by_cases h : missesParcel s p = true
  · obtain ⟨hr, hne⟩ := running_of_missing h
    obtain ⟨e, he, hcode⟩ := firstEvent_of_code (code := 0x0607) (l := (expected s p).map (fun x => (0x0607, xPos x)))
      (fun hm => hne (List.map_eq_nil_iff.mp hm)) fun e hm => by
        obtain ⟨x, -, rfl⟩ := List.mem_map.mp hm
        rfl
    rw [peerGone, if_pos h, portEvent, he]
    dsimp only
    rw [hcode]
    exact (raiseFault_changes _ _ _ _ s).portOf_eq (by decide)
  · rw [peerGone_of_none (Bool.not_eq_true _ ▸ h)]

/-- Whether a port that reports its far end's state leaves the trained state, a relock or a training. -/
def leavesLink (v : Port) : Bool := portUp v || v.st == .relock || v.st == .training

theorem hear_leaves (h : leavesLink (portOf s p) = true) (st : PortSt) :
    hear p st s = updPort p (fun w => { w with st := st }) (dropPort p (peerGone p s)) := if_pos h

theorem hear_stays (h : leavesLink (portOf s p) = false) (st : PortSt) : hear p st s = updPort p (fun w => { w with st := st }) s :=
  if_neg (by rw [← leavesLink, h]; exact Bool.false_ne_true)

theorem hear_spec (p : Nat) (st : PortSt) (s : State) :
    portsBut p s (hear p st s) ∧ (portOf (hear p st s) p).st = st ∧ (missesParcel s p = false → changesOnly [.ports] s (hear p st s)) ∧
    (portUp (portOf s p) = false → (portOf s p).st ≠ .relock → (portOf s p).st ≠ .training →
      portOf (hear p st s) p = { portOf s p with st := st }) ∧
    (portUp (portOf s p) = true → missesParcel s p = true → PortFault 0x0607 p s (hear p st s)) := by
  have hupd := fun a => updPort_changes p (fun w => { w with st := st }) a
  by_cases h : leavesLink (portOf s p) = true
  · rw [hear_leaves h]
    have hgone : portsBut p s (peerGone p s) := fun q _ => congrFun (peerGone_ports p s) q
    have hdrop := (dropPort_changes p (peerGone p s)).trans (hupd _)
    refine ⟨(hgone.trans (portsBut_dropPort p _)).trans (portsBut_updPort p _ _), ?_, fun hm => ?_, fun hup hre htr => ?_, fun _ hm => ?_⟩
    · rw [portOf_updPort_self]
    · rw [peerGone_of_none hm] at hdrop ⊢
      exact hdrop
    · exfalso
      simp [leavesLink, hup, hre, htr] at h
    · exact (peerGone_fault hm).next hdrop
  · have hstay := hear_stays (Bool.not_eq_true _ ▸ h) st
    rw [hstay]
    refine ⟨portsBut_updPort p _ s, by rw [portOf_updPort_self], fun _ => hupd s, fun _ _ _ => portOf_updPort_self p _ s, fun hup _ => ?_⟩
    exfalso
    simp [leavesLink, hup] at h

end Sys2Proof.Machine

open Sys2Proof Sys2Proof.Machine

/-- Settles O53: a port relocks under a Reel and drops without one, lock that returns measures it anew (`relockMeasure_spec`), lock that
does not is a fault of the job (`relockTimeout_spec`), and a far end that is gone is heard (`hear_spec`). -/
theorem linksRelockAndDrop : Obligations.LinksRelockAndDrop := by
  refine ⟨fun s p hpop hf => ⟨fun hreel hst => ?_, fun h hserv => ?_⟩, fun s p hpop hst hm => ⟨?_, relockTimeout_spec hpop hst hm⟩,
    fun s p ps hpop hst hm => ?_, fun s p c st hl hc => ?_⟩
  · exact ⟨_, laneLock_relocks hpop hf hreel hst, setPort_changes _ _ s, portsBut_setPort p _ s,
      by rw [portOf_setPort_self]; rfl, by rw [portOf_setPort_self]; rfl, by rw [portOf_setPort_self]; rfl,
      by rw [portOf_setPort_self]; rfl, by rw [portOf_setPort_self]; rfl⟩
  · exact ⟨_, laneLock_drops hpop hf h, dropPort_changes p s, portsBut_dropPort p s,
      by rw [portOf_dropPort_self]; exact droppedPort_inService hserv _⟩
  · exact ⟨_, congrArg Host.Outcome.next (if_pos (relockWaits hpop hst hm)), setPort_changes _ _ s, portsBut_setPort p _ s,
      portOf_setPort_self p _ s⟩
  · obtain ⟨t, ht, hbut, hself, hidle, hfits, hlate⟩ := relockMeasure_spec hpop hst hm ps
    obtain ⟨hps, hmeas, hjob, hno⟩ := remeasured_fields (running s) ps (portOf s p)
    refine ⟨t, ht, hbut, by rw [hself]; exact hps, by rw [hself]; exact hmeas, fun hr => by rw [hself]; exact hjob hr, fun hr => ?_, hfits, hlate⟩
    rw [hself]
    exact ⟨hidle hr, hno hr⟩
  · have hexec : exec c s = .next (hear p st s) := by
      simp only [List.mem_cons, List.not_mem_nil, or_false, Prod.mk.injEq] at hc
      rcases hc with ⟨rfl, rfl⟩ | ⟨rfl, rfl⟩ | ⟨rfl, rfl⟩
      all_goals exact congrArg Host.Outcome.next (if_pos hl)
    obtain ⟨hbut, hst, hquiet, hplain, hgone⟩ := hear_spec p st s
    refine ⟨_, hexec, hbut, hst, hquiet, hplain, fun hup hm => ?_⟩
    obtain ⟨hfaulted, hch, hfirst⟩ := hgone hup hm
    exact ⟨hfaulted, hch, hfirst⟩

end

section
/-! Proofs: a job that ends with no unit held (R328), CANCEL (R150) and the CLEAR that ends a stop (R29, R249; O49). -/

namespace Sys2Proof.Machine

variable {s t : State} {A : List Part}

/-! ## The end of a job that releases no unit -/

theorem changesOnly.firstOut_eq (h : changesOnly A s t) (hr : Part.reel ∉ A) (hs : Part.settings ∉ A) (hi : Part.ident ∉ A) :
    firstOut t = firstOut s := by
  have hreel : t.reel = s.reel := h .reel hr
  have hset : t.store.set = s.store.set := h .settings hs
  have hout : ∀ i, outOfService t i = outOfService s i := fun i => by
    rw [outOfService, outOfService, h.unitSt_eq hi hs]
  simp only [firstOut, hreel, hset, hout]

/-- A job boundary with no unit held and no unit of the Reel out of service changes nothing. -/
theorem jobBoundary_of_quiet (hheld : ∀ x ∈ s.store.set.units, x.2.held = false) (hout : firstOut s = none) : jobBoundary s = s := by
  simp only [jobBoundary, releaseAll_of_noneHeld hheld, hout]

theorem endWindowTest_quiet (h : noHeld s) : changesOnly [.test] s (endWindowTest s) := by
  unfold endWindowTest
  split
  · rename_i w hw
    split
    · rename_i hby
      rw [scoreHeld_of_nil (h w hw hby)]
      intro p hp
      cases p
      case test => exact absurd (by decide) hp
      all_goals rfl
    · exact .refl _ s
  · exact .refl _ s

/-- What the end of a job changes besides its record, where no unit is held and no result held back. -/
def quietEnds : List Part := [.test, .tiles, .mems, .job, .ports, .localq, .transits, .shadowed, .stage, .far, .work]

/-- A job ended, before its record and the boundary. -/
def jobEnded (f : Bool) (s : State) : State := clearJob f (endWindowTest (unsealStep s))

theorem jobEnded_changes (h : noHeld s) (f : Bool) : changesOnly quietEnds s (jobEnded f s) := by
  have hu := unsealStep_changes s
  have htest : (unsealStep s).sec.test = s.sec.test := hu .test (by decide)
  have hq : noHeld (unsealStep s) := fun w hw => h w (htest ▸ hw)
  exact ((hu.mono (by decide)).trans ((endWindowTest_quiet hq).mono (by decide))).trans ((clearJob_changes f _).mono (by decide))

theorem jobEnded_idle (f : Bool) (s : State) : (jobEnded f s).job.st = .idle := rfl

theorem jobEnded_rings (h : noHeld s) (f : Bool) : (jobEnded f s).rings = s.rings :=
  (jobEnded_changes h f).rings_eq (by decide) (by decide)

/-- With no unit held, no result held back and every unit of the Reel in service, the end of a job is its record alone. -/
theorem finishJob_quiet (hheld : ∀ x ∈ s.store.set.units, x.2.held = false) (hout : firstOut s = none) (h : noHeld s) (k : Nat) (f : Bool) :
    finishJob k f s = complete (jobEndRec s.job.launch k s.power.jobEnergy) (jobEnded f s) := by
  have hc := jobEnded_changes h f
  have hpow : (jobEnded f s).power = s.power := hc .power (by decide)
  have hall : changesOnly (recordParts ++ quietEnds) s (complete (jobEndRec s.job.launch k s.power.jobEnergy) (jobEnded f s)) :=
    (hc.mono (by decide)).trans ((complete_changes _ _).mono (by decide))
  have hset : (complete (jobEndRec s.job.launch k s.power.jobEnergy) (jobEnded f s)).store.set = s.store.set := hall .settings (by decide)
  have e : finishJob k f s = jobBoundary (complete (jobEndRec s.job.launch k (jobEnded f s).power.jobEnergy) (jobEnded f s)) := rfl
  rw [e, hpow]
  refine jobBoundary_of_quiet (fun x hx => hheld x (hset ▸ hx)) ?_
  rw [hall.firstOut_eq (by decide) (by decide) (by decide), hout]

/-! ## CANCEL -/

theorem cancelJob_busy {status info : Nat} (hst : (s.job.st = .armed ∧ status = 2 ∧ info = 1) ∨ (s.job.st = .running ∧ status = 3 ∧ info = 2)) :
    ∃ f, cancelJob s = (finishJob status f s, info) := by
  rcases hst with ⟨ha, rfl, rfl⟩ | ⟨hr, rfl, rfl⟩
  · have harm : armed s = true := by simp [armed, ha]
    exact ⟨s.job.faulted, by rw [cancelJob, ha]; simp only [disarm, harm, if_true]⟩
  · exact ⟨false, by rw [cancelJob, hr]⟩

section
variable {d : BitVec 512} (hs : canStart s = true) (hop : dOp d = 0x08) (hd : bareOk d = true)
include hs hop hd

theorem exec_cancel : exec (.cancel d) s =
    .next (complete (recOf d (sqNext s) true 0 (leBytes 1 (cancelJob (takeDesc s)).2)) (cancelJob (takeDesc s)).1) :=
  desc_accepted (checks := fun _ => [(!bareOk d, 0x10)])
    (f := fun sq a => finish d sq 0 (leBytes 1 (cancelJob a).2) (cancelJob a).1) rfl hs hop (by simp [firstFailure, hd])

theorem cancel_idle (hst : s.job.st = .idle) : ∃ t : State, exec (.cancel d) s = .next t ∧ changesOnly recordParts s t ∧
    recordedAs (recOf d (sqNext s) true 0 [0]) s t := by
  have hj : cancelJob (takeDesc s) = (takeDesc s, 0) := by
    have hst' : (takeDesc s).job.st = .idle := hst
    rw [cancelJob, hst']
  have hexec := exec_cancel hs hop hd
  rw [hj] at hexec
  exact ⟨_, hexec, complete_takeDesc_changes _ s, rfl, rfl⟩

theorem cancel_busy {status info : Nat} {e : Rec}
    (hst : (s.job.st = .armed ∧ status = 2 ∧ info = 1) ∨ (s.job.st = .running ∧ status = 3 ∧ info = 2))
    (hheld : ∀ x ∈ s.store.set.units, x.2.held = false) (hout : firstOut s = none) (hq : noHeld s)
    (he : e = jobEndRec s.job.launch status s.power.jobEnergy) :
    ∃ t : State, exec (.cancel d) s = .next t ∧ changesOnly (recordParts ++ jobEnds) s t ∧ t.job.st = .idle ∧
      t.reel = s.reel ∧ t.sec.totals = s.sec.totals ∧ t.window.panels = s.window.panels ∧
      t.rings = (complete (recOf d (sqNext s) true 0 [BitVec.ofNat 8 info]) (complete e (takeDesc s))).rings ∧
      hostMem t = hostMem (complete (recOf d (sqNext s) true 0 [BitVec.ofNat 8 info]) (complete e (takeDesc s))) := by
  obtain ⟨f, hj⟩ := cancelJob_busy (s := takeDesc s) hst
  have hfin : finishJob status f (takeDesc s) = complete e (jobEnded f (takeDesc s)) := by
    rw [he]
    exact finishJob_quiet (s := takeDesc s) hheld hout hq status f
  have hexec := exec_cancel hs hop hd
  have hinfo : leBytes 1 info = [BitVec.ofNat 8 info] := by simp [leBytes]
  rw [hj, hinfo, hfin] at hexec
  have h1 : changesOnly quietEnds (takeDesc s) (jobEnded f (takeDesc s)) := jobEnded_changes (s := takeDesc s) hq f
  have halike : RecordsAlike (takeDesc s) (jobEnded f (takeDesc s)) :=
    h1.recordsAlike (jobEnded_rings (s := takeDesc s) hq f) (by decide) (by decide) (by decide)
  have hrec := complete_recordsAlike (complete_recordsAlike halike e) (recOf d (sqNext s) true 0 [BitVec.ofNat 8 info])
  have hall : changesOnly (recordParts ++ quietEnds) s _ :=
    ((((takeDesc_changes s).mono (by decide)).trans (h1.mono (by decide))).trans ((complete_changes e _).mono (by decide))).trans
      ((complete_changes (recOf d (sqNext s) true 0 [BitVec.ofNat 8 info]) _).mono (by decide))
  have hjob : (complete (recOf d (sqNext s) true 0 [BitVec.ofNat 8 info]) (complete e (jobEnded f (takeDesc s)))).job.st = .idle := by
    rw [show (complete (recOf d (sqNext s) true 0 [BitVec.ofNat 8 info]) (complete e (jobEnded f (takeDesc s)))).job =
      (jobEnded f (takeDesc s)).job from (complete_changes _ _ .job (by decide)).trans (complete_changes _ _ .job (by decide))]
    exact jobEnded_idle f _
  exact ⟨_, hexec, hall.mono (by decide), hjob, hall .reel (by decide), hall .totals (by decide), hall .panels (by decide),
    hrec.rings, hrec.host⟩

end

/-! ## CLEAR of a stopped package -/

theorem causePresent_iff : causePresent s = true ↔
    (s.tray.coolFlowN = false ∨ 95 ≤ s.tray.tMax ∨ s.tray.vin48 < 40000 ∨ 59500 < s.tray.vin48 ∨ s.tray.lref0 = false) := by
  simp [causePresent, or_assoc]

theorem wakeStack_changes (k : Nat) (s : State) : changesOnly [.mems] s (wakeStack k s) := by
  unfold wakeStack
  exact .ite (updMem_changes k _ s) (.refl _ s)

theorem memOf_wakeStack_other {j k : Nat} (h : j ≠ k) (s : State) : memOf (wakeStack k s) j = memOf s j := by
  unfold wakeStack
  split
  · exact memOf_updMem_other h _ s
  · rfl

theorem memOf_wakeStack_self (k : Nat) (s : State) : (memOf (wakeStack k s) k).blocks = (memOf s k).blocks ∧
    (unitSt s (1072 + k) = .active → (memOf s k).st = .selfRefresh → (memOf (wakeStack k s) k).st = .trained) := by
  unfold wakeStack
  split
  · rw [memOf_updMem_self]
    split
    · exact ⟨rfl, fun _ _ => rfl⟩
    · rename_i h
      exact ⟨rfl, fun _ hs => absurd hs h⟩
  · rename_i h
    exact ⟨rfl, fun hu => absurd (.inl hu) h⟩

theorem memOf_wakeAll_blocks (l : List Nat) (s : State) (k : Nat) :
    (memOf (l.foldl (fun a j => wakeStack j a) s) k).blocks = (memOf s k).blocks := by
  refine foldl_keeps (P := fun a => (memOf a k).blocks = (memOf s k).blocks) (fun a j ha => ?_) l rfl
  by_cases h : k = j
  · subst h
    exact (memOf_wakeStack_self k a).1.trans ha
  · rw [memOf_wakeStack_other h]
    exact ha

theorem memOf_wakeAll_trained {k : Nat} (hk : k < 8) (hu : unitSt s (1072 + k) = .active) (hm : (memOf s k).st = .selfRefresh) :
    (memOf ((List.range 8).foldl (fun a j => wakeStack j a) s) k).st = .trained := by
  have hv : ∀ a x, x ≠ k → (unitSt (wakeStack x a) (1072 + k), memOf (wakeStack x a) k) = (unitSt a (1072 + k), memOf a k) :=
    fun a x hx => by rw [(wakeStack_changes x a).unitSt_eq (by decide) (by decide), memOf_wakeStack_other (Ne.symm hx)]
  obtain ⟨a, ha, he⟩ := foldl_view_of_mem (f := fun a j => wakeStack j a) (v := fun a => (unitSt a (1072 + k), memOf a k)) hv
    List.nodup_range (List.mem_range.mpr hk) s
  obtain ⟨hua, hma⟩ := Prod.mk.inj ha
  rw [(Prod.mk.inj he).2]
  exact (memOf_wakeStack_self k a).2 (hua.trans hu) (by rw [hma]; exact hm)

/-- A stop ended, before the stacks wake and the end is logged. -/
def stopEnded (s : State) : State :=
  { s with stop := { stopped := false, first := none, cool := false, therm := false, supply := false, clock := false }, tray := { s.tray with thermTripN := true },
           window := { Window.reset with size := s.window.size, hostMem := s.window.hostMem }, power := { s.power with cls := 3 },
           pacer := { s.pacer with running := true }, boot := { s.boot with stage := .selfTest, overrunHold := false } }

/-- A stop ended, with the stacks awake and the ports back at the start of their training. -/
def stopWoken (s : State) : State := dropPorts ((List.range 8).foldl (fun a k => wakeStack k a) (stopEnded s))

theorem clearStop_eq (s : State) : clearStop s = appendLog 3 0 (causeFlags s.stop) (post 0x0BA5 [] (stopWoken s)) := by
  simp only [clearStop, stopWoken, stopEnded]

theorem stopWoken_changes (s : State) : changesOnly [.mems, .ports] (stopEnded s) (stopWoken s) :=
  ((changesOnly.foldl (fun a k => wakeStack_changes k a) _ _).mono (by decide)).trans ((dropPorts_changes _).mono (by decide))

theorem clearStop_changes (s : State) : changesOnly (.settings :: .mems :: .ports :: posts) (stopEnded s) (clearStop s) := by
  rw [clearStop_eq]
  exact (((stopWoken_changes s).mono (by decide)).trans ((post_changes _ _ _).mono (by decide))).trans ((appendLog_changes _ _ _ _).mono (by decide))

theorem clearStop_mems (s : State) : (clearStop s).mems = ((List.range 8).foldl (fun a k => wakeStack k a) (stopEnded s)).mems := by
  rw [clearStop_eq, show (appendLog 3 0 (causeFlags s.stop) (post 0x0BA5 [] (stopWoken s))).mems = (stopWoken s).mems from
    (appendLog_changes _ _ _ _ .mems (by decide)).trans (post_changes _ _ _ .mems (by decide))]
  exact dropPorts_changes _ .mems (by decide)

theorem appendLog_kind (kind code arg : Nat) (s : State) :
    (appendLog kind code arg s).store.set.log.getLast?.map (fun e => e.getD 24 0) = some (BitVec.ofNat 8 kind) := by
  simp only [appendLog, updSet]
  rw [getLast?_keepLast, Option.map_some, logEntry_kind]

theorem clearStop_log (s : State) : ((clearStop s).store.set.log.getLast?.map (fun e => e.getD 24 0)) = some 3 := by
  rw [clearStop_eq, appendLog_kind]
  rfl

theorem clearStop_seq (s : State) : (clearStop s).rings.seq = nextSeq s.rings.seq := by
  have h : (stopWoken s).rings = s.rings := (stopWoken_changes s).rings_eq (by decide) (by decide)
  rw [clearStop_eq, (appendLog_changes _ _ _ _).rings_eq (by decide) (by decide), post_seq, h]

theorem complete_seq (c : Rec) (s : State) : (complete c s).rings.seq = s.rings.seq := (flushDue_events _).2.2

section
variable {d : BitVec 512} (hs : canStart s = true) (hop : dOp d = 0x0B) (hd : bareOk d = true) (hstop : s.stop.stopped = true)
include hs hop hd hstop

/-- The checks of a CLEAR. -/
def clearChecks (d : BitVec 512) (s : State) : List (Bool × Nat) := [(!bareOk d, 0x10), (s.stop.stopped && causePresent s, 0x1D)]

/-- What a CLEAR that passes its checks does. -/
def clearGo (d : BitVec 512) (sq : Nat) (s : State) : State :=
  if s.stop.stopped then finish d sq 0 (leBytes 1 (causeFlags s.stop)) (clearStop s) else finish d sq 0 [] s

theorem clear_refused (h : causePresent s = true) : ∃ t : State, exec (.clear d) s = .next t ∧ changesOnly recordParts s t ∧
    recordedAs (recOf d (sqNext s) true 0x1D []) s t :=
  desc_refused (c := .clear d) (checks := clearChecks d) (f := clearGo d) rfl hs hop (by
    have hc : ((takeDesc s).stop.stopped && causePresent (takeDesc s)) = true := by
      show (s.stop.stopped && causePresent s) = true
      rw [hstop, h]
      rfl
    simp [clearChecks, firstFailure, hd, hc])

theorem exec_clear (h : causePresent s = false) : exec (.clear d) s =
    .next (complete (recOf d (sqNext s) true 0 (leBytes 1 (causeFlags s.stop))) (clearStop (takeDesc s))) := by
  have hc : ((takeDesc s).stop.stopped && causePresent (takeDesc s)) = false := by
    show (s.stop.stopped && causePresent s) = false
    rw [h, Bool.and_false]
  refine (desc_accepted (c := .clear d) (checks := clearChecks d) (f := clearGo d) rfl hs hop
    (by simp [clearChecks, firstFailure, hd, hc])).trans ?_
  exact congrArg _ (if_pos hstop)

theorem clear_accepted (h : causePresent s = false) : ∃ t : State, exec (.clear d) s = .next t ∧ t.stop = State.reset.stop ∧
    t.tray = { s.tray with thermTripN := true } ∧ t.power.cls = 3 ∧ t.pacer.running = true ∧ t.boot.stage = .selfTest ∧
    t.window.size = s.window.size ∧ (∀ p, (panelOf t p).st = .free) ∧ t.window.stage = [] ∧ t.window.gaccs = [] ∧
    t.rings.seq = nextSeq s.rings.seq ∧ (t.store.set.log.getLast?.map (fun e => e.getD 24 0)) = some 3 ∧
    (∀ k, (memOf t k).blocks = (memOf s k).blocks) ∧
    (∀ k, k < 8 → (memOf s k).st = .selfRefresh → unitSt s (1072 + k) = .active → (memOf t k).st = .trained) := by
  have hexec := exec_clear hs hop hd hstop h
  have hrec := complete_changes (recOf d (sqNext s) true 0 (leBytes 1 (causeFlags s.stop))) (clearStop (takeDesc s))
  have hseq := complete_seq (recOf d (sqNext s) true 0 (leBytes 1 (causeFlags s.stop))) (clearStop (takeDesc s))
  have hall := ((clearStop_changes (takeDesc s)).mono (B := .settings :: .mems :: .ports :: (posts ++ recordParts)) (by decide)).trans
    (hrec.mono (by decide))
  generalize complete (recOf d (sqNext s) true 0 (leBytes 1 (causeFlags s.stop))) (clearStop (takeDesc s)) = t at hexec hrec hseq hall
  have hpower : t.power = (stopEnded (takeDesc s)).power := hall .power (by decide)
  have hpacer : t.pacer = (stopEnded (takeDesc s)).pacer := hall .pacer (by decide)
  have hboot : t.boot = (stopEnded (takeDesc s)).boot := hall .boot (by decide)
  have hpanels : t.window.panels = [] := hall .panels (by decide)
  have hset : t.store.set = (clearStop (takeDesc s)).store.set := hrec .settings (by decide)
  have hmem : ∀ k, memOf t k = memOf ((List.range 8).foldl (fun a k => wakeStack k a) (stopEnded (takeDesc s))) k := fun k => by
    rw [hrec.memOf_eq (by decide), memOf, memOf, clearStop_mems]
  refine ⟨t, hexec, hall .stop (by decide), hall .tray (by decide), by rw [hpower]; rfl, by rw [hpacer]; rfl, by rw [hboot]; rfl,
    hall .windowSize (by decide), fun p => by rw [panelOf, hpanels]; rfl, hall .stage (by decide), hall .gaccs (by decide),
    hseq.trans (clearStop_seq _), by rw [hset]; exact clearStop_log _, fun k => ?_, fun k hk hst hu => ?_⟩
  · rw [hmem, memOf_wakeAll_blocks]
    rfl
  · rw [hmem]
    exact memOf_wakeAll_trained hk hu hst

end

end Sys2Proof.Machine

open Sys2Proof Sys2Proof.Machine

/-- Settles O49: the end of the job is its record alone (`finishJob_quiet`), and a CLEAR wakes the stacks one by one
(`clear_accepted`). -/
theorem cancelAndClear : Obligations.CancelAndClear := by
  refine ⟨fun s d hs hop hd => ⟨cancel_idle hs hop hd, fun status info e hst hheld hout hq he =>
    cancel_busy hs hop hd hst hheld hout hq he⟩, fun s d hs hop hd hstop =>
    ⟨fun h => clear_refused hs hop hd hstop (causePresent_iff.mpr h), fun h1 h2 h3 h4 h5 => clear_accepted hs hop hd hstop ?_⟩⟩
  simp [causePresent, h1, h5]
  omega
end

section
/-! Proofs: a job starts at its count and ends with one record (R149, R191, R193, R303; O41). -/

namespace Sys2Proof.Machine

variable {s t : State}

/-! ## LAUNCH_FIRE -/

/-- A fault of a running job shows in four fields of the job alone. -/
theorem raiseFault_job_eq (c : Nat) (u : UnitField) (i w : Nat) (h : running s = true) :
    ∃ o n k, (raiseFault c u i w s).job = { s.job with ownFault := o, faulted := true, notice := n, noticeAt := k } := by
  unfold raiseFault raiseFaultLoc
  rw [if_pos h]
  extract_lets job s1
  have h1 : running s1 = true := h
  have hj : (takeNotice (ownNotice s1 (locHere s c u i w) true) s1).job = (holdNotice (ownNotice s1 (locHere s c u i w) true) s1).job := by
    unfold takeNotice
    rw [if_pos h1]
    exact abortWindowTest_changes _ _ .job (by decide)
  rw [hj]
  unfold holdNotice
  split
  · split
    · exact ⟨_, _, _, rfl⟩
    · exact ⟨_, s.job.notice, s.job.noticeAt, rfl⟩
  · exact ⟨_, _, _, rfl⟩

theorem enterJob_changes (r : Reel) (s : State) : changesOnly [.job, .det, .power] s (enterJob r s) := by
  intro p hp
  cases p
  case job => exact absurd (by decide) hp
  case det => exact absurd (by decide) hp
  case power => exact absurd (by decide) hp
  all_goals rfl

/-- Slot 0 of step 1 of a launch, before a fence that came at once faults it. -/
def launched (r : Reel) (s : State) : State := capSpacing (beginStep r 1 1 (enterJob r s))

theorem launched_changes (r : Reel) (s : State) : changesOnly [.job, .tiles, .shadowed, .det, .power] s (launched r s) :=
  (((enterJob_changes r s).mono (by decide)).trans ((beginStep_changes r 1 1 _).mono (by decide))).trans
    ((capSpacing_changes _).mono (by decide))

theorem launched_leaves (r : Reel) (s : State) : (launched r s).det.leaves = s.det.leaves.take (residentInputs r) := by
  have h : (launched r s).det = (enterJob r s).det :=
    ((beginStep_changes r 1 1 _).mono (B := [.tiles, .shadowed, .job, .power]) (by decide) |>.trans
      ((capSpacing_changes _).mono (by decide))) .det (by decide)
  rw [h]
  rfl

section
variable {r : Reel} {pat ph : Nat} (hplan : stepPlan r 1 = some (pat, ph))
include hplan

theorem launched_job : (launched r s).job = { Job.none with
    st := .running
    start := s.job.start
    launch := s.job.launch
    lastCode := s.job.lastCode
    lastOrigin := s.job.lastOrigin
    step := 1
    attempt := 1
    slot := 0
    pattern := pat
    phase := ph } := by
  rw [show (launched r s).job = (beginStep r 1 1 (enterJob r s)).job from capSpacing_changes _ .job (by decide), beginStep_job _ _ hplan]
  rfl

theorem tileOf_launched (h : sparseOk s) {u : Nat} (hu : u < 1024) : (tileOf (launched r s) u).todo = stepWords r u ph pat ∧
    (tileOf (launched r s) u).inbox = [] ∧ ∀ l, (lineAt (tileOf (launched r s) u) l).cur.data = (lineAt (tileOf s u) l).cur.data := by
  have htile : tileOf (launched r s) u = beginTile (stepWords r u ph pat) (enterJob r s).job.slot (tileOf s u) :=
    (congrFun ((capSpacing_changes _).tileOf_eq (by decide)) u).trans (tileOf_beginStep (s := enterJob r s) hplan hu)
  rw [htile]
  refine ⟨rfl, rfl, fun l => ?_⟩
  have hline : lineAt (beginTile (stepWords r u ph pat) (enterJob r s).job.slot (tileOf s u)) l = (lineAt (tileOf s u) l).unmark :=
    look_mapVals (f := LineSt.unmark) (canonical_iff.mp (h.2.2.2.1 u)).1 rfl l
  rw [hline]
  rfl

end

theorem exec_launchFire {r : Reel} (hp : s.pacer.running = true) (ha : armed s = true) (hr : s.reel = some r) :
    exec .launchFire s = .next (if s.job.start = s.bridle.count then fire r s else s) := by
  show execLaunchFire s = _
  have hcnt : cnt s = s.bridle.count := rfl
  unfold execLaunchFire
  by_cases h : s.job.start = s.bridle.count
  · simp only [hp, ha, hr, hcnt, h, beq_self_eq_true, Bool.and_true, if_true]
  · simp only [hp, ha, hcnt, beq_eq_false_iff_ne.mpr h, Bool.and_false, if_neg h]

/-- An armed launch at its count. -/
theorem launchFire_spec {r : Reel} {pat ph : Nat} (h : sparseOk s) (hp : s.pacer.running = true) (ha : armed s = true)
    (hr : s.reel = some r) (hplan : stepPlan r 1 = some (pat, ph)) (hat : s.job.start = s.bridle.count) :
    ∃ t : State, exec .launchFire s = .next t ∧ t.job.st = .running ∧ t.job.step = 1 ∧ t.job.attempt = 1 ∧ t.job.slot = 0 ∧
      t.job.start = s.job.start ∧ t.job.launch = s.job.launch ∧ t.job.final = 0 ∧ t.job.sealed_ = none ∧
      (∀ u, u < 1024 → (tileOf t u).todo = stepWords r u ph pat ∧ (tileOf t u).inbox = [] ∧
        ∀ l, (lineAt (tileOf t u) l).cur.data = (lineAt (tileOf s u) l).cur.data) ∧
      t.det.leaves = s.det.leaves.take (residentInputs r) ∧
      (s.job.fenceNow = none → t.job.notice = none ∧ t.job.faulted = false ∧
        changesOnly [.job, .tiles, .shadowed, .det, .power] s t) ∧
      (∀ u, s.job.fenceNow = some u → t.job.faulted = true ∧
        (t.job.ownFault.map (fun l => (l.code, l.unit))) = some (0x0F01#16, u)) := by
  have hj := launched_job (s := s) hplan
  have hexec := (exec_launchFire hp ha hr).trans (congrArg Host.Outcome.next (if_pos hat))
  cases hf : s.job.fenceNow with
  | none =>
    have hfire : fire r s = launched r s := by
      unfold fire
      rw [hf]
      rfl
    refine ⟨_, hexec, ?_⟩
    rw [hfire, hj]
    exact ⟨rfl, rfl, rfl, rfl, rfl, rfl, rfl, rfl, fun u hu => tileOf_launched hplan h hu, launched_leaves r s,
      fun _ => ⟨rfl, rfl, launched_changes r s⟩, fun u hu => nomatch hu⟩
  | some u =>
    have hfire : fire r s = raiseFault 0x0F01 u 0xFF 0 (launched r s) := by
      unfold fire
      rw [hf]
      rfl
    have hrun : running (launched r s) = true := by
      unfold running
      rw [hj]
      rfl
    have hown : (launched r s).job.ownFault = none := by
      rw [hj]
      rfl
    have hc := raiseFault_changes 0x0F01 u 0xFF 0 (launched r s)
    obtain ⟨o, n, k, hrj⟩ := raiseFault_job_eq 0x0F01 u 0xFF 0 hrun
    have hro := raiseFault_ownFault 0x0F01 u 0xFF 0 hrun hown
    refine ⟨_, hexec, ?_⟩
    rw [hfire]
    generalize raiseFault 0x0F01 u 0xFF 0 (launched r s) = t at hc hrj hro
    have ht : tileOf t = tileOf (launched r s) := hc.tileOf_eq (by decide)
    have hdet : t.det = (launched r s).det := hc .det (by decide)
    rw [ht, hdet, hro, hrj, hj]
    refine ⟨rfl, rfl, rfl, rfl, rfl, rfl, rfl, rfl, fun u hu => tileOf_launched hplan h hu, launched_leaves r s,
      fun hn => (nomatch hn), fun v hv => ⟨rfl, ?_⟩⟩
    rw [← Option.some.inj hv]
    rfl

/-! ## Units that stay as they are in the end of a job -/

/-- No unit is held, and the loaded Reel names no listed unit that is out of service. -/
structure Settled (s : State) : Prop where
  held : ∀ x ∈ s.store.set.units, x.2.held = false
  named : ∀ r, s.reel = some r → ∀ x ∈ s.store.set.units, reelNames r x.1 = true → inService s x.1

theorem inService_of_not_out {i : Nat} (h : outOfService s i = false) : inService s i := by
  unfold outOfService at h
  unfold inService
  cases hu : unitSt s i <;> simp [hu] at h ⊢

theorem outOfService_of_inService {i : Nat} (h : inService s i) : outOfService s i = false := by
  simp [outOfService, ne_fenced_of_inService h, ne_off_of_inService h]

theorem firstOut_eq_none_iff : firstOut s = none ↔
    ∀ r, s.reel = some r → ∀ x ∈ s.store.set.units, reelNames r x.1 = true → inService s x.1 := by
  unfold firstOut
  cases hr : s.reel with
  | none => exact ⟨fun _ r h => (nomatch h), fun _ => rfl⟩
  | some r =>
    simp only [Option.map_eq_none_iff, List.find?_eq_none, Bool.and_eq_true, not_and]
    constructor
    · intro h r' hr' x hx hn
      obtain rfl := Option.some.inj hr'
      exact inService_of_not_out (Bool.eq_false_iff.mpr (h x hx hn))
    · intro h x hx hn
      exact Bool.eq_false_iff.mp (outOfService_of_inService (h r rfl x hx hn))

theorem settled_iff : Settled s ↔ (∀ x ∈ s.store.set.units, x.2.held = false) ∧ firstOut s = none := by
  rw [firstOut_eq_none_iff]
  exact ⟨fun h => ⟨h.held, h.named⟩, fun h => ⟨h.1, h.2⟩⟩

theorem Settled.of_units (h : Settled s) (hu : t.store.set.units = s.store.set.units) (hi : t.ident = s.ident) (hr : t.reel = s.reel) :
    Settled t where
  held := hu ▸ h.held
  named := fun r hrt x hx hn => by
    rw [inService, unitSt, unitEntry_of_units hi hu]
    exact h.named r (hr ▸ hrt) x (hu ▸ hx) hn

theorem Settled.of_changes {A : List Part} (h : Settled s) (hc : changesOnly A s t) (hr : Part.reel ∉ A) (hs : Part.settings ∉ A)
    (hi : Part.ident ∉ A) : Settled t :=
  h.of_units (congrArg Settings.units (hc .settings hs)) (hc .ident hi) (hc .reel hr)

theorem mem_units_setUnit {i : Nat} {e : UnitEntry} {x : Nat × UnitEntry} (hx : x ∈ (setUnit i e s).store.set.units) :
    x = (i, e) ∨ x ∈ s.store.set.units := by
  unfold setUnit at hx
  split at hx
  · exact .inr hx
  · change x ∈ store _ i e s.store.set.units at hx
    unfold store at hx
    split at hx
    · exact .inr (mem_erase hx)
    · exact mem_put hx

/-- A unit that is put in service and not held keeps the table settled. -/
theorem Settled.setUnit {i : Nat} {e : UnitEntry} (h : Settled s) (hi : unitPop s i = true) (hheld : e.held = false)
    (he : shownSt e = .active ∨ shownSt e = .watch) : Settled (setUnit i e s) where
  held := fun x hx => by
    rcases mem_units_setUnit hx with rfl | hx
    · exact hheld
    · exact h.held x hx
  named := fun r hr x hx hn => by
    have hr' : s.reel = some r := (setUnit_changes i e s .reel (by decide)).symm.trans hr
    rcases mem_units_setUnit hx with rfl | hx
    · rw [inService, unitSt, unitEntry_setUnit_self hi]
      exact he
    · exact inService_setUnit he (h.named r hr' x hx hn) i

theorem Settled.appendHistory (h : Settled s) (e : List Byte) : Settled (appendHistory e s) :=
  h.of_units (by simp [Machine.appendHistory]) (appendHistory_changes e s .ident (by decide)) (appendHistory_changes e s .reel (by decide))

theorem Settled.enterWatch {i : Nat} (h : Settled s) (hi : unitPop s i = true) (c : Nat) : Settled (enterWatch c i s) := by
  unfold Machine.enterWatch
  extract_lets due s1 s2
  have h1 : Settled s1 := h.setUnit hi rfl (.inr rfl)
  have h2 : Settled s2 := h1.of_changes (updHealth_changes i _ s1) (by decide) (by decide) (by decide)
  have h3 := h2.of_changes (post_changes 0x0AA2 (unitInfo s2 i) s2) (by decide) (by decide) (by decide)
  exact h3.of_changes (unitFsr_changes c i none _) (by decide) (by decide) (by decide)

theorem Settled.kaPass (h : Settled s) (i : Nat) : Settled (kaPass i s) := by
  unfold Machine.kaPass
  split
  · rename_i hw
    have hi : unitPop s i = true := unitPop_of_inService (.inr hw)
    have h1 : Settled (updHealth i (fun h => { h with passes := h.passes + 1 }) s) :=
      h.of_changes (updHealth_changes i _ s) (by decide) (by decide) (by decide)
    unfold settle
    extract_lets x s1 s2
    split
    · have h2 : Settled s1 := h1.setUnit hi rfl (.inl rfl)
      have h3 : Settled s2 := h2.of_changes (updHealth_changes i _ s1) (by decide) (by decide) (by decide)
      exact h3.of_changes (post_changes _ _ s2) (by decide) (by decide) (by decide)
    · exact h1
  · exact h

theorem Settled.kaFail (h : Settled s) (i ka prof : Nat) (r : KaOutcome) : Settled (kaFail i ka prof r s) := by
  unfold Machine.kaFail
  extract_lets s1 s2 s3 s4 s5
  have h1 : Settled s1 := (h.of_changes (bumpCtr_changes _ _ s) (by decide) (by decide) (by decide)).of_changes
    (updTotals_changes _ _) (by decide) (by decide) (by decide)
  have h2 : Settled s2 := h1.of_changes (updHealth_changes i _ s1) (by decide) (by decide) (by decide)
  have h3 : Settled s3 := by
    show Settled (if unitSt s2 i = .active then _ else _)
    split
    · rename_i ha
      exact h2.enterWatch (unitPop_of_inService (.inl ha)) _
    · exact h2
  have h4 : Settled s4 := h3.of_changes (advise_changes _ _ s3) (by decide) (by decide) (by decide)
  have h5 : Settled s5 := h4.of_changes (unitFsr_changes _ _ _ s4) (by decide) (by decide) (by decide)
  exact h5.appendHistory _

theorem Settled.scoreHeld (h : Settled s) (w : TestRun) : Settled (scoreHeld w s) := by
  refine foldl_keeps (P := Settled) (fun a x ha => ?_) w.held h
  unfold scoreRun
  split
  · exact ha.kaPass _
  · exact ha.kaFail _ _ _ _

theorem Settled.endWindowTest (h : Settled s) : Settled (endWindowTest s) := by
  unfold Machine.endWindowTest
  split
  · split
    · have h1 : Settled { s with sec := { s.sec with test := none } } := h.of_units rfl rfl rfl
      exact h1.scoreHeld _
    · exact h
  · exact h

/-- A job that ends in a settled table leaves the Reel loaded. -/
theorem Settled.finishJob_reel (h : Settled s) (k : Nat) (f : Bool) : (finishJob k f s).reel = s.reel := by
  unfold finishJob
  extract_lets l s1
  have hu := unsealStep_changes s
  have h1 : Settled (Machine.endWindowTest (unsealStep s)) := (h.of_changes hu (by decide) (by decide) (by decide)).endWindowTest
  have h2 : Settled s1 := h1.of_changes (clearJob_changes f _) (by decide) (by decide) (by decide)
  have hc := complete_changes (jobEndRec l k s1.power.jobEnergy) s1
  obtain ⟨hheld, hout⟩ := settled_iff.mp (h2.of_changes hc (by decide) (by decide) (by decide))
  rw [jobBoundary_of_quiet hheld hout]
  have hr1 : s1.reel = s.reel := (((hu.mono (B := [.tiles, .mems, .job, .test, .totals, .ports, .localq, .transits, .shadowed, .stage, .far, .work] ++ moves)
    (by decide)).trans ((endWindowTest_changes _).mono (by decide))).trans ((clearJob_changes f _).mono (by decide))) .reel (by decide)
  exact (hc .reel (by decide)).trans hr1

/-! ## What the end of a job leaves -/

theorem finishJob_eq (k : Nat) (f : Bool) (s : State) : finishJob k f s =
    jobBoundary (complete (jobEndRec s.job.launch k (jobEnded f s).power.jobEnergy) (jobEnded f s)) := rfl

theorem unsealStep_job (s : State) : ∃ k a x, (unsealStep s).job = { s.job with step := k, attempt := a, sealed_ := x } := by
  cases h : s.job.sealed_ with
  | none =>
    have he : unsealStep s = s := by
      unfold unsealStep
      rw [h]
    exact ⟨s.job.step, s.job.attempt, s.job.sealed_, by rw [he]⟩
  | some x =>
    have hj : (flagAll x.flags (flipPairsOf x.pairs (flipAll x.lines s))).job = s.job :=
      (((flipAll_changes _ s).mono (by decide)).trans (((flipPairsOf_changes _ _).mono (by decide)).trans
        ((flagAll_changes _ _).mono (B := [.tiles, .mems]) (by decide)))) .job (by decide)
    exact ⟨x.step, x.attempt, none, by rw [unsealStep_of_sealed h, ← hj]⟩

theorem jobEnded_job (f : Bool) (s : State) :
    (jobEnded f s).job = { Job.none with faulted := f, lastCode := s.job.lastCode, lastOrigin := s.job.lastOrigin } := by
  obtain ⟨k, a, x, hu⟩ := unsealStep_job s
  have he : (endWindowTest (unsealStep s)).job = (unsealStep s).job := endWindowTest_changes _ .job (by decide)
  show { Job.none with faulted := f, lastCode := (endWindowTest (unsealStep s)).job.lastCode,
                       lastOrigin := (endWindowTest (unsealStep s)).job.lastOrigin } = _
  rw [he, hu]

theorem finishJob_job (k : Nat) (f : Bool) (s : State) :
    (finishJob k f s).job = { Job.none with faulted := f, lastCode := s.job.lastCode, lastOrigin := s.job.lastOrigin } := by
  rw [finishJob_eq, ← jobEnded_job]
  exact (jobBoundary_changes _ .job (by decide)).trans (complete_changes _ _ .job (by decide))

theorem finishJob_stage (k : Nat) (f : Bool) (s : State) : (finishJob k f s).window.stage = [] := by
  rw [finishJob_eq]
  exact (jobBoundary_changes _ .stage (by decide)).trans (complete_changes _ _ .stage (by decide))

/-- With no result held back, the end of a job counts and records nothing about its units. -/
theorem finishJob_noHeld (h : noHeld s) (k : Nat) (f : Bool) :
    changesOnly ([.ringOut, .host, .alerts, .settings, .unitGen, .reel, .det, .ldr, .power] ++ quietEnds) s (finishJob k f s) := by
  rw [finishJob_eq]
  exact (((jobEnded_changes h f).mono (by decide)).trans ((complete_changes _ _).mono (by decide))).trans
    ((jobBoundary_changes _).mono (by decide))

/-! ### The tiles stand still -/

/-- No tile has an operation in flight. -/
def noFlight (s : State) : Prop := ∀ u, (tileOf s u).flight = none

theorem noFlight_of_tiles (h : noFlight s) (ht : t.tiles = s.tiles) : noFlight t := fun u => by
  rw [tileOf, ht]
  exact h u

theorem noFlight_clearJob (f : Bool) (s : State) : noFlight (clearJob f s) := by
  intro u
  refine look_of_forall_mem (P := fun x : Tile => x.flight = none) rfl (fun x hx => ?_) u
  obtain ⟨y, -, rfl⟩ := List.mem_map.mp (List.mem_of_mem_filter hx)
  rfl

theorem noFlight_setTile_clear (h : noFlight s) (v : Nat) : noFlight (setTile v Tile.clear s) := by
  intro u
  by_cases hu : u = v
  · rw [hu, tileOf_setTile_self]
    rfl
  · rw [tileOf_setTile_other hu]
    exact h u

theorem noFlight_tileLeaves (h : noFlight s) (u : Nat) : noFlight (tileLeaves u s) := by
  unfold tileLeaves
  extract_lets w s1
  split
  · exact noFlight_of_tiles h rfl
  · exact foldl_keeps (P := noFlight) (fun a v ha => noFlight_setTile_clear ha v) _ (noFlight_of_tiles h rfl)

theorem noFlight_unitLeaves (h : noFlight s) (i : Nat) : noFlight (unitLeaves i s) := by
  unfold unitLeaves
  split
  · exact noFlight_tileLeaves h i
  · split
    · split <;> exact noFlight_of_tiles h rfl
    · split <;> exact noFlight_of_tiles h rfl

/-- What holds of a package whose units leave service one by one. -/
theorem releaseAll_induct {P : State → Prop} (hleave : ∀ a i, P a → P (unitLeaves i a))
    (hother : ∀ a b, changesOnly [.settings, .unitGen, .ringOut, .host] a b → P a → P b) (hdrop : ∀ a i, P a → P (dropTestOf i a))
    (h : P s) : P (releaseAll s) := by
  refine foldl_keeps (P := P) (fun a x ha => ?_) _ h
  unfold releaseHeld
  extract_lets s1 s2
  have h1 : changesOnly [.settings, .unitGen] a s2 := (setUnit_changes _ _ a).next (updSet_changes _ s1) (by decide)
  have h2 : changesOnly [.settings, .unitGen] a (if x.2.st = .off then logUnit x.1 (reasonOf s2 x.1) s2 else s2) := by
    refine h1.trans (.ite ?_ (.refl _ s2))
    unfold logUnit
    exact (appendLog_changes _ _ _ _).mono (by decide)
  exact hleave _ _ (hdrop _ _ (hother _ _ (h2.mono (by decide)) ha))

theorem noFlight_releaseAll (h : noFlight s) : noFlight (releaseAll s) :=
  releaseAll_induct (P := noFlight) (fun _ i ha => noFlight_unitLeaves ha i) (fun _ _ hc ha => noFlight_of_tiles ha (hc .tiles (by decide)))
    (fun a i ha => noFlight_of_tiles ha (dropTestOf_changes i a .tiles (by decide))) h

/-- What a job boundary does beyond the units that leave. -/
theorem jobBoundary_after (s : State) : changesOnly [.reel, .far, .det, .ldr, .ports, .power, .ringOut, .host, .alerts] (releaseAll s)
    (jobBoundary s) := by
  unfold jobBoundary
  extract_lets s1
  split
  · exact (unloadReel_changes s1).both (post_changes _ _ _) (by decide) (by decide)
  · exact .refl _ s1

theorem finishJob_noFlight (k : Nat) (f : Bool) (s : State) : noFlight (finishJob k f s) := by
  rw [finishJob_eq]
  have h1 := noFlight_of_tiles (noFlight_clearJob f (endWindowTest (unsealStep s)))
    (complete_changes (jobEndRec s.job.launch k (jobEnded f s).power.jobEnergy) (jobEnded f s) .tiles (by decide))
  exact noFlight_of_tiles (noFlight_releaseAll h1) (jobBoundary_after _ .tiles (by decide))

/-! ### A test in a window ends with the job -/

theorem releaseAll_noTest (h : s.sec.test = none) : (releaseAll s).sec.test = none :=
  releaseAll_induct (P := fun a => a.sec.test = none) (fun a i ha => (unitLeaves_changes i a .test (by decide)).trans ha)
    (fun _ _ hc ha => (hc .test (by decide)).trans ha) (fun a i ha => by rw [dropTestOf_of_noTest ha]; exact ha) h

theorem finishJob_noTest {w : TestRun} (h : s.sec.test = some w) (hby : w.by_ = .window) (k : Nat) (f : Bool) :
    (finishJob k f s).sec.test = none := by
  have hu : (unsealStep s).sec.test = some w := (unsealStep_changes s .test (by decide)).trans h
  have he : (endWindowTest (unsealStep s)).sec.test = none := by
    unfold endWindowTest
    rw [hu]
    dsimp only
    rw [if_pos hby]
    exact scoreHeld_changes w _ .test (by decide)
  have hj : (jobEnded f s).sec.test = none := (clearJob_changes f _ .test (by decide)).trans he
  rw [finishJob_eq, jobBoundary_after _ .test (by decide)]
  exact releaseAll_noTest ((complete_changes _ _ .test (by decide)).trans hj)

/-! ## JOB_FAULT_APPLY -/

/-- A fault counted, recorded and posted, before the job ends. -/
def faultCounted (l : Loc) (s : State) : State :=
  let f := fsrLoc s l
  let s1 := updTotals (fun t => { t with faults := t.faults + 1 }) (unsealStep s)
  let s2 := writeFsr f.code.toNat (locPath s1 f) (locUnit s1 f) (some f) none s1
  postAt 0x0DA1 true (cnt s2) (locBytes l) s2

theorem endByFault_eq (l : Loc) (s : State) : endByFault l s = finishJob 0x0004 true (faultCounted l s) := rfl

/-- The parts that the count and the record of a fault change. -/
def faultParts : List Part := [.tiles, .mems, .job, .totals, .ringOut, .host, .alerts, .fsrs, .health]

theorem faultCounted_spec (l : Loc) (s : State) : changesOnly faultParts s (faultCounted l s) ∧
    (faultCounted l s).job = (unsealStep s).job ∧
    (faultCounted l s).sec.totals = { s.sec.totals with faults := s.sec.totals.faults + 1 } ∧
    (faultCounted l s).sec.fsrSeq = nextSeq s.sec.fsrSeq := by
  unfold faultCounted
  extract_lets f s1 s2
  have hu := unsealStep_changes s
  have h2 : changesOnly records s1 s2 := writeFsr_changes _ _ _ _ _ s1
  have h3 : changesOnly posts s2 (postAt 0x0DA1 true (cnt s2) (locBytes l) s2) := postAt_changes _ _ _ _ s2
  have h23 : changesOnly records s1 (postAt 0x0DA1 true (cnt s2) (locBytes l) s2) := h2.next h3 (by decide)
  have hfsr : ∀ {a b : State} {A : List Part}, changesOnly A a b → Part.fsrs ∉ A → b.sec.fsrSeq = a.sec.fsrSeq :=
    fun h hA => (Prod.mk.inj (h .fsrs hA)).2
  refine ⟨((hu.mono (by decide)).trans ((updTotals_changes _ _).mono (by decide))).trans (h23.mono (by decide)), h23 .job (by decide), ?_, ?_⟩
  · rw [show (postAt 0x0DA1 true (cnt s2) (locBytes l) s2).sec.totals = s1.sec.totals from h23 .totals (by decide)]
    show { (unsealStep s).sec.totals with faults := (unsealStep s).sec.totals.faults + 1 } = _
    rw [show (unsealStep s).sec.totals = s.sec.totals from hu .totals (by decide)]
  · rw [hfsr h3 (by decide), writeFsr_seq]
    exact congrArg nextSeq (hfsr (b := unsealStep s) hu (by decide))

theorem endByFault_spec (l : Loc) (s : State) :
    (endByFault l s).job = { Job.none with faulted := true, lastCode := s.job.lastCode, lastOrigin := s.job.lastOrigin } ∧
    (noHeld s → (endByFault l s).sec.totals = { s.sec.totals with faults := s.sec.totals.faults + 1 } ∧
      (endByFault l s).sec.fsrSeq = nextSeq s.sec.fsrSeq) ∧
    (∀ w, s.sec.test = some w → w.by_ = .window → (endByFault l s).sec.test = none) ∧
    (endByFault l s).window.stage = [] ∧ noFlight (endByFault l s) ∧ (Settled s → (endByFault l s).reel = s.reel) := by
  obtain ⟨hc, hj, htot, hseq⟩ := faultCounted_spec l s
  obtain ⟨k, a, x, hu⟩ := unsealStep_job s
  have htest : (faultCounted l s).sec.test = s.sec.test := hc .test (by decide)
  rw [endByFault_eq]
  refine ⟨?_, fun h => ?_, fun w hw hby => finishJob_noTest (htest.trans hw) hby _ _, finishJob_stage _ _ _, finishJob_noFlight _ _ _,
    fun h => ?_⟩
  · rw [finishJob_job, hj, hu]
  · have hq : noHeld (faultCounted l s) := by
      rw [noHeld, htest]
      exact h
    have hfin := finishJob_noHeld hq 4 true
    exact ⟨(hfin .totals (by decide)).trans htot, (Prod.mk.inj (hfin .fsrs (by decide))).2.trans hseq⟩
  · exact ((h.of_changes hc (by decide) (by decide) (by decide)).finishJob_reel 4 true).trans (hc .reel (by decide))

theorem exec_jobFaultApply {n : Notice} (hp : s.pacer.running = true) (hr : running s = true) (hn : s.job.notice = some n)
    (hat : n.applyAt = s.bridle.count) (hf : n.fault = true ∨ n.final = true) : exec .jobFaultApply s =
      .next (endByFault (noticeLoc n) { s with job := { s.job with lastCode := n.code, lastOrigin := n.origin } }) := by
  show execJobFaultApply s = _
  unfold execJobFaultApply
  simp only [hp, hr, hn, Bool.and_true]
  exact congrArg Host.Outcome.next (if_pos ⟨hat, hf⟩)

/-! ## JOB_COMPLETE -/

theorem exec_jobComplete {r : Reel} (hrun : running s = true) (hn : s.job.notice = none) (hf : s.job.faulted = false)
    (hx : s.job.sealed_ = none) (hw : windowDrained s = true) (hr : s.reel = some r) (hlast : s.job.final = stepTotal r) :
    exec .jobComplete s = .next (finishJob (if s.job.abandoned then 5 else 0) false s) := by
  show execJobComplete s = _
  unfold execJobComplete
  simp only [hrun, hn, hf, hx, hw, hr, Option.isNone_none, Bool.not_false, Bool.and_true]
  exact congrArg Host.Outcome.next (if_pos hlast)

theorem jobComplete_of_pending (h : windowDrained s = false) : exec .jobComplete s = .next s := by
  show execJobComplete s = _
  unfold execJobComplete
  simp only [h, Bool.and_false]

end Sys2Proof.Machine

open Sys2Proof Sys2Proof.Machine

/-- Settles O41: a launch is slot 0 of step 1 (`launchFire_spec`), a fault's end is counted and recorded once (`endByFault_spec`),
and a job that completes with nothing held leaves its record alone (`finishJob_quiet`). -/
theorem jobsStartAndEnd : Obligations.JobsStartAndEnd := by
  refine ⟨fun s r pat ph h hp ha hr hplan => ⟨fun hne => (exec_launchFire hp ha hr).trans (congrArg Host.Outcome.next (if_neg hne)),
    fun hat => launchFire_spec h hp ha hr hplan hat⟩, fun s n hp hr hn hat hf => ?_,
    fun s r l hrun hn hf hx hw hr hlast hq hheld hout hl => ?_, fun s h => jobComplete_of_pending h⟩
  · have hexec := exec_jobFaultApply hp hr hn hat hf
    have hc := (withJob_changes (s := s) { s.job with lastCode := n.code, lastOrigin := n.origin }).mono (B := jobEnds) (by decide) |>.trans
      (endByFault_changes (noticeLoc n) { s with job := { s.job with lastCode := n.code, lastOrigin := n.origin } })
    obtain ⟨hj, htot, htest, hstage, hflight, hreel⟩ :=
      endByFault_spec (noticeLoc n) { s with job := { s.job with lastCode := n.code, lastOrigin := n.origin } }
    refine ⟨_, hexec, hc, ?_⟩
    rw [hj]
    exact ⟨rfl, rfl, rfl, rfl, rfl, htot, htest, hstage, hflight, fun hheld hout =>
      hreel ((settled_iff.mpr ⟨hheld, hout⟩).of_units rfl rfl rfl)⟩
  · subst hl
    have hexec := exec_jobComplete hrun hn hf hx hw hr hlast
    rw [finishJob_quiet hheld hout hq] at hexec
    have h1 : changesOnly quietEnds s (jobEnded false s) := jobEnded_changes hq false
    have hrec := complete_recordsAlike (h1.recordsAlike (jobEnded_rings hq false) (by decide) (by decide) (by decide))
      (jobEndRec s.job.launch (if s.job.abandoned then 5 else 0) s.power.jobEnergy)
    have hc := complete_changes (jobEndRec s.job.launch (if s.job.abandoned then 5 else 0) s.power.jobEnergy) (jobEnded false s)
    have hall : changesOnly ([.ringOut, .host] ++ quietEnds) s _ := (h1.mono (by decide)).trans (hc.mono (by decide))
    have hsteps : (jobEnded false s).work.steps = s.work.steps := by
      have hw : (endWindowTest (unsealStep s)).work = s.work := (endWindowTest_changes _ .work (by decide)).trans
        (unsealStep_changes s .work (by decide))
      show (endWindowTest (unsealStep s)).work.steps = _
      rw [hw]
    generalize complete (jobEndRec s.job.launch (if s.job.abandoned then 5 else 0) s.power.jobEnergy) (jobEnded false s) = t at hexec hc hall hrec
    have hj : t.job = (jobEnded false s).job := hc .job (by decide)
    have hwork : t.work = (jobEnded false s).work := hc .work (by decide)
    refine ⟨rfl, rfl, ?_, rfl, t, hexec, hall.mono (by decide), by rw [hj]; rfl, by rw [hj]; rfl, hall .reel (by decide),
      hall .totals (by decide), by rw [hwork, hsteps], hrec.rings, hrec.host⟩
    show BitVec.ofNat 16 (if s.job.abandoned = true then 5 else 0) = _
    split <;> rfl
end

section
/-! Proofs: the far tier's blocks and digests, and a stack that is lost (R104 to R106, R266; O43). -/

namespace Sys2Proof.Machine

variable {s : State}

/-! ## The prefetcher -/

theorem withFar_changes (x : Far) (s : State) : changesOnly [.far] s { s with far := x } := by
  intro p hp
  cases p
  case far => exact absurd (by decide) hp
  all_goals rfl

/-- A home that arrives is held as the window shows it. -/
theorem farArrival_spec {r : Reel} {home : Nat} (hr : s.reel = some r) (hp : devicePanel s (home / 15) = true)
    (hf : ∃ f ∈ pkgRecs r secFarFill, fHome f = home) :
    ∃ t : State, exec (.farBlockArrival home .quiet) s = .next t ∧ changesOnly [.far] s t ∧
      find? home t.far.held = some (slotBlk s home) ∧ (∀ k, k ≠ home → find? k t.far.held = find? k s.far.held) ∧
      t.far.written = s.far.written := by
  have hany : (pkgRecs r secFarFill).any (fun f => fHome f == home) = true := by
    obtain ⟨f, hm, hh⟩ := hf
    exact List.any_eq_true.mpr ⟨f, hm, by simp [hh]⟩
  have hexec : exec (.farBlockArrival home .quiet) s =
      .next { s with far := { s.far with held := put home (slotBlk s home) s.far.held } } := by
    show execFarBlockArrival home .quiet s = _
    unfold execFarBlockArrival
    rw [hostActs_quiet]
    simp only [hr, hany, hp, Bool.and_self, if_true]
  exact ⟨_, hexec, withFar_changes _ s, find?_put_self _ _ _, fun k hk => find?_put_other hk _ _, rfl⟩

/-! ## The digest of a first fill -/

/-- A table with the values of a function put for a list of keys. -/
def putAll {α : Type} (g : Nat → α) (l : List Nat) (m : Sparse α) : Sparse α := l.foldl (fun a i => put i (g i) a) m

theorem find?_putAll {α : Type} (g : Nat → α) (l : List Nat) (m : Sparse α) (j : Nat) :
    find? j (putAll g l m) = if j ∈ l then some (g j) else find? j m := by
  induction l generalizing m with
  | nil => simp [putAll]
  | cons i l ih =>
    have hcons : putAll g (i :: l) m = putAll g l (put i (g i) m) := rfl
    rw [hcons, ih]
    by_cases hj : j ∈ l
    · simp [hj]
    · by_cases hi : j = i
      · subst hi
        simp [hj, find?_put_self]
      · simp [hj, hi, find?_put_other hi]

/-- The hash of input `i` from a block. -/
def inputHash (r : Reel) (b : Blk) (i : Nat) : BitVec 256 := leafOf (lTag ((pkgRecs r secInputs).getD i 0)) b.payload

theorem hashInputs_eq (r : Reel) (f : BitVec 256) (b : Blk) (d : Det) :
    hashInputs r f b d = { d with filled := putAll (inputHash r b) (newInputs r f d) d.filled } := rfl

theorem mem_newInputs {r : Reel} {f : BitVec 256} {d : Det} {i : Nat} : i ∈ newInputs r f d ↔
    ∃ l, (pkgRecs r secInputs)[i]? = some l ∧ d.leaves.length ≤ i ∧ find? i d.filled = none ∧ fills l f = true := by
  unfold newInputs
  rw [List.mem_filter, List.mem_range]
  constructor
  · rintro ⟨hi, h⟩
    obtain ⟨⟨hle, hnone⟩, hf⟩ := by simpa using h
    refine ⟨(pkgRecs r secInputs)[i], List.getElem?_eq_getElem hi, hle, hnone, ?_⟩
    rwa [List.getElem?_eq_getElem hi, Option.getD_some] at hf
  · rintro ⟨l, hl, hle, hnone, hf⟩
    obtain ⟨hi, rfl⟩ := List.getElem?_eq_some_iff.mp hl
    exact ⟨hi, by simp [hle, hnone, hl, hf]⟩

theorem inputHash_of_get {r : Reel} {i : Nat} {l : BitVec 256} (h : (pkgRecs r secInputs)[i]? = some l) (b : Blk) :
    inputHash r b i = leafOf (lTag l) b.payload := by
  rw [inputHash, List.getD_eq_getElem?_getD, h, Option.getD_some]

/-- Chaining only appends to the leaves. -/
theorem chainUp_leaves (n : Nat) (d : Det) : ∃ more, (chainUp n d).leaves = d.leaves ++ more := by
  induction n generalizing d with
  | zero => exact ⟨[], (List.append_nil _).symm⟩
  | succ n ih =>
    unfold chainUp
    split
    · rename_i h _
      obtain ⟨more, hm⟩ := ih { d with leaves := d.leaves ++ [h], filled := erase d.leaves.length d.filled }
      exact ⟨h :: more, by rw [hm, List.append_assoc, List.singleton_append]⟩
    · exact ⟨[], (List.append_nil _).symm⟩

/-- With the next input not hashed nothing is chained. -/
theorem chainUp_of_missing {d : Det} (h : find? d.leaves.length d.filled = none) (n : Nat) : chainUp n d = d := by
  cases n with
  | zero => rfl
  | succ n =>
    unfold chainUp
    rw [h]

theorem chainUp_of_next {d : Det} {x : BitVec 256} (h : find? d.leaves.length d.filled = some x) (n : Nat) :
    chainUp (n + 1) d = chainUp n { d with leaves := d.leaves ++ [x], filled := erase d.leaves.length d.filled } := by
  rw [chainUp, h]

theorem length_pos_of_find? {α : Type} {m : Sparse α} {k : Nat} {v : α} (h : find? k m = some v) : ∃ n, m.length = n + 1 := by
  cases m with
  | nil => exact nomatch h
  | cons x m => exact ⟨m.length, rfl⟩

/-- The digest after a far-fill that writes a block. -/
def filledDet (r : Reel) (f : BitVec 256) (b : Blk) (d : Det) : Det :=
  if (newInputs r f d).isEmpty then d else chainUp (hashInputs r f b d).filled.length (hashInputs r f b d)

section
variable {r : Reel} {f : BitVec 256} {b : Blk} {d : Det}

theorem filledDet_of_mem {i : Nat} (h : i ∈ newInputs r f d) :
    filledDet r f b d = chainUp (hashInputs r f b d).filled.length (hashInputs r f b d) := by
  refine if_neg fun he => ?_
  rw [List.isEmpty_iff.mp he] at h
  exact nomatch h

theorem find?_hashInputs (i : Nat) : find? i (hashInputs r f b d).filled =
    if i ∈ newInputs r f d then some (inputHash r b i) else find? i d.filled := by
  rw [hashInputs_eq]
  exact find?_putAll _ _ _ _

theorem filledDet_next {l : BitVec 256} (hl : (pkgRecs r secInputs)[d.leaves.length]? = some l) (hf : fills l f = true)
    (hnone : find? d.leaves.length d.filled = none) :
    ∃ more, (filledDet r f b d).leaves = d.leaves ++ leafOf (lTag l) b.payload :: more ∧
      (d.filled = [] → (∀ j l, d.leaves.length < j → (pkgRecs r secInputs)[j]? = some l → fills l f = false) → more = []) := by
  have hmem : d.leaves.length ∈ newInputs r f d := mem_newInputs.mpr ⟨l, hl, Nat.le_refl _, hnone, hf⟩
  have hfind : find? (hashInputs r f b d).leaves.length (hashInputs r f b d).filled = some (leafOf (lTag l) b.payload) := by
    show find? d.leaves.length _ = _
    rw [find?_hashInputs, if_pos hmem, inputHash_of_get hl]
  obtain ⟨n, hn⟩ := length_pos_of_find? hfind
  obtain ⟨more, hmore⟩ := chainUp_leaves n { hashInputs r f b d with
    leaves := d.leaves ++ [leafOf (lTag l) b.payload]
    filled := erase d.leaves.length (hashInputs r f b d).filled }
  rw [filledDet_of_mem hmem, hn, chainUp_of_next hfind]
  refine ⟨more, hmore.trans (by rw [List.append_assoc, List.singleton_append]), fun hfil hno => ?_⟩
  have hlen : n = 0 := by
    have hall : ∀ i ∈ newInputs r f d, i = d.leaves.length := fun i hi => by
      obtain ⟨l', hl', hle, -, hf'⟩ := mem_newInputs.mp hi
      by_contra hne
      rw [hno i l' (lt_of_le_of_ne hle (Ne.symm hne)) hl'] at hf'
      exact nomatch hf'
    have hnodup : (newInputs r f d).Nodup := List.nodup_range.filter _
    have hone : newInputs r f d = [d.leaves.length] := by
      cases hni : newInputs r f d with
      | nil => rw [hni] at hmem; exact nomatch hmem
      | cons i tl =>
        have hi := hall i (hni ▸ List.mem_cons_self ..)
        have htl : tl = [] := List.eq_nil_iff_forall_not_mem.mpr fun j hj => by
          have hj' := hall j (hni ▸ List.mem_cons_of_mem _ hj)
          rw [hni] at hnodup
          exact (List.nodup_cons.mp hnodup).1 (hi ▸ hj' ▸ hj)
        rw [hi, htl]
    have hfl : (hashInputs r f b d).filled = [(d.leaves.length, inputHash r b d.leaves.length)] := by
      rw [hashInputs_eq, hone, hfil]
      rfl
    rw [hfl] at hn
    exact (Nat.succ.inj hn).symm
  subst hlen
  have h0 : d.leaves ++ [leafOf (lTag l) b.payload] = d.leaves ++ [leafOf (lTag l) b.payload] ++ more := hmore
  simpa using h0.symm

theorem filledDet_early {j : Nat} {l : BitVec 256} (hj : d.leaves.length < j) (hl : (pkgRecs r secInputs)[j]? = some l)
    (hf : fills l f = true) (hfil : d.filled = [])
    (hno : ((pkgRecs r secInputs)[d.leaves.length]?).any (fun x => fills x f) = false) :
    (filledDet r f b d).leaves = d.leaves ∧ find? j (filledDet r f b d).filled = some (leafOf (lTag l) b.payload) := by
  have hmem : j ∈ newInputs r f d := mem_newInputs.mpr ⟨l, hl, hj.le, by rw [hfil]; rfl, hf⟩
  have hfirst : d.leaves.length ∉ newInputs r f d := fun hm => by
    obtain ⟨l', hl', -, -, hf'⟩ := mem_newInputs.mp hm
    rw [hl', Option.any_some, hf'] at hno
    exact nomatch hno
  have hmiss : find? (hashInputs r f b d).leaves.length (hashInputs r f b d).filled = none := by
    show find? d.leaves.length _ = none
    rw [find?_hashInputs, if_neg hfirst, hfil]
    rfl
  rw [filledDet_of_mem hmem, chainUp_of_missing hmiss, find?_hashInputs, if_pos hmem, inputHash_of_get hl]
  exact ⟨rfl, rfl⟩

theorem filledDet_none (h : ∀ l ∈ pkgRecs r secInputs, fills l f = false) : filledDet r f b d = d := by
  refine if_pos (List.isEmpty_iff.mpr (List.eq_nil_iff_forall_not_mem.mpr fun i hi => ?_))
  obtain ⟨l, hl, -, -, hf⟩ := mem_newInputs.mp hi
  rw [h l (List.mem_of_getElem? hl)] at hf
  exact nomatch hf

end

theorem releaseWaiting_of_none (r : Reel) (h : ∀ x ∈ s.window.stage, x.released = false) : releaseWaiting r s = s := by
  have h1 : s.window.stage.filter (fun b => b.released) = [] := List.filter_eq_nil_iff.mpr fun x hx => by simp [h x hx]
  have h2 : s.window.stage.filter (fun b => !b.released) = s.window.stage := List.filter_eq_self.mpr fun x hx => by simp [h x hx]
  rw [releaseWaiting, h1, h2]
  rfl

/-- With no released block that waits the digest alone moves on. -/
theorem chainInput_of_none (r : Reel) (f : BitVec 256) (b : Blk) (h : ∀ x ∈ s.window.stage, x.released = false) :
    chainInput r f b s = { s with det := filledDet r f b s.det } := by
  unfold chainInput filledDet
  split
  · rfl
  · exact releaseWaiting_of_none r h

/-! ## A far-fill -/

theorem exec_farFill {r : Reel} {f : BitVec 256} {i : Nat} (hrun : running s = true) (hr : s.reel = some r)
    (hf : (pkgRecs r secFarFill)[i]? = some f) (hb : fBlock f < 25165824) :
    exec (.farFill i) s = .next (if fStep f = s.job.step ∧ fSlot f = s.job.slot then fillCache r f s else s) := by
  show execFarFill i s = _
  unfold execFarFill
  simp only [hrun, hr, hf]
  split
  · exact if_pos hb
  · rfl

/-- A block written to a stack. -/
theorem putBlk_spec (k b : Nat) (v : Blk) (s : State) : changesOnly [.mems] s (putBlk k b v s) ∧ memsBut k s (putBlk k b v s) ∧
    (∀ n, blkAt (putBlk k b v s) k n = if n = b then v else blkAt s k n) ∧
    (memOf (putBlk k b v s) k).st = (memOf s k).st ∧ (memOf (putBlk k b v s) k).sel = (memOf s k).sel ∧
    (memOf (putBlk k b v s) k).mark = (memOf s k).mark := by
  unfold putBlk
  refine ⟨updMem_changes k _ s, fun j hj => memOf_updMem_other hj _ s, fun n => ?_, ?_, ?_, ?_⟩
  · rw [blkAt, memOf_updMem_self]
    by_cases hn : n = b
    · rw [hn, if_pos rfl]
      exact look_store_self _ _ _ _
    · rw [if_neg hn]
      exact look_store_other hn _ _ _
  all_goals rw [memOf_updMem_self]

section
variable {r : Reel} {f : BitVec 256} {b : Blk}

/-- A fill that writes: the cache block, its mark, and the digest. -/
theorem fillCache_held (hp : devicePanel s (fHome f / 15) = true) (hb : find? (fHome f) s.far.held = some b)
    (hs : ∀ x ∈ s.window.stage, x.released = false) :
    fillCache r f s = { markFill f true (putBlk (fStack f) (fBlock f) b s) with det := filledDet r f b s.det } := by
  simp only [fillCache, hp, hb, Bool.not_true, Bool.false_eq_true, if_false]
  exact chainInput_of_none (s := markFill f true (putBlk (fStack f) (fBlock f) b s)) r f b hs

theorem farFill_held (hp : devicePanel s (fHome f / 15) = true) (hb : find? (fHome f) s.far.held = some b)
    (hs : ∀ x ∈ s.window.stage, x.released = false) (t : State) (ht : t = fillCache r f s) :
    changesOnly [.mems, .far, .det] s t ∧ memsBut (fStack f) s t ∧
    (∀ n, blkAt t (fStack f) n = (if n = fBlock f then b else blkAt s (fStack f) n)) ∧
    (memOf t (fStack f)).st = (memOf s (fStack f)).st ∧ (memOf t (fStack f)).sel = (memOf s (fStack f)).sel ∧
    look false (cacheKey (fStack f) (fBlock f)) t.far.written = true ∧ t.far.held = s.far.held ∧ t.det = filledDet r f b s.det := by
  obtain ⟨hc, hbut, hblk, hst, hsel, -⟩ := putBlk_spec (fStack f) (fBlock f) b s
  rw [fillCache_held hp hb hs] at ht
  subst ht
  refine ⟨?_, hbut, hblk, hst, hsel, look_store_self false (cacheKey (fStack f) (fBlock f)) true s.far.written, rfl, rfl⟩
  intro p hp
  have hsame := fun h => hc p h
  cases p
  case mems => exact absurd (by decide) hp
  case far => exact absurd (by decide) hp
  case det => exact absurd (by decide) hp
  all_goals exact hsame (by decide)

theorem farFill_missing (hp : devicePanel s (fHome f / 15) = true) (hb : find? (fHome f) s.far.held = none) :
    fillCache r f s = markFill f false s := by
  simp only [fillCache, hp, hb, Bool.not_true, Bool.false_eq_true, if_false]

theorem farFill_foreign (hp : devicePanel s (fHome f / 15) = false) : fillCache r f s = hostFault 0x0D01 (markFill f false s) := by
  simp only [fillCache, hp, Bool.not_false, if_true]

end

/-! ## A lost stack -/

theorem raiseFault_idle (h : running s = false) (c : Nat) (u : UnitField) (i w : Nat) : raiseFault c u i w s = s :=
  if_neg (by simp [h])

theorem stackLost_spec {k : Nat} (hp : stackPop s k = true) (hst : (memOf s k).st = .trained) :
    ∃ t : State, exec (.stackLost k) s = .next t ∧ memsBut k s t ∧ memOf t k = { memOf s k with st := .lost } ∧
      (running s = false → changesOnly [.mems] s t) ∧
      (running s = true → t.job.faulted = true ∧ changesOnly [.mems, .job, .settings, .test] s t) := by
  have hc := raiseFault_changes 0x0501 (stackUnit k) 0xFF 0 (updMem k (fun m => { m with st := .lost }) s)
  have hm : memOf (raiseFault 0x0501 (stackUnit k) 0xFF 0 (updMem k (fun m => { m with st := .lost }) s)) =
      memOf (updMem k (fun m => { m with st := .lost }) s) := hc.memOf_eq (by decide)
  have hu := updMem_changes k (fun m => { m with st := .lost }) s
  refine ⟨_, next_if_pos (by simp [hp, hst]), fun j hj => ?_, ?_, fun h => ?_, fun h =>
    ⟨(raiseFault_job (s := updMem k (fun m => { m with st := .lost }) s) _ _ _ _ h).1, ?_⟩⟩
  · rw [hm]
    exact memOf_updMem_other hj _ s
  · rw [hm]
    exact memOf_updMem_self k _ s
  · rw [raiseFault_idle (s := updMem k (fun m => { m with st := .lost }) s) h]
    exact hu
  · exact (hu.mono (by decide)).trans (hc.mono (by decide))

end Sys2Proof.Machine

open Sys2Proof Sys2Proof.Machine

/-- Settles O43: a fill that writes is its block, its mark and its digest (`farFill_held`), and the digest chains what reaches
(`filledDet_next`, `filledDet_early`). -/
theorem farTierAndLostStacks : Obligations.FarTierAndLostStacks := by
  refine ⟨fun s r home hr hp hf => farArrival_spec hr hp hf, fun s r f i hrun hr hf hb => ?_, fun s k hp hst => stackLost_spec hp hst⟩
  have hexec := exec_farFill hrun hr hf hb
  refine ⟨fun hne => hexec.trans (congrArg Host.Outcome.next (if_neg fun hc => ?_)), fun b h1 h2 hp hheld hs => ?_, fun h1 h2 hp hheld => ?_,
    fun h1 h2 hp ho => ?_⟩
  · exact hne.elim (fun h => h hc.1) fun h => h hc.2
  · rw [if_pos ⟨h1, h2⟩] at hexec
    obtain ⟨hc, hbut, hblk, hst, hsel, hw, hh, hdet⟩ := farFill_held (r := r) hp hheld hs _ rfl
    refine ⟨_, hexec, hc, hbut, hblk, hst, hsel, hw, hh, ?_⟩
    rw [hdet]
    exact ⟨fun l hl hfl hnone => filledDet_next hl hfl hnone, fun j l hj hl hfl hfil hno => filledDet_early hj hl hfl hfil hno, filledDet_none⟩
  · rw [if_pos ⟨h1, h2⟩, farFill_missing hp hheld] at hexec
    exact ⟨_, hexec, withFar_changes _ s, look_store_self false (cacheKey (fStack f) (fBlock f)) false s.far.written, rfl⟩
  · rw [if_pos ⟨h1, h2⟩, farFill_foreign hp] at hexec
    have hrun' : running (markFill f false s) = true := hrun
    have hc := raiseFault_changes 0x0D01 0xC002 0xFF 0 (markFill f false s)
    refine ⟨_, hexec, (raiseFault_job _ _ _ _ hrun').1, hc .mems (by decide), ?_,
      ((withFar_changes _ s).mono (by decide)).trans (hc.mono (by decide))⟩
    rw [hostFault, raiseFault_ownFault _ _ _ _ hrun' ho]
    rfl
end

section
/-! Proofs: block moves served by the stacks and retired by the mover (R94, R97, R100, R104; O42). -/

namespace Sys2Proof.Machine

variable {s : State} {u i : Nat} {q : MoveReq} {r : MoveService}

/-! ## What a stack counts of a transfer -/

/-- The totals after a transfer. -/
def transferTotals (r : MoveService) (t : Totals) : Totals :=
  { t with memCorr := t.memCorr + r.corrected, memUncorr := t.memUncorr + r.uncorrectable }

theorem countTransfer_totals (k : Nat) (r : MoveService) (s : State) :
    (countTransfer k r s).sec.totals = transferTotals r s.sec.totals := by
  unfold countTransfer
  extract_lets i s1 s2
  split
  · rfl
  · exact judge_changes 0x0581 i s2 .totals (by decide)

theorem countTransfer_changes (k : Nat) (r : MoveService) (s : State) : changesOnly (.totals :: moves) s (countTransfer k r s) := by
  unfold countTransfer
  extract_lets i s1 s2
  have h1 : changesOnly (.totals :: moves) s s1 := (updTotals_changes _ s).mono (by decide)
  have h2 : changesOnly (.totals :: moves) s s2 := h1.next (updHealth_changes i _ s1) (by decide)
  exact .ite h2 (h2.next (judge_changes _ _ s2) (by decide))

/-- A transfer without an uncorrectable burst calls for no move. -/
theorem countTransfer_quiet (h : r.uncorrectable = 0) (k : Nat) (s : State) : changesOnly [.totals, .health] s (countTransfer k r s) := by
  unfold countTransfer
  extract_lets i s1 s2
  rw [if_pos h]
  exact ((updTotals_changes _ s).mono (by decide)).trans ((updHealth_changes i _ s1).mono (by decide))

theorem transferTotals_quiet (h : r.uncorrectable = 0) (t : Totals) : transferTotals r t = { t with memCorr := t.memCorr + r.corrected } := by
  rw [transferTotals, h]
  rfl

theorem blkAt_of_mems {t : State} {A : List Part} (h : changesOnly A s t) (hm : Part.mems ∉ A) : blkAt t = blkAt s := by
  funext k b
  rw [blkAt, blkAt, h.memOf_eq hm]

theorem sideBlock_of_mems {t : State} {A : List Part} (h : changesOnly A s t) (hm : Part.mems ∉ A) : sideBlock t = sideBlock s := by
  funext k b o
  rw [sideBlock, sideBlock, h.memOf_eq hm]

theorem loadBlock_of_mems {t : State} {A : List Part} (h : changesOnly A s t) (hm : Part.mems ∉ A) : loadBlock t = loadBlock s := by
  funext e
  rw [loadBlock, loadBlock, sideBlock_of_mems h hm]

/-! ## The commands -/

section
variable (hu : u < 1024) (hrun : running s = true)
include hu hrun

theorem exec_serve_stack (hf : findMove (fun q => !q.served && q.serve == s.job.slot) (tileOf s u).mover = some (i, q))
    (hk : q.kind = .bld ∨ q.kind = .bst) (hb : moveBlock s q < 25165824) (r : MoveService) :
    exec (.blockMoveService u r) s = .next (serveStack u i q r s) := by
  show execBlockMoveService u r s = _
  unfold execBlockMoveService
  simp only [hu, hrun, hf, decide_true, Bool.and_self]
  rw [if_pos hk]
  exact if_pos hb

theorem exec_serve_stage (hf : findMove (fun q => !q.served && q.serve == s.job.slot) (tileOf s u).mover = some (i, q))
    (h1 : q.kind ≠ .bld) (h2 : q.kind ≠ .bst) (r : MoveService) : exec (.blockMoveService u r) s = .next (serveStage u i q s) := by
  show execBlockMoveService u r s = _
  unfold execBlockMoveService
  simp only [hu, hrun, hf, decide_true, Bool.and_self]
  exact if_neg fun h => h.elim h1 h2

/-- A tile's mover without the request that retires. -/
def retired (u i : Nat) (s : State) : State := updTile u (fun t => { t with mover := t.mover.eraseIdx i }) s

/-- What the retirement of a request does. -/
def retireGo (u i : Nat) (q : MoveReq) (s : State) : State :=
  match q.kind with
  | .bld => retireLoad u q (retired u i s)
  | .bst => if q.complete then retired u i s else tileDetect 0x0582 u 0xFF 63 (retired u i s)
  | _ => retired u i s

theorem exec_retire (hf : findMove (fun q => q.retire == s.job.slot) (tileOf s u).mover = some (i, q)) :
    exec (.blockMoveRetire u) s = .next (retireGo u i q s) := by
  show execBlockMoveRetire u s = _
  unfold execBlockMoveRetire
  simp only [hu, hrun, hf, decide_true, Bool.and_self]
  rfl

end

/-! ## Service of a load -/

section
variable (hq : r.uncorrectable = 0)
include hq

theorem serveStack_load (hk : q.kind = .bld) (hc : r.complete = true) (hst : (memOf s (bStack q.entry)).st = .trained) :
    serveStack u i q r s = updTile u (setMove i (served true false (some (blkAt s (bStack q.entry) (loadBlock s q.entry))) q))
      (countTransfer (bStack q.entry) r s) := by
  have h := countTransfer_quiet hq (bStack q.entry) s
  unfold serveStack
  simp only [hk, hc, hst, hq, if_true, serveLoad]
  rw [blkAt_of_mems h (by decide), loadBlock_of_mems h (by decide)]
  rfl

theorem serveLoad_spec (hk : q.kind = .bld) (hc : r.complete = true) (hst : (memOf s (bStack q.entry)).st = .trained) (t : State)
    (ht : t = serveStack u i q r s) : changesOnly [.tiles, .totals, .health] s t ∧ tilesBut u s t ∧
      tileOf t u = { tileOf s u with
        mover := ((tileOf s u).mover.set i ({ q with
          served := true, complete := true, uncorr := false,
          blk := some (blkAt s (bStack q.entry) (loadBlock s q.entry)) })) } ∧
      t.sec.totals = { s.sec.totals with memCorr := s.sec.totals.memCorr + r.corrected } := by
  rw [serveStack_load hq hk hc hst] at ht
  subst ht
  have h := countTransfer_quiet hq (bStack q.entry) s
  have htile : tileOf (countTransfer (bStack q.entry) r s) = tileOf s := h.tileOf_eq (by decide)
  refine ⟨(h.mono (by decide)).trans ((updTile_changes u _ _).mono (by decide)), fun v hv => ?_, ?_, ?_⟩
  · rw [tileOf_updTile_other hv, htile]
  · rw [tileOf_updTile_self, htile]
    rfl
  · exact (countTransfer_totals _ _ _).trans (transferTotals_quiet hq _)

/-! ## Service of a store -/

theorem serveStack_store (hk : q.kind = .bst) :
    serveStack u i q r s =
      serveStore u i q (r.complete && (memOf s (bStack q.entry)).st == .trained) (countTransfer (bStack q.entry) r s) := by
  unfold serveStack
  simp only [hk, hq, if_true, reduceCtorEq, if_false]

end

/-- A stack after a store on the uncommitted side of a pair. -/
def storedStack (n b c : Nat) (v : Blk) (m : Stack) : Stack :=
  { m with
    blocks := store Blk.scrubbed n v m.blocks
    unfin := put n c (erase n m.unfin)
    mark := store false b true m.mark }

/-- The request of a store, served. -/
def storeServed (u i : Nat) (q : MoveReq) (ok : Bool) (s : State) : State := updTile u (setMove i (served ok false q.blk q)) s

theorem memOf_store (k n b : Nat) (v : Blk) (s : State) :
    memOf (updMem k (fun m => { m with mark := store false b true m.mark }) (putStored k n v s)) k =
      storedStack n b (cnt s + 1) v (memOf s k) := by
  rw [memOf_updMem_self, putStored, memOf_updMem_self, putBlk, memOf_updMem_self]
  rfl

theorem store_changes (k n b : Nat) (v : Blk) (s : State) :
    changesOnly [.mems] s (updMem k (fun m => { m with mark := store false b true m.mark }) (putStored k n v s)) :=
  ((updMem_changes k _ s).trans (updMem_changes k _ _)).trans (updMem_changes k _ _)

theorem store_memsBut (k n b : Nat) (v : Blk) (s : State) :
    memsBut k s (updMem k (fun m => { m with mark := store false b true m.mark }) (putStored k n v s)) := fun j hj => by
  rw [memOf_updMem_other hj, putStored, memOf_updMem_other hj, putBlk, memOf_updMem_other hj]

/-- The two sides of a pair are two blocks. -/
theorem sideBlock_ne (s : State) (k b : Nat) : sideBlock s k b true ≠ sideBlock s k b false := by
  unfold sideBlock
  cases look false b (memOf s k).sel <;> simp [flag]

/-- A block stored, its provisional count yet to rise. -/
def storePlaced (u i : Nat) (q : MoveReq) (v : Blk) (s : State) : State :=
  updMem (bStack q.entry) (fun m => { m with mark := store false (bBlock q.entry) true m.mark })
    (putStored (bStack q.entry) (sideBlock s (bStack q.entry) (bBlock q.entry) true) v (storeServed u i q true s))

/-- A complete store of a block, after its transfer has been counted. -/
def storeDone (u i : Nat) (q : MoveReq) (v : Blk) (s : State) : State :=
  { storePlaced u i q v s with
    work := { (storePlaced u i q v s).work with storesProv := (storePlaced u i q v s).work.storesProv + 1 } }

theorem serveStore_done {v : Blk} (hb : q.blk = some v) : serveStore u i q true s = storeDone u i q v s := by
  unfold serveStore
  rw [hb]
  dsimp only
  rw [if_pos rfl, ← hb]
  rfl

theorem storePlaced_spec (u i : Nat) (q : MoveReq) (v : Blk) (s : State) : changesOnly [.tiles, .mems] s (storePlaced u i q v s) ∧
    tilesBut u s (storePlaced u i q v s) ∧ memsBut (bStack q.entry) s (storePlaced u i q v s) ∧
    memOf (storePlaced u i q v s) (bStack q.entry) =
      storedStack (sideBlock s (bStack q.entry) (bBlock q.entry) true) (bBlock q.entry) (cnt s + 1) v (memOf s (bStack q.entry)) := by
  have h1 : changesOnly [.tiles] s (storeServed u i q true s) := updTile_changes u _ s
  have h2 : changesOnly [.mems] (storeServed u i q true s) (storePlaced u i q v s) := store_changes _ _ _ _ _
  have hbut : memsBut (bStack q.entry) (storeServed u i q true s) (storePlaced u i q v s) := store_memsBut _ _ _ _ _
  have hm : memOf (storeServed u i q true s) = memOf s := h1.memOf_eq (by decide)
  have hcnt : cnt (storeServed u i q true s) = cnt s := rfl
  refine ⟨(h1.mono (by decide)).trans (h2.mono (by decide)), fun w hw => ?_, fun j hj => (hbut j hj).trans (congrFun hm j), ?_⟩
  · rw [h2.tileOf_eq (by decide)]
    exact tileOf_updTile_other hw _ s
  · rw [storePlaced, memOf_store, hm, hcnt]

theorem storeDone_spec (u i : Nat) (q : MoveReq) (v : Blk) (s : State) : changesOnly [.tiles, .mems, .work] s (storeDone u i q v s) ∧
    tilesBut u s (storeDone u i q v s) ∧ memsBut (bStack q.entry) s (storeDone u i q v s) ∧
    memOf (storeDone u i q v s) (bStack q.entry) =
      storedStack (sideBlock s (bStack q.entry) (bBlock q.entry) true) (bBlock q.entry) (cnt s + 1) v (memOf s (bStack q.entry)) ∧
    (storeDone u i q v s).work = { s.work with storesProv := s.work.storesProv + 1 } := by
  obtain ⟨hc, hbut, hmbut, hm⟩ := storePlaced_spec u i q v s
  have hw : (storePlaced u i q v s).work = s.work := hc .work (by decide)
  unfold storeDone
  rw [hw]
  exact ⟨(hc.mono (by decide)).trans ((withWork_changes _).mono (by decide)), hbut, hmbut, hm, rfl⟩

theorem serveStore_spec {v : Blk} (hq : r.uncorrectable = 0) (hk : q.kind = .bst) (hb : q.blk = some v) (hc : r.complete = true)
    (hst : (memOf s (bStack q.entry)).st = .trained) (t : State) (ht : t = serveStack u i q r s) :
    changesOnly [.tiles, .totals, .health, .mems, .work] s t ∧ tilesBut u s t ∧ memsBut (bStack q.entry) s t ∧
      (∀ b, blkAt t (bStack q.entry) b =
        (if b = sideBlock s (bStack q.entry) (bBlock q.entry) true then v else blkAt s (bStack q.entry) b)) ∧
      sideBlock s (bStack q.entry) (bBlock q.entry) true ≠ sideBlock s (bStack q.entry) (bBlock q.entry) false ∧
      (memOf t (bStack q.entry)).sel = (memOf s (bStack q.entry)).sel ∧
      (∀ b, look false b (memOf t (bStack q.entry)).mark =
        (b == bBlock q.entry || look false b (memOf s (bStack q.entry)).mark)) ∧
      t.work = { s.work with storesProv := s.work.storesProv + 1 } := by
  have h := countTransfer_quiet hq (bStack q.entry) s
  rw [serveStack_store hq hk, hc, hst, show (true && StackSt.trained == StackSt.trained) = true from rfl, serveStore_done hb] at ht
  have hmem : memOf (countTransfer (bStack q.entry) r s) = memOf s := h.memOf_eq (by decide)
  have htile : tileOf (countTransfer (bStack q.entry) r s) = tileOf s := h.tileOf_eq (by decide)
  have hwork : (countTransfer (bStack q.entry) r s).work = s.work := h .work (by decide)
  obtain ⟨hc, hbut, hmbut, hm, hw⟩ := storeDone_spec u i q v (countTransfer (bStack q.entry) r s)
  rw [← ht] at hc hbut hmbut hm hw
  rw [hmem, sideBlock_of_mems h (by decide)] at hm
  refine ⟨(h.mono (by decide)).trans (hc.mono (by decide)), fun w hw => (hbut w hw).trans (congrFun htile w),
    fun j hj => (hmbut j hj).trans (congrFun hmem j), fun b => ?_, sideBlock_ne s _ _, by rw [hm]; rfl, fun b => ?_, hw.trans (by rw [hwork])⟩
  · rw [blkAt, hm, storedStack]
    by_cases hn : b = sideBlock s (bStack q.entry) (bBlock q.entry) true
    · rw [if_pos hn, hn]
      exact look_store_self _ _ _ _
    · rw [if_neg hn]
      exact look_store_other hn _ _ _
  · rw [hm, storedStack]
    by_cases hn : b = bBlock q.entry
    · rw [hn, beq_self_eq_true, Bool.true_or]
      exact look_store_self false (bBlock q.entry) true (memOf s (bStack q.entry)).mark
    · rw [beq_eq_false_iff_ne.mpr hn, Bool.false_or]
      exact look_store_other hn false true _

/-! ## Service of a window move, and of a request without a block -/

theorem serveStage_spec {v : Blk} (hb : q.blk = some v) (t : State) (ht : t = serveStage u i q s) :
    ∃ b, changesOnly [.tiles, .stage, .work] s t ∧ tilesBut u s t ∧ t.window.stage = s.window.stage ++ [b] ∧ b.blk = v ∧ b.kind = q.kind ∧
      b.entry = q.entry ∧ b.unit = u ∧ b.step = s.job.step ∧ b.attempt = s.job.attempt ∧ b.slot = q.slot ∧ b.token = q.token ∧
      b.released = false ∧ t.work = { s.work with windowProv := s.work.windowProv + 1 } := by
  unfold serveStage at ht
  rw [hb] at ht
  subst ht
  refine ⟨_, ?_, fun v hv => tileOf_updTile_other hv _ s, rfl, rfl, rfl, rfl, rfl, rfl, rfl, rfl, rfl, rfl, rfl⟩
  intro p hp
  have hsame := fun h => updTile_changes u (setMove i (served true false (some v) q)) s p h
  cases p
  case tiles => exact absurd (by decide) hp
  case stage => exact absurd (by decide) hp
  case work => exact absurd (by decide) hp
  all_goals exact hsame (by decide)

theorem serveStage_none (hb : q.blk = none) : serveStage u i q s = storeServed u i q true s := by
  unfold serveStage
  rw [hb]
  dsimp only
  rw [← hb]
  rfl

theorem serveStore_none (hb : q.blk = none) (ok : Bool) : serveStore u i q ok s = storeServed u i q ok s := by
  unfold serveStore
  rw [hb]
  dsimp only
  rw [← hb]
  rfl

theorem serveEmpty_spec (hu : u < 1024) (hrun : running s = true)
    (hf : findMove (fun q => !q.served && q.serve == s.job.slot) (tileOf s u).mover = some (i, q)) (hk : q.kind ≠ .bld) (hb : q.blk = none)
    (hn : sideBlock s (bStack q.entry) (bBlock q.entry) true < 25165824) (hq : q.kind = .bst → r.uncorrectable = 0) :
    ∃ t : State, exec (.blockMoveService u r) s = .next t ∧ changesOnly [.tiles, .totals, .health] s t ∧ tilesBut u s t := by
  by_cases hs : q.kind = .bst
  · have hmove : moveBlock s q < 25165824 := by
      rw [moveBlock, if_neg hk]
      exact hn
    have h := countTransfer_quiet (hq hs) (bStack q.entry) s
    refine ⟨_, exec_serve_stack hu hrun hf (.inr hs) hmove r, ?_⟩
    rw [serveStack_store (hq hs) hs, serveStore_none hb]
    exact ⟨(h.mono (by decide)).trans ((updTile_changes u _ _).mono (by decide)), fun v hv =>
      (tileOf_updTile_other hv _ _).trans (congrFun (h.tileOf_eq (by decide)) v)⟩
  · refine ⟨_, exec_serve_stage hu hrun hf hk hs r, ?_⟩
    rw [serveStage_none hb]
    exact ⟨(updTile_changes u _ s).mono (by decide), fun v hv => tileOf_updTile_other hv _ s⟩

/-! ## A detection at the end of the slot -/

theorem toldIn_of_tile {t : State} {x y : Tile} (hc : cnt t = cnt s) (ht : y.told = x.told) (k : Nat) : toldIn t y k = toldIn s x k := by
  rw [toldIn, toldIn, hc, ht]

/-- A detection of a tile of a running job that has told of nothing in the token. -/
theorem tileDetect_detected {c k : Nat} (hu : u < 1024) (hrun : running s = true) (h : toldIn s (tileOf s u) k = none)
    (hc : isFaultCode c = false) (w : Nat) :
    changesOnly (.tiles :: detects) s (tileDetect c u w k s) ∧ tilesBut u s (tileDetect c u w k s) ∧
      (tileOf (tileDetect c u w k s) u).mover = (tileOf s u).mover ∧ (tileOf (tileDetect c u w k s) u).lines = (tileOf s u).lines ∧
      (tileOf (tileDetect c u w k s) u).detected = true ∧
      (tileDetect c u w k s).sec.totals = detectTotals c (· + 1) s.sec.totals := by
  obtain ⟨hch, hbut, htile, htot, -⟩ := tileDetect_spec (i := w) hu hrun h
  rw [tellTile_detection hc] at htile
  exact ⟨hch, hbut, by rw [htile], by rw [htile], by rw [htile], htot⟩

/-- A load with an uncorrectable burst, its detection yet to come. -/
def noisyLoad (u i : Nat) (q : MoveReq) (r : MoveService) (s : State) : State :=
  serveLoad u i q (r.complete && (memOf s (bStack q.entry)).st == .trained) r (countTransfer (bStack q.entry) r s)

theorem noisyLoad_spec (u i : Nat) (q : MoveReq) (r : MoveService) (s : State) :
    changesOnly (.tiles :: .totals :: moves) s (noisyLoad u i q r s) ∧
      (∃ x, tileOf (noisyLoad u i q r s) u = setMove i x (tileOf s u)) ∧
      (noisyLoad u i q r s).sec.totals = transferTotals r s.sec.totals := by
  have h := countTransfer_changes (bStack q.entry) r s
  unfold noisyLoad serveLoad
  extract_lets b v
  refine ⟨(h.mono (by decide)).trans ((updTile_changes u _ _).mono (by decide)), ?_, countTransfer_totals _ _ _⟩
  rw [tileOf_updTile_self, h.tileOf_eq (by decide)]
  exact ⟨_, rfl⟩

theorem serveStack_noisy (hk : q.kind = .bld) (hr : 0 < r.uncorrectable) :
    serveStack u i q r s = tileDetect 0x0581 u 0xFF 63 (noisyLoad u i q r s) := by
  unfold serveStack
  simp only [hk, if_true, if_neg (Nat.ne_of_gt hr)]
  rfl

theorem serveNoisy_spec (hu : u < 1024) (hrun : running s = true) (hk : q.kind = .bld) (hr : 0 < r.uncorrectable)
    (htold : toldIn s (tileOf s u) 63 = none) (t : State) (ht : t = serveStack u i q r s) :
    changesOnly (.tiles :: detects) s t ∧ (tileOf t u).detected = true ∧ (tileOf t u).lines = (tileOf s u).lines ∧
      t.sec.totals = { s.sec.totals with detect := s.sec.totals.detect + 1,
                                         memCorr := s.sec.totals.memCorr + r.corrected,
                                         memUncorr := s.sec.totals.memUncorr + r.uncorrectable } := by
  rw [serveStack_noisy hk hr] at ht
  subst ht
  obtain ⟨hc, ⟨x, htile⟩, htot⟩ := noisyLoad_spec u i q r s
  have hrun' : running (noisyLoad u i q r s) = true := by
    rw [running, hc .job (by decide)]
    exact hrun
  have htold' : toldIn (noisyLoad u i q r s) (tileOf (noisyLoad u i q r s) u) 63 = none :=
    (toldIn_of_tile (congrArg Bridle.count (hc .bridle (by decide))) (by rw [htile]; rfl) 63).trans htold
  obtain ⟨hd, -, -, hlines, hdet, htotals⟩ := tileDetect_detected (c := 0x0581) hu hrun' htold' rfl 0xFF
  refine ⟨(hc.mono (by decide)).trans hd, hdet, hlines.trans (by rw [htile]; rfl), htotals.trans ?_⟩
  rw [htot]
  rfl

/-! ## Retirement -/

theorem retired_tile (u i : Nat) (s : State) : tileOf (retired u i s) u = { tileOf s u with mover := (tileOf s u).mover.eraseIdx i } :=
  tileOf_updTile_self u _ s

theorem retired_changes (u i : Nat) (s : State) : changesOnly [.tiles] s (retired u i s) := updTile_changes u _ s

theorem retired_but (u i : Nat) (s : State) : tilesBut u s (retired u i s) := fun _ hv => tileOf_updTile_other hv _ s

/-- A request that retires with a detection. -/
theorem retired_detected {c : Nat} (hu : u < 1024) (hrun : running s = true) (htold : toldIn s (tileOf s u) 63 = none)
    (hc : isFaultCode c = false) (i : Nat) (t : State) (ht : t = tileDetect c u 0xFF 63 (retired u i s)) :
    changesOnly (.tiles :: detects) s t ∧ tilesBut u s t ∧ (tileOf t u).mover = (tileOf s u).mover.eraseIdx i ∧
      (tileOf t u).lines = (tileOf s u).lines ∧ (tileOf t u).detected = true ∧ t.sec.totals = detectTotals c (· + 1) s.sec.totals := by
  subst ht
  have hr := retired_changes u i s
  have htold' : toldIn (retired u i s) (tileOf (retired u i s) u) 63 = none :=
    (toldIn_of_tile (s := s) (x := tileOf s u) rfl (by rw [retired_tile]) 63).trans htold
  obtain ⟨hd, hbut, hmover, hlines, hdet, htot⟩ := tileDetect_detected (s := retired u i s) hu hrun htold' hc 0xFF
  exact ⟨(hr.mono (by decide)).trans hd, fun v hv => (hbut v hv).trans (retired_but u i s v hv), hmover.trans (by rw [retired_tile]),
    hlines.trans (by rw [retired_tile]), hdet, htot⟩

/-! ### A page that is written -/

/-- The line that a load writes. -/
def loadedLine (s : State) (p : PageBits) (j : Nat) : LineVal := { cleanLine (pageLine p j) 0 with unfin := cnt s + 1 }

/-- The first lines of a page written. -/
def writeLines (s : State) (u page : Nat) (p : PageBits) (l : List Nat) (t : Tile) : Tile :=
  l.foldl (fun a j => writeLine (regionsNow s u) (page + j) (loadedLine s p j) a) t

theorem lineAt_writeLine_other {rg : Nat × Nat × Nat} {l j : Nat} (h : j ≠ l) (v : LineVal) (t : Tile) :
    lineAt (writeLine rg l v t) j = lineAt t j := lineAt_setLine_other h _ t

theorem lineAt_writeLine_self (rg : Nat × Nat × Nat) (l : Nat) (v : LineVal) (t : Tile) :
    lineAt (writeLine rg l v t) l = if isHold rg l then { lineAt t l with nxt := v, mark := true } else { lineAt t l with cur := v, mark := true } :=
  lineAt_setLine_self l _ t

theorem lineAt_writeLines_apart {page m : Nat} (p : PageBits) {l : List Nat} (h : ∀ j ∈ l, m ≠ page + j) (t : Tile) :
    lineAt (writeLines s u page p l t) m = lineAt t m := by
  induction l generalizing t with
  | nil => rfl
  | cons j l ih =>
    have hcons : writeLines s u page p (j :: l) t = writeLines s u page p l (writeLine (regionsNow s u) (page + j) (loadedLine s p j) t) := rfl
    rw [hcons, ih (fun k hk => h k (List.mem_cons_of_mem _ hk)), lineAt_writeLine_other (h j (List.mem_cons_self ..))]

/-- Line `m` of the page, whichever side of it the write takes. -/
def lineWritten (rg : Nat × Nat × Nat) (m : Nat) (d : LineBits) (x : LineSt) : Prop :=
  x.mark = true ∧ (if isHold rg m then x.nxt else x.cur).data = d

theorem lineAt_writeLines {page j : Nat} (p : PageBits) {l : List Nat} (hl : l.Nodup) (hj : j ∈ l) (t : Tile) :
    lineWritten (regionsNow s u) (page + j) (pageLine p j) (lineAt (writeLines s u page p l t) (page + j)) := by
  induction l generalizing t with
  | nil => exact nomatch hj
  | cons k l ih =>
    obtain ⟨hk, hl⟩ := List.nodup_cons.mp hl
    have hcons : writeLines s u page p (k :: l) t = writeLines s u page p l (writeLine (regionsNow s u) (page + k) (loadedLine s p k) t) := rfl
    rw [hcons]
    rcases List.mem_cons.mp hj with rfl | hj
    · rw [lineAt_writeLines_apart p (fun m hm heq => hk (by rw [Nat.add_left_cancel heq]; exact hm)), lineAt_writeLine_self]
      unfold lineWritten
      by_cases hh : isHold (regionsNow s u) (page + j) = true
      · rw [if_pos hh, if_pos hh]
        exact ⟨rfl, rfl⟩
      · rw [if_neg hh, if_neg hh]
        exact ⟨rfl, rfl⟩
    · exact ih hl hj _

theorem writePage_eq (s : State) (u page : Nat) (p : PageBits) (t : Tile) : writePage s u page p t = writeLines s u page p (List.range 16) t := rfl

theorem writeLines_mover (s : State) (u page : Nat) (p : PageBits) (l : List Nat) (t : Tile) :
    (writeLines s u page p l t).mover = t.mover := by
  induction l generalizing t with
  | nil => rfl
  | cons j l ih => exact (ih _).trans rfl

/-- A load that passes its checks is written to its page. -/
theorem retireLoad_good {b : Blk} (hk : q.kind = .bld) (hc : q.complete = true) (hb : q.blk = some b) (hok : loadOk s q.entry b = true)
    (t : State) (ht : t = retireGo u i q s) : changesOnly [.tiles] s t ∧ tilesBut u s t ∧
      (tileOf t u).mover = (tileOf s u).mover.eraseIdx i ∧
      (∀ j, j < 16 → lineWritten (regionsNow s u) (q.page + j) (b.payload.extractLsb' (2048 * j) 2048) (lineAt (tileOf t u) (q.page + j))) ∧
      (∀ l, l < q.page ∨ q.page + 16 ≤ l → lineAt (tileOf t u) l = lineAt (tileOf s u) l) := by
  have he : retireGo u i q s = updTile u (writePage (retired u i s) u q.page b.payload) (retired u i s) := by
    unfold retireGo
    rw [hk]
    dsimp only
    unfold retireLoad
    rw [hc, hb]
    exact if_pos hok
  rw [he] at ht
  have htile : tileOf t u = writeLines s u q.page b.payload (List.range 16) { tileOf s u with mover := (tileOf s u).mover.eraseIdx i } := by
    rw [ht, tileOf_updTile_self, retired_tile, writePage_eq]
    rfl
  refine ⟨?_, fun v hv => ?_, ?_, fun j hj => ?_, fun l hl => ?_⟩
  · rw [ht]
    exact (retired_changes u i s).trans (updTile_changes u _ _)
  · rw [ht, tileOf_updTile_other hv, retired_but u i s v hv]
  · rw [htile, writeLines_mover]
  · rw [htile]
    exact lineAt_writeLines b.payload List.nodup_range (List.mem_range.mpr hj) _
  · rw [htile, lineAt_writeLines_apart b.payload fun j hj heq => ?_]
    · rfl
    · have := List.mem_range.mp hj
      omega

theorem retireGo_bad {b : Blk} (hk : q.kind = .bld) (hc : q.complete = true) (hb : q.blk = some b) (hok : loadOk s q.entry b = false) :
    retireGo u i q s = tileDetect 0x0483 u 0xFF 63 (retired u i s) := by
  have hok' : loadOk (retired u i s) q.entry b = false := hok
  unfold retireGo
  rw [hk]
  dsimp only
  unfold retireLoad
  rw [hc, hb]
  dsimp only
  rw [hok']
  rfl

theorem retireGo_late (hk : q.kind = .bld ∨ q.kind = .bst) (hc : q.complete = false) :
    retireGo u i q s = tileDetect 0x0582 u 0xFF 63 (retired u i s) := by
  unfold retireGo
  rcases hk with hk | hk
  · rw [hk]
    dsimp only
    unfold retireLoad
    rw [hc]
  · rw [hk, hc]
    rfl

theorem retireGo_done (hk : q.kind ≠ .bld) (hc : q.kind = .bst → q.complete = true) : retireGo u i q s = retired u i s := by
  unfold retireGo
  split
  · next h => exact absurd h hk
  · next h => rw [if_pos (hc h)]
  · rfl

end Sys2Proof.Machine

open Sys2Proof Sys2Proof.Machine

/-- Settles O42: the transfer is counted and the request served (`serveLoad_spec`, `serveStore_spec`, `serveStage_spec`), and a
request that retires writes its page or is detected (`retireLoad_good`, `retired_detected`). -/
theorem blockMovesServeAndRetire : Obligations.BlockMovesServeAndRetire := by
  refine ⟨fun s u i q r hu hrun hf => ⟨fun hk hb hc hq hst => ?_, fun v hk hv hb hc hq hst => ?_, fun v h1 h2 hv => ?_,
    fun hk hv hb hq => serveEmpty_spec hu hrun hf hk hv hb hq, fun hk hb hr htold => ?_⟩, fun s u i q hu hrun hf => ?_⟩
  · have hmove : moveBlock s q < 25165824 := by rwa [moveBlock, if_pos hk]
    exact ⟨_, exec_serve_stack hu hrun hf (.inl hk) hmove r, serveLoad_spec hq hk hc hst _ rfl⟩
  · have hmove : moveBlock s q < 25165824 := by rwa [moveBlock, if_neg (by simp [hk])]
    exact ⟨_, exec_serve_stack hu hrun hf (.inr hk) hmove r, serveStore_spec hq hk hv hc hst _ rfl⟩
  · obtain ⟨b, h⟩ := serveStage_spec (u := u) (i := i) (s := s) hv _ rfl
    exact ⟨_, b, exec_serve_stage hu hrun hf h1 h2 r, h⟩
  · have hmove : moveBlock s q < 25165824 := by rwa [moveBlock, if_pos hk]
    exact ⟨_, exec_serve_stack hu hrun hf (.inl hk) hmove r, serveNoisy_spec hu hrun hk hr htold _ rfl⟩
  · have hexec := exec_retire hu hrun hf
    refine ⟨fun b hk hc hb hok => ⟨_, hexec, retireLoad_good hk hc hb hok _ rfl⟩, fun b hk hc hb hok htold => ⟨_, hexec, ?_⟩,
      fun hk hc htold => ⟨_, hexec, ?_⟩, fun hk hc => ⟨_, hexec, ?_⟩⟩
    · exact retired_detected hu hrun htold rfl i _ (retireGo_bad hk hc hb hok)
    · exact retired_detected hu hrun htold rfl i _ (retireGo_late hk hc)
    · rw [retireGo_done hk hc]
      exact ⟨retired_changes u i s, retired_but u i s, retired_tile u i s⟩
end

section
/-! Proofs: a sealed step becomes final and its staged blocks are released (R190, R192, R195, R268; O39). -/

namespace Sys2Proof.Machine

variable {s t v : State} {r : Reel}

/-! ## What a release touches -/

/-- What the release of blocks may change. -/
def releases : List Part := [.settings, .test, .job, .work, .stage, .gaccs, .trees, .waiting, .host]

/-- Blocks were released between two states: the job has at most faulted, and the confirmed WINDOW count alone has moved. -/
structure Released (s t : State) : Prop where
  changes : changesOnly releases s t
  job : ∃ o f n k, t.job = { s.job with ownFault := o, faulted := f, notice := n, noticeAt := k }
  work : ∃ w, t.work = { s.work with window := w }

theorem Released.refl (s : State) : Released s s :=
  ⟨.refl _ s, ⟨s.job.ownFault, s.job.faulted, s.job.notice, s.job.noticeAt, rfl⟩, ⟨s.work.window, rfl⟩⟩

theorem Released.trans (h : Released s t) (k : Released t v) : Released s v := by
  obtain ⟨o, f, n, c, hj⟩ := h.job
  obtain ⟨o', f', n', c', hj'⟩ := k.job
  obtain ⟨w, hw⟩ := h.work
  obtain ⟨w', hw'⟩ := k.work
  exact ⟨h.changes.trans k.changes, ⟨o', f', n', c', by rw [hj', hj]⟩, ⟨w', by rw [hw', hw]⟩⟩

theorem Released.of_same {A : List Part} (h : changesOnly A s t) (hA : A ⊆ releases) (hj : Part.job ∉ A) (hw : Part.work ∉ A) :
    Released s t :=
  ⟨h.mono hA, ⟨s.job.ownFault, s.job.faulted, s.job.notice, s.job.noticeAt, h .job hj⟩, ⟨s.work.window, h .work hw⟩⟩

theorem countWindow_released (s : State) : Released s (countWindow s) :=
  ⟨(countWindow_changes s).mono (by decide), ⟨s.job.ownFault, s.job.faulted, s.job.notice, s.job.noticeAt, rfl⟩, ⟨_, rfl⟩⟩

theorem hostFault_released (c : Nat) (s : State) : Released s (hostFault c s) := by
  by_cases h : running s = true
  · have hc := raiseFault_changes c 0xC002 0xFF 0 s
    obtain ⟨o, n, k, hj⟩ := raiseFault_job_eq c 0xC002 0xFF 0 h
    exact ⟨hc.mono (by decide), ⟨o, true, n, k, hj⟩, ⟨s.work.window, hc .work (by decide)⟩⟩
  · rw [hostFault, raiseFault_idle (by simpa using h)]
    exact .refl s

theorem writeSlot_released (n : Nat) (b : Blk) (pr : List Byte) (s : State) : Released s (writeSlot n b pr s) :=
  .of_same (writeSlot_changes n b pr s) (by decide) (by decide) (by decide)

theorem withStage_changes (l : List StageBlk) (s : State) : changesOnly [.stage] s { s with window := { s.window with stage := l } } := by
  intro p hp
  cases p
  case stage => exact absurd (by decide) hp
  all_goals rfl

theorem withStage_released (l : List StageBlk) (s : State) : Released s { s with window := { s.window with stage := l } } :=
  .of_same (withStage_changes l s) (by decide) (by decide) (by decide)

theorem keepTree_released (b : StageBlk) (s : State) : Released s (keepTree b s) := by
  refine .of_same (A := [.trees, .waiting]) ?_ (by decide) (by decide) (by decide)
  unfold keepTree
  extract_lets t
  refine .ite ?_ ?_
  · intro p hp
    cases p
    case trees => exact absurd (by decide) hp
    all_goals rfl
  · intro p hp
    cases p
    case waiting => exact absurd (by decide) hp
    all_goals rfl

theorem withGaccs_released (l : List StageBlk) (s : State) : Released s { s with window := { s.window with gaccs := l } } := by
  refine .of_same (A := [.gaccs]) (fun p hp => ?_) (by decide) (by decide) (by decide)
  cases p
  case gaccs => exact absurd (by decide) hp
  all_goals rfl

theorem releaseLeaf_released (b : StageBlk) (s : State) : Released s (releaseLeaf b s) := by
  unfold releaseLeaf
  extract_lets s1
  have h1 : Released s s1 := (writeSlot_released _ _ _ s).trans (countWindow_released _)
  split
  · exact h1.trans (keepTree_released b s1)
  · exact h1

theorem releaseBlk_released (r : Reel) (b : StageBlk) (s : State) : Released s (releaseBlk r b s) := by
  unfold releaseBlk
  split
  · exact hostFault_released _ s
  · split
    · exact withGaccs_released _ s
    · exact releaseLeaf_released b s
    · exact (writeSlot_released _ _ _ s).trans (countWindow_released _)

theorem releaseInOrder_released (r : Reel) (l : List StageBlk) (s : State) : Released s (releaseInOrder r l s) := by
  induction l generalizing s with
  | nil => exact .refl s
  | cons b l ih =>
    unfold releaseInOrder
    split
    · exact withStage_released _ s
    · exact (releaseBlk_released r b s).trans (ih _)

theorem releaseStep_released (r : Reel) (n : Nat) (s : State) : Released s (releaseStep r n s) :=
  (withStage_released _ s).trans ((withStage_released _ _).trans (releaseInOrder_released r _ _))

/-! ## Values that become final -/

section
variable (x : Sealed)

theorem finalLine_data (l : LineSt) : (finalLine r x l).cur.data = l.cur.data ∧ (finalLine r x l).nxt.data = l.nxt.data ∧
    (finalLine r x l).mark = l.mark := by
  unfold finalLine
  extract_lets fix
  have h : ∀ w, (fix w).data = w.data := fun w => by
    unfold fix
    split <;> rfl
  exact ⟨h _, h _, rfl⟩

theorem finalLine_zero : finalLine r x LineSt.zero = LineSt.zero := by
  have h : (if sealedAt r x LineSt.zero.cur.unfin = true then { LineSt.zero.cur with unfin := 0 } else LineSt.zero.cur) = LineSt.zero.cur := by
    split <;> rfl
  exact congrArg (fun w => { LineSt.zero with cur := w, nxt := w }) h

/-- A tile whose values of the sealed attempt are final. -/
def finalTile (r : Reel) (x : Sealed) (t : Tile) : Tile := { t with lines := mapVals LineSt.zero (finalLine r x) t.lines }

/-- A stack whose values of the sealed attempt are final. -/
def finalStack (r : Reel) (x : Sealed) (m : Stack) : Stack := { m with unfin := m.unfin.filter (fun y => !sealedAt r x y.2) }

theorem finalValues_eq (s : State) : finalValues r x s =
    { s with tiles := mapVals Tile.clear (finalTile r x) s.tiles, mems := mapVals Stack.off (finalStack r x) s.mems } := rfl

theorem finalValues_changes (s : State) : changesOnly [.tiles, .mems] s (finalValues r x s) := by
  intro p hp
  cases p
  case tiles => exact absurd (by decide) hp
  case mems => exact absurd (by decide) hp
  all_goals rfl

theorem tileOf_finalValues (h : sparseOk s) (u : Nat) : tileOf (finalValues r x s) u = finalTile r x (tileOf s u) :=
  look_mapVals (d := Tile.clear) (f := finalTile r x) (canonical_iff.mp h.1).1 rfl u

theorem memOf_finalValues (h : sparseOk s) (k : Nat) : memOf (finalValues r x s) k = finalStack r x (memOf s k) :=
  look_mapVals (d := Stack.off) (f := finalStack r x) (canonical_iff.mp h.2.1).1 rfl k

theorem lineAt_finalTile {t : Tile} (h : canonical LineSt.zero t.lines = true) (l : Nat) :
    lineAt (finalTile r x t) l = finalLine r x (lineAt t l) :=
  look_mapVals (canonical_iff.mp h).1 (finalLine_zero x) l

end

/-! ## The command -/

section
variable {x : Sealed}

/-- The step final, its blocks yet to be released. -/
def madeFinal (r : Reel) (x : Sealed) (s : State) : State :=
  finalValues r x (dropStale { s with job := { s.job with sealed_ := none, final := x.step }, work := confirmWork x s.work })

/-- The notice that is held on when step `n` is final. -/
def keptNotice (n : Nat) (o : Option Notice) : Option Notice := o.filter (fun m => m.fault || decide (n < m.step))

theorem madeFinal_job (r : Reel) (x : Sealed) (s : State) :
    (madeFinal r x s).job = { s.job with sealed_ := none, final := x.step, notice := keptNotice x.step s.job.notice } := rfl

theorem madeFinal_work (r : Reel) (x : Sealed) (s : State) : (madeFinal r x s).work = confirmWork x s.work := rfl

theorem madeFinal_changes (r : Reel) (x : Sealed) (s : State) : changesOnly [.job, .work, .tiles, .mems] s (madeFinal r x s) := by
  intro p hp
  cases p
  case job => exact absurd (by decide) hp
  case work => exact absurd (by decide) hp
  case tiles => exact absurd (by decide) hp
  case mems => exact absurd (by decide) hp
  all_goals rfl

theorem tileOf_madeFinal (h : sparseOk s) (u : Nat) : tileOf (madeFinal r x s) u = finalTile r x (tileOf s u) :=
  tileOf_finalValues (s := dropStale { s with job := { s.job with sealed_ := none, final := x.step }, work := confirmWork x s.work }) x h u

theorem memOf_madeFinal (h : sparseOk s) (k : Nat) : memOf (madeFinal r x s) k = finalStack r x (memOf s k) :=
  memOf_finalValues (s := dropStale { s with job := { s.job with sealed_ := none, final := x.step }, work := confirmWork x s.work }) x h k

theorem finalise_eq (r : Reel) (x : Sealed) (s : State) : finalise r x s = releaseStep r x.step (madeFinal r x s) := rfl

theorem exec_stepFinal (hp : s.pacer.running = true) (hrun : running s = true) (hr : s.reel = some r) (hx : s.job.sealed_ = some x)
    (hn : ∀ n, s.job.notice = some n → n.applyAt ≠ s.bridle.count) :
    exec .stepFinal s = .next (if s.bridle.count = x.at_ + 2 * diam s + 8 then finalise r x s else s) := by
  have hdue : noticeDue s = false := by
    unfold noticeDue
    cases hno : s.job.notice with
    | none => rfl
    | some n => exact beq_eq_false_iff_ne.mpr (hn n hno)
  show execStepFinal s = _
  unfold execStepFinal
  simp only [hp, hrun, hdue, hr, hx, Bool.not_false, Bool.and_true]
  rfl

/-! ## The release of the staged blocks of the final step -/

theorem upTo_of_later {n : Nat} {b : StageBlk} (hr : b.released = false) (h : n < b.step) : b.upTo n = b := by
  have hd : decide (b.step ≤ n) = false := decide_eq_false (Nat.not_le.mpr h)
  have he : b.upTo n = { b with released := false } := by rw [StageBlk.upTo, hr, hd]; rfl
  rw [he, ← hr]

theorem upTo_of_final {n : Nat} {b : StageBlk} (h : b.step ≤ n) : b.upTo n = { b with released := true } := by
  rw [StageBlk.upTo, decide_eq_true h, Bool.or_true]

/-- With every staged block of a later step a final step releases nothing. -/
theorem releaseStep_of_later {n : Nat} (h : ∀ b ∈ s.window.stage, b.released = false ∧ n < b.step) : releaseStep r n s = s := by
  have hmap : s.window.stage.map (StageBlk.upTo n) = s.window.stage :=
    (List.map_congr_left fun b hb => upTo_of_later (h b hb).1 (h b hb).2).trans (List.map_id _)
  rw [releaseStep, hmap]
  exact releaseWaiting_of_none r fun b hb => (h b hb).1

/-- All the staged blocks belong to the final step: they are released in order from an empty stage. -/
theorem releaseStep_of_final {n : Nat} (h : ∀ b ∈ s.window.stage, b.step ≤ n) : releaseStep r n s =
    releaseInOrder r (orderBlks (s.window.stage.map (fun b => { b with released := true })))
      { s with window := { s.window with stage := [] } } := by
  have hmap : s.window.stage.map (StageBlk.upTo n) = s.window.stage.map (fun b => { b with released := true }) :=
    List.map_congr_left fun b hb => upTo_of_final (h b hb)
  have hall : (s.window.stage.map (fun b => { b with released := true })).filter (fun b => b.released) =
      s.window.stage.map (fun b => { b with released := true }) := List.filter_eq_self.mpr fun b hb => by
    obtain ⟨c, -, rfl⟩ := List.mem_map.mp hb
    rfl
  have hnone : (s.window.stage.map (fun b => { b with released := true })).filter (fun b => !b.released) = [] :=
    List.filter_eq_nil_iff.mpr fun b hb => by
      obtain ⟨c, -, rfl⟩ := List.mem_map.mp hb
      exact Bool.false_ne_true
  rw [releaseStep, hmap, releaseWaiting]
  dsimp only
  rw [hall, hnone]

/-- A block that waits for the inputs of its record keeps back the later one. -/
theorem releaseStep_waits {n : Nat} {b c : StageBlk} (hst : s.window.stage = [c, b]) (hb : b.step ≤ n) (hc : c.step ≤ n)
    (hlt : b.step < c.step ∨ (b.step = c.step ∧ b.slot < c.slot)) (hw : awaitsInputs s r b = true) :
    releaseStep r n s = { s with window := { s.window with stage := [{ b with released := true }, { c with released := true }] } } := by
  have hall : ∀ y ∈ s.window.stage, y.step ≤ n := fun y hy => by
    rw [hst] at hy
    rcases List.mem_pair.mp hy with rfl | rfl
    · exact hc
    · exact hb
  have hbefore : beforeBlk { b with released := true } { c with released := true } = true := by
    unfold beforeBlk
    rcases hlt with h | ⟨h1, h2⟩
    · simp [Nat.ne_of_lt h, h]
    · simp [h1, Nat.ne_of_lt h2, h2]
  have horder : orderBlks [{ c with released := true }, { b with released := true }] =
      [{ b with released := true }, { c with released := true }] := by
    simp only [orderBlks, List.foldl_cons, List.foldl_nil, insertBlk, hbefore, if_true]
  rw [releaseStep_of_final hall, hst, List.map_cons, List.map_cons, List.map_nil, horder]
  exact if_pos hw

theorem countWindow_bytes {a e : Nat} {p q : List Byte} {u : State} (hm : hostMem u = hostMem s)
    (h : readBytes (hostMem t) a 4096 = p ∧ readBytes (hostMem t) e 32 = q ∧ hostBut [(a, 4096), (e, 32)] u t) :
    readBytes (hostMem (countWindow t)) a 4096 = p ∧ readBytes (hostMem (countWindow t)) e 32 = q ∧
      hostBut [(a, 4096), (e, 32)] s (countWindow t) := by
  have hc : hostMem (countWindow t) = hostMem t := countWindow_changes t .host (by decide)
  rw [hc]
  exact ⟨h.1, h.2.1, (hostBut_of_eq hm).trans (h.2.2.trans (hostBut_of_eq hc))⟩

/-- A single BWR block without a record is written to its slot. -/
theorem releaseStep_written {n : Nat} {b : StageBlk} (hst : s.window.stage = [b]) (hb : b.step ≤ n) (hk : b.kind = .bwr)
    (hown : ownsPanels s b = true) (hp : nProv b.entry = false) :
    releaseStep r n s = countWindow (writeSlot (nTarget b.entry) b.blk [] { s with window := { s.window with stage := [] } }) := by
  have hall : ∀ y ∈ s.window.stage, y.step ≤ n := fun y hy => by
    rw [hst] at hy
    rw [List.mem_singleton.mp hy]
    exact hb
  have hawait : awaitsInputs { s with window := { s.window with stage := [] } } r { b with released := true } = false := by
    simp [awaitsInputs, hp]
  have hown' : ownsPanels { s with window := { s.window with stage := [] } } { b with released := true } = true := hown
  rw [releaseStep_of_final hall, hst, List.map_cons, List.map_nil]
  show releaseInOrder r [{ b with released := true }] _ = _
  unfold releaseInOrder
  rw [if_neg (by simp [hawait])]
  unfold releaseInOrder releaseBlk
  rw [if_neg (by simp [hown'])]
  simp only [hk, releaseBwr, hp, Bool.false_eq_true, if_false]

end

end Sys2Proof.Machine

open Sys2Proof Sys2Proof.Machine

/-- Settles O39: a final step confirms its counts (`madeFinal_work`), and the release of its blocks touches the window, the
WINDOW count and at most a fault (`releaseStep_released`). -/
theorem sealedStepsBecomeFinal : Obligations.SealedStepsBecomeFinal := by
  intro s r x h hp hrun hr hx hn
  have hexec := exec_stepFinal hp hrun hr hx hn
  refine ⟨fun hne => hexec.trans (congrArg Host.Outcome.next (if_neg hne)), fun hat => ?_⟩
  rw [if_pos hat, finalise_eq] at hexec
  have hrel := releaseStep_released r x.step (madeFinal r x s)
  obtain ⟨o, f, n, k, hj⟩ := hrel.job
  obtain ⟨w, hw⟩ := hrel.work
  have hc := madeFinal_changes r x s
  have htile : ∀ u, tileOf (releaseStep r x.step (madeFinal r x s)) u = finalTile r x (tileOf s u) := fun u =>
    (congrFun (hrel.changes.tileOf_eq (by decide)) u).trans (tileOf_madeFinal h u)
  have hmem : ∀ k, memOf (releaseStep r x.step (madeFinal r x s)) k = finalStack r x (memOf s k) := fun k =>
    (congrFun (hrel.changes.memOf_eq (by decide)) k).trans (memOf_madeFinal h k)
  refine ⟨_, hexec, by rw [hj]; rfl, by rw [hj]; rfl, by rw [hj]; rfl, by rw [hw]; rfl, by rw [hw]; rfl, by rw [hw]; rfl, by rw [hw]; rfl,
    by rw [hw]; rfl, by rw [hw]; rfl, by rw [hw]; rfl, fun u l => ?_, fun k => by rw [hmem]; exact ⟨rfl, rfl, rfl⟩, fun hlater => ?_,
    fun b c hst _ _ hb hc' hlt hwait => ?_, fun b hst _ hb hk hown hprov => ?_⟩
  · rw [htile, lineAt_finalTile x (h.2.2.2.1 u)]
    exact finalLine_data x _
  · have he : releaseStep r x.step (madeFinal r x s) = madeFinal r x s := releaseStep_of_later (s := madeFinal r x s) hlater
    rw [he]
    refine ⟨hc, rfl, rfl, fun hno => ?_, fun m hm => ?_⟩
    · rw [madeFinal_job, hno]
      rfl
    · rw [madeFinal_job, hm]
      simp [keptNotice, Option.filter]
  · rw [releaseStep_waits (s := madeFinal r x s) hst hb hc' hlt hwait]
    exact ⟨rfl, rfl, rfl⟩
  · have he := releaseStep_written (s := madeFinal r x s) (r := r) hst hb hk hown hprov
    have hbytes := writeSlot_bytes (nTarget b.entry) b.blk { madeFinal r x s with window := { (madeFinal r x s).window with stage := [] } }
    have hws := writeSlot_changes (nTarget b.entry) b.blk [] { madeFinal r x s with window := { (madeFinal r x s).window with stage := [] } }
    have hall := (((hc.mono (B := [.job, .work, .tiles, .mems, .stage, .host]) (by decide)).trans
      ((withStage_changes [] (madeFinal r x s)).mono (by decide))).trans (hws.mono (by decide))).trans ((countWindow_changes _).mono (by decide))
    rw [he]
    have hpa : payloadAddr { madeFinal r x s with window := { (madeFinal r x s).window with stage := [] } } (nTarget b.entry) =
        payloadAddr s (nTarget b.entry) := slotAddr_of_panels rfl _ _ _
    have hea : envAddr { madeFinal r x s with window := { (madeFinal r x s).window with stage := [] } } (nTarget b.entry) =
        envAddr s (nTarget b.entry) := slotAddr_of_panels rfl _ _ _
    rw [hpa, hea] at hbytes
    refine ⟨hall, hws .stage (by decide), ?_, countWindow_bytes rfl hbytes⟩
    show (writeSlot (nTarget b.entry) b.blk [] { madeFinal r x s with window := { (madeFinal r x s).window with stage := [] } }).work.window + 1 = _
    rw [show (writeSlot (nTarget b.entry) b.blk [] { madeFinal r x s with window := { (madeFinal r x s).window with stage := [] } }).work =
      (madeFinal r x s).work from hws .work (by decide)]
    rfl
end

section
/-! Proofs: the answer of a store that failed on the bank that is active (R49; O59). -/

namespace Sys2Proof.Machine

/-- A store for the management path that writes the bank which is active. -/
def activeTarget : StoreRun where
  req := .mgmt 0
  set := State.reset.store.set
  toB := true
  generation := 7
  storeCount := 1
  tbSeconds := 0

/-- A package in service boot whose running store writes bank B while bank B, of generation 0, is active. -/
def activeStored : State :=
  { State.reset with
    boot := { State.reset.boot with stage := .serviceBoot }
    store := { State.reset.store with active := some true, run := some activeTarget } }

/-- The failed store leaves bank B active with the generation that it wrote. -/
theorem activeStored_gen : activeGen (finishStore activeTarget false activeStored.store) = 7 ∧ activeGen activeStored.store = 0 := by
  decide +kernel

theorem activeStored_on : svcOn activeStored = true := by decide +kernel

/-- The bytes of the answer to the failed store: RESULT 2 and GENERATION 7. -/
theorem activeStored_resp :
    (storeAnswer activeTarget.req 2 { activeStored with store := finishStore activeTarget false activeStored.store }).out.resp =
      [8, 0, 0x84] ++ leBytes 4 activeStored.unitGen ++ [2, 7, 0, 0, 0] := by decide +kernel

end Sys2Proof.Machine

open Sys2Proof Sys2Proof.Machine

/-- Refutes O59: the answer gives the GENERATION of the bank that is active after the store (`storeAnswer`), and a store that
failed has overwritten it where its target is the active bank (a state that `startStore` never makes). -/
theorem not_unitsLeaveAndReturn : ¬ Obligations.UnitsLeaveAndReturn := by
  intro h
  obtain ⟨-, -, -, -, -, h⟩ := h
  obtain ⟨t, ht, -, hresp, -⟩ := h activeStored 0 activeTarget false activeStored_on rfl rfl
  rw [exec_storeComplete activeStored_on rfl] at ht
  obtain rfl := Host.Outcome.next.inj ht
  have hgen : (storeAnswer activeTarget.req 2 { activeStored with store := finishStore activeTarget false activeStored.store }).unitGen =
      activeStored.unitGen := rfl
  rw [if_neg Bool.false_ne_true, activeStored_resp, hgen] at hresp
  revert hresp
  decide +kernel
end

section
/-! Proofs: the doorbell poll and what the host does before it (R277, R278, R280, R282; O52). -/

namespace Sys2Proof.Machine

variable {s t : State} {A : List Part}

/-! ## Registers of the rings -/

/-- The ring registers that a poll reads or sets are the same. -/
structure RegsAlike (r q : Rings) : Prop where
  committed : q.committed = r.committed
  sqHead : q.sqHead = r.sqHead
  cqHead : q.cqHead = r.cqHead
  eqHead : q.eqHead = r.eqHead
  heartbeat : q.heartbeat = r.heartbeat
  pollUs : q.pollUs = r.pollUs
  sqDone : q.sqDone = r.sqDone
  lastTail : q.lastTail = r.lastTail
  dma : q.dma = r.dma
  events : q.events = r.events

theorem changesOnly.regsAlike (h : changesOnly A s t) (hA : Part.ringRegs ∉ A) : RegsAlike s.rings t.rings := by
  have e := h .ringRegs hA
  simp only [Part.same] at e
  have field := fun {α : Type} (f : Rings → α) => congrArg f e
  exact ⟨field Rings.committed, field Rings.sqHead, field Rings.cqHead, field Rings.eqHead, field Rings.heartbeat, field Rings.pollUs,
    field Rings.sqDone, field Rings.lastTail, field Rings.dma, field Rings.events⟩

/-! ## The host's side of the link -/

theorem repeat_satInc (n d : Nat) (h : d ≤ 65535) : Nat.repeat (satInc 16) n d = min (d + n) 65535 := by
  induction n with
  | zero => exact (Nat.min_eq_left h).symm
  | succ n ih =>
    show satInc 16 (Nat.repeat (satInc 16) n d) = _
    rw [ih]
    unfold satInc
    omega

/-- The messages that the host's unmasking sends. -/
theorem mem_setControl (c : LinkControl) (r : Rings) {v : Nat} (hv : v < 32) :
    v ∈ (setControl c r).msix ↔ v ∈ r.msix ∨ (r.vecPend.getLsbD v = true ∧ c.masked.getLsbD v = false) := by
  unfold setControl
  simp [hv]

theorem exec_poll_shut {h : HostSide} {read : PollRead} (hs : barOpen s = false ∨ s.rings.committed.enable = false) :
    exec (.doorbellPoll h read) s = .next (hostActs h s) := by
  show execDoorbellPoll h read s = _
  unfold execDoorbellPoll
  rw [if_neg]
  rcases hs with hs | hs <;> simp [hs]

/-- With nothing written the host's acts show in the ring registers alone. -/
theorem hostActs_control (c : LinkControl) (n : Nat) (s : State) :
    hostActs { wrote := [], control := some c, failed := n } s =
      { s with rings := setControl c { s.rings with dma := Nat.repeat (satInc 16) n s.rings.dma } } := rfl

theorem poll_shut_control (c : LinkControl) (n : Nat) (read : PollRead) (hs : barOpen s = false ∨ s.rings.committed.enable = false)
    (hd : s.rings.dma ≤ 65535) :
    ∃ t : State, exec (.doorbellPoll { wrote := [], control := some c, failed := n } read) s = .next t ∧
      changesOnly [.ringRegs, .ringOut] s t ∧ t.rings.dma = min (s.rings.dma + n) 65535 ∧
      t.rings.link = { s.rings.link with atomics := c.atomics, masked := c.masked } ∧
      t.rings.vecPend = s.rings.vecPend &&& c.masked ∧
      ∀ v, v < 32 → (v ∈ t.rings.msix ↔
        v ∈ s.rings.msix ∨ (s.rings.vecPend.getLsbD v = true ∧ c.masked.getLsbD v = false)) := by
  refine ⟨_, (exec_poll_shut hs).trans (congrArg _ (hostActs_control c n s)), withRings_changes _ s, ?_, rfl, rfl,
    fun v hv => mem_setControl c _ hv⟩
  exact repeat_satInc n _ hd

/-! ## The poll itself -/

section
variable (hopen : barOpen s = true) (hen : s.rings.committed.enable = true)
include hopen hen

theorem exec_poll (read : PollRead) : exec (.doorbellPoll .quiet read) s = .next (pollBy read (forgetMessages s)) := by
  show execDoorbellPoll .quiet read s = _
  unfold execDoorbellPoll
  rw [if_pos (by rw [hopen, hen]; rfl), hostActs_quiet]

end

/-- The ring registers after the host's line has been read. -/
def linedRings (tail : BitVec 32) (s : State) : Rings :=
  { countPoll (tail != s.rings.lastTail) { s.rings with msix := [] } with
    lastTail := tail
    cqHead := ramWord s (s.rings.committed.db.toNat + 4)
    eqHead := ramWord s (s.rings.committed.db.toNat + 8) }

/-- The host's line read and the part's line written. -/
def lined (tail : BitVec 32) (s : State) : State := syncDoorbell { s with rings := linedRings tail s }

theorem linedRings_same (tail : BitVec 32) (s : State) : (linedRings tail s).committed = s.rings.committed ∧
    (linedRings tail s).due = s.rings.due ∧ (linedRings tail s).seq = s.rings.seq ∧ (linedRings tail s).cqTail = s.rings.cqTail :=
  ⟨rfl, rfl, rfl, rfl⟩

theorem lined_rings (tail : BitVec 32) (s : State) : (lined tail s).rings = linedRings tail s := syncDoorbell_rings _

theorem lined_changes (tail : BitVec 32) (s : State) : changesOnly recordParts s (lined tail s) :=
  ((withRings_changes _ s).mono (by decide)).trans ((syncDoorbell_changes _).mono (by decide))

theorem lined_hostBut (tail : BitVec 32) (s : State) : hostBut [(s.rings.committed.db.toNat + 64, 24)] s (lined tail s) :=
  hostBut.trans (hostBut_of_eq rfl) (syncDoorbell_hostBut { s with rings := linedRings tail s })

theorem pollRead_eq (bad : Bool) {tail : BitVec 32} (h : tail = ramWord s s.rings.committed.db.toNat) :
    pollRead bad (forgetMessages s) =
      if 2 ^ s.rings.committed.szSq.toNat < (tail - s.rings.sqHead).toNat then ringOverrun tail (lined tail s)
      else fetchUpTo bad tail (flushDue (lined tail s)) := by
  subst h
  unfold pollRead
  exact if_congr decide_eq_true_iff rfl rfl

/-! ### A poll that fetches -/

theorem fetchUpTo_changes (tail : BitVec 32) (s : State) : changesOnly [.ringRegs, .host] s (fetchUpTo false tail s) := by
  unfold fetchUpTo
  extract_lets r
  split
  · exact .refl _ s
  · rw [if_neg Bool.false_ne_true]
    have h : changesOnly [.ringRegs, .host] s { s with rings := { r with sqHead := tail } } := by
      intro p hp
      cases p
      case ringRegs => exact absurd (by decide) hp
      all_goals rfl
    exact h.next (syncDoorbell_changes _) (by decide)

theorem fetchUpTo_rings (tail : BitVec 32) (s : State) :
    (fetchUpTo false tail s).rings = { s.rings with sqHead := if cqFull s then s.rings.sqHead else tail } := by
  unfold fetchUpTo
  extract_lets r
  by_cases hf : cqFull s = true
  · simp only [hf, Bool.true_or, if_true]
    rfl
  · by_cases ht : tail = r.sqHead
    · have hf' : cqFull s = false := by simpa using hf
      have hsame : { s.rings with sqHead := tail } = s.rings := by rw [ht]
      simp only [hf', ht, beq_self_eq_true, Bool.or_true, if_true, Bool.false_eq_true, if_false]
      rw [← ht, hsame]
    · simp only [hf, beq_eq_false_iff_ne.mpr ht, Bool.or_self, Bool.false_eq_true, if_false]
      exact syncDoorbell_rings _

theorem fetchUpTo_hostBut (tail : BitVec 32) (s : State) : hostBut [(s.rings.committed.db.toNat + 64, 24)] s (fetchUpTo false tail s) := by
  unfold fetchUpTo
  extract_lets r
  split
  · exact hostBut_refl _ s
  · rw [if_neg Bool.false_ne_true]
    exact hostBut.trans (hostBut_of_eq rfl) (syncDoorbell_hostBut { s with rings := { r with sqHead := tail } })

theorem cqFull_eq (s : State) : cqFull s = decide (2 ^ s.rings.committed.szCq.toNat ≤ (s.rings.cqTail - s.rings.cqHead).toNat) := rfl

theorem flushDue_rings_of_none (h : s.rings.due = []) : ∃ b, (flushDue s).rings = { s.rings with stall := b, due := [] } := by
  unfold flushDue
  rw [h]
  exact ⟨_, rfl⟩

/-- The state after a poll that fetches. -/
def polled (tail : BitVec 32) (s : State) : State := fetchUpTo false tail (flushDue (lined tail s))

theorem polled_spec (tail : BitVec 32) (s : State) : changesOnly recordParts s (polled tail s) ∧
    (polled tail s).rings.sqHead = (if 2 ^ s.rings.committed.szCq.toNat ≤ ((polled tail s).rings.cqTail - (polled tail s).rings.cqHead).toNat
      then s.rings.sqHead else tail) ∧
    (polled tail s).rings.cqHead = ramWord s (s.rings.committed.db.toNat + 4) ∧
    (polled tail s).rings.eqHead = ramWord s (s.rings.committed.db.toNat + 8) ∧
    (polled tail s).rings.heartbeat = s.rings.heartbeat + 1 ∧
    (polled tail s).rings.pollUs = nextPoll s.rings (tail != s.rings.lastTail) ∧
    (polled tail s).rings.committed = s.rings.committed ∧ (polled tail s).rings.sqDone = s.rings.sqDone := by
  have hfl := flushDue_changes (lined tail s)
  have hr := hfl.regsAlike (by decide)
  rw [lined_rings] at hr
  have hcommitted : (flushDue (lined tail s)).rings.committed = s.rings.committed := hr.committed
  unfold polled
  rw [fetchUpTo_rings]
  refine ⟨((lined_changes tail s).next hfl (by decide)).next (fetchUpTo_changes _ _) (by decide), ?_, hr.cqHead, hr.eqHead, hr.heartbeat,
    hr.pollUs, hcommitted, hr.sqDone⟩
  dsimp only
  rw [cqFull_eq, hcommitted, hr.sqHead]
  exact if_congr decide_eq_true_iff rfl rfl

theorem polled_of_none (tail : BitVec 32) (h : s.rings.due = []) : (polled tail s).rings.cqTail = s.rings.cqTail ∧
    (polled tail s).rings.msix = [] ∧ (polled tail s).rings.vecPend = s.rings.vecPend ∧
    hostBut [(s.rings.committed.db.toNat + 64, 24)] s (polled tail s) := by
  have hdue : (lined tail s).rings.due = [] := by
    rw [lined_rings]
    exact h
  obtain ⟨b, hb⟩ := flushDue_rings_of_none hdue
  have hhost := (flushDue_of_none hdue).2
  rw [lined_rings] at hb
  have hfetch := fetchUpTo_hostBut tail (flushDue (lined tail s))
  rw [hb] at hfetch
  unfold polled
  rw [fetchUpTo_rings, hb]
  exact ⟨rfl, rfl, rfl, ((lined_hostBut tail s).trans (hostBut_of_eq hhost)).trans hfetch⟩

theorem nextPoll_eq (r : Rings) (tail : BitVec 32) : nextPoll r (tail != r.lastTail) =
    (if tail ≠ r.lastTail ∨ r.wrote = true then r.committed.minUs.toNat
      else max r.committed.minUs.toNat (min (2 * r.pollUs) r.committed.maxUs.toNat)) := by
  unfold nextPoll
  exact if_congr (by simp) rfl rfl

/-! ### Overruns and reads that fail -/

theorem ringOverrun_spec (tail : BitVec 32) (s : State) : changesOnly (recordParts ++ ([.alerts] : List Part)) s (ringOverrun tail s) ∧
    (ringOverrun tail s).rings.sqHead = s.rings.sqHead ∧
    (ringOverrun tail s).rings.committed = { s.rings.committed with enable := false } ∧
    (ringOverrun tail s).rings.events = s.rings.events ||| 2 ∧ (ringOverrun tail s).rings.seq = nextSeq s.rings.seq := by
  unfold ringOverrun
  extract_lets _ s1
  have hp := post_changes 0x0DA3 (leBytes 4 tail.toNat) { s with rings := { s.rings with events := s.rings.events ||| 2 } }
  have hr : RegsAlike _ s1.rings := hp.regsAlike (by decide)
  have hseq : s1.rings.seq = nextSeq s.rings.seq := post_seq _ _ _
  refine ⟨(((withRings_changes _ s).mono (by decide)).trans (hp.mono (by decide))).trans ((withRings_changes _ s1).mono (by decide)),
    hr.sqHead, ?_, hr.events, hseq⟩
  show { s1.rings.committed with enable := false } = _
  rw [hr.committed]

theorem dmaFailed_spec (a : Nat) (s : State) : changesOnly (recordParts ++ ([.alerts] : List Part)) s (dmaFailed a s) ∧
    (dmaFailed a s).rings.sqHead = s.rings.sqHead ∧ (dmaFailed a s).rings.lastTail = s.rings.lastTail ∧
    (dmaFailed a s).rings.dma = min (s.rings.dma + 1) 65535 ∧ (dmaFailed a s).rings.events = s.rings.events ||| 4 ∧
    (dmaFailed a s).rings.seq = nextSeq s.rings.seq ∧ (dmaFailed a s).rings.committed = s.rings.committed := by
  unfold dmaFailed
  extract_lets r
  have hw : changesOnly [.ringRegs, .ringOut] s { s with rings := { r with dma := satInc 16 r.dma, events := r.events ||| 4 } } :=
    withRings_changes _ s
  have hsync := syncDoorbell_rings { s with rings := { r with dma := satInc 16 r.dma, events := r.events ||| 4 } }
  have hc := syncDoorbell_changes { s with rings := { r with dma := satInc 16 r.dma, events := r.events ||| 4 } }
  generalize syncDoorbell { s with rings := { r with dma := satInc 16 r.dma, events := r.events ||| 4 } } = s1 at hsync hc
  have hp := post_changes 0x0DA4 (leBytes 8 a) s1
  have hr := hp.regsAlike (by decide)
  rw [hsync] at hr
  refine ⟨((hw.mono (by decide)).trans (hc.mono (by decide))).trans (hp.mono (by decide)), hr.sqHead, hr.lastTail, hr.dma, hr.events, ?_,
    hr.committed⟩
  rw [post_seq, hsync]

theorem fetchUpTo_bad {tail : BitVec 32} (hf : cqFull s = false) (ht : tail ≠ s.rings.sqHead) :
    fetchUpTo true tail s = dmaFailed (ringAt s.rings.committed.sq s.rings.sqHead s.rings.committed.szSq 64) s := by
  unfold fetchUpTo
  simp only [hf, beq_eq_false_iff_ne.mpr ht, Bool.or_self, Bool.false_eq_true, if_false, if_true]

/-- A poll whose read of the submission ring fails. -/
theorem pollRing_spec {tail : BitVec 32} (ht : tail ≠ s.rings.sqHead) (hdue : s.rings.due = [])
    (hroom : (s.rings.cqTail - ramWord s (s.rings.committed.db.toNat + 4)).toNat < 2 ^ s.rings.committed.szCq.toNat) (t : State)
    (h : t = fetchUpTo true tail (flushDue (lined tail s))) : changesOnly (recordParts ++ ([.alerts] : List Part)) s t ∧
      t.rings.sqHead = s.rings.sqHead ∧ t.rings.lastTail = tail ∧ t.rings.dma = min (s.rings.dma + 1) 65535 ∧
      t.rings.events = s.rings.events ||| 4 ∧ t.rings.seq = nextSeq s.rings.seq ∧ t.rings.committed = s.rings.committed := by
  have hdue' : (lined tail s).rings.due = [] := by
    rw [lined_rings]
    exact hdue
  obtain ⟨b, hb⟩ := flushDue_rings_of_none hdue'
  have hfl := flushDue_changes (lined tail s)
  rw [lined_rings] at hb
  generalize flushDue (lined tail s) = s1 at hb hfl h
  have hfull : cqFull s1 = false := by
    rw [cqFull_eq, hb]
    exact decide_eq_false (Nat.not_le.mpr hroom)
  have hne : tail ≠ s1.rings.sqHead := by
    rw [hb]
    exact ht
  rw [fetchUpTo_bad hfull hne] at h
  obtain ⟨hc, h1, h2, h3, h4, h5, h6⟩ := dmaFailed_spec (ringAt s1.rings.committed.sq s1.rings.sqHead s1.rings.committed.szSq 64) s1
  rw [← h] at hc h1 h2 h3 h4 h5 h6
  rw [hb] at h1 h2 h3 h4 h5 h6
  exact ⟨(((lined_changes tail s).mono (by decide)).trans (hfl.mono (by decide))).trans hc, h1, h2, h3, h4, h5, h6⟩

theorem forgetMessages_changes (s : State) : changesOnly [.ringRegs, .ringOut] s (forgetMessages s) := withRings_changes _ s

theorem pollFailed_spec (t : State) (h : t = pollFailed (forgetMessages s)) : changesOnly (recordParts ++ ([.alerts] : List Part)) s t ∧
    t.rings.sqHead = s.rings.sqHead ∧ t.rings.dma = min (s.rings.dma + 1) 65535 ∧ t.rings.events = s.rings.events ||| 4 ∧
    t.rings.seq = nextSeq s.rings.seq ∧ t.rings.committed = s.rings.committed := by
  obtain ⟨hc, h1, -, h3, h4, h5, h6⟩ := dmaFailed_spec s.rings.committed.db.toNat
    { forgetMessages s with rings := countPoll false (forgetMessages s).rings }
  subst h
  exact ⟨(((forgetMessages_changes s).mono (by decide)).trans ((withRings_changes _ _).mono (by decide))).trans hc, h1, h3, h4, h5, h6⟩

end Sys2Proof.Machine

open Sys2Proof Sys2Proof.Machine

/-- Settles O52: a poll reads the host's line (`pollRead_eq`) and fetches (`polled_spec`), is overrun (`ringOverrun_spec`) or fails
(`dmaFailed_spec`). -/
theorem theDoorbellIsPolled : Obligations.TheDoorbellIsPolled := by
  refine ⟨fun s c n read hs hd => poll_shut_control c n read hs hd, fun s read hs => exec_poll_shut hs, fun s db tail hopen hen hdb htail => ?_⟩
  subst hdb
  have hexec := exec_poll hopen hen
  refine ⟨fun hle => ?_, fun hlt => ?_, ⟨_, hexec .badBlock, pollFailed_spec _ rfl⟩, fun hle hne hdue hroom => ?_⟩
  · obtain ⟨hc, hhead, hcq, heq, hbeat, hus, hcom, hdone⟩ := polled_spec tail s
    have hpoll : pollBy .whole (forgetMessages s) = polled tail s := (pollRead_eq false htail).trans (if_neg (Nat.not_lt.mpr hle))
    refine ⟨_, (hexec .whole).trans (congrArg _ hpoll), hc, hhead, hcq, heq, hbeat, hus.trans (nextPoll_eq _ _), hcom, hdone,
      polled_of_none tail⟩
  · obtain ⟨hc, hhead, hcom, hev, hseq⟩ := ringOverrun_spec tail (lined tail s)
    have hpoll : pollBy .whole (forgetMessages s) = ringOverrun tail (lined tail s) := (pollRead_eq false htail).trans (if_pos hlt)
    rw [lined_rings] at hhead hcom hev hseq
    exact ⟨_, (hexec .whole).trans (congrArg _ hpoll), ((lined_changes tail s).mono (by decide)).trans hc, hhead, hcom, hev, hseq⟩
  · have hpoll : pollBy .badRing (forgetMessages s) = fetchUpTo true tail (flushDue (lined tail s)) :=
      (pollRead_eq true htail).trans (if_neg (Nat.not_lt.mpr hle))
    exact ⟨_, (hexec .badRing).trans (congrArg _ hpoll), pollRing_spec hne hdue hroom _ rfl⟩
end

section
/-! Proofs: power samples, control periods and Vent decisions (R227, R232, R234, R239 to R243, R148; O54). -/

namespace Sys2Proof.Machine

variable {s t : State}

/-! ## Samples -/

theorem total_eq_sum (l : List Nat) : total l = l.sum := by
  rw [List.sum_eq_foldl]
  rfl

/-- What regulators draw that are not on counts as nothing. -/
theorem productSum_gated {α : Type} (on : α → Bool) (f : α → Nat × Nat) (l : List α) :
    productSum (l.map (fun r => if on r then f r else (0, 0))) = total ((l.filter on).map (fun r => (f r).1 * (f r).2)) := by
  rw [productSum, total_eq_sum, total_eq_sum]
  induction l with
  | nil => rfl
  | cons r l ih =>
    by_cases h : on r = true
    · simp only [List.map_cons, List.sum_cons, List.filter_cons_of_pos h, if_pos h, ih]
    · simp only [List.map_cons, List.sum_cons, List.filter_cons_of_neg h, if_neg h, ih, Nat.zero_mul, Nat.zero_add]

theorem productSum_inputs (s : State) (x : Sensors) : productSum (regulatorInputs s x) = inputSum s x :=
  productSum_gated (fun r : (Nat × Nat) × Nat => regulatorOn s r.2) (fun r => r.1) x.regs.zipIdx

theorem regulatorInputs_get (s : State) {x : Sensors} {k : Nat} {r : Nat × Nat} (h : x.regs[k]? = some r) :
    (regulatorInputs s x)[k]? = some (if regulatorOn s k then r else (0, 0)) := by
  simp [regulatorInputs, h]

/-- The highest of a list and a first value is at or above all of them, and is one of them. -/
theorem foldl_max_spec (l : List Int) (a : Int) : a ≤ l.foldl max a ∧ (∀ c ∈ l, c ≤ l.foldl max a) ∧ l.foldl max a ∈ a :: l := by
  induction l generalizing a with
  | nil => exact ⟨le_refl a, fun c hc => (nomatch hc), List.mem_singleton_self a⟩
  | cons x l ih =>
    obtain ⟨h1, h2, h3⟩ := ih (max a x)
    refine ⟨(le_max_left a x).trans h1, fun c hc => ?_, ?_⟩
    · rcases List.mem_cons.mp hc with rfl | hc
      · exact (le_max_right a c).trans h1
      · exact h2 c hc
    · rcases List.mem_cons.mp h3 with h | h
      · rw [List.foldl_cons, h]
        rcases max_choice a x with hm | hm <;> simp [hm]
      · exact List.mem_cons_of_mem _ (List.mem_cons_of_mem _ h)

theorem le_hottest {l : List Int} {c : Int} (h : c ∈ l) : c ≤ hottest l := (foldl_max_spec l (l.headD 0)).2.1 c h

theorem hottest_mem {l : List Int} (h : l ≠ []) : hottest l ∈ l := by
  obtain ⟨x, l, rfl⟩ := List.exists_cons_of_ne_nil h
  have hm := (foldl_max_spec (x :: l) x).2.2
  rcases List.mem_cons.mp hm with hm | hm
  · show hottest (x :: l) ∈ _
    rw [hottest, List.headD_cons, hm]
    exact List.mem_cons_self ..
  · exact hm

/-- The tray with a sample's readings. -/
def readTray (x : Sensors) (s : State) : Tray :=
  { s.tray with vin48 := ((x.regs[23]?).map (fun r => 10 * r.1)).getD s.tray.vin48, tMax := maxJunction s x, groupT := x.groups,
                hubT := x.hubs, lineT := lineJunctions s x }

theorem readStack_changes (c : Int) (k : Nat) (s : State) : changesOnly [.mems] s (readStack c k s) := by
  unfold readStack
  exact .ite (updMem_changes k _ s) (.refl _ s)

theorem memOf_readStack (c : Int) (j k : Nat) (s : State) :
    (memOf (readStack c j s) k).blocks = (memOf s k).blocks ∧ (memOf (readStack c j s) k).st = (memOf s k).st := by
  unfold readStack
  split
  · by_cases h : k = j
    · subst h
      rw [memOf_updMem_self]
      cases hst : (memOf s k).st
      case lost => exact ⟨rfl, hst⟩
      all_goals exact ⟨rfl, rfl⟩
    · rw [memOf_updMem_other h]
      exact ⟨rfl, rfl⟩
  · exact ⟨rfl, rfl⟩

theorem readSensors_spec (x : Sensors) (s : State) : changesOnly [.tray, .mems] s (readSensors x s) ∧
    (readSensors x s).tray = readTray x s ∧
    ∀ k, (memOf (readSensors x s) k).blocks = (memOf s k).blocks ∧ (memOf (readSensors x s) k).st = (memOf s k).st := by
  have e : readSensors x s = x.stackT.zipIdx.foldl (fun a y => readStack y.1 y.2 a) { s with tray := readTray x s } := rfl
  have hf : changesOnly [.mems] { s with tray := readTray x s } (readSensors x s) := by
    rw [e]
    exact .foldl (fun a (y : Int × Nat) => readStack_changes y.1 y.2 a) _ _
  refine ⟨((withTray_changes s _).mono (by decide)).trans (hf.mono (by decide)), hf .tray (by decide), fun k => ?_⟩
  rw [e]
  exact foldl_keeps (P := fun a => (memOf a k).blocks = (memOf s k).blocks ∧ (memOf a k).st = (memOf s k).st)
    (fun a (y : Int × Nat) ha => ⟨(memOf_readStack y.1 y.2 k a).1.trans ha.1, (memOf_readStack y.1 y.2 k a).2.trans ha.2⟩) _ ⟨rfl, rfl⟩

/-- The power controller's registers after a sample. -/
def sampledPower (x : Sensors) (s : State) : Power :=
  if isReady s && !s.stop.stopped then
    adjustBallast (addSample (regulatorInputs s x) (running s) (readSensors x s).power)
  else addSample (regulatorInputs s x) (running s) (readSensors x s).power

/-- A sample taken. -/
def sampled (x : Sensors) (s : State) : State :=
  { readSensors x s with
    sec := { (readSensors x s).sec with uptime := (readSensors x s).sec.uptime + 1 }
    power := sampledPower x s }

theorem exec_powerSample (h : svcOn s = true) (x : Sensors) : exec (.powerSample x) s = .next (sampled x s) := by
  show execPowerSample x s = _
  unfold execPowerSample
  rw [if_pos h]
  rfl

theorem sampledPower_eq (x : Sensors) (s : State) : ∃ k b, sampledPower x s =
    { addSample (regulatorInputs s x) (running s) s.power with ballastTiles := k, ballastUnmet := b } := by
  have hp : (readSensors x s).power = s.power := (readSensors_spec x s).1 .power (by decide)
  unfold sampledPower
  rw [hp]
  split
  · exact ⟨_, _, rfl⟩
  · exact ⟨(addSample (regulatorInputs s x) (running s) s.power).ballastTiles,
      (addSample (regulatorInputs s x) (running s) s.power).ballastUnmet, rfl⟩

theorem sampled_changes (x : Sensors) (s : State) : changesOnly [.tray, .mems, .secRegs, .power] s (sampled x s) := by
  refine ((readSensors_spec x s).1.mono (by decide)).trans fun p hp => ?_
  cases p
  case secRegs => exact absurd (by decide) hp
  case power => exact absurd (by decide) hp
  all_goals rfl

theorem powerSample_spec (h : svcOn s = true) (x : Sensors) :
    ∃ t : State, exec (.powerSample x) s = .next t ∧ changesOnly [.tray, .mems, .secRegs, .power] s t ∧
      t.sec.uptime = s.sec.uptime + 1 ∧ t.tray.groupT = x.groups ∧ t.tray.hubT = x.hubs ∧
      t.tray.lineT = x.lines.take s.ident.lineDies ∧
      (∀ c ∈ x.groups ++ x.hubs ++ x.lines.take s.ident.lineDies, c ≤ t.tray.tMax) ∧
      (x.groups ≠ [] → t.tray.tMax ∈ x.groups ++ x.hubs ++ x.lines.take s.ident.lineDies) ∧
      t.power.energy = s.power.energy + inputSum s x ∧ t.power.now = inputSum s x / 10 ∧
      (∀ k r, x.regs[k]? = some r → t.power.regs[k]? = some (if regulatorOn s k then r else (0, 0))) ∧
      t.power.jobEnergy = s.power.jobEnergy + (if s.power.jobSampling then inputSum s x else 0) ∧
      t.power.jobSampling = running s ∧ t.power.committed = s.power.committed ∧ t.power.inForce = s.power.inForce ∧
      (∀ k, (memOf t k).blocks = (memOf s k).blocks ∧ (memOf t k).st = (memOf s k).st) := by
  obtain ⟨hc, htray, hmem⟩ := readSensors_spec x s
  obtain ⟨k, b, hp⟩ := sampledPower_eq x s
  have hsec : (readSensors x s).sec.uptime = s.sec.uptime := by
    have e := hc .secRegs (by decide)
    exact (congrArg Sec.uptime e : _)
  have htr : (sampled x s).tray = readTray x s := htray
  have hpw : (sampled x s).power = _ := hp
  refine ⟨_, exec_powerSample h x, sampled_changes x s, congrArg (· + 1) hsec, ?_⟩
  rw [htr, hpw]
  dsimp only [readTray, addSample]
  rw [productSum_inputs]
  refine ⟨rfl, rfl, rfl, fun c hcm => le_hottest hcm, fun hne => hottest_mem ?_, rfl, rfl, fun k r hr => regulatorInputs_get s hr, ?_, rfl, rfl,
    rfl, hmem⟩
  · intro he
    simp only [List.append_eq_nil_iff] at he
    exact hne he.1.1
  · split <;> rfl

/-! ## Control periods -/

theorem exec_controlPeriod_job {r : Reel} (hrun : running s = true) (hr : s.reel = some r) (pm : PowerModel) :
    exec (.controlPeriod pm) s = .next (controlPeriod r pm s) := by
  show execControlPeriod pm s = _
  unfold execControlPeriod
  simp only [hrun, hr]

theorem exec_controlPeriod_idle (hrun : running s = false) (hon : svcOn s = true) (pm : PowerModel) :
    exec (.controlPeriod pm) s = .next (beginPeriod pm s) := by
  show execControlPeriod pm s = _
  unfold execControlPeriod
  simp only [hrun, hon, if_true]

theorem chooseSpacing_le (s : State) : chooseSpacing s ≤ nMax (floorNow s) s.pacer.vent := by
  unfold chooseSpacing
  extract_lets n
  generalize hf : ((List.range (n + 1)).drop 8).find? _ = o
  cases o with
  | none => exact le_refl n
  | some k => exact Nat.le_of_lt_succ (List.mem_range.mp (List.mem_of_mem_drop (List.mem_of_find?_eq_some hf)))

theorem setSpacing_le (s : State) : (setSpacing s).power.spacing ≤ nMax (floorNow s) s.pacer.vent := chooseSpacing_le s

theorem floorNow_of {t : State} (hj : t.job = s.job) (hr : t.reel = s.reel) : floorNow t = floorNow s := by
  rw [floorNow, floorNow, running, running, hj, hr]

/-- A note of the cap's episode: at most an event, and two fields of the power registers. -/
theorem noteCap_spec (b : Bool) (s : State) : changesOnly (.power :: posts) s (noteCap b s) ∧
    (∃ e, (noteCap b s).power = { s.power with capUnmet := b, events := e }) ∧
    (b = false → noteCap b s = { s with power := { s.power with capUnmet := false } }) := by
  unfold noteCap
  extract_lets _ s1
  have h1 : changesOnly [.power] s s1 := withPower_changes s _
  split
  · next h =>
    have hp := post_changes 0x0BA1 (leBytes 4 s.power.allow ++ leBytes 4 s.power.mean)
      { s1 with power := { s1.power with events := s1.power.events ||| 2 } }
    refine ⟨((h1.mono (by decide)).trans ((withPower_changes s1 _).mono (by decide))).trans (hp.mono (by decide)), ⟨_, hp .power (by decide)⟩,
      fun hb => ?_⟩
    rw [hb] at h
    exact nomatch h
  · exact ⟨h1.mono (by decide), ⟨s.power.events, rfl⟩, fun hb => by subst hb; rfl⟩

theorem noteHeat_spec (s : State) : changesOnly (.power :: posts) s (noteHeat s) ∧
    (∃ b, (noteHeat s).power = { s.power with thermEpisode := b }) ∧
    (s.tray.tMax < 93 → noteHeat s = { s with power := { s.power with thermEpisode := false } }) := by
  unfold noteHeat
  extract_lets hot _ s1
  have h1 : changesOnly [.power] s s1 := withPower_changes s _
  split
  · next h =>
    have hp := post_changes 0x0BA3 (leInt 1 s.tray.tMax) s1
    refine ⟨(h1.mono (by decide)).trans (hp.mono (by decide)), ⟨hot, hp .power (by decide)⟩, fun hcold => ?_⟩
    have hhot : hot = false := decide_eq_false (not_le.mpr hcold)
    rw [hhot] at h
    exact nomatch h
  · refine ⟨h1.mono (by decide), ⟨hot, rfl⟩, fun hcold => ?_⟩
    have hhot : hot = false := decide_eq_false (not_le.mpr hcold)
    show { s with power := { s.power with thermEpisode := hot } } = _
    rw [hhot]

/-- The period of a job, its notes made and its terms yet to be set. -/
def periodNoted (pm : PowerModel) (s : State) : State :=
  noteHeat (noteCap (!capFits pm (max (lineMw s.power) s.power.linkRes) (beginPeriod pm s).power.allow (floorNow s)) (beginPeriod pm s))

theorem beginPeriod_changes (pm : PowerModel) (s : State) : changesOnly [.power] s (beginPeriod pm s) := withPower_changes s _

theorem periodNoted_spec (pm : PowerModel) (s : State) : changesOnly (.power :: posts) s (periodNoted pm s) ∧
    (∃ e b, (periodNoted pm s).power = { (beginPeriod pm s).power with
      capUnmet := !capFits pm (max (lineMw s.power) s.power.linkRes) (beginPeriod pm s).power.allow (floorNow s)
      events := e
      thermEpisode := b }) ∧
    (capFits pm (max (lineMw s.power) s.power.linkRes) (beginPeriod pm s).power.allow (floorNow s) = true → s.tray.tMax < 93 →
      changesOnly [.power] s (periodNoted pm s)) := by
  unfold periodNoted
  obtain ⟨hc, ⟨e, he⟩, hq⟩ := noteCap_spec
    (!capFits pm (max (lineMw s.power) s.power.linkRes) (beginPeriod pm s).power.allow (floorNow s)) (beginPeriod pm s)
  obtain ⟨hh, ⟨b, hb⟩, hcold⟩ := noteHeat_spec
    (noteCap (!capFits pm (max (lineMw s.power) s.power.linkRes) (beginPeriod pm s).power.allow (floorNow s)) (beginPeriod pm s))
  refine ⟨(((beginPeriod_changes pm s).mono (by decide)).trans hc).trans hh, ⟨e, b, by rw [hb, he]⟩, fun hfit ht => ?_⟩
  have hq' := hq (by rw [hfit]; rfl)
  have ht' : (noteCap (!capFits pm (max (lineMw s.power) s.power.linkRes) (beginPeriod pm s).power.allow (floorNow s))
      (beginPeriod pm s)).tray.tMax < 93 := by
    rw [show (noteCap _ (beginPeriod pm s)).tray = (beginPeriod pm s).tray from hc .tray (by decide)]
    exact ht
  rw [hcold ht', hq']
  exact ((beginPeriod_changes pm s).trans (withPower_changes _ _)).trans (withPower_changes _ _)

/-- The terms of a period of a job, on registers that its notes have been made in. -/
def termed (r : Reel) (pm : PowerModel) (s : State) (w : Power) : Power :=
  setTerms (prefLevel (beginPeriod pm s) r)
    (capLevel pm s.power.committed.order (max (lineMw s.power) s.power.linkRes) (beginPeriod pm s).power.allow (floorNow s))
    (thermLevel s.tray.tMax s.pacer.vent s.power.vTherm) r.debug (upMaxOf s.power.committed.ramp.toNat pm.dynMw) w

theorem controlPeriod_eq {r : Reel} (hr : s.reel = some r) (pm : PowerModel) :
    controlPeriod r pm s = setSpacing { periodNoted pm s with power := termed r pm s (periodNoted pm s).power } := by
  have hline : lineShare (beginPeriod pm s) = max (lineMw s.power) s.power.linkRes := by
    have hlink : linkReserve (beginPeriod pm s) = s.power.linkRes := by
      unfold linkReserve
      rw [if_pos (show (beginPeriod pm s).reel.isSome = true by rw [show (beginPeriod pm s).reel = s.reel from rfl, hr]; rfl)]
      rfl
    rw [lineShare, hlink]
    rfl
  have hfloor : floorNow (beginPeriod pm s) = floorNow s := rfl
  unfold controlPeriod
  dsimp only
  rw [hline, hfloor]
  rfl

theorem prefLevel_of {t : State} (hj : t.job = s.job) (hp : t.power.inForce = s.power.inForce) (r : Reel) : prefLevel t r = prefLevel s r := by
  rw [prefLevel, prefLevel, hj, hp]

theorem thermLevel_eq (x : Int) (level old : Nat) : thermLevel x level old =
    (if 93 ≤ x then min 48 (level + 2 * (x - 92).toNat) else if x ≤ 90 then old - 1 else old) := rfl

theorem setTerms_req (pref cap therm up : Nat) (b : Bool) (w : Power) :
    (setTerms pref cap therm b up w).req = max (max pref (max cap therm)) (if b then 32 else 0) := by
  cases b
  · exact (Nat.max_zero _).symm
  · rfl

theorem controlPeriod_spec {r : Reel} (hr : s.reel = some r) (pm : PowerModel) (t : State) (ht : t = controlPeriod r pm s) :
    changesOnly (.power :: posts) s t ∧
      t.power.inForce = s.power.committed ∧ t.power.model = pm ∧
      t.power.mean = windowMean s.power.committed.window.toNat s.power.samples ∧
      t.power.allow = min (1000 * powerLimit s) (2 * (1000 * s.power.committed.cap.toNat) - t.power.mean) ∧
      t.power.vTherm = (if 93 ≤ s.tray.tMax then min 48 (s.pacer.vent + 2 * (s.tray.tMax - 92).toNat)
        else if s.tray.tMax ≤ 90 then s.power.vTherm - 1 else s.power.vTherm) ∧
      t.power.req = max (max (prefLevel t r)
        (max (capLevel pm s.power.committed.order (max (lineMw s.power) s.power.linkRes) t.power.allow (floorNow s))
          t.power.vTherm))
        (if r.debug then 32 else 0) ∧
      t.power.aggLevel = max s.power.aggLevel t.power.req ∧ t.power.spacing ≤ nMax (floorNow s) s.pacer.vent ∧
      t.power.decision = s.power.decision ∧ t.power.epoch = s.power.epoch ∧
      (capFits pm (max (lineMw s.power) s.power.linkRes) t.power.allow (floorNow s) = true → s.tray.tMax < 93 →
        changesOnly [.power] s t ∧ t.power.capUnmet = false) := by
  obtain ⟨hc, ⟨e, b, hp⟩, hq⟩ := periodNoted_spec pm s
  rw [controlPeriod_eq hr] at ht
  have hset : changesOnly [.power] (periodNoted pm s) t := by
    rw [ht]
    exact (withPower_changes _ _).trans (withPower_changes _ _)
  have hpow : t.power = { termed r pm s (periodNoted pm s).power with spacing := t.power.spacing } := by
    rw [ht]
    rfl
  have hspace : t.power.spacing ≤ nMax (floorNow s) s.pacer.vent := by
    have hj : (periodNoted pm s).job = s.job := hc .job (by decide)
    have hre : (periodNoted pm s).reel = s.reel := hc .reel (by decide)
    have hpa : (periodNoted pm s).pacer = s.pacer := hc .pacer (by decide)
    rw [ht]
    exact (setSpacing_le _).trans (le_of_eq (congrArg₂ nMax (floorNow_of (s := s) hj hre) (congrArg Pacer.vent hpa)))
  have hjob : t.job = s.job := (hset .job (by decide)).trans (hc .job (by decide))
  have hforce : t.power.inForce = s.power.committed := by
    rw [hpow, hp]
    rfl
  have hpref : prefLevel t r = prefLevel (beginPeriod pm s) r := prefLevel_of (s := beginPeriod pm s) hjob hforce r
  refine ⟨hc.trans (hset.mono (by decide)), hforce, ?_, ?_, ?_, ?_, ?_, ?_, hspace, ?_, ?_, fun hfit hcold => ⟨?_, ?_⟩⟩
  · rw [hpow, hp]
    rfl
  · rw [hpow, hp]
    rfl
  · rw [hpow, hp]
    rfl
  · rw [hpow, hp, ← thermLevel_eq]
    rfl
  · rw [hpref, hpow, hp]
    exact setTerms_req (prefLevel (beginPeriod pm s) r)
      (capLevel pm s.power.committed.order (max (lineMw s.power) s.power.linkRes) (beginPeriod pm s).power.allow (floorNow s))
      (thermLevel s.tray.tMax s.pacer.vent s.power.vTherm) (upMaxOf s.power.committed.ramp.toNat pm.dynMw) r.debug
      { (beginPeriod pm s).power with
        capUnmet := !capFits pm (max (lineMw s.power) s.power.linkRes) (beginPeriod pm s).power.allow (floorNow s)
        events := e
        thermEpisode := b }
  · rw [hpow, hp]
    rfl
  · rw [hpow, hp]
    rfl
  · rw [hpow, hp]
    rfl
  · rw [hpow, hp] at hfit
    exact (hq hfit hcold).trans hset
  · rw [hpow, hp] at hfit ⊢
    show (!capFits pm _ _ _) = false
    rw [show capFits pm (max (lineMw s.power) s.power.linkRes) (beginPeriod pm s).power.allow (floorNow s) = true from hfit]
    rfl

/-! ## Decisions -/

theorem exec_ventDecision {r : Reel} (hp : s.pacer.running = true) (hrun : running s = true) (hr : s.reel = some r) :
    exec .ventDecision s = .next (if leaderOf r = s.bridle.committed.id.toNat then { s with power := holdDecision (leaderDecision s) s.power }
      else s) := by
  show execVentDecision s = _
  unfold execVentDecision
  simp only [hp, hrun, hr, Bool.and_self]
  rfl

theorem exec_ventApply {d : Decision} (hp : s.pacer.running = true) (hd : s.power.decision = some d) :
    exec .ventApply s = .next (if d.applyAt = s.bridle.count then applyLevel d.level s else s) := by
  show execVentApply s = _
  unfold execVentApply
  simp only [hp, hd]
  rfl

theorem withPacer_power_changes (w : Power) (x : Pacer) (s : State) : changesOnly [.power, .pacer] s { s with power := w, pacer := x } := by
  intro p hp
  cases p
  case power => exact absurd (by decide) hp
  case pacer => exact absurd (by decide) hp
  all_goals rfl

theorem recordVent_running (n l : Nat) (x : Pacer) : (recordVent n l x).running = x.running := by
  unfold recordVent
  split <;> rfl

theorem applyLevel_spec (level : Nat) (hp : s.pacer.running = true) : changesOnly [.power, .pacer] s (applyLevel level s) ∧
    (applyLevel level s).pacer.vent = level ∧ (applyLevel level s).power.decision = none ∧ (applyLevel level s).pacer.running = true ∧
    (level ≠ s.pacer.vent → (s.bridle.count, level) ∈ (applyLevel level s).pacer.hist) ∧
    (level = s.pacer.vent → (applyLevel level s).pacer = s.pacer) ∧ (applyLevel level s).power.spacing ≤ nMax (floorNow s) level := by
  unfold applyLevel
  extract_lets _ s1
  by_cases h : level = s.pacer.vent
  · rw [if_pos h]
    refine ⟨(((withPower_changes s _).mono (by decide)).trans ((withPower_changes s1 _).mono (by decide))), h.symm, rfl, hp,
      fun hne => absurd h hne, fun _ => rfl, ?_⟩
    rw [h]
    exact setSpacing_le s1
  · rw [if_neg h]
    have hv : (recordVent (cnt s) level (levelFrom (cnt s) level s1.pacer)).vent = level := recordVent_vent _ _ _
    refine ⟨withPacer_power_changes _ _ s, hv, rfl, (recordVent_running _ _ _).trans hp, fun _ => mem_hist_recordVent _ _ _,
      fun he => absurd he h, ?_⟩
    exact (setSpacing_le _).trans (le_of_eq (congrArg (nMax (floorNow s)) hv))

end Sys2Proof.Machine

open Sys2Proof Sys2Proof.Machine

/-- Settles O54: a sample (`powerSample_spec`), a period of a job (`controlPeriod_spec`), and the level at its count
(`applyLevel_spec`). -/
theorem powerIsSampledAndPaced : Obligations.PowerIsSampledAndPaced := by
  refine ⟨fun s x h => powerSample_spec h x, fun s r pm hrun hr => ⟨_, exec_controlPeriod_job hrun hr pm, controlPeriod_spec hr pm _ rfl⟩,
    fun s pm hrun hon => ⟨_, exec_controlPeriod_idle hrun hon pm, beginPeriod_changes pm s, rfl, rfl, rfl, rfl, rfl, rfl⟩,
    fun s r hp hrun hr => ⟨fun hne => (exec_ventDecision hp hrun hr).trans (congrArg Host.Outcome.next (if_neg hne)), fun he => ?_⟩,
    fun s d hp hd => ⟨fun hne => (exec_ventApply hp hd).trans (congrArg Host.Outcome.next (if_neg hne)), fun hat => ?_⟩⟩
  · exact ⟨_, (exec_ventDecision hp hrun hr).trans (congrArg Host.Outcome.next (if_pos he)), withPower_changes s _, rfl, rfl, rfl, rfl⟩
  · obtain ⟨hc, hv, hd', hrun, hin, hsame, hle⟩ := applyLevel_spec d.level hp
    exact ⟨_, (exec_ventApply hp hd).trans (congrArg Host.Outcome.next (if_pos hat)), hc, hv, hd', hrun, hin, hsame, hle⟩
end

section
/-! Proofs: class rails, Ballast and the runs that count (R238, R245 to R247, R207, R210; O55). -/

namespace Sys2Proof.Machine

variable {s t : State}

/-! ## Class rails -/

theorem exec_classRailMove {r : Reel} (hr : s.reel = some r) (cls : Nat) : exec (.classRailMove cls) s = .next (
    if (s.power.cls < cls ∧ mayRise s r cls) ∨ (cls < s.power.cls ∧ mayFall s r cls) then
      { s with power := { s.power with cls := cls } }
    else s) := by
  show execClassRailMove cls s = _
  unfold execClassRailMove
  rw [hr]

theorem mayRise_iff (s : State) (r : Reel) (cls : Nat) : mayRise s r cls = true ↔ cls ∈ classesAhead s r := List.contains_iff_mem

theorem classRailMove_moves {r : Reel} (hr : s.reel = some r) {cls : Nat}
    (h : s.power.cls < cls ∧ cls ∈ classesAhead s r ∨ (cls < s.power.cls ∧ mayFall s r cls = true)) :
    exec (.classRailMove cls) s = .next { s with power := { s.power with cls := cls } } := by
  rw [← mayRise_iff] at h
  exact (exec_classRailMove hr cls).trans (congrArg Host.Outcome.next (if_pos h))

theorem classRailMove_stays {r : Reel} (hr : s.reel = some r) {cls : Nat}
    (h : ¬ (s.power.cls < cls ∧ cls ∈ classesAhead s r ∨ (cls < s.power.cls ∧ mayFall s r cls = true))) :
    exec (.classRailMove cls) s = .next s := by
  rw [← mayRise_iff] at h
  exact (exec_classRailMove hr cls).trans (congrArg Host.Outcome.next (if_neg h))

theorem classesFrom_succ {r : Reel} {n step slots : Nat} {v : Nat × Nat} (h : stepPlan r step = some v) :
    classesFrom r (n + 1) step slots = phaseClass r v.2 ::
      (if commitSlot r v.2 v.1 + 1 ≤ slots then classesFrom r n (step + 1) (slots - (commitSlot r v.2 v.1 + 1)) else []) := by
  rw [classesFrom, h]

theorem classesAhead_running (hrun : running s = true) (r : Reel) :
    classesAhead s r = classesFrom r 1026 s.job.step (s.job.slot + 1024) := if_pos hrun

theorem class_mem_classesFrom {r : Reel} {step slots : Nat} {v : Nat × Nat} (n : Nat) (h : stepPlan r step = some v) :
    phaseClass r v.2 ∈ classesFrom r (n + 1) step slots := by
  rw [classesFrom_succ h]
  exact List.mem_cons_self ..

theorem nextClass_mem_classesFrom {r : Reel} {step slots : Nat} {v w : Nat × Nat} (n : Nat) (h : stepPlan r step = some v)
    (hw : stepPlan r (step + 1) = some w) (hin : commitSlot r v.2 v.1 + 1 ≤ slots) :
    phaseClass r w.2 ∈ classesFrom r (n + 2) step slots := by
  rw [classesFrom_succ h, if_pos hin]
  exact List.mem_cons_of_mem _ (class_mem_classesFrom n hw)

theorem mayFall_iff (s : State) (r : Reel) (cls : Nat) : mayFall s r cls = true ↔
    ((running s = true ∧ phaseClass r s.job.phase = cls) ∧ (stepPlan r (s.job.final + 1)).any (fun x => x.2 == s.job.phase) = true) ∧
      ∀ c ∈ classesAhead s r, c ≤ cls := by
  simp only [mayFall, Bool.and_eq_true, beq_iff_eq, List.all_eq_true, decide_eq_true_eq]

theorem classRail_running {r : Reel} (hr : s.reel = some r) (hrun : running s = true) (cls : Nat) :
    (cls = s.power.cls → exec (.classRailMove cls) s = .next s) ∧
    (s.power.cls < cls ∧ cls ∈ classesAhead s r ∨ (cls < s.power.cls ∧ mayFall s r cls = true) →
      ∃ t : State, exec (.classRailMove cls) s = .next t ∧ changesOnly [.power] s t ∧ t.power = { s.power with cls := cls }) ∧
    (s.power.cls < cls → cls ∉ classesAhead s r → exec (.classRailMove cls) s = .next s) ∧
    (cls < s.power.cls → mayFall s r cls = false → exec (.classRailMove cls) s = .next s) ∧
    (stepPlan r s.job.step = some (s.job.pattern, s.job.phase) → phaseClass r s.job.phase ∈ classesAhead s r) ∧
    (∀ v, stepPlan r s.job.step = some (s.job.pattern, s.job.phase) → stepPlan r (s.job.step + 1) = some v →
      commitSlot r s.job.phase s.job.pattern + 1 ≤ s.job.slot + 1024 → phaseClass r v.2 ∈ classesAhead s r) ∧
    (mayFall s r cls = true →
      phaseClass r s.job.phase = cls ∧ (stepPlan r (s.job.final + 1)).any (fun x => x.2 == s.job.phase) = true ∧
      ∀ c ∈ classesAhead s r, c ≤ cls) := by
  refine ⟨fun he => ?_, fun h => ⟨_, classRailMove_moves hr h, withPower_changes s _, rfl⟩, fun hlt hn => ?_, fun hlt hn => ?_,
    fun hp => ?_, fun v hp hv hin => ?_, fun h => ?_⟩
  · refine classRailMove_stays hr ?_
    rintro (⟨h, -⟩ | ⟨h, -⟩) <;> omega
  · refine classRailMove_stays hr ?_
    rintro (⟨-, h⟩ | ⟨h, -⟩)
    · exact hn h
    · omega
  · refine classRailMove_stays hr ?_
    rintro (⟨h, -⟩ | ⟨-, h⟩)
    · omega
    · exact nomatch hn.symm.trans h
  · rw [classesAhead_running hrun]
    exact class_mem_classesFrom 1025 hp
  · rw [classesAhead_running hrun]
    exact nextClass_mem_classesFrom 1024 hp hv hin
  · obtain ⟨⟨⟨-, hphase⟩, hfinal⟩, hall⟩ := (mayFall_iff s r cls).mp h
    exact ⟨hphase, hfinal, hall⟩

theorem classRail_armed {r : Reel} {cls : Nat} {v : Nat × Nat} (hr : s.reel = some r) (ha : s.job.st = .armed) (hv : stepPlan r 1 = some v)
    (hcls : phaseClass r v.2 = cls) (hlt : s.power.cls < cls) :
    (s.job.start ≤ s.bridle.count + 1024 →
      ∃ t : State, exec (.classRailMove cls) s = .next t ∧ changesOnly [.power] s t ∧ t.power = { s.power with cls := cls }) ∧
    (s.bridle.count + 1024 < s.job.start → exec (.classRailMove cls) s = .next s) := by
  have hrun : running s = false := by simp [running, ha]
  have harm : armed s = true := by simp [armed, ha]
  have hahead : classesAhead s r =
      if s.job.start ≤ s.bridle.count + 1024 then classesFrom r 1026 1 (s.bridle.count + 1024 - s.job.start) else [] := by
    unfold classesAhead
    rw [if_neg (by rw [hrun]; exact Bool.false_ne_true)]
    exact if_congr (by rw [harm, Bool.true_and]; exact decide_eq_true_iff) rfl rfl
  refine ⟨fun hnear => ⟨_, classRailMove_moves hr (.inl ⟨hlt, ?_⟩), withPower_changes s _, rfl⟩,
    fun hfar => classRailMove_stays hr ?_⟩
  · rw [hahead, if_pos hnear, ← hcls]
    exact class_mem_classesFrom 1025 hv
  · rw [hahead, if_neg (by omega)]
    rintro (⟨-, h⟩ | ⟨h, -⟩)
    · exact nomatch h
    · omega

/-! ## Ballast -/

/-- What a Ballast operation of a tile waits for: its choice, its kernel, its engine and its time. -/
def ballastFits (s : State) (u : Nat) (ka : BitVec 8) (token : Nat) : Bool :=
  runsBallast s u && (ka == 1 || ka == 2 || ka == 3) && engineIdle s u ka && decide (token < 64) &&
    (ballastEnd s u ka).all (fun k => decide (token + ballastTokens s.power.cls ka ≤ k))

theorem exec_ballastIssue (s : State) (u : Nat) (ka : BitVec 8) (token : Nat) : exec (.ballastIssue u ka token) s =
    .next (if ballastFits s u ka token = true then { s with power := { s.power with ballast := s.power.ballast ++ [(u, ka)] } } else s) := rfl

theorem runsBallast_inService {u : Nat} (h : runsBallast s u = true) : outOfService s u = false ∧ s.stop.stopped = false := by
  simp only [runsBallast, Bool.and_eq_true, Bool.or_eq_true] at h
  obtain ⟨⟨⟨⟨-, hgroup⟩, -⟩, -⟩, hchosen⟩ := h
  simp only [groupOn, Bool.and_eq_true, Bool.not_eq_true'] at hgroup
  refine ⟨?_, hgroup.1.2⟩
  rcases hchosen with hc | hc
  · simp only [ballastChosen, Bool.and_eq_true, Bool.not_eq_true'] at hc
    exact hc.1
  · simp only [heats, Bool.and_eq_true, Bool.not_eq_true'] at hc
    exact hc.1.2

theorem engineIdle_of {u : Nat} {ka : BitVec 8} (hf : ∀ f, (tileOf s u).flight = some f → ballastEngine ka (wOp f.word) = false)
    (hb : (u, ka) ∉ s.power.ballast) : engineIdle s u ka = true := by
  have hflight : (tileOf s u).flight.any (fun f => ballastEngine ka (wOp f.word)) = false := by
    cases h : (tileOf s u).flight with
    | none => rfl
    | some f => exact hf f h
  have hnot : s.power.ballast.contains (u, ka) = false := by simpa using hb
  rw [engineIdle, hflight, hnot]
  rfl

theorem ballastIssue_spec (u : Nat) (ka : BitVec 8) {token : Nat} (ht : token < 64) :
    (outOfService s u = true ∨ s.stop.stopped = true → exec (.ballastIssue u ka token) s = .next s) ∧
    (∀ k, ballastEnd s u ka = some k → k < token + ballastTokens s.power.cls ka → exec (.ballastIssue u ka token) s = .next s) ∧
    (runsBallast s u = true → ka = 1 ∨ ka = 2 ∨ ka = 3 →
      (∀ k, ballastEnd s u ka = some k → token + ballastTokens s.power.cls ka ≤ k) →
      (∀ f, (tileOf s u).flight = some f → ballastEngine ka (wOp f.word) = false) → (u, ka) ∉ s.power.ballast →
      ∃ t : State, exec (.ballastIssue u ka token) s = .next t ∧ changesOnly [.power] s t ∧
        t.power = { s.power with ballast := s.power.ballast ++ [(u, ka)] }) := by
  have hstays : ballastFits s u ka token ≠ true → exec (.ballastIssue u ka token) s = .next s := fun h =>
    (exec_ballastIssue s u ka token).trans (congrArg Host.Outcome.next (if_neg h))
  refine ⟨fun hout => hstays fun h => ?_, fun k hk hlt => hstays fun h => ?_, fun hrun hka hend hf hb => ?_⟩
  · simp only [ballastFits, Bool.and_eq_true] at h
    obtain ⟨hin, hgo⟩ := runsBallast_inService h.1.1.1.1
    rcases hout with h | h
    · exact nomatch hin.symm.trans h
    · exact nomatch hgo.symm.trans h
  · simp only [ballastFits, Bool.and_eq_true, hk, Option.all_some, decide_eq_true_eq] at h
    omega
  · have hends : (ballastEnd s u ka).all (fun k => decide (token + ballastTokens s.power.cls ka ≤ k)) = true := by
      cases h : ballastEnd s u ka with
      | none => rfl
      | some k => exact decide_eq_true (hend k h)
    have hkas : (ka == 1 || ka == 2 || ka == 3) = true := by
      rcases hka with rfl | rfl | rfl <;> rfl
    have hfits : ballastFits s u ka token = true := by
      rw [ballastFits, hrun, hkas, engineIdle_of hf hb, decide_eq_true ht, hends]
      rfl
    exact ⟨_, (exec_ballastIssue s u ka token).trans (congrArg Host.Outcome.next (if_pos hfits)), withPower_changes s _, rfl⟩

/-- As many tiles as the ramp needs hold the sample to come above its floor. -/
theorem le_add_tilesNeeded (w : Power) (h : 0 < Config.ballastMw w.cls) :
    rampFloor w ≤ baseMw w + Config.ballastMw w.cls * tilesNeeded w := by
  have hdiv := Nat.lt_mul_div_succ (rampFloor w - baseMw w + Config.ballastMw w.cls - 1) h
  rw [Nat.mul_add, Nat.mul_one] at hdiv
  have heq : tilesNeeded w = (rampFloor w - baseMw w + Config.ballastMw w.cls - 1) / Config.ballastMw w.cls := rfl
  rw [heq]
  omega

theorem adjustBallast_spec (w : Power) (h : 0 < Config.ballastMw w.cls) : (adjustBallast w).ballastTiles ≤ 1024 ∧
    ((adjustBallast w).ballastUnmet = false → (adjustBallast w).ballastTiles < 1024 →
      rampFloor w ≤ baseMw w + Config.ballastMw w.cls * (adjustBallast w).ballastTiles) := by
  refine ⟨min_le_left _ _, fun hmet hlt => ?_⟩
  have hmin : tilesNeeded w ≤ min (tilesNeeded w) (tilesAllowed w) := not_lt.mp (of_decide_eq_false hmet)
  have hall : (adjustBallast w).ballastTiles = tilesNeeded w := by
    have e : (adjustBallast w).ballastTiles = min 1024 (min (tilesNeeded w) (tilesAllowed w)) := rfl
    omega
  rw [hall]
  exact le_add_tilesNeeded w h

theorem powerSample_ramp (x : Sensors) (hready : isReady s = true) (hstop : s.stop.stopped = false)
    (hone : 0 < Config.ballastMw s.power.cls) :
    ∃ t : State, exec (.powerSample x) s = .next t ∧ t.power.ballastTiles ≤ 1024 ∧
      (t.power.ballastUnmet = false → t.power.ballastTiles < 1024 →
        t.power.samples.getD 99 0 - 1000 * s.power.committed.ramp.toNat ≤
          t.power.now - Config.ballastMw s.power.cls * s.power.ballastTiles + Config.ballastMw s.power.cls * t.power.ballastTiles) := by
  have hon : svcOn s = true := by
    simp only [isReady, beq_iff_eq] at hready
    simp [svcOn, hready]
  have hp : sampledPower x s = adjustBallast (addSample (regulatorInputs s x) (running s) s.power) := by
    rw [sampledPower, hready, hstop, (readSensors_spec x s).1 .power (by decide)]
    rfl
  refine ⟨_, exec_powerSample hon x, ?_⟩
  show (sampledPower x s).ballastTiles ≤ 1024 ∧ _
  have hw : (sampled x s).power = sampledPower x s := rfl
  rw [hw, hp]
  exact adjustBallast_spec (addSample (regulatorInputs s x) (running s) s.power) hone

/-! ## The runs that count -/

/-- What a unit's score and passes stand at. -/
def standing (i : Nat) (s : State) : Nat × Nat := ((healthOf s i).score, (healthOf s i).passes)

theorem standing_updHealth (i : Nat) (f : Health → Health) (s : State) (hf : ∀ h, (f h).score = h.score ∧ (f h).passes = h.passes) :
    standing i (updHealth i f s) = standing i s := by
  rw [standing, healthOf_updHealth_self, (hf _).1, (hf _).2, standing]

theorem standing_post (i : Nat) (code : BitVec 16) (info : List Byte) (s : State) : standing i (post code info s) = standing i s :=
  congrArg (fun x => (x.2.score, x.2.passes)) (unitView_post i code info s)

theorem standing_unitFsr (c i : Nat) (q : Option Nat) (s : State) : standing i (unitFsr c i q s) = standing i s := by
  rw [standing, healthOf_unitFsr_self, standing]

theorem standing_enterWatch (c i : Nat) (s : State) : standing i (enterWatch c i s) = ((standing i s).1, 0) := by
  unfold enterWatch
  extract_lets due s1 s2
  have h1 : (healthOf s1 i).score = (healthOf s i).score :=
    congrArg (fun f => (f i).score) ((setUnit_changes i _ s).healthOf_eq (by decide))
  rw [standing_unitFsr, standing_post, standing, healthOf_updHealth_self]
  exact Prod.ext h1 rfl

theorem standing_advise (c i : Nat) (s : State) : standing i (advise c i s) = standing i s := by
  unfold advise
  extract_lets h s1
  split
  · have h1 : standing i s1 = standing i s := standing_updHealth i _ s fun h => ⟨rfl, rfl⟩
    rw [standing_unitFsr, standing_post, h1]
  · rfl

/-- A failed run scores, and the passes begin anew. -/
theorem standing_kaFail (i ka q : Nat) (r : KaOutcome) (s : State) :
    standing i (kaFail i ka q r s) = (min 255 ((healthOf s i).score + 1), 0) := by
  unfold kaFail
  extract_lets s1 s2 s3 s4 s5
  have h1 : (healthOf s1 i).score = (healthOf s i).score := by
    have e : healthOf s1 i = _ := healthOf_updHealth_self i (Health.mapCtr (katPlace i) (satInc (ctrWidth i))) s
    rw [e]
    unfold Health.mapCtr
    split <;> rfl
  have h2 : standing i s2 = (min 255 ((healthOf s i).score + 1), 0) := by
    rw [standing, healthOf_updHealth_self, ← h1]
  have h3 : standing i s3 = (min 255 ((healthOf s i).score + 1), 0) := by
    unfold s3
    split
    · rw [standing_enterWatch, h2]
    · exact h2
  rw [standing, healthOf_appendHistory, ← standing, standing_unitFsr, standing_advise, h3]

/-- An ACTIVE tile's failed run. -/
theorem kaFail_spec {u : Nat} (hu : u < 1024) (ha : unitSt s u = .active) (ka q : Nat) (r : KaOutcome) :
    changesOnly (.totals :: moves) s (kaFail u ka q r s) ∧ unitSt (kaFail u ka q r s) u = .watch ∧
      (kaFail u ka q r s).sec.totals = { s.sec.totals with kat := s.sec.totals.kat + 1 } ∧
      (healthOf (kaFail u ka q r s) u).c3 = min ((healthOf s u).c3 + 1) 65535 ∧
      (healthOf (kaFail u ka q r s) u).score = min 255 ((healthOf s u).score + 1) ∧ (healthOf (kaFail u ka q r s) u).passes = 0 ∧
      ∀ j, j ≠ u → healthOf (kaFail u ka q r s) j = healthOf s j ∧ unitEntry (kaFail u ka q r s) j = unitEntry s j := by
  have hst := standing_kaFail u ka q r s
  have hplace : katPlace u = 3 := if_pos hu
  have hwidth : ctrWidth u = 16 := if_pos hu
  have hc3 : (healthOf (kaFail u ka q r s) u).c3 = _ := congrArg (fun l => l.getD 3 0) (countersOf_kaFail (i := u) ka q r s)
  rw [hplace, hwidth] at hc3
  refine ⟨kaFail_changes u ka q r s, ?_, kaFail_totals ka q r s, hc3, (Prod.mk.inj hst).1, (Prod.mk.inj hst).2, fun j hj => ?_⟩
  · rw [unitSt, unitEntry_kaFail_self ka q r ha]
    rfl
  · have h := unitView_kaFail_other ka q r hj s
    exact ⟨(Prod.mk.inj h).2, (Prod.mk.inj h).1⟩

theorem scoreRun_pass {u : Nat} (ha : unitSt s u = .active) (ka q : Nat) : scoreRun u ka q .pass s = s :=
  kaPass_of_ne_watch (by simp [ha])

theorem scoreRun_fail {o : KaOutcome} (ho : o ≠ .pass) (u ka q : Nat) (s : State) : scoreRun u ka q o s = kaFail u ka q o s := by
  cases o
  case pass => exact absurd rfl ho
  all_goals rfl

theorem exec_ballastResult (s : State) (u : Nat) (x : BallastEnd) : exec (.ballastResult u x) s = .next (
    if s.power.ballast.contains (u, x.ka) = true then scoreRun u x.ka.toNat 0 x.result { s with power := endBallast u x.ka s.power }
    else s) := rfl

/-- The end of an operation writes no buffer but its tile's, and leaves that one's length. -/
theorem endBallast_spec (u : Nat) (ka : BitVec 8) (w : Power) :
    (look [] u (endBallast u ka w).buffers).length = (look [] u w.buffers).length ∧
      ∀ v, v ≠ u → look [] v (endBallast u ka w).buffers = look [] v w.buffers := by
  refine ⟨?_, fun v hv => look_store_other hv _ _ _⟩
  show (look [] u (store [] u _ w.buffers)).length = _
  rw [look_store_self]
  simp only [List.length_map, List.length_zipIdx]

theorem ballastResult_spec {u : Nat} {ka : BitVec 8} (hu : u < 1024) (hb : (u, ka) ∈ s.power.ballast) (ha : unitSt s u = .active) :
    (∃ t : State, exec (.ballastResult u { ka := ka, result := .pass }) s = .next t ∧ changesOnly [.power] s t ∧
      t.power = { s.power with ballast := s.power.ballast.erase (u, ka), buffers := t.power.buffers } ∧
      (bufferOf t u).length = (bufferOf s u).length ∧ ∀ v, v ≠ u → bufferOf t v = bufferOf s v) ∧
    (∀ o, o ≠ KaOutcome.pass → ∃ t : State, exec (.ballastResult u { ka := ka, result := o }) s = .next t ∧
      changesOnly (([.power, .totals] : List Part) ++ moves) s t ∧
      t.power = { s.power with ballast := s.power.ballast.erase (u, ka), buffers := t.power.buffers } ∧
      (bufferOf t u).length = (bufferOf s u).length ∧ (∀ v, v ≠ u → bufferOf t v = bufferOf s v) ∧ unitSt t u = .watch ∧
      t.sec.totals = { s.sec.totals with kat := s.sec.totals.kat + 1 } ∧
      (healthOf t u).c3 = min ((healthOf s u).c3 + 1) 65535 ∧
      (healthOf t u).score = min 255 ((healthOf s u).score + 1) ∧ (healthOf t u).passes = 0 ∧
      (∀ j, j ≠ u → healthOf t j = healthOf s j ∧ unitEntry t j = unitEntry s j)) := by
  have hin : s.power.ballast.contains (u, ka) = true := List.contains_iff_mem.mpr hb
  have hexec : ∀ o, exec (.ballastResult u { ka := ka, result := o }) s =
      .next (scoreRun u ka.toNat 0 o { s with power := endBallast u ka s.power }) := fun o =>
    (exec_ballastResult s u _).trans (congrArg Host.Outcome.next (if_pos hin))
  have hend := endBallast_spec u ka s.power
  have hcend : changesOnly [.power] s { s with power := endBallast u ka s.power } := withPower_changes s _
  have hpass := scoreRun_pass (s := { s with power := endBallast u ka s.power }) ha ka.toNat 0
  refine ⟨⟨_, (hexec .pass).trans (congrArg Host.Outcome.next hpass), hcend, rfl, hend⟩, fun o ho => ?_⟩
  obtain ⟨hc, hwatch, htot, hc3, hscore, hpasses, hother⟩ :=
    kaFail_spec (s := { s with power := endBallast u ka s.power }) hu ha ka.toNat 0 o
  have hp := hc .power (by decide)
  refine ⟨_, (hexec o).trans (congrArg Host.Outcome.next (scoreRun_fail ho _ _ _ _)), (hcend.mono (by decide)).trans (hc.mono (by decide)), ?_,
    ?_, fun v hv => ?_, hwatch, htot, hc3, hscore, hpasses, hother⟩
  · rw [show (kaFail u ka.toNat 0 o { s with power := endBallast u ka s.power }).power = endBallast u ka s.power from hp]
    rfl
  · rw [bufferOf, show (kaFail u ka.toNat 0 o { s with power := endBallast u ka s.power }).power = endBallast u ka s.power from hp]
    exact hend.1
  · rw [bufferOf, show (kaFail u ka.toNat 0 o { s with power := endBallast u ka s.power }).power = endBallast u ka s.power from hp]
    exact hend.2 v hv

end Sys2Proof.Machine

open Sys2Proof Sys2Proof.Machine

/-- Settles O55: the rails (`classRail_running`, `classRail_armed`), the ramp (`powerSample_ramp`) and a result (`ballastResult_spec`). -/
theorem railsAndBallast : Obligations.RailsAndBallast := by
  refine ⟨fun s r cls hr hrun => classRail_running hr hrun cls, fun s r cls v hr ha hv hc hlt => classRail_armed hr ha hv hc hlt,
    fun s u ka token _ ht => ballastIssue_spec u ka ht, fun s x hready hstop hone => powerSample_ramp x hready hstop hone,
    fun s u ka hu hb ha => ballastResult_spec hu hb ha, fun s u x hb => ?_⟩
  exact (exec_ballastResult s u x).trans (congrArg Host.Outcome.next (if_neg fun h => hb (List.contains_iff_mem.mp h)))
end

section
/-! Proofs: scores, due times, known-answer runs and stress tests (R207, R210 to R218, R222; O56). -/

namespace Sys2Proof.Machine

variable {s t : State}

/-! ## Scores -/

/-- What halving and the return to ACTIVE leave of a unit's health, and its score. -/
def marks (j : Nat) (s : State) : Nat × Nat × Option Nat := ((healthOf s j).score, (healthOf s j).c0, (healthOf s j).lastTest)

theorem marks_settle (i j : Nat) (s : State) : marks j (settle i s) = marks j s := by
  by_cases hj : j = i
  · subst hj
    unfold settle
    extract_lets h s1 s2
    split
    · have hp := congrArg Prod.snd (unitView_post j 0x0AA3 (unitInfo s2 j) s2)
      have h1 : healthOf s1 j = healthOf s j := congrFun ((setUnit_changes j _ s).healthOf_eq (by decide)) j
      have h2 : healthOf s2 j = { healthOf s1 j with watchDue := none, advised := false, passes := 0 } := healthOf_updHealth_self j _ s1
      have hall : healthOf (post 0x0AA3 (unitInfo s2 j) s2) j = { healthOf s j with watchDue := none, advised := false, passes := 0 } := by
        rw [← h1, ← h2]
        exact hp
      rw [marks, hall, marks]
    · rfl
  · rw [marks, (Prod.mk.inj (unitView_settle_other hj s)).2, marks]

/-- Every score halved, and the halving point noted. -/
def halved (s : State) : State :=
  { s with sec := { s.sec with health := mapVals Health.zero (fun h => { h with score := h.score / 2 }) s.sec.health,
                               halvedAt := halvingPoint s } }

theorem halved_changes (s : State) : changesOnly [.secRegs, .health] s (halved s) := by
  intro p hp
  cases p
  case secRegs => exact absurd (by decide) hp
  case health => exact absurd (by decide) hp
  all_goals rfl

theorem marks_halved (h : risingKeys s.sec.health = true) (j : Nat) :
    marks j (halved s) = ((healthOf s j).score / 2, (healthOf s j).c0, (healthOf s j).lastTest) := by
  have hl : healthOf (halved s) j = { healthOf s j with score := (healthOf s j).score / 2 } :=
    look_mapVals (d := Health.zero) (f := fun x => { x with score := x.score / 2 }) h rfl j
  rw [marks, hl]

theorem scoreHalving_spec (hon : svcOn s = true) (hlt : s.sec.halvedAt < halvingPoint s) (hr : risingKeys s.sec.health = true) :
    ∃ t : State, exec .scoreHalving s = .next t ∧ changesOnly (.secRegs :: moves) s t ∧ t.sec.halvedAt = halvingPoint s ∧
      ∀ i, (healthOf t i).score = (healthOf s i).score / 2 ∧ (healthOf t i).c0 = (healthOf s i).c0 ∧
        (healthOf t i).lastTest = (healthOf s i).lastTest := by
  have hexec : exec .scoreHalving s = .next (((halved s).sec.health.map (fun x => x.1)).foldl (fun a i => settle i a) (halved s)) :=
    congrArg Host.Outcome.next (if_pos (by rw [hon, decide_eq_true hlt]; rfl))
  have hc : changesOnly moves (halved s) (((halved s).sec.health.map (fun x => x.1)).foldl (fun a i => settle i a) (halved s)) :=
    .foldl (fun a i => settle_changes i a) _ _
  refine ⟨_, hexec, ((halved_changes s).mono (by decide)).trans (hc.mono (by decide)), congrArg Sec.halvedAt (hc .secRegs (by decide)),
    fun j => ?_⟩
  have hm := foldl_keeps (P := fun a => marks j a = marks j (halved s)) (fun a (i : Nat) ha => (marks_settle i j a).trans ha)
    ((halved s).sec.health.map (fun x => x.1)) rfl
  rw [marks_halved hr] at hm
  obtain ⟨hscore, hrest⟩ := Prod.mk.inj hm
  obtain ⟨hc0, hlast⟩ := Prod.mk.inj hrest
  exact ⟨hscore, hc0, hlast⟩

/-! ## Overdue notices -/

/-- The multiple of a notice's interval that lies just after the last one. -/
theorem noticeTime_of {u k n : Nat} (hn : n = dueTime s u + 12 * hourUnits * (k + 1)) (hlt : (healthOf s u).overdueAt < n)
    (hle : ∀ j, j < k → dueTime s u + 12 * hourUnits * (j + 1) ≤ (healthOf s u).overdueAt) : noticeTime s u = n := by
  have e : noticeTime s u = dueTime s u + 12 * hourUnits * (1 + ((healthOf s u).overdueAt - dueTime s u) / (12 * hourUnits)) := rfl
  have hpos : 0 < 12 * hourUnits := by decide
  generalize 12 * hourUnits = h at *
  have hdiv : ((healthOf s u).overdueAt - dueTime s u) / h = k := by
    refine Nat.div_eq_of_lt_le ?_ ?_
    · cases k with
      | zero => rw [Nat.zero_mul]; exact Nat.zero_le _
      | succ j =>
        have hj := hle j (Nat.lt_succ_self j)
        rw [Nat.mul_comm]
        omega
    · have hmul : 0 < h * (k + 1) := Nat.mul_pos hpos (Nat.succ_pos k)
      rw [Nat.mul_comm]
      omega
  rw [e, hdiv, hn, Nat.add_comm 1 k]

/-- An overdue notice counted. -/
def overdueNoted (u : Nat) (s : State) : State :=
  updHealth u (fun h => { h with overdueAt := noticeTime s u }) { s with sec := { s.sec with overdue := satInc 32 s.sec.overdue } }

theorem overdueNoted_changes (u : Nat) (s : State) : changesOnly [.secRegs, .health] s (overdueNoted u s) := by
  intro p hp
  cases p
  case secRegs => exact absurd (by decide) hp
  case health => exact absurd (by decide) hp
  all_goals rfl

theorem exec_testOverdue {u : Nat} (hon : svcOn s = true) (hu : u < 1080) (hp : unitPop s u = true) : exec (.testOverdue u) s =
    .next (if noticeTime s u ≤ s.sec.uptime then post 0x0AA5 (unitInfo (overdueNoted u s) u) (overdueNoted u s) else s) := by
  show execTestOverdue u s = _
  unfold execTestOverdue
  simp only [hon, hu, hp, decide_true, Bool.true_and, decide_eq_true_eq]
  rfl

theorem testOverdue_spec {u n k : Nat} (hon : svcOn s = true) (hu : u < 1080) (hp : unitPop s u = true)
    (hn : n = dueTime s u + 12 * hourUnits * (k + 1)) (hlt : (healthOf s u).overdueAt < n)
    (hle : ∀ j, j < k → dueTime s u + 12 * hourUnits * (j + 1) ≤ (healthOf s u).overdueAt) :
    (s.sec.uptime < n → exec (.testOverdue u) s = .next s) ∧
    (n ≤ s.sec.uptime →
      ∃ t : State, exec (.testOverdue u) s = .next t ∧ changesOnly (([.secRegs, .health] : List Part) ++ posts) s t ∧
        t.sec.overdue = min (s.sec.overdue + 1) (2 ^ 32 - 1) ∧ (healthOf t u).overdueAt = n ∧
        t.rings.seq = nextSeq s.rings.seq) := by
  have hnt := noticeTime_of hn hlt hle
  have hexec := exec_testOverdue hon hu hp
  rw [hnt] at hexec
  refine ⟨fun hfar => hexec.trans (congrArg Host.Outcome.next (if_neg (not_le.mpr hfar))), fun hdue => ?_⟩
  have hpost := post_changes 0x0AA5 (unitInfo (overdueNoted u s) u) (overdueNoted u s)
  have hself : (healthOf (overdueNoted u s) u).overdueAt = n := by
    have e : healthOf (overdueNoted u s) u = _ := healthOf_updHealth_self u (fun h => { h with overdueAt := noticeTime s u })
      { s with sec := { s.sec with overdue := satInc 32 s.sec.overdue } }
    rw [e]
    exact hnt
  refine ⟨_, hexec.trans (congrArg Host.Outcome.next (if_pos hdue)),
    ((overdueNoted_changes u s).mono (by decide)).trans (hpost.mono (by decide)), congrArg Sec.overdue (hpost .secRegs (by decide)), ?_, ?_⟩
  · rw [congrFun (hpost.healthOf_eq (by decide)) u]
    exact hself
  · exact post_seq _ _ _

/-! ## The start of a test -/

theorem withTest_changes (s : State) (x : Option TestRun) : changesOnly [.test] s { s with sec := { s.sec with test := x } } := by
  intro p hp
  cases p
  case test => exact absurd (by decide) hp
  all_goals rfl

/-- The run that a test begins with. -/
def newRun (s : State) (u : Nat) (stress : Bool) (ka : BitVec 8) (by_ : TestBy) : TestRun :=
  { unit := u, stress := stress, ka := ka, by_ := by_, failing := none, partialHeat := false, left := planOf s u stress by_, ran := [],
    cold := false, held := [] }

theorem startTest_between {u : Nat} {stress : Bool} {ka : BitVec 8} {by_ : TestBy} (h : by_ ≠ .window) (s : State) :
    changesOnly [.test, .power] s (startTest u stress ka by_ s) ∧
      (startTest u stress ka by_ s).sec.test = some (newRun s u stress ka by_) ∧
      (startTest u stress ka by_ s).power = { s.power with cls := s.sec.lastClass } := by
  have hp : (startTest u stress ka by_ s).power = { s.power with cls := s.sec.lastClass } :=
    congrArg (fun k => { s.power with cls := k }) (if_neg h)
  refine ⟨fun p hp => ?_, rfl, hp⟩
  cases p
  case test => exact absurd (by decide) hp
  case power => exact absurd (by decide) hp
  all_goals rfl

theorem startTest_window (u : Nat) (s : State) : changesOnly [.test] s (startTest u true 0 .window s) ∧
    (startTest u true 0 .window s).sec.test = some (newRun s u true 0 .window) := ⟨withTest_changes s _, rfl⟩

/-- The unit due longest so far, and the next one. -/
def longestDue (s : State) (best : Option Nat) (u : Nat) : Option Nat :=
  if testDue s u then best.elim (some u) (fun v => if dueTime s u < dueTime s v then some u else best) else best

theorem mostOverdue_eq (s : State) : mostOverdue s = (List.range 1080).foldl (longestDue s) none := by
  unfold mostOverdue
  refine congrArg (fun f => (List.range 1080).foldl f none) (funext fun best => funext fun u => ?_)
  cases best <;> rfl

/-- The unit due longest of those below a bound, the lowest of equals. -/
theorem longestDue_range (s : State) (n : Nat) :
    ((List.range n).foldl (longestDue s) none = none ∧ ∀ v, v < n → testDue s v = false) ∨
    ∃ w, (List.range n).foldl (longestDue s) none = some w ∧ w < n ∧ testDue s w = true ∧
      ∀ v, v < n → testDue s v = true → dueTime s w < dueTime s v ∨ (dueTime s w = dueTime s v ∧ w ≤ v) := by
  induction n with
  | zero => exact .inl ⟨rfl, fun v hv => absurd hv (Nat.not_lt_zero v)⟩
  | succ n ih =>
    rw [List.range_succ, List.foldl_append, List.foldl_cons, List.foldl_nil]
    by_cases hdue : testDue s n = true
    · rcases ih with ⟨hnone, hbelow⟩ | ⟨w, hw, hlt, hdw, hmin⟩
      · refine .inr ⟨n, ?_, Nat.lt_succ_self n, hdue, fun v hv hdv => ?_⟩
        · rw [hnone, longestDue, if_pos hdue]
          rfl
        · rcases Nat.lt_succ_iff_lt_or_eq.mp hv with h | rfl
          · exact nomatch (hbelow v h).symm.trans hdv
          · exact .inr ⟨rfl, le_refl _⟩
      · by_cases hearlier : dueTime s n < dueTime s w
        · refine .inr ⟨n, ?_, Nat.lt_succ_self n, hdue, fun v hv hdv => ?_⟩
          · rw [hw, longestDue, if_pos hdue]
            exact if_pos hearlier
          · rcases Nat.lt_succ_iff_lt_or_eq.mp hv with h | rfl
            · have hv' := hmin v h hdv
              omega
            · exact .inr ⟨rfl, le_refl _⟩
        · refine .inr ⟨w, ?_, Nat.lt_succ_of_lt hlt, hdw, fun v hv hdv => ?_⟩
          · rw [hw, longestDue, if_pos hdue]
            exact if_neg hearlier
          · rcases Nat.lt_succ_iff_lt_or_eq.mp hv with h | rfl
            · exact hmin v h hdv
            · omega
    · have hstep : ∀ best, longestDue s best n = best := fun best => if_neg hdue
      rw [hstep]
      rcases ih with ⟨hnone, hbelow⟩ | ⟨w, hw, hlt, hdw, hmin⟩
      · refine .inl ⟨hnone, fun v hv => ?_⟩
        rcases Nat.lt_succ_iff_lt_or_eq.mp hv with h | rfl
        · exact hbelow v h
        · exact eq_false_of_ne_true hdue
      · refine .inr ⟨w, hw, Nat.lt_succ_of_lt hlt, hdw, fun v hv hdv => ?_⟩
        rcases Nat.lt_succ_iff_lt_or_eq.mp hv with h | rfl
        · exact hmin v h hdv
        · exact absurd hdv hdue

theorem mostOverdue_of {u : Nat} (hu : u < 1080) (hdue : testDue s u = true)
    (hmin : ∀ v, v < 1080 → testDue s v = true → dueTime s u < dueTime s v ∨ (dueTime s u = dueTime s v ∧ u ≤ v)) :
    mostOverdue s = some u := by
  rw [mostOverdue_eq]
  rcases longestDue_range s 1080 with ⟨-, hnone⟩ | ⟨w, hw, hlt, hdw, hminw⟩
  · exact nomatch (hnone u hu).symm.trans hdue
  · have h1 := hmin w hlt hdw
    have h2 := hminw u hu hdue
    rw [hw]
    exact congrArg some (by omega)

theorem exec_autoStressTest {u : Nat} (h : mostOverdue s = some u) : exec .autoStressTest s =
    .next (if (isReady s && !s.stop.stopped && s.reel.isNone && s.sec.testAuto && s.sec.test.isNone) = true then
      startTest u true 0 .auto s else s) := by
  show execAutoStressTest s = _
  unfold execAutoStressTest
  rw [h]
  cases (isReady s && !s.stop.stopped && s.reel.isNone && s.sec.testAuto && s.sec.test.isNone) <;> rfl

theorem autoStressTest_spec {u : Nat} (hready : isReady s = true) (hstop : s.stop.stopped = false) (hauto : s.sec.testAuto = true)
    (htest : s.sec.test = none) (hu : u < 1080) (hdue : testDue s u = true)
    (hmin : ∀ v, v < 1080 → testDue s v = true → dueTime s u < dueTime s v ∨ (dueTime s u = dueTime s v ∧ u ≤ v)) :
    (s.reel ≠ none → exec .autoStressTest s = .next s) ∧
    (s.reel = none → ∃ t x, exec .autoStressTest s = .next t ∧ changesOnly [.secRegs, .test, .power] s t ∧ t.sec.test = some x ∧
      t.power = { s.power with cls := s.sec.lastClass } ∧
      x.unit = u ∧ x.stress = true ∧ x.by_ = .auto ∧ x.failing = none ∧ x.partialHeat = false ∧
      x.left = (if u < 1024 then [0, 1, 2] else [0, 3]) ∧ x.ran = [] ∧ x.held = []) := by
  have hexec := exec_autoStressTest (mostOverdue_of hu hdue hmin)
  rw [hready, hstop, hauto, htest] at hexec
  refine ⟨fun hreel => ?_, fun hreel => ?_⟩
  · obtain ⟨r, hr⟩ := Option.ne_none_iff_exists'.mp hreel
    rw [hr] at hexec
    exact hexec
  · rw [hreel] at hexec
    obtain ⟨hc, hrun, hp⟩ := startTest_between (u := u) (stress := true) (ka := 0) (by_ := .auto) (by decide) s
    refine ⟨_, _, hexec, hc.mono (by decide), hrun, hp, rfl, rfl, rfl, rfl, rfl, ?_, rfl, rfl⟩
    show planOf s u true .auto = _
    unfold planOf
    rw [if_neg (by decide)]
    by_cases h : u < 1024
    · rw [if_neg (by omega), if_neg (by decide), if_pos h]
    · rw [if_pos (by omega), if_neg h]

theorem watchFirst_iff (s : State) (r : Reel) : watchFirst s r = true ↔
    ∃ v, v < 1080 ∧ unitSt s v = .watch ∧ testDue s v = true ∧ windowCovers r v s.job.pattern = true := by
  simp only [watchFirst, List.any_eq_true, List.mem_range, Bool.and_eq_true, beq_iff_eq, and_assoc]

theorem exec_windowTest {r : Reel} {u : Nat} (hrun : running s = true) (hr : s.reel = some r) (hn : s.job.notice = none)
    (ht : s.sec.test = none) (hdue : testDue s u = true) : exec (.windowTest u) s =
    .next (if (windowCovers r u s.job.pattern && (unitSt s u == .watch || !watchFirst s r)) = true then startTest u true 0 .window s
      else s) := by
  show execWindowTest u s = _
  unfold execWindowTest
  rw [hrun, hn, ht, hdue, hr]
  rfl

theorem windowTest_spec {r : Reel} {u : Nat} (hrun : running s = true) (hr : s.reel = some r) (hn : s.job.notice = none)
    (ht : s.sec.test = none) (hdue : testDue s u = true) :
    (windowCovers r u s.job.pattern = false → exec (.windowTest u) s = .next s) ∧
    (unitSt s u ≠ .watch →
      (∃ v, v < 1080 ∧ unitSt s v = .watch ∧ testDue s v = true ∧ windowCovers r v s.job.pattern = true) →
      exec (.windowTest u) s = .next s) ∧
    (windowCovers r u s.job.pattern = true →
      unitSt s u = .watch ∨ (∀ v, v < 1080 → unitSt s v = .watch → testDue s v = true → windowCovers r v s.job.pattern = false) →
      ∃ t x, exec (.windowTest u) s = .next t ∧ changesOnly [.secRegs, .test] s t ∧
        t.sec.test = some x ∧ x.unit = u ∧ x.stress = true ∧ x.by_ = .window ∧ x.ran = [] ∧ x.held = [] ∧
        x.left = (if 1024 ≤ u then [0, 3] else if dieWide s u then [0, 2] else [0])) := by
  have hexec := exec_windowTest hrun hr hn ht hdue
  refine ⟨fun hout => ?_, fun hnot hwatch => ?_, fun hin hfirst => ?_⟩
  · rw [hout] at hexec
    exact hexec
  · have hbeq : (unitSt s u == UnitSt.watch) = false := by simpa using hnot
    rw [(watchFirst_iff s r).mpr hwatch, hbeq, Bool.not_true, Bool.or_false, Bool.and_false] at hexec
    exact hexec
  · have hmay : (windowCovers r u s.job.pattern && (unitSt s u == .watch || !watchFirst s r)) = true := by
      rcases hfirst with hw | hnone
      · simp [hin, hw]
      · have hno : watchFirst s r = false := by
          by_contra h
          obtain ⟨v, hv, hvw, hvd, hvc⟩ := (watchFirst_iff s r).mp (Bool.eq_true_of_not_eq_false h)
          exact nomatch (hnone v hv hvw hvd).symm.trans hvc
        simp [hin, hno]
    obtain ⟨hc, hnew⟩ := startTest_window u s
    refine ⟨_, _, hexec.trans (congrArg Host.Outcome.next (if_pos hmay)), hc.mono (by decide), hnew, rfl, rfl, rfl, rfl, rfl, ?_⟩
    show planOf s u true .window = _
    unfold planOf
    rw [if_neg (by decide), if_pos rfl]

/-! ## The course of a test -/

theorem exec_stressHeatTimeout {x : TestRun} (h : s.sec.test = some x) : exec .stressHeatTimeout s =
    .next (if wantsHeat s x then { s with sec := { s.sec with test := some { x with cold := true, partialHeat := true } } } else s) := by
  show execStressHeatTimeout s = _
  unfold execStressHeatTimeout
  rw [h]

theorem heatTimeout_spec {x : TestRun} (h : s.sec.test = some x) :
    (85 ≤ dieTemp s x.unit ∨ x.left.head? = some 0 → exec .stressHeatTimeout s = .next s) ∧
    (∀ k l, x.stress = true → x.left = (k + 1) :: l → x.ran = [] → x.cold = false → dieTemp s x.unit < 85 →
      ∃ t : State, exec .stressHeatTimeout s = .next t ∧ changesOnly [.secRegs, .test] s t ∧
        t.sec.test = some { x with cold := true, partialHeat := true }) := by
  have hexec := exec_stressHeatTimeout h
  refine ⟨fun hwarm => ?_, fun k l hstress hleft hran hcold htemp => ?_⟩
  · have hno : ¬ wantsHeat s x = true := fun hw => by
      simp only [wantsHeat, Bool.and_eq_true, decide_eq_true_eq] at hw
      rcases hwarm with hw' | hw'
      · omega
      · rw [hw'] at hw
        exact absurd hw.1.2 (by decide)
    exact hexec.trans (congrArg Host.Outcome.next (if_neg hno))
  · have hyes : wantsHeat s x = true := by
      simp [wantsHeat, hstress, hleft, hran, hcold, htemp]
    exact ⟨_, hexec.trans (congrArg Host.Outcome.next (if_pos hyes)), (withTest_changes s _).mono (by decide), rfl⟩

theorem exec_knownAnswerDone {x : TestRun} (h : s.sec.test = some x) (hs : x.stress = true) (ka : BitVec 8) (prof : Nat) (o : KaOutcome) :
    exec (.knownAnswerDone x.unit ka prof o) s =
      .next (if kernelMayRun s x ka.toNat prof = true then stressKernel x ka.toNat prof o s else s) := by
  show execKnownAnswerDone x.unit ka prof o s = _
  unfold execKnownAnswerDone
  rw [h]
  simp only [hs, true_and, if_true]

theorem kernelMayRun_stress {x : TestRun} (hs : x.stress = true) {ka prof : Nat} (h : kernelMayRun s x ka prof = true) :
    x.left.head? = some prof ∧ x.ran.contains ka = false := by
  simp only [kernelMayRun, hs, if_true, Bool.and_eq_true, beq_iff_eq, Bool.not_eq_true'] at h
  exact ⟨h.1, h.2.1.2⟩

theorem advanceTest_next {x : TestRun} {ka : Nat} (hu : x.unit < 1024) (h : ∀ k, 1 ≤ k → k ≤ 6 → k = ka ∨ k ∈ x.ran) :
    advanceTest ka x = { x with left := x.left.drop 1, ran := [], cold := false } := by
  refine if_pos (List.all_eq_true.mpr fun k hk => ?_)
  rw [kernelsOf, if_pos hu] at hk
  have hrange : 1 ≤ k ∧ k ≤ 6 := by
    simp only [List.mem_cons, List.not_mem_nil, or_false] at hk
    omega
  rcases h k hrange.1 hrange.2 with rfl | hin
  · simp
  · simp [hin]

theorem advanceTest_same {x : TestRun} {ka k : Nat} (hu : x.unit < 1024) (h1 : 1 ≤ k) (h6 : k ≤ 6) (hne : k ≠ ka) (hout : k ∉ x.ran) :
    advanceTest ka x = { x with ran := ka :: x.ran } := by
  refine if_neg fun hall => ?_
  have hk : k ∈ kernelsOf x.unit := by
    rw [kernelsOf, if_pos hu]
    simp only [List.mem_cons, List.not_mem_nil, or_false]
    omega
  have hb := List.all_eq_true.mp hall k hk
  simp [hne, hout] at hb

theorem noteFailure_pass (x : TestRun) (prof : Nat) : noteFailure x prof .pass = x := rfl

theorem noteFailure_fail {o : KaOutcome} (ho : o ≠ .pass) (x : TestRun) (prof : Nat) :
    noteFailure x prof o = { x with failing := if x.failing = none then some (prof, o) else x.failing } := by
  obtain ⟨unit, stress, ka, by_, failing, partialHeat, left, ran, cold, held⟩ := x
  cases o
  case pass => exact absurd rfl ho
  all_goals cases failing <;> rfl

theorem stressKernel_window {x : TestRun} (h : x.by_ = .window) (ka prof : Nat) (o : KaOutcome) (s : State) :
    stressKernel x ka prof o s = { s with sec := { s.sec with
      test := some { advanceTest ka (noteFailure x prof o) with held := x.held ++ [(ka, prof, o)] } } } := if_pos h

theorem stressKernel_between {x : TestRun} (h : x.by_ ≠ .window) (ka prof : Nat) (o : KaOutcome) (s : State) :
    stressKernel x ka prof o s =
      scoreRun x.unit ka prof o { s with sec := { s.sec with test := some (advanceTest ka (noteFailure x prof o)) } } := if_neg h

theorem kernelDone_spec {x : TestRun} (h : s.sec.test = some x) (hs : x.stress = true) (ka : BitVec 8) (prof : Nat) (o : KaOutcome) :
    (x.left.head? ≠ some prof ∨ x.ran.contains ka.toNat = true → exec (.knownAnswerDone x.unit ka prof o) s = .next s) ∧
    (kernelMayRun s x ka.toNat prof = true → x.by_ = .window →
      ∃ t y, exec (.knownAnswerDone x.unit ka prof o) s = .next t ∧ changesOnly [.secRegs, .test] s t ∧ t.sec.test = some y ∧
        y.held = x.held ++ [(ka.toNat, prof, o)]) := by
  have hexec := exec_knownAnswerDone h hs ka prof o
  refine ⟨fun hnot => ?_, fun hmay hw => ?_⟩
  · refine hexec.trans (congrArg Host.Outcome.next (if_neg fun hmay => ?_))
    obtain ⟨hprof, hran⟩ := kernelMayRun_stress hs hmay
    rcases hnot with hn | hn
    · exact hn hprof
    · exact nomatch hran.symm.trans hn
  · rw [if_pos hmay, stressKernel_window hw] at hexec
    exact ⟨_, _, hexec, (withTest_changes s _).mono (by decide), rfl, rfl⟩

theorem tileKernel_spec {x : TestRun} (h : s.sec.test = some x) (hu : x.unit < 1024) (hs : x.stress = true) {ka : BitVec 8} {prof : Nat}
    (hmay : kernelMayRun s x ka.toNat prof = true) (hw : x.by_ ≠ .window) :
    (unitSt s x.unit = .active → ∃ t : State, exec (.knownAnswerDone x.unit ka prof .pass) s = .next t ∧
      changesOnly [.secRegs, .test] s t ∧ t.sec.test = some (advanceTest ka.toNat x) ∧
      ((∀ k, 1 ≤ k → k ≤ 6 → k = ka.toNat ∨ k ∈ x.ran) → (advanceTest ka.toNat x).left = x.left.drop 1 ∧
        (advanceTest ka.toNat x).ran = [] ∧ (advanceTest ka.toNat x).cold = false) ∧
      ((∃ k, 1 ≤ k ∧ k ≤ 6 ∧ k ≠ ka.toNat ∧ k ∉ x.ran) → advanceTest ka.toNat x = { x with ran := ka.toNat :: x.ran })) ∧
    (∀ o, o ≠ KaOutcome.pass → unitSt s x.unit = .active →
      ∃ t : State, exec (.knownAnswerDone x.unit ka prof o) s = .next t ∧ changesOnly (([.secRegs, .test, .totals] : List Part) ++ moves) s t ∧
        unitSt t x.unit = .watch ∧ t.sec.totals = { s.sec.totals with kat := s.sec.totals.kat + 1 } ∧
        (healthOf t x.unit).c3 = min ((healthOf s x.unit).c3 + 1) 65535 ∧
        (healthOf t x.unit).score = min 255 ((healthOf s x.unit).score + 1) ∧
        t.sec.test = some (advanceTest ka.toNat
          { x with failing := (if x.failing = none then some (prof, o) else x.failing) })) := by
  refine ⟨fun ha => ?_, fun o ho ha => ?_⟩
  · have hexec := exec_knownAnswerDone h hs ka prof .pass
    rw [if_pos hmay, stressKernel_between hw, noteFailure_pass, scoreRun_pass (by exact ha)] at hexec
    refine ⟨_, hexec, (withTest_changes s _).mono (by decide), rfl, fun hall => ?_, fun ⟨k, h1, h6, hne, hout⟩ => ?_⟩
    · rw [advanceTest_next hu hall]
      exact ⟨rfl, rfl, rfl⟩
    · exact advanceTest_same hu h1 h6 hne hout
  · have hexec := exec_knownAnswerDone h hs ka prof o
    rw [if_pos hmay, stressKernel_between hw, noteFailure_fail ho, scoreRun_fail ho] at hexec
    obtain ⟨hc, hwatch, htot, hc3, hscore, -, -⟩ := kaFail_spec (s := { s with sec := { s.sec with test := some (advanceTest ka.toNat
      { x with failing := (if x.failing = none then some (prof, o) else x.failing) }) } }) hu ha ka.toNat prof o
    exact ⟨_, hexec, ((withTest_changes s _).mono (by decide)).trans (hc.mono (by decide)), hwatch, htot, hc3, hscore, hc .test (by decide)⟩

/-! ## The end of a stress test -/

theorem exec_stressTestDone {x : TestRun} (h : s.sec.test = some x) : exec .stressTestDone s =
    .next (if (!x.stress || !x.left.isEmpty) = true then s
      else if endsQuietly x then { scoreHeld x s with sec := { (scoreHeld x s).sec with test := none } } else endStress x (scoreHeld x s)) := by
  show execStressTestDone s = _
  unfold execStressTestDone
  rw [h]

theorem length_keepLast {α : Type} (n : Nat) (l : List α) : (keepLast n l).length = min n l.length := by
  rw [keepLast, List.length_drop]
  omega

theorem appendHistory_length (e : List Byte) (s : State) :
    (appendHistory e s).store.set.history.length = min 2048 (s.store.set.history.length + 1) := by
  simp only [appendHistory, updSet]
  rw [length_keepLast, List.length_append, List.length_singleton]

theorem setLastTest_changes (x : TestRun) (s : State) : changesOnly [.health] s (setLastTest x s) := by
  unfold setLastTest
  exact .ite (updHealth_changes _ _ s) (.refl _ s)

/-- A test of a unit between jobs, ended but for its records. -/
def testedState (x : TestRun) (s : State) : State := setLastTest x { s with sec := { s.sec with test := none } }

/-- Its entry in the test history. -/
def stressEntry (x : TestRun) (s : State) : List Byte :=
  historyEntry (testedState x s) (unitField x.unit) 0xFF (x.failing.elim 0 Prod.fst) (stressResult x) 0 []

theorem endStress_auto {x : TestRun} (h : x.by_ = .auto) (s : State) : endStress x s =
    post 0x0AA6 (leBytes 2 (unitField x.unit).toNat ++ leBytes 1 (stressResult x) ++ [failByte x.failing])
      (appendHistory (stressEntry x s) (testedState x s)) := by
  unfold endStress testRecord
  rw [h]
  unfold stressEntry
  cases x.failing <;> rfl

theorem stressTestDone_spec {x : TestRun} (h : s.sec.test = some x) (hs : x.stress = true) (hby : x.by_ = .auto) (hleft : x.left = [])
    (hheld : x.held = []) :
    ∃ t : State, exec .stressTestDone s = .next t ∧ changesOnly (([.secRegs, .test, .health, .settings] : List Part) ++ posts) s t ∧
      t.sec.test = none ∧ t.rings.seq = nextSeq s.rings.seq ∧
      t.store.set.history.length = min 2048 (s.store.set.history.length + 1) ∧
      (x.partialHeat = false → (healthOf t x.unit).lastTest = some s.sec.uptime ∧ (healthOf t x.unit).overdueAt = 0) ∧
      (x.partialHeat = true → t.sec.health = s.sec.health) := by
  have hexec := exec_stressTestDone h
  have hquiet : ¬ endsQuietly x = true := by simp [endsQuietly, hby]
  have hscore : scoreHeld x s = s := by rw [scoreHeld, hheld, List.foldl_nil]
  rw [hs, hleft, if_neg (by decide), if_neg hquiet, hscore, endStress_auto hby] at hexec
  have hl : changesOnly [.test, .health] s (testedState x s) :=
    ((withTest_changes s none).mono (by decide)).trans ((setLastTest_changes x _).mono (by decide))
  have hh := appendHistory_changes (stressEntry x s) (testedState x s)
  have hp := post_changes 0x0AA6 (leBytes 2 (unitField x.unit).toNat ++ leBytes 1 (stressResult x) ++ [failByte x.failing])
    (appendHistory (stressEntry x s) (testedState x s))
  have hhp := hh.both (C := .settings :: posts) hp (by decide) (by decide)
  have htest : (testedState x s).sec.test = none := (setLastTest_changes x { s with sec := { s.sec with test := none } }) .test (by decide)
  refine ⟨_, hexec, (hl.mono (by decide)).trans (hhp.mono (by decide)), (hhp .test (by decide)).trans htest, ?_, ?_,
    fun hfull => ?_, fun hpart => ?_⟩
  · rw [post_seq]
    refine congrArg nextSeq ?_
    exact (congrArg (fun y => y.2.2.1) (hh .ringOut (by decide))).trans (congrArg (fun y => y.2.2.1) (hl .ringOut (by decide)))
  · rw [show (post _ _ (appendHistory (stressEntry x s) (testedState x s))).store.set = _ from hp .settings (by decide), appendHistory_length,
      show (testedState x s).store.set = s.store.set from hl .settings (by decide)]
  · have hcount : countsAsStress x = true := by simp [countsAsStress, hfull, hby]
    have hset : testedState x s = updHealth x.unit (fun h => { h with lastTest := some s.sec.uptime, watchDue := none, overdueAt := 0 })
        { s with sec := { s.sec with test := none } } := if_pos hcount
    rw [congrFun (hhp.healthOf_eq (by decide)) x.unit, hset, healthOf_updHealth_self]
    exact ⟨rfl, rfl⟩
  · have hcount : ¬ countsAsStress x = true := by simp [countsAsStress, hpart]
    have hset : testedState x s = { s with sec := { s.sec with test := none } } := if_neg hcount
    have hhealth := hhp .health (by decide)
    rw [show (post _ _ (appendHistory (stressEntry x s) (testedState x s))).sec.health = _ from hhealth, hset]

/-! ## TEST -/

theorem unitIndex_of_argsOk {d : BitVec 512} (h : testArgsOk s d = true) : unitIndex (dTestUnit d) = some (testUnit d) := by
  unfold testArgsOk at h
  unfold testUnit
  cases hu : unitIndex (dTestUnit d) with
  | none => simp [hu] at h
  | some u => rfl

theorem argsOk_of_checks {d : BitVec 512} (h : firstFailure (testChecks s d) = none) : testArgsOk s d = true := by
  unfold testChecks firstFailure at h
  by_contra hn
  rw [eq_false_of_ne_true hn] at h
  exact nomatch h

theorem test_spec {d : BitVec 512} (hs : canStart s = true) (hop : dOp d = 0x09) :
    (∀ code, firstFailure (testChecks s d) = some code →
      ∃ t : State, exec (.test d) s = .next t ∧ changesOnly recordParts s t ∧ recordedAs (recOf d (sqNext s) true code []) s t) ∧
    (firstFailure (testChecks s d) = none →
      ∃ t x, exec (.test d) s = .next t ∧ changesOnly [.secRegs, .test, .ringRegs, .power] s t ∧
        t.power = { s.power with cls := s.sec.lastClass } ∧
        t.rings = { s.rings with sqDone := s.rings.sqDone + 1 } ∧ t.sec.test = some x ∧
        unitIndex (dTestUnit d) = some x.unit ∧ x.stress = bit d 72 ∧ x.ka = BitVec.ofNat 8 (fld d 64 8) ∧
        x.by_ = .ring (dTag d) (bit d 8) (sqNext s)) := by
  have hchecks : testChecks (takeDesc s) d = testChecks s d := rfl
  refine ⟨fun code hcode => desc_refused rfl hs hop (hchecks ▸ hcode), fun hpass => ?_⟩
  have hexec : exec (.test d) s = .next (startTest (testUnit d) (dStress d) (BitVec.ofNat 8 (dKa d)) (.ring (dTag d) (bit d 8) (sqNext s))
      (takeDesc s)) := desc_accepted (checks := fun a => testChecks a d)
      (f := fun sq => startTest (testUnit d) (dStress d) (BitVec.ofNat 8 (dKa d)) (.ring (dTag d) (bit d 8) sq)) rfl hs hop (hchecks ▸ hpass)
  obtain ⟨hc, hnew, hp⟩ := startTest_between (u := testUnit d) (stress := dStress d) (ka := BitVec.ofNat 8 (dKa d))
    (by_ := .ring (dTag d) (bit d 8) (sqNext s)) (by simp) (takeDesc s)
  exact ⟨_, _, hexec, ((takeDesc_changes s).mono (by decide)).trans (hc.mono (by decide)), hp, rfl, hnew,
    unitIndex_of_argsOk (argsOk_of_checks hpass), rfl, rfl, rfl⟩

end Sys2Proof.Machine

open Sys2Proof Sys2Proof.Machine

/-- Settles O56: halving (`scoreHalving_spec`), notices (`testOverdue_spec`), the course of a test (`tileKernel_spec`) and its end
(`stressTestDone_spec`). -/
theorem testsRunAndCount : Obligations.TestsRunAndCount := by
  refine ⟨fun s hon hlt hr => scoreHalving_spec hon hlt hr, fun s hge => ?_,
    fun s u n k hon hu hp hn hlt hle => testOverdue_spec hon hu hp hn hlt hle,
    fun s u hready hstop hauto ht hu hdue hmin => autoStressTest_spec hready hstop hauto ht hu hdue hmin,
    fun s r u hrun hr hn ht hdue => windowTest_spec hrun hr hn ht hdue, fun s x h => heatTimeout_spec h,
    fun s x ka prof o h hs => kernelDone_spec h hs ka prof o, fun s x ka prof h hu hs hmay hw => tileKernel_spec h hu hs hmay hw,
    fun s x h hleft => ?_, fun s x h hs hby hleft hheld => stressTestDone_spec h hs hby hleft hheld, fun s d hs hop => test_spec hs hop⟩
  · refine congrArg Host.Outcome.next (if_neg fun h => ?_)
    simp only [Bool.and_eq_true, decide_eq_true_eq] at h
    omega
  · refine (exec_stressTestDone h).trans (congrArg Host.Outcome.next (if_pos ?_))
    simp [hleft]
end

section
/-! Proofs: LOAD and PATCH (R256, R265, R310, R311, R313; O57). -/

namespace Sys2Proof.Machine

variable {s t x : State} {d : BitVec 512} {r : Reel}

/-! ## What a LOAD writes -/

theorem endAutoTest_eq (s : State) : ∃ y, endAutoTest s = { s with sec := { s.sec with test := y } } := by
  unfold endAutoTest
  split
  · split
    · exact ⟨none, rfl⟩
    · exact ⟨s.sec.test, rfl⟩
  · exact ⟨s.sec.test, rfl⟩

theorem placeBlock_eq (p : Placed) (s : State) : ∃ m, placeBlock p s = { s with mems := m } := ⟨_, rfl⟩

/-- The loader's writes are to the stacks alone. -/
theorem writePlaces_eq (ps : List Placed) (s : State) : ∃ m, writePlaces ps s = { s with mems := m } :=
  foldl_keeps (P := fun a => ∃ m, a = { s with mems := m })
    (fun a (p : Placed) ⟨m, ha⟩ => by
      obtain ⟨m', hm⟩ := placeBlock_eq p a
      exact ⟨m', by rw [hm, ha]⟩) ps ⟨_, rfl⟩

theorem memOf_clearSelectors_sel (s : State) (k : Nat) : (memOf (clearSelectors s) k).sel = [] := by
  refine look_of_forall_mem (P := fun m : Stack => m.sel = []) rfl (fun y hy => ?_) k
  obtain ⟨y', -, rfl⟩ := List.mem_map.mp (List.mem_of_mem_filter hy)
  rfl

theorem memOf_placeBlock_sel (p : Placed) (s : State) (k : Nat) : (memOf (placeBlock p s) k).sel = (memOf s k).sel := by
  obtain ⟨-, hbut, -, -, hsel, -⟩ := putBlk_spec p.stack p.block
    { payload := p.payload, env := mkEnv (pageBytes p.payload) (residues (pageBytes p.payload)) p.tag 0 (p.fmt + 16 + 32 * flag p.far) } s
  by_cases hk : k = p.stack
  · rw [hk]
    exact hsel
  · exact congrArg Stack.sel (hbut k hk)

theorem writePlaces_sel (ps : List Placed) (s : State) (k : Nat) : (memOf (writePlaces ps s) k).sel = [] :=
  foldl_keeps (P := fun a => (memOf a k).sel = []) (fun a (p : Placed) ha => (memOf_placeBlock_sel p a k).trans ha) ps
    (memOf_clearSelectors_sel s k)

theorem blkAt_clearSelectors (h : risingKeys s.mems = true) (k b : Nat) : blkAt (clearSelectors s) k b = blkAt s k b := by
  have hm : memOf (clearSelectors s) k = { memOf s k with sel := [], mark := [] } :=
    look_mapVals (d := Stack.off) (f := fun m => { m with sel := [], mark := [] }) h rfl k
  rw [blkAt, hm, blkAt]

theorem blkAt_placeBlock {p : Placed} {k b : Nat} (h : ¬ (p.stack = k ∧ p.block = b)) (s : State) :
    blkAt (placeBlock p s) k b = blkAt s k b := by
  obtain ⟨-, hbut, hblk, -⟩ := putBlk_spec p.stack p.block
    { payload := p.payload, env := mkEnv (pageBytes p.payload) (residues (pageBytes p.payload)) p.tag 0 (p.fmt + 16 + 32 * flag p.far) } s
  by_cases hk : k = p.stack
  · subst hk
    exact (hblk b).trans (if_neg fun hb => h ⟨rfl, hb.symm⟩)
  · exact congrArg (fun m : Stack => look Blk.scrubbed b m.blocks) (hbut k hk)

theorem blkAt_placeBlocks {ps : List Placed} {k b : Nat} (h : ∀ p ∈ ps, ¬ (p.stack = k ∧ p.block = b)) (s : State) :
    blkAt (ps.foldl (fun a p => placeBlock p a) s) k b = blkAt s k b := by
  induction ps generalizing s with
  | nil => rfl
  | cons p ps ih =>
    rw [List.foldl_cons, ih (fun q hq => h q (List.mem_cons_of_mem _ hq)), blkAt_placeBlock (h p (List.mem_cons_self ..))]

/-- No block changes but those that the tables name. -/
theorem blkAt_writePlaces {ps : List Placed} {k b : Nat} (hr : risingKeys s.mems = true) (h : ∀ p ∈ ps, ¬ (p.stack = k ∧ p.block = b)) :
    blkAt (writePlaces ps s) k b = blkAt s k b := (blkAt_placeBlocks h _).trans (blkAt_clearSelectors hr k b)

theorem soundEntries_none {l : List (Section_ × BitVec 256 × Nat)} (h : ∀ e ∈ l, listBad s e.2.1 = false) :
    (soundEntries s l).2 = none := by
  induction l with
  | nil => rfl
  | cons e l ih =>
    rw [soundEntries, if_neg (by rw [h e (List.mem_cons_self ..)]; exact Bool.false_ne_true)]
    exact ih fun e' he => h e' (List.mem_cons_of_mem _ he)

theorem slotBlk_withMems (m : Sparse Stack) (s : State) (n : Nat) : slotBlk { s with mems := m } n = slotBlk s n := rfl

theorem entryLeaf_withMems (m : Sparse Stack) (s : State) (l : BitVec 256) :
    entryLeaf { s with mems := m } l = leafOf (lTag l) (slotBlk s (lSource l)).payload := by
  rw [entryLeaf, listBlock, slotBlk_withMems]

/-! ## The Reel installed -/

/-- The package with a Reel, its quads not yet gated. -/
def reelSet (r : Reel) (s : State) : State :=
  { s with reel := some { r with weights := inputsDigest ((pkgRecs r secWeights).map (entryLeaf s)) }, tiles := [],
           far := { held := [], written := [] },
           det := { s.det with leaves := ((pkgRecs r secInputs).filter (fun l => !lFar l)).map (entryLeaf s), filled := [], latched := 0 },
           ldr := ldrRefused (refusal 0) s.ldr, power := { s.power with linkRes := measuredReserve s },
           sec := { s.sec with lastClass := phaseClass r 0 } }

theorem installReel_eq (r : Reel) (s : State) : installReel r s = gateQuads (reelSet r s) := rfl

theorem reelSet_changes (r : Reel) (s : State) : changesOnly [.reel, .tiles, .far, .det, .ldr, .power, .secRegs] s (reelSet r s) := by
  intro p hp
  have hsame := fun h => hp h
  cases p
  case reel => exact absurd (by decide) hsame
  case tiles => exact absurd (by decide) hsame
  case far => exact absurd (by decide) hsame
  case det => exact absurd (by decide) hsame
  case ldr => exact absurd (by decide) hsame
  case power => exact absurd (by decide) hsame
  case secRegs => exact absurd (by decide) hsame
  all_goals rfl

/-! ## LOAD -/

/-- What the end of an automatic test leaves. -/
theorem load_changes (hx : x = endAutoTest (takeDesc s)) : changesOnly [.test] (takeDesc s) x ∧
    x.rings = (takeDesc s).rings ∧ x.ldr = s.ldr ∧ x.reel = s.reel ∧
    x.power = s.power ∧ x.det = s.det ∧ x.mems = s.mems ∧ measuredReserve x = measuredReserve s := by
  obtain ⟨y, hy⟩ := endAutoTest_eq (takeDesc s)
  rw [hx, hy]
  exact ⟨withTest_changes _ y, rfl, rfl, rfl, rfl, rfl, rfl, rfl⟩

/-- A LOAD that is refused leaves its record and LDR registers. -/
theorem load_recorded (hx : x = endAutoTest (takeDesc s)) (l : Ldr) (c : Rec) :
    changesOnly (([.ldr, .test] : List Part) ++ recordParts) s (complete c { x with ldr := l }) ∧
      (complete c { x with ldr := l }).ldr = l ∧ (complete c { x with ldr := l }).reel = s.reel ∧
      recordedAs c s (complete c { x with ldr := l }) := by
  obtain ⟨hc, hrings, -, hreel, -⟩ := load_changes hx
  have hl : changesOnly [.ldr] x { x with ldr := l } := withLdr_changes x l
  obtain ⟨hall, hrec⟩ := desc_recorded (A := [.ldr, .test]) (B := ([.ldr, .test] : List Part) ++ recordParts)
    ((hc.mono (by decide)).trans (hl.mono (by decide))) hrings (by decide) (by decide) (by decide) (by decide) (by decide) c
  have hcomp := complete_changes c { x with ldr := l }
  exact ⟨hall, hcomp .ldr (by decide), (hcomp .reel (by decide)).trans hreel, hrec⟩

section
variable (hs : canStart s = true) (hop : dOp d = 0x01) (hx : x = endAutoTest (takeDesc s))
include hs hop hx

theorem load_refusedEarly {code : Nat} (hf : firstFailure (loadChecks x d) = some code) :
    exec (.load d) s = .next (complete (recOf d (sqNext s) true code []) { x with ldr := { x.ldr with status := BitVec.ofNat 16 code } }) := by
  show execLoad d s = _
  unfold execLoad
  rw [onDesc_of_canStart hop hs]
  dsimp only
  rw [← hx, hf]
  rfl

theorem load_reads (hf : firstFailure (loadChecks x d) = none) : exec (.load d) s = .next (loadReel d (sqNext s) x) := by
  show execLoad d s = _
  unfold execLoad
  rw [onDesc_of_canStart hop hs]
  dsimp only
  rw [← hx, hf]

theorem load_refused {b : Bad} (hf : firstFailure (loadChecks x d) = none) (hr : r = reelOf (loadImage x d) (loadStrict x d) s.ldr.debug)
    (hb : badReel x (loadImage x d) (dReelLength d) r = some b) :
    exec (.load d) s = .next (complete (recOf d (sqNext s) true b.status (leBytes 8 b.detail)) { x with ldr := ldrRefused b s.ldr }) := by
  obtain ⟨-, -, hldr, -⟩ := load_changes hx
  rw [load_reads hs hop hx hf]
  unfold loadReel
  dsimp only
  rw [hldr, ← hr, hb]
  show _ = Host.Outcome.next (complete _ { x with ldr := ldrRefused b s.ldr })
  rw [← hldr]
  rfl

theorem load_installs (hf : firstFailure (loadChecks x d) = none) (hr : r = reelOf (loadImage x d) (loadStrict x d) s.ldr.debug)
    (hb : badReel x (loadImage x d) (dReelLength d) r = none) (hsound : ∀ e ∈ readEntries r, listBad x e.2.1 = false) :
    exec (.load d) s = .next (complete (recOf d (sqNext s) true 0 (leBytes 8 0 ++ leBytes 4 (loadedTag r)))
      (gateQuads (reelSet r (writePlaces (allPlaces x r) x)))) := by
  obtain ⟨-, -, hldr, -⟩ := load_changes hx
  rw [load_reads hs hop hx hf]
  unfold loadReel
  dsimp only
  rw [hldr, ← hr, hb]
  dsimp only
  unfold loadWrites
  rw [soundEntries_none hsound]
  rfl

end

/-- What a LOAD that passes leaves. -/
theorem load_spec (hx : x = endAutoTest (takeDesc s)) (c : Rec) (y : State)
    (hy : y = complete c (gateQuads (reelSet r (writePlaces (allPlaces x r) x)))) :
    changesOnly (([.reel, .tiles, .far, .det, .ldr, .mems, .ports, .test, .secRegs, .power] : List Part) ++ recordParts) s y ∧
      y.power = { s.power with linkRes := measuredReserve s } ∧ y.sec.lastClass = phaseClass r 0 ∧
      (∃ w, y.reel = some { r with weights := w }) ∧ y.tiles = [] ∧ y.det.strict = s.det.strict ∧
      y.det.leaves = ((pkgRecs r secInputs).filter (fun l => !lFar l)).map (fun l => leafOf (lTag l) (slotBlk x (lSource l)).payload) ∧
      y.ldr.status = 0 ∧ (∀ k b, look false b (memOf y k).sel = false) ∧
      (risingKeys s.mems = true → ∀ k b, (∀ p ∈ allPlaces x r, ¬ (p.stack = k ∧ p.block = b)) → blkAt y k b = blkAt s k b) ∧
      recordedAs c s y := by
  obtain ⟨hc, hrings, -, -, hpow, hdet, hmems, hres⟩ := load_changes hx
  obtain ⟨m, hm⟩ := writePlaces_eq (allPlaces x r) x
  have hw : changesOnly [.mems] x (writePlaces (allPlaces x r) x) := by
    rw [hm]
    exact withMems_changes x m
  have hset := reelSet_changes r (writePlaces (allPlaces x r) x)
  have hgate := gateQuads_changes (reelSet r (writePlaces (allPlaces x r) x))
  have hall : changesOnly [.reel, .tiles, .far, .det, .ldr, .mems, .ports, .test, .secRegs, .power] (takeDesc s)
      (gateQuads (reelSet r (writePlaces (allPlaces x r) x))) :=
    (((hc.mono (by decide)).trans (hw.mono (by decide))).trans (hset.mono (by decide))).trans (hgate.mono (by decide))
  have hrr : (gateQuads (reelSet r (writePlaces (allPlaces x r) x))).rings = (takeDesc s).rings :=
    (hgate.rings_eq (by decide) (by decide)).trans ((hset.rings_eq (by decide) (by decide)).trans
      ((hw.rings_eq (by decide) (by decide)).trans hrings))
  obtain ⟨hchange, hrec⟩ := desc_recorded (B := ([.reel, .tiles, .far, .det, .ldr, .mems, .ports, .test, .secRegs, .power] : List Part) ++
    recordParts) hall hrr (by decide) (by decide) (by decide) (by decide) (by decide) c
  have hafter : changesOnly (.ports :: recordParts) (reelSet r (writePlaces (allPlaces x r) x)) y := by
    rw [hy]
    exact (hgate.mono (by decide)).trans ((complete_changes c _).mono (by decide))
  have hstack : changesOnly [.reel, .tiles, .far, .det, .ldr, .ports, .power, .secRegs, .ringRegs, .ringOut, .host]
      (writePlaces (allPlaces x r) x) y := (hset.mono (by decide)).trans (hafter.mono (by decide))
  refine ⟨hy ▸ hchange, (hafter .power (by decide)).trans ?_, ?_, ⟨_, hafter .reel (by decide)⟩, hafter .tiles (by decide), ?_, ?_, ?_,
    fun k b => ?_, fun hrise k b hout => ?_, hy ▸ hrec⟩
  · rw [hm, ← hres, ← hpow]
    rfl
  · exact congrArg Sec.lastClass (hafter .secRegs (by decide))
  · rw [hafter .det (by decide), hm, ← hdet]
    rfl
  · rw [hafter .det (by decide), hm]
    exact List.map_congr_left fun l _ => entryLeaf_withMems m x l
  · rw [hafter .ldr (by decide)]
    rfl
  · rw [hstack.memOf_eq (by decide), writePlaces_sel]
    rfl
  · rw [blkAt_of_mems hstack (by decide), blkAt_writePlaces (by rw [hmems]; exact hrise) hout, blkAt, blkAt, memOf, memOf, hmems]

/-! ## PATCH -/

theorem withReel_changes (s : State) (x : Option Reel) : changesOnly [.reel] s { s with reel := x } := by
  intro p hp
  cases p
  case reel => exact absurd (by decide) hp
  all_goals rfl

section
variable (hs : canStart s = true) (hop : dOp d = 0x02) (ha : patchArgsOk d = true) (hstop : s.stop.stopped = false)
include hs hop ha hstop

theorem exec_patch : exec (.patch d) s = .next (patchLoaded d (sqNext s) (takeDesc s)) := by
  show execPatch d s = _
  unfold execPatch
  rw [onDesc_of_canStart hop hs, checked]
  have hstop' : (takeDesc s).stop.stopped = false := hstop
  simp only [ha, hstop', firstFailure, Bool.not_true, Bool.false_eq_true, if_false]

theorem patch_noReel (hr : s.reel = none) : ∃ t : State, exec (.patch d) s = .next t ∧ changesOnly recordParts s t ∧
    recordedAs (recOf d (sqNext s) true 0x11 []) s t := by
  refine ⟨complete (recOf d (sqNext s) true 0x11 []) (takeDesc s), ?_, complete_takeDesc_changes _ s, rfl, rfl⟩
  rw [exec_patch hs hop ha hstop]
  unfold patchLoaded
  rw [show (takeDesc s).reel = none from hr]
  rfl

theorem exec_patch_reel (hr : s.reel = some r) : exec (.patch d) s = .next (checked d (sqNext s) (patchChecks s d r)
    (fun s1 => finish d (sqNext s) 0 (leBytes 4 (dPatchCount d)) { s1 with reel := some (patchReel d r) }) (takeDesc s)) := by
  rw [exec_patch hs hop ha hstop]
  unfold patchLoaded
  rw [show (takeDesc s).reel = some r from hr]
  rfl

theorem patch_refused (hr : s.reel = some r) {code : Nat} (hf : firstFailure (patchChecks s d r) = some code) :
    ∃ t : State, exec (.patch d) s = .next t ∧ changesOnly recordParts s t ∧ recordedAs (recOf d (sqNext s) true code []) s t := by
  refine ⟨complete (recOf d (sqNext s) true code []) (takeDesc s), ?_, complete_takeDesc_changes _ s, rfl, rfl⟩
  rw [exec_patch_reel hs hop ha hstop hr, checked, hf]
  rfl

theorem patch_accepted (hr : s.reel = some r) (hf : firstFailure (patchChecks s d r) = none) :
    ∃ t : State, exec (.patch d) s = .next t ∧ changesOnly (.reel :: recordParts) s t ∧ t.reel = some (patchReel d r) ∧
      recordedAs (recOf d (sqNext s) true 0 (leBytes 4 (dPatchCount d))) s t := by
  have hreel : changesOnly [.reel] (takeDesc s) { takeDesc s with reel := some (patchReel d r) } := withReel_changes (takeDesc s) _
  obtain ⟨hc, hrec⟩ := desc_recorded (B := .reel :: recordParts) hreel rfl (by decide) (by decide) (by decide) (by decide) (by decide)
    (recOf d (sqNext s) true 0 (leBytes 4 (dPatchCount d)))
  refine ⟨_, ?_, hc, (complete_changes _ _) .reel (by decide), hrec⟩
  rw [exec_patch_reel hs hop ha hstop hr, checked, hf]
  rfl

end

theorem patchChecks_first (s : State) (d : BitVec 512) (r : Reel) : firstFailure (patchChecks s d r) =
    if jobBusy s = true then some 0x12 else if r.slots.length < dPatchFirst d + dPatchCount d then some 0x10
      else if patchOut s d r = true then some 0x103 else none := by
  simp only [patchChecks, firstFailure, decide_eq_true_eq]

theorem patch_in (h : fld d 64 32 + fld d 96 8 ≤ r.slots.length) : dPatchFirst d + dPatchCount d ≤ r.slots.length := h

/-- The slots of a PATCH: the named ones replaced, the others as they were. -/
theorem patchSlots_spec (d : BitVec 512) {slots : List Word64} (h : dPatchFirst d + dPatchCount d ≤ slots.length) :
    (patchSlots d slots).length = slots.length ∧
    (∀ k, k < dPatchCount d → (patchSlots d slots).getD (dPatchFirst d + k) 0 = d.extractLsb' (128 + 64 * k) 64) ∧
    ∀ k, k < dPatchFirst d ∨ dPatchFirst d + dPatchCount d ≤ k → (patchSlots d slots).getD k 0 = slots.getD k 0 := by
  have hvals : (dPatchValues d).length = dPatchCount d := by rw [dPatchValues, List.length_map, List.length_range]
  have htake : (slots.take (dPatchFirst d)).length = dPatchFirst d := by
    rw [List.length_take]
    omega
  have hfront : (slots.take (dPatchFirst d) ++ dPatchValues d).length = dPatchFirst d + dPatchCount d := by
    rw [List.length_append, htake, hvals]
  refine ⟨?_, fun k hk => ?_, fun k hk => ?_⟩
  · rw [patchSlots, List.length_append, hfront, List.length_drop]
    omega
  · rw [patchSlots, List.getD_append _ _ _ _ (by omega), List.getD_append_right _ _ _ _ (by omega), htake, Nat.add_sub_cancel_left,
      dPatchValues, List.getD_eq_getElem?_getD, List.getElem?_map, List.getElem?_range hk]
    rfl
  · rcases hk with hk | hk
    · rw [patchSlots, List.getD_append _ _ _ _ (by omega), List.getD_append _ _ _ _ (by omega), List.getD_eq_getElem?_getD,
        List.getElem?_take_of_lt hk, List.getD_eq_getElem?_getD]
    · rw [patchSlots, List.getD_append_right _ _ _ _ (by omega), hfront, List.getD_eq_getElem?_getD, List.getElem?_drop,
        List.getD_eq_getElem?_getD, Nat.add_sub_cancel' hk]

end Sys2Proof.Machine

open Sys2Proof Sys2Proof.Machine

/-- Settles O57: a LOAD's refusals (`load_recorded`), its installation (`load_spec`), and a PATCH (`patch_accepted`, `patchSlots_spec`). -/
theorem loadAndPatch : Obligations.LoadAndPatch := by
  refine ⟨fun s x d hs hop hx => ⟨fun code hf => ?_, fun r b hf hr hb => ?_, fun r hf hr hb hsound => ?_⟩,
    fun s d hs hop ha hstop => ⟨fun hr => patch_noReel hs hop ha hstop hr, fun r hr => ⟨fun code hcode => ?_, fun hidle hin hout => ?_⟩⟩⟩
  · obtain ⟨hc, hldr, -, hrec⟩ := load_recorded hx { x.ldr with status := BitVec.ofNat 16 code } (recOf d (sqNext s) true code [])
    obtain ⟨-, -, hsame, -⟩ := load_changes hx
    exact ⟨_, load_refusedEarly hs hop hx hf, hc, by rw [hldr, hsame], hrec⟩
  · obtain ⟨hc, hldr, hreel, hrec⟩ := load_recorded hx (ldrRefused b s.ldr) (recOf d (sqNext s) true b.status (leBytes 8 b.detail))
    have hnone : s.reel = none := by
      obtain ⟨-, -, -, hre, -⟩ := load_changes hx
      rw [← hre]
      by_contra h
      obtain ⟨r', hr'⟩ := Option.ne_none_iff_exists'.mp h
      simp only [loadChecks, firstFailure, hr', Option.isSome_some, if_true] at hf
      split at hf
      · exact nomatch hf
      · split at hf <;> exact nomatch hf
    refine ⟨_, load_refused hs hop hx hf hr hb, hc, hreel.trans hnone, ?_⟩
    rw [hldr]
    exact ⟨rfl, rfl, rfl, rfl, hrec⟩
  · obtain ⟨hc, hpow, hcls, ⟨w, hreel⟩, hrest⟩ := load_spec (r := r) hx
      (recOf d (sqNext s) true 0 (leBytes 8 0 ++ leBytes 4 (loadedTag r))) _ rfl
    exact ⟨_, _, load_installs hs hop hx hf hr hb hsound, hc, hpow, hcls, hreel, rfl, hrest⟩
  · refine patch_refused hs hop ha hstop hr ?_
    rw [patchChecks_first]
    rcases hcode with ⟨rfl, hbusy⟩ | ⟨rfl, hidle, hpast⟩ | ⟨rfl, hidle, hin, hout⟩
    · exact if_pos hbusy
    · rw [if_neg (ne_true_of_eq_false hidle)]
      exact if_pos hpast
    · rw [if_neg (ne_true_of_eq_false hidle), if_neg (not_lt.mpr (patch_in hin))]
      exact if_pos hout
  · have hf : firstFailure (patchChecks s d r) = none := by
      rw [patchChecks_first, if_neg (ne_true_of_eq_false hidle), if_neg (not_lt.mpr (patch_in hin)),
        if_neg (ne_true_of_eq_false hout)]
    obtain ⟨t, hexec, hc, hreel, hrec⟩ := patch_accepted hs hop ha hstop hr hf
    obtain ⟨hlen, hnew, hold⟩ := patchSlots_spec d (slots := r.slots) hin
    exact ⟨t, _, hexec, hc, hreel, rfl, rfl, rfl, hlen, hnew, hold, rfl, hrec⟩
end
